-- ==== Sys2Proof/Word.lean ====
section
/-!
DEFINITION. The words of the device: the widths software sees (R7) and the plainest operations on them.
-/

namespace Sys2Proof

/-- One byte of any memory of the device (R7). -/
abbrev Byte := BitVec 8
/-- A 16-bit word. -/
abbrev Word16 := BitVec 16
/-- A 32-bit register or lane. -/
abbrev Word32 := BitVec 32
/-- A 64-bit register, counter or address. -/
abbrev Word64 := BitVec 64
/-- A 128-bit credential or mask register. -/
abbrev Word128 := BitVec 128

end Sys2Proof
end

