-- ==== Sys2Proof/Syntax/Types.lean ====
section
/-!
DEFINITION. The operands the commands carry: decoded instruction words, request headers and the outcomes that reach
the block from outside it.
-/

namespace Sys2Proof

/-- The outcome of an ECC check on data that a command reads: clean, a corrected single-bit error, or an uncorrectable
error (R215, R289, R305). -/
inductive Ecc where
  | clean | corrected | uncorrectable
  deriving DecidableEq, Repr

/-- A vector-engine instruction word without its opcode, which the command's name gives (R167). -/
structure VWord where
  d : BitVec 5
  a : BitVec 5
  b : BitVec 5
  c : BitVec 5
  m : BitVec 3
  masked : Bool
  z : Bool
  rm : BitVec 3
  f : BitVec 4
  g : BitVec 4
  imm : BitVec 20
  deriving DecidableEq, Repr

/-- A BAR0 read of a function (R12, R600): its byte offset and its size in bytes. -/
structure BarRead where
  off : Nat
  size : Nat
  deriving DecidableEq, Repr

/-- A VFCLR's word, and how far back the earlier instruction lies that sets its flags in the same clock (R180): none where there is none. -/
structure ClearRun where
  word : VWord
  completing : Option Nat
  deriving DecidableEq, Repr

/-- What an SFU instruction meets (R183, R193, R215): whether the unit's queue of four is full, and what the ECC check of its table finds. -/
structure SfuRun where
  full : Bool
  ecc : Ecc
  deriving DecidableEq, Repr

/-- What failing cells do to one row of a tile (R156). Positions are those of R134: 0 the checksum column, j + 1 data column j, 129 the repair column.
`sums` are errors added to the sum of a position; `acts` are elements k whose operand is wrong from a position on, with the wrong operand; `cells`
are elements k whose weight operand is wrong at a position, with the wrong operand. -/
structure GridUpset where
  sums : List (Nat × Int)
  acts : List (Nat × Nat × Int)
  cells : List (Nat × Nat × Int)
  deriving DecidableEq, Repr

/-- A row of a sheaf as it travels between units (R150, R185). -/
structure RowArg where
  cls : Nat
  length : Nat
  inAddr : Nat
  tag : Nat
  marks : Nat
  deriving DecidableEq, Repr

/-- A gleaner request: the header of R257 and its payload. -/
structure GReq where
  kind : Nat
  ctx : Nat
  cls : Nat
  pinned : Bool
  system : Bool
  forwarded : Bool
  marker : Bool
  table : Nat
  slot : Nat
  part : Nat
  tag : Nat
  epoch : Nat
  target : Nat
  requester : Nat
  stride : Nat
  returnAddr : Nat
  payload : List Byte
  deriving DecidableEq, Repr

/-- A gleaner instruction word without its opcode (R263). -/
structure GWord where
  d : BitVec 5
  a : BitVec 5
  b : BitVec 5
  mode : BitVec 4
  fmt : BitVec 4
  imm : BitVec 32
  deriving DecidableEq, Repr

/-- A gleaner record on its way to the requester (R258): the header's fields and the payload, with the slot address it is written at. -/
structure RecordMsg where
  addr : Nat
  tag : Nat
  record : Nat
  part : Nat
  marks : Nat
  count : Nat
  payload : List Byte
  deriving DecidableEq, Repr

/-- An END record (R258). -/
structure EndMsg where
  tag : Nat
  part : Nat
  status : Nat
  records : Nat
  marks : Nat
  deriving DecidableEq, Repr

/-- A fault as a unit reports it (R489 to R492): the fields the unit knows. `ctx` is none where the fault names no
context. -/
structure FaultReport where
  kind : Nat
  action : Nat
  ctx : Option Nat
  part : Nat
  queue : Nat
  tag : Nat
  unitKind : Nat
  unit : Nat
  addrKind : Nat
  address : Nat
  table : Nat
  detail : Nat
  domain : Nat
  deriving DecidableEq, Repr

/-- A firmware image as flash holds it (R553 to R555, R572, R573): the digest that its signature covers, the signature, the vendor's
public key that it carries (an uncompressed point, R558), SECURITY_VERSION, RAISE and COLD_ONLY, and its version. -/
structure FwImage where
  digest : Nat
  sigR : Nat
  sigS : Nat
  vendorKey : Nat
  security : Nat
  raise : Bool
  coldOnly : Bool
  build : Nat
  minor : Nat
  major : Nat
  deriving DecidableEq, Repr

/-- How a step of a harrow pass failed (R527, R530): the step, the column, lane or bank, the pattern index, the low 32 bits of the
signature difference, and whether a repeat failed as well. -/
structure HarrowFailure where
  step : Nat
  place : Nat
  pattern : Nat
  difference : Nat
  again : Bool
  deriving DecidableEq, Repr

end Sys2Proof
end

