-- ==== Sys2Proof/Syntax.lean ====
section
/-!
DEFINITION. The commands of the block: one constructor for each row of the spec's operation table, in the table's
order. A command is one whole and indivisible step of the part (95_what_each_step_holds.md); its operands name the unit
it acts on and what reaches the block from outside.
-/

namespace Sys2Proof

/-- The commands (opcode_table.json). -/
inductive Instr where
  /-- REGISTER_WRITE: a BAR0 write to a register that has no row of its own takes effect by its access type, with reserved bits ignored and narrow writes counted as errors (R14). -/
  | registerWrite (f off : Nat) (words : List Word32) (narrow : Bool)
  /-- PAIR_LO_READ: a read of NAME_LO captures the whole 64-bit value, per function, for the next read of NAME_HI (R13). -/
  | pairLoRead (f : Nat) (off : BarRead)
  /-- PAIR_HI_WRITE: a write of NAME_HI applies the held NAME_LO write so that the pair takes its new 64-bit value (R13). -/
  | pairHiWrite (f off : Nat) (value : Word32)
  /-- D2D_FLIT_RECEIVE: a 256-byte flit arrives on a die-to-die link and is checked by its CRC (R26). -/
  | d2dFlitReceive (l d seq : Nat) (crcOk : Bool) (payload : List Byte)
  /-- D2D_MODULE_FAIL: a UCIe module fails in service, is taken out of its link, and its unacknowledged flits are replayed on the remaining modules (R27). -/
  | d2dModuleFail (l module : Nat)
  /-- PARTITION_DEFINE: the administrative command defines, changes or deletes a partition from a 256-byte descriptor, or is refused (R40). -/
  | partitionDefine (f : Nat)
  /-- PARTITION_SCRUB_DONE: scrubbing of the resources that entered a partition finishes, and PARTITION_DEFINE completes (R41). -/
  | partitionScrubDone (p : Nat)
  /-- PLAN_LOAD: the administrative command asks for a Gleush image to be loaded into a partition (R67). -/
  | planLoad (f : Nat)
  /-- LOAD_START: a waiting PLAN_LOAD starts copying its image once a staging slot is free (R70). -/
  | loadStart
  /-- LOAD_DECIDE: once the image is staged, the loader runs its checks and counts in order and accepts or refuses the plan (R65). -/
  | loadDecide
  /-- LOAD_INSTALL_DONE: installation of the plan ends, and the load result record and completion are written (R68). -/
  | loadInstallDone (p : Nat)
  /-- PLAN_SWITCH: after the old plan's fetched commands drain, a replacement releases held pins, installs the new plan, advances the tag and resumes fetching (R78). -/
  | planSwitch (p : Nat)
  /-- PLAN_UNLOAD: the administrative command takes a partition's plan away in WAIT or ABORT mode (R75). -/
  | planUnload (f : Nat)
  /-- UNLOAD_COMPLETE: after every engine acknowledges, pins, semaphores and credits are released, the plan's state is cleared, and the unload completes (R75). -/
  | unloadComplete (p : Nat)
  /-- WINNOW_ROW_DONE: the winnow unit of core `k` finishes the row at the head of its queue (R111). -/
  | winnowRowDone (k : Nat) (ecc : Ecc)
  /-- CLIP_COUNT: a row's clip count reaches its sheaf record (R112). -/
  | clipCount (cluster sheaf pos layer count : Nat)
  /-- TILE_ISSUE: the grid of core `k` issues the tile at the head of its queue; `block` is the row block kb of its weights, which selects per-channel activation entries (R133, R136, R146). -/
  | tileIssue (k block : Nat) (ecc : Ecc)
  /-- GRID_ROW_WRITE: the next row of the oldest tile leaves the array of core `k`; `upset` is what a failing cell adds (R139, R156). -/
  | gridRowWrite (k : Nat) (upset : Option GridUpset)
  /-- GRID_ABORT: the grid of core `k` takes an abort (R161). -/
  | gridAbort (k : Nat)
  /-- ROW_ARRIVE: a released row, or with `none` a released flush, arrives at the sheaf former of a cluster; `input` are the bytes of a row from another cluster (R150, R185). -/
  | rowArrive (cluster part ctx stage : Nat) (row : Option RowArg) (input : List Byte)
  /-- SHEAF_TIMER: the deadline of the open sheaf of a stage and context expires (R151). -/
  | sheafTimer (cluster ctx stage : Nat)
  /-- ITEM_RETIRE: core `k` retires the item that reached END (R166). -/
  | itemRetire (k : Nat)
  /-- SEQUENCER_ABORT: a cluster sequencer takes the abort of a queue, or of a whole context (R152, R497). -/
  | sequencerAbort (cluster ctx : Nat) (queue : Option Nat)
  /-- CORE_ABORT: the vector engine of core `k` takes an abort (R189). -/
  | coreAbort (k : Nat)
  /-- STEAL_REQUEST: the request of idle core `thief` reaches cluster `asked` (R435). -/
  | stealRequest (thief asked : Nat)
  /-- STEAL_COPY_DONE: the copied inputs of a stolen item reach core `thief`'s cluster (R435). -/
  | stealCopyDone (thief : Nat)
  /-- NOP: vector engine instruction NOP on core `k` (R171). -/
  | nop (k : Nat) (w : VWord)
  /-- SLI: vector engine instruction SLI on core `k` (R171). -/
  | sli (k : Nat) (w : VWord)
  /-- SLUI: vector engine instruction SLUI on core `k` (R171). -/
  | slui (k : Nat) (w : VWord)
  /-- SADD: vector engine instruction SADD on core `k` (R171). -/
  | sadd (k : Nat) (w : VWord)
  /-- SSUB: vector engine instruction SSUB on core `k` (R171). -/
  | ssub (k : Nat) (w : VWord)
  /-- SADDI: vector engine instruction SADDI on core `k` (R171). -/
  | saddi (k : Nat) (w : VWord)
  /-- SMUL: vector engine instruction SMUL on core `k` (R171). -/
  | smul (k : Nat) (w : VWord)
  /-- SAND: vector engine instruction SAND on core `k` (R171). -/
  | sand (k : Nat) (w : VWord)
  /-- SOR: vector engine instruction SOR on core `k` (R171). -/
  | sor (k : Nat) (w : VWord)
  /-- SXOR: vector engine instruction SXOR on core `k` (R171). -/
  | sxor (k : Nat) (w : VWord)
  /-- SSHL: vector engine instruction SSHL on core `k` (R171). -/
  | sshl (k : Nat) (w : VWord)
  /-- SSHR: vector engine instruction SSHR on core `k` (R171). -/
  | sshr (k : Nat) (w : VWord)
  /-- SSRA: vector engine instruction SSRA on core `k` (R171). -/
  | ssra (k : Nat) (w : VWord)
  /-- SLD: vector engine instruction SLD on core `k` (R171). -/
  | sld (k : Nat) (w : VWord) (ecc : Ecc)
  /-- SST: vector engine instruction SST on core `k` (R171). -/
  | sst (k : Nat) (w : VWord)
  /-- LOOP: vector engine instruction LOOP on core `k` (R171). -/
  | loopOpen (k : Nat) (w : VWord)
  /-- ENDLOOP: vector engine instruction ENDLOOP on core `k` (R171). -/
  | loopClose (k : Nat) (w : VWord)
  /-- END: vector engine instruction END on core `k` (R171). -/
  | coreEnd (k : Nat) (w : VWord)
  /-- FENCE: vector engine instruction FENCE on core `k` (R171). -/
  | fence (k : Nat) (w : VWord)
  /-- SEED: vector engine instruction SEED on core `k` (R171). -/
  | seed (k : Nat) (w : VWord)
  /-- VRDT: vector engine instruction VRDT on core `k` (R171). -/
  | vrdt (k : Nat) (w : VWord)
  /-- VADD: vector engine instruction VADD on core `k` (R171). -/
  | vadd (k : Nat) (w : VWord)
  /-- VSUB: vector engine instruction VSUB on core `k` (R171). -/
  | vsub (k : Nat) (w : VWord)
  /-- VMUL: vector engine instruction VMUL on core `k` (R171). -/
  | vmul (k : Nat) (w : VWord)
  /-- VFMA: vector engine instruction VFMA on core `k` (R171). -/
  | vfma (k : Nat) (w : VWord)
  /-- VMIN: vector engine instruction VMIN on core `k` (R171). -/
  | vmin (k : Nat) (w : VWord)
  /-- VMAX: vector engine instruction VMAX on core `k` (R171). -/
  | vmax (k : Nat) (w : VWord)
  /-- VABS: vector engine instruction VABS on core `k` (R171). -/
  | vabs (k : Nat) (w : VWord)
  /-- VNEG: vector engine instruction VNEG on core `k` (R171). -/
  | vneg (k : Nat) (w : VWord)
  /-- VAND: vector engine instruction VAND on core `k` (R171). -/
  | vand (k : Nat) (w : VWord)
  /-- VOR: vector engine instruction VOR on core `k` (R171). -/
  | vor (k : Nat) (w : VWord)
  /-- VXOR: vector engine instruction VXOR on core `k` (R171). -/
  | vxor (k : Nat) (w : VWord)
  /-- VSHL: vector engine instruction VSHL on core `k` (R171). -/
  | vshl (k : Nat) (w : VWord)
  /-- VSHR: vector engine instruction VSHR on core `k` (R171). -/
  | vshr (k : Nat) (w : VWord)
  /-- VSRA: vector engine instruction VSRA on core `k` (R171). -/
  | vsra (k : Nat) (w : VWord)
  /-- VSEL: vector engine instruction VSEL on core `k` (R171). -/
  | vsel (k : Nat) (w : VWord)
  /-- VCVT: vector engine instruction VCVT on core `k` (R171). -/
  | vcvt (k : Nat) (w : VWord)
  /-- VBCAST: vector engine instruction VBCAST on core `k` (R171). -/
  | vbcast (k : Nat) (w : VWord)
  /-- VIOTA: vector engine instruction VIOTA on core `k` (R171). -/
  | viota (k : Nat) (w : VWord)
  /-- VEXT: vector engine instruction VEXT on core `k` (R171). -/
  | vext (k : Nat) (w : VWord)
  /-- VCMP: vector engine instruction VCMP on core `k` (R171). -/
  | vcmp (k : Nat) (w : VWord)
  /-- VRSUM: vector engine instruction VRSUM on core `k` (R171). -/
  | vrsum (k : Nat) (w : VWord)
  /-- VRMAX: vector engine instruction VRMAX on core `k` (R171). -/
  | vrmax (k : Nat) (w : VWord)
  /-- VRMIN: vector engine instruction VRMIN on core `k` (R171). -/
  | vrmin (k : Nat) (w : VWord)
  /-- VREV: vector engine instruction VREV on core `k` (R171). -/
  | vrev (k : Nat) (w : VWord)
  /-- VROT: vector engine instruction VROT on core `k` (R171). -/
  | vrot (k : Nat) (w : VWord)
  /-- VPERM: vector engine instruction VPERM on core `k` (R171). -/
  | vperm (k : Nat) (w : VWord)
  /-- VXCMP: vector engine instruction VXCMP on core `k` (R171). -/
  | vxcmp (k : Nat) (w : VWord)
  /-- VXCHG: vector engine instruction VXCHG on core `k` (R171). -/
  | vxchg (k : Nat) (w : VWord)
  /-- MAND: vector engine instruction MAND on core `k` (R171). -/
  | mand (k : Nat) (w : VWord)
  /-- MOR: vector engine instruction MOR on core `k` (R171). -/
  | mor (k : Nat) (w : VWord)
  /-- MXOR: vector engine instruction MXOR on core `k` (R171). -/
  | mxor (k : Nat) (w : VWord)
  /-- MANDN: vector engine instruction MANDN on core `k` (R171). -/
  | mandn (k : Nat) (w : VWord)
  /-- MNOT: vector engine instruction MNOT on core `k` (R171). -/
  | mnot (k : Nat) (w : VWord)
  /-- MFILL: vector engine instruction MFILL on core `k` (R171). -/
  | mfill (k : Nat) (w : VWord)
  /-- MPOP: vector engine instruction MPOP on core `k` (R171). -/
  | mpop (k : Nat) (w : VWord)
  /-- MFIRST: vector engine instruction MFIRST on core `k` (R171). -/
  | mfirst (k : Nat) (w : VWord)
  /-- VFLG: vector engine instruction VFLG on core `k` (R171). -/
  | vflg (k : Nat) (w : VWord)
  /-- VFCLR: vector engine instruction VFCLR on core `k`; `w` also names the earlier instruction, if any, that sets its flags in the same clock (R171, R180). -/
  | vfclr (k : Nat) (w : ClearRun)
  /-- VLD: vector engine instruction VLD on core `k` (R171). -/
  | vld (k : Nat) (w : VWord) (ecc : Ecc)
  /-- VST: vector engine instruction VST on core `k` (R171). -/
  | vst (k : Nat) (w : VWord)
  /-- VGTH: vector engine instruction VGTH on core `k` (R171). -/
  | vgth (k : Nat) (w : VWord) (ecc : Ecc)
  /-- GTILE: vector engine instruction GTILE on core `k` (R171). -/
  | gtile (k : Nat) (w : VWord) (ecc : Ecc)
  /-- GWAIT: vector engine instruction GWAIT on core `k` (R171). -/
  | gwait (k : Nat) (w : VWord)
  /-- WNW: vector engine instruction WNW on core `k` (R171). -/
  | wnw (k : Nat) (w : VWord) (ecc : Ecc)
  /-- WWAIT: vector engine instruction WWAIT on core `k` (R171). -/
  | wwait (k : Nat) (w : VWord)
  /-- SFU: vector engine instruction SFU on core `k`; `run` says whether four instructions wait in the unit's queue (R171, R193). -/
  | sfu (k : Nat) (w : VWord) (run : SfuRun)
  /-- ROWPUT: vector engine instruction ROWPUT on core `k` (R171). -/
  | rowput (k : Nat) (w : VWord) (ecc : Ecc)
  /-- SFLUSH: vector engine instruction SFLUSH on core `k` (R171). -/
  | sflush (k : Nat) (w : VWord)
  /-- DMAQ: vector engine instruction DMAQ on core `k` (R171). -/
  | dmaq (k : Nat) (w : VWord) (ecc : Ecc)
  /-- DMARK: vector engine instruction DMARK on core `k` (R171). -/
  | dmark (k : Nat) (w : VWord)
  /-- DMA_COPY: the COPY at the head of DMA queue `q` of cluster `c` is admitted and moves its elements; `ecc` is the outcome of its first source unit (R346, R354). -/
  | dmaCopy (c q : Nat) (ecc : Ecc)
  /-- DMA_REQUEST: the REQUEST at the head of DMA queue `q` of cluster `c` is admitted and sent (R348, R354). -/
  | dmaRequest (c q : Nat) (ecc : Ecc)
  /-- DMA_LOOKUP: the LOOKUP at the head of DMA queue `q` of cluster `c` is admitted and its parts are sent (R349, R354). -/
  | dmaLookup (c q : Nat)
  /-- DMA_PROMOTE: the PROMOTE at the head of DMA queue `q` of cluster `c` is admitted (R351). -/
  | dmaPromote (c q : Nat)
  /-- DMA_DEMOTE: the DEMOTE at the head of DMA queue `q` of cluster `c` is admitted (R351). -/
  | dmaDemote (c q : Nat)
  /-- DMA_ABORT: the DMA engine of cluster `c` takes the abort of a context's work, with mask 0, or of a command's (R357). -/
  | dmaAbort (c ctx tag mask cause : Nat)
  /-- RECORD_RECEIVE: a gleaner record arrives and is written at its RETURN slot (R258). -/
  | recordReceive (k g : Nat) (m : RecordMsg)
  /-- END_RECORD_RECEIVE: a request's END record arrives at the requester's DMA engine and completes its part of the transfer (R258). -/
  | endRecordReceive (k g : Nat) (m : EndMsg)
  /-- TABLE_WRITE: the front end runs the dispatched command TABLE_WRITE with sequence number `seq` of queue `q` (R419). -/
  | tableWrite (q seq : Nat)
  /-- EPOCH_ADVANCE: the front end runs the dispatched command EPOCH_ADVANCE with sequence number `seq` of queue `q` (R419). -/
  | epochAdvance (q seq : Nat)
  /-- EPOCH_DISTRIBUTE: gleaner `g` takes a table's new epoch and pin set (R233). -/
  | epochDistribute (g p table epoch : Nat) (pins : List Nat)
  /-- EPOCH_ACK: the acknowledgement of gleaner `g` reaches the front end (R233). -/
  | epochAck (g p table : Nat)
  /-- TABLE_PIN: the front end runs the dispatched command TABLE_PIN with sequence number `seq` of queue `q` (R419). -/
  | tablePin (q seq : Nat)
  /-- TABLE_UNPIN: the front end runs the dispatched command TABLE_UNPIN with sequence number `seq` of queue `q` (R419). -/
  | tableUnpin (q seq : Nat)
  /-- PIN_SET_UPDATE: gleaner `g` takes a changed pin set (R234). -/
  | pinSetUpdate (g p table : Nat) (epochs : List Nat)
  /-- LOAD_WINDOW: a load window ends at gleaner `g` (R242). -/
  | loadWindow (g : Nat)
  /-- MIGRATE: the front end runs the dispatched command MIGRATE with sequence number `seq` of queue `q` (R419). -/
  | migrate (q seq : Nat)
  /-- MIGRATION_COPY: a moving row's copy, or with `first` false a replacement behind it, arrives at gleaner `g` (R244). -/
  | migrationCopy (g source tk row : Nat) (slot : List Byte) (first : Bool)
  /-- MIGRATION_COPY_ACK: the destination's acknowledgement reaches source gleaner `g` (R244). -/
  | migrationCopyAck (g tk row : Nat)
  /-- FORWARD_START: FORWARD_START arrives at destination gleaner `g` (R244). -/
  | forwardStart (g tk row : Nat)
  /-- MOVE_UPDATE: bay map copy `k` applies a move (R245). -/
  | moveUpdate (k tk row dest source : Nat)
  /-- MOVE_MARKER: the marker of copy `k` reaches source gleaner `g` (R245). -/
  | moveMarker (g tk row k : Nat)
  /-- MOVE_MARKER_FORWARD: a forwarded marker reaches destination gleaner `g` (R246). -/
  | moveMarkerForward (g tk row k : Nat)
  /-- REPLICATE: the front end runs the dispatched command REPLICATE with sequence number `seq` of queue `q` (R419). -/
  | replicate (q seq : Nat)
  /-- REPLICA_REFRESH: a replacement applied at home reaches the replica at gleaner `g` (R232). -/
  | replicaRefresh (g tk row : Nat) (slot : List Byte)
  /-- STUBBLE_REFRESH: a stubble row is written into its bay at gleaner `g` (R232). -/
  | stubbleRefresh (g tk row : Nat) (slot : List Byte)
  /-- RAW_READ: gleaner `g` receives a RAW_READ request (R256). -/
  | rawRead (g : Nat) (r : GReq)
  /-- RAW_WRITE: gleaner `g` receives a RAW_WRITE request (R256). -/
  | rawWrite (g : Nat) (r : GReq)
  /-- ROW_READ: gleaner `g` receives a ROW_READ request (R256). -/
  | rowRead (g : Nat) (r : GReq)
  /-- ROW_WRITE: gleaner `g` receives a ROW_WRITE request (R256). -/
  | rowWrite (g : Nat) (r : GReq)
  /-- ROW_ADD: gleaner `g` receives a ROW_ADD request; `ecc` is the outcome of reading the row (R256). -/
  | rowAdd (g : Nat) (r : GReq) (ecc : Ecc)
  /-- ROW_CAS: gleaner `g` receives a ROW_CAS request; `ecc` is the outcome of reading the row (R256). -/
  | rowCas (g : Nat) (r : GReq) (ecc : Ecc)
  /-- INVOKE: gleaner `g` receives an INVOKE request (R256). -/
  | invoke (g : Nat) (r : GReq)
  /-- RESERVED_REQUEST_KIND: gleaner `g` receives a request of a reserved kind (R256). -/
  | reservedRequestKind (g : Nat) (r : GReq)
  /-- THREAD_START: a waiting INVOKE of gleaner `g` takes a free thread (R262). -/
  | threadStart (g : Nat)
  /-- GLN_NOP: gleaner instruction NOP of thread `t` at gleaner `g` (R265). -/
  | glnNop (g t : Nat) (w : GWord)
  /-- GLN_SLI: gleaner instruction SLI of thread `t` at gleaner `g` (R265). -/
  | glnSli (g t : Nat) (w : GWord)
  /-- GLN_SLUI: gleaner instruction SLUI of thread `t` at gleaner `g` (R265). -/
  | glnSlui (g t : Nat) (w : GWord)
  /-- GLN_SADD: gleaner instruction SADD of thread `t` at gleaner `g` (R265). -/
  | glnSadd (g t : Nat) (w : GWord)
  /-- GLN_SSUB: gleaner instruction SSUB of thread `t` at gleaner `g` (R265). -/
  | glnSsub (g t : Nat) (w : GWord)
  /-- GLN_SADDI: gleaner instruction SADDI of thread `t` at gleaner `g` (R265). -/
  | glnSaddi (g t : Nat) (w : GWord)
  /-- GLN_SMUL: gleaner instruction SMUL of thread `t` at gleaner `g` (R265). -/
  | glnSmul (g t : Nat) (w : GWord)
  /-- SMULH: gleaner instruction SMULH of thread `t` at gleaner `g` (R265). -/
  | smulh (g t : Nat) (w : GWord)
  /-- GLN_SAND: gleaner instruction SAND of thread `t` at gleaner `g` (R265). -/
  | glnSand (g t : Nat) (w : GWord)
  /-- GLN_SOR: gleaner instruction SOR of thread `t` at gleaner `g` (R265). -/
  | glnSor (g t : Nat) (w : GWord)
  /-- GLN_SXOR: gleaner instruction SXOR of thread `t` at gleaner `g` (R265). -/
  | glnSxor (g t : Nat) (w : GWord)
  /-- GLN_SSHL: gleaner instruction SSHL of thread `t` at gleaner `g` (R265). -/
  | glnSshl (g t : Nat) (w : GWord)
  /-- GLN_SSHR: gleaner instruction SSHR of thread `t` at gleaner `g` (R265). -/
  | glnSshr (g t : Nat) (w : GWord)
  /-- SARG: gleaner instruction SARG of thread `t` at gleaner `g` (R265). -/
  | sarg (g t : Nat) (w : GWord)
  /-- GLN_LOOP: gleaner instruction LOOP of thread `t` at gleaner `g` (R265). -/
  | glnLoop (g t : Nat) (w : GWord)
  /-- GLN_ENDLOOP: gleaner instruction ENDLOOP of thread `t` at gleaner `g` (R265). -/
  | glnEndloop (g t : Nat) (w : GWord)
  /-- GLN_END: gleaner instruction END of thread `t` at gleaner `g` (R265). -/
  | glnEnd (g t : Nat) (w : GWord)
  /-- HASH: gleaner instruction HASH of thread `t` at gleaner `g` (R265). -/
  | hash (g t : Nat) (w : GWord)
  /-- GPOOL: gleaner instruction GPOOL of thread `t` at gleaner `g` (R265). -/
  | gpool (g t : Nat) (w : GWord)
  /-- DOT: gleaner instruction DOT of thread `t` at gleaner `g` (R265). -/
  | dot (g t : Nat) (w : GWord)
  /-- EXPACC: gleaner instruction EXPACC of thread `t` at gleaner `g` (R265). -/
  | expacc (g t : Nat) (w : GWord)
  /-- VOP: gleaner instruction VOP of thread `t` at gleaner `g` (R265). -/
  | vop (g t : Nat) (w : GWord)
  /-- ADDM: gleaner instruction ADDM of thread `t` at gleaner `g`; `ecc` is the outcome of reading the row (R265). -/
  | addm (g t : Nat) (w : GWord) (ecc : Ecc)
  /-- CASM: gleaner instruction CASM of thread `t` at gleaner `g`; `ecc` is the outcome of reading the row (R265). -/
  | casm (g t : Nat) (w : GWord) (ecc : Ecc)
  /-- EMIT: gleaner instruction EMIT of thread `t` at gleaner `g` (R265). -/
  | emit (g t : Nat) (w : GWord)
  /-- EMITS: gleaner instruction EMITS of thread `t` at gleaner `g` (R265). -/
  | emits (g t : Nat) (w : GWord)
  /-- WROW: gleaner instruction WROW of thread `t` at gleaner `g` (R265). -/
  | wrow (g t : Nat) (w : GWord)
  /-- GPOOL_ROW_ARRIVE: pending row `n` of thread `t` arrives at gleaner `g`; thread 8 stands for reads resolved without it (R269, R300). -/
  | gpoolRowArrive (g t n : Nat) (ecc : Ecc)
  /-- GLN_END_RETIRE: thread `t` of gleaner `g` sends its END record and is freed (R269). -/
  | glnEndRetire (g t : Nat)
  /-- REQUEST_OVERRUN: the request of thread `t` at gleaner `g` reaches its instruction limit (R270). -/
  | requestOverrun (g t : Nat)
  /-- TAG_WRITE: a tag write for `count` bales from `first` enters gleaner `g`; the acknowledgement is for context `ctx` (R261). -/
  | tagWrite (g first count word ctx : Nat)
  /-- TAG_WRITE_DRAINED: the operations under the old tags of gleaner `g` have been applied (R261). -/
  | tagWriteDrained (g : Nat)
  /-- GLEANER_ABORT: gleaner `g` takes an ABORT (R281). -/
  | gleanerAbort (g ctx : Nat) (requester : Option Nat) (value mask cause : Nat)
  /-- BALE_FLIP: the copy of a bale in a move is complete and its entry flips (R294). -/
  | baleFlip (ctx seg bale : Nat)
  /-- BALE_DRAIN_MARKER: the drain marker of a flipped bale passes (R294). -/
  | baleDrainMarker (ctx seg bale : Nat)
  /-- LOFT_DEADLINE: the deadline of the request of thread `t`, or of channel operation `t` − 8, expires at gleaner `g` (R300). -/
  | loftDeadline (g t : Nat)
  /-- STUBBLE_ROW_ARRIVE: the stubble read of row read `n` of thread `t`, or of channel operation `t` − 8, returns to gleaner `g` (R299). -/
  | stubbleRowArrive (g t n : Nat) (ecc : Ecc)
  /-- PATROL_READ: gleaner `g` reads the next unit of its channel (R304). -/
  | patrolRead (g : Nat) (ecc : Ecc)
  /-- POISON_RECHECK: gleaner `g` reads a poisoned bale again (R305). -/
  | poisonRecheck (g bale : Nat)
  /-- MIRROR_READ_RETURN: the mirror's answer for row read `n` of thread `t`, or for channel operation `t` − 8, returns to gleaner `g` (R306, R307). -/
  | mirrorReadReturn (g t n : Nat) (ecc : Ecc)
  /-- EVACUATE_BALE: the next bale of a stack's evacuating channel moves to the reserve (R309). -/
  | evacuateBale (stack : Nat)
  /-- SEG_WRITE: the command changes a segment's permissions or limit, in range or drain form (R369). -/
  | segWrite (f : Nat)
  /-- SEG_DRAIN: the command changes a segment always in drain form (R374). -/
  | segDrain (f : Nat)
  /-- WINDOW_WRITE: the command replaces or clears one inbound window mapping (R379). -/
  | windowWrite (f : Nat)
  /-- XLT_COPY_UPDATE: a translation copy takes a new segment entry, and a new generation in drain form (R373). -/
  | xltCopyUpdate (n c : Nat)
  /-- XLT_COPY_ACK: a copy's acknowledgement, once its old transfers have completed, reaches the GFE (R373). -/
  | xltCopyAck (n c : Nat)
  /-- SUBSCRIBER_ACK: a subscriber gleaner's tag acknowledgement reaches the GFE; with the last the change completes (R373). -/
  | subscriberAck (g c : Nat)
  /-- STATION_TAG_ACK: a station's or fabric's acknowledgement of a tag broadcast reaches the GFE (R374). -/
  | stationTagAck (n c : Nat)
  /-- XLT_SEG_SELECT: a write captures a segment entry and the context's version for the writing function (R380). -/
  | xltSegSelect (f : Nat) (value : Word32)
  /-- PERST_ASSERT: PERST# of a host port asserts and resets its link and functions, detaching their attachments (R383). -/
  | perstAssert (q : Nat)
  /-- PERST_DEASSERT: PERST# deasserts, CLKSEL is sampled, and configuration space is brought up (R560). -/
  | perstDeassert (q : Nat) (clksel : Bool)
  /-- HOT_RESET: a hot reset of a host port resets its link and functions (R383). -/
  | hotReset (q : Nat)
  /-- PCIE_LINK_DOWN: DL_Down on a host port detaches its attachments and releases their slots (R396). -/
  | pcieLinkDown (q : Nat)
  /-- PCIE_RETRAIN_TIMEOUT: a link not back in L0 within the retrain limit detaches its attachments (R396). -/
  | pcieRetrainTimeout (q : Nat)
  /-- FLR: a Function Level Reset resets one function and detaches its attachment (R396). -/
  | flr (f : Nat)
  /-- BUS_MASTER_DISABLE: clearing Bus Master Enable detaches the function's attachment with slots disabled (R396). -/
  | busMasterDisable (f : Nat)
  /-- D3HOT_ENTRY: a function put in D3hot is detached with slots disabled (R396). -/
  | d3hotEntry (f : Nat)
  /-- MEM_SPACE_ENABLE: memory Space Enable set assigns the function a run of window slots (R385). -/
  | memSpaceEnable (f : Nat)
  /-- BAR2_RESIZE: a new BAR2 size releases the function's slots (R385). -/
  | bar2Resize (f size : Nat)
  /-- HEARTBEAT_TIMEOUT: no heartbeat within HEARTBEAT_TIMEOUT detaches the attachment (R396). -/
  | heartbeatTimeout (a : Nat)
  /-- HEARTBEAT_BEAT: a BEAT write restarts an attachment's heartbeat timeout (R396). -/
  | heartbeatBeat (f a : Nat)
  /-- HOST_DETACH: a DETACH write detaches the attachment at once (R396). -/
  | hostDetach (f a : Nat)
  /-- ATTACH_NEW: GO in MODE NEW creates an attachment and a one-time credential (R395). -/
  | attachNew (f : Nat)
  /-- ATTACH_RESUME: GO in MODE RESUME takes over a detached attachment and starts replay with handles unchanged (R399). -/
  | attachResume (f a : Nat)
  /-- ATTACH_ADOPT: GO in MODE ADOPT takes over a detached attachment and suspends its handles (R399). -/
  | attachAdopt (f a : Nat)
  /-- ATTACH_REPLAY: a REPLAY write starts replay of an adopted attachment's journal (R399). -/
  | attachReplay (f : Nat)
  /-- ATTACH_LOCKOUT_EXPIRE: the 1 s refusal period after four failed attempts on an attachment ends (R399). -/
  | attachLockoutExpire (a : Nat)
  /-- JOURNAL_EMPTY: the journal drains, the attachment becomes ATTACHED, pending vectors are sent, and a new credential is issued (R400). -/
  | journalEmpty (a : Nat)
  /-- CRED_READ: a read of the credential registers returns them once, and CRED3's read clears them (R395). -/
  | credRead (f a word : Nat)
  /-- CSTOP_RESUME: writing 1 to a HOST_CSTOP bit resumes a stopped completion target and writes its withheld records (R394). -/
  | cstopResume (f q : Nat)
  /-- BAR2_WRITE: a memory write to the window is split into units, each checked and written as a raw write (R387). -/
  | bar2Write (f offset requester : Nat) (bytes : List (Option Byte))
  /-- BAR2_READ: a memory read of the window returns checked units, or all ones (R388). -/
  | bar2Read (f offset requester len : Nat)
  /-- DOORBELL: a doorbell write sets a queue's TAIL and CQ_HEAD, or is dropped (R409). -/
  | doorbell (f q : Nat) (tail cqHead : Option Nat)
  /-- CHECK_READ_COMPLETE: a completion-path check read completes; on success the next record and the vector follow, on failure the target stops (R393). -/
  | checkReadComplete (q : Nat) (ok : Bool)
  /-- CHECK_READ_TIMEOUT: a check read times out and is handled as a failure (R393). -/
  | checkReadTimeout (q : Nat)
  /-- SLOT_MAP: the command writes a window slot entry (R386). -/
  | slotMap (f : Nat)
  /-- HANDLE_SET: the command writes an outbound handle entry (R392). -/
  | handleSet (f : Nat)
  /-- QUEUE_CREATE: the command creates a queue on a serving instance (R403). -/
  | queueCreate (f : Nat)
  /-- QUEUE_DESTROY: the command stops a queue at a stop point and aborts its work (R428). -/
  | queueDestroy (f : Nat)
  /-- QUEUE_DESTROY_FINAL: after every acknowledgement, stopped commands complete ABORTED and a FINAL record follows (R428). -/
  | queueDestroyFinal (q : Nat)
  /-- ADMIN_DOORBELL: a write of GFE_ADMIN_DOORBELL sets a function's administrative TAIL (R411). -/
  | adminDoorbell (f tail : Nat)
  /-- COMMAND_FETCH: the front end consumes a sealed command, assigns its sequence number, parses it and relocates its references (R408). -/
  | commandFetch (q : Nat)
  /-- SEAL_RECHECK: the poll timer rereads an unsealed slot below TAIL (R410). -/
  | sealRecheck (q : Nat)
  /-- COMMAND_DISPATCH: a parsed command whose waits are satisfied is dispatched to its stage (R415). -/
  | commandDispatch (q : Nat)
  /-- CMD_NOP: the work command waits and signals only (R419). -/
  | cmdNop (q seq : Nat)
  /-- RUN: the work command runs the bound stage as a number of shares (R421). -/
  | run (q seq : Nat)
  /-- SEM_SET: the command sets a semaphore's value and clears HOLDER and REVOKED (R419). -/
  | semSet (q seq : Nat)
  /-- SEM_SELECT: a write of GFE_SEM_SELECT captures a semaphore's state and value (R429). -/
  | semSelect (f n : Nat)
  /-- WORK_END_NOTICE: a work item's end, or a row consumed, lowers its command's live count at the GFE (R425). -/
  | workEndNotice (tag marks code ended released : Nat)
  /-- COMPLETION_RECORD_ISSUE: a completion record is issued in sequence order once its ring has room (R427). -/
  | completionRecordIssue (q : Nat)
  /-- PRIORITY_UPDATE: a recomputed effective priority reaches the ready lists, and items move to their new places (R432). -/
  | priorityUpdate (p : Nat)
  /-- PREEMPT_CHECK: the 1 µs check starts a full pre-emption where its conditions hold (R439). -/
  | preemptCheck (c : Nat)
  /-- PREEMPT_QUIESCE_DONE: a victim's quiesce ends, and the recheck cancels the pre-emption or starts its save (R441). -/
  | preemptQuiesceDone (k : Nat)
  /-- PREEMPT_SAVE_DONE: the save area is written, the context's sheaves close with PREEMPT, and the core takes the waiting item (R443). -/
  | preemptSaveDone (k : Nat)
  /-- RESUME_DONE: a saved item's state is read back, and it continues at its next instruction (R442). -/
  | resumeDone (k : Nat)
  /-- ENERGY_COMMIT: every 10 ms the reeve commits pending energy sums, trimmed to the measured input energy (R451). -/
  | energyCommit (measured idle : Nat) (pending : List (Nat × Nat))
  /-- ACC_SNAP: a write of ACC_CTL.SNAP copies every context's charges into the snapshot bank (R452). -/
  | accSnap
  /-- PORT_MODE_WRITE: a write of PORT_CTL changes an Ethernet port's mode or PMD and takes its link down (R458). -/
  | portModeWrite (f p : Nat) (value : Word32)
  /-- ETH_LINK_DOWN: an Ethernet link goes down and its paths fail (R482). -/
  | ethLinkDown (p : Nat) (half : Bool)
  /-- ETH_LINK_UP: an Ethernet link comes up (R458). -/
  | ethLinkUp (p : Nat) (half : Bool)
  /-- ETH_FRAME_RECEIVE: a received frame that matches no Igrum encapsulation, or a PAUSE frame, is discarded and counted (R457). -/
  | ethFrameReceive (p : Nat) (half fcs : Bool) (corrected uncorrected : Nat) (frame : List Byte)
  /-- PFC_FRAME: a received PFC frame pauses the mapped VCs when PFC_EN is set (R457). -/
  | pfcFrame (p : Nat) (half : Bool) (enabled : Nat) (times : List Nat)
  /-- REMOTE_WRITE: a WRITE operation arrives, is checked through its window, and writes raw units (R479). -/
  | remoteWrite (p : Nat) (half : Bool) (frame : List Byte)
  /-- REMOTE_READ: a READ operation arrives and returns data in RESP packets (R479). -/
  | remoteRead (p : Nat) (half : Bool) (frame : List Byte)
  /-- REMOTE_ROW_READ: a ROW_READ operation arrives and reads a row by the bay map (R479). -/
  | remoteRowRead (p : Nat) (half : Bool) (frame : List Byte)
  /-- REMOTE_ROW_WRITE: a ROW_WRITE operation arrives and replaces a row (R479). -/
  | remoteRowWrite (p : Nat) (half : Bool) (frame : List Byte)
  /-- REMOTE_ROW_ADD: a ROW_ADD operation arrives and adds to a row (R479). -/
  | remoteRowAdd (p : Nat) (half : Bool) (frame : List Byte)
  /-- REMOTE_ROW_CAS: a ROW_CAS operation arrives and compares-and-swaps in a row (R479). -/
  | remoteRowCas (p : Nat) (half : Bool) (frame : List Byte)
  /-- REMOTE_INVOKE: an INVOKE operation arrives and runs a gleaner program (R479). -/
  | remoteInvoke (p : Nat) (half : Bool) (frame : List Byte)
  /-- REMOTE_RESP: a RESP arrives, its bytes are written locally, and the completion entry is written (R480). -/
  | remoteResp (p : Nat) (half : Bool) (frame : List Byte)
  /-- IGRUM_ACK: an acknowledgement frees transmit cells, updates the credit grant and the pacing (R465). -/
  | igrumAck (p : Nat) (half : Bool) (frame : List Byte)
  /-- IGRUM_NAK: a NAK makes the sender retransmit every unacknowledged packet at once (R473). -/
  | igrumNak (p : Nat) (half : Bool) (frame : List Byte)
  /-- IGRUM_PROBE: a PROBE reserves receive cells on its port and draws a PROBE_REPLY (R482). -/
  | igrumProbe (p : Nat) (half : Bool) (frame : List Byte)
  /-- IGRUM_PROBE_REPLY: a PROBE_REPLY frees acknowledged cells and resends the rest on the new path (R482). -/
  | igrumProbeReply (p : Nat) (half : Bool) (frame : List Byte)
  /-- ACK_TIMER: an accepted packet's 2 µs acknowledgement deadline expires and an acknowledgement is sent (R472). -/
  | ackTimer (k vc : Nat)
  /-- RETX_TIMER: the retransmission timer expires and unacknowledged packets are sent again (R473). -/
  | retxTimer (k vc : Nat)
  /-- PROBE_TIMEOUT: a PROBE draws no reply within 8 µs and its path fails (R482). -/
  | probeTimeout (k : Nat)
  /-- PATH_PROBE_TIMER: a failed path is probed every 1 ms and returns UP after three replies (R484). -/
  | pathProbeTimer (k path : Nat)
  /-- PACING_TIMER: after 10 µs without an echo a stream's rate rises by 1/32 of the port rate (R474). -/
  | pacingTimer (k vc : Nat)
  /-- RX_RESERVATION_RELEASE: a stream's receive reservation is released 1 ms after its last cell there is freed (R465). -/
  | rxReservationRelease (k vc p : Nat) (half : Bool)
  /-- SEND_RING_POLL: the engine reads a send ring's next slot and consumes it if sealed, checking it (R476). -/
  | sendRingPoll (n : Nat)
  /-- SEND_OPERATION: a checked slot, once cells, stream order and fence allow, leaves as packets (R477). -/
  | sendOperation (k vc : Nat)
  /-- IGT_ENTRY_READ: the READ bit copies a peer, path or ring entry into IGT_ENTRY_DATA (R487). -/
  | igtEntryRead (f : Nat) (value : Word32)
  /-- IGT_ENTRY_WRITE: the WRITE bit applies IGT_ENTRY_DATA as an entry and reports the outcome (R461). -/
  | igtEntryWrite (f : Nat) (value : Word32)
  /-- FAULT_REPORT: a unit reports a fault to its recovery engine, which holds or merges the record (R494). -/
  | faultReport (r : FaultReport)
  /-- MERGE_WINDOW_EXPIRE: a held record's 1 µs merge window expires and it is written to the fault queue or overflow (R494). -/
  | mergeWindowExpire (e : Nat)
  /-- FLT_TAIL_WRITE: a write of FLT_TAIL consumes records and lets held overflow records be written (R493). -/
  | fltTailWrite (f : Nat) (v : Word32)
  /-- FLT_TEARDOWN: a write of FLT_TEARDOWN with GO starts the teardown of a context (R514). -/
  | fltTeardown (f c : Nat)
  /-- TEARDOWN_COMPLETE: all engines have acknowledged, and the context's commands complete with CONTEXT_TORN_DOWN (R497). -/
  | teardownComplete (c : Nat)
  /-- PROGRESS_SAMPLE: a recovery engine samples progress counters and declares stalls after LIMIT samples (R499). -/
  | progressSample (e : Nat)
  /-- CAPTURE_DONE: a capture record is written and the waiting reset proceeds (R502). -/
  | captureDone (slot : Nat) (written : Bool)
  /-- UNIT_RESET_DONE: a reset or replaced unit returns to service and the recovery closes (R512). -/
  | unitResetDone (unitKind unit : Nat) (passed : Bool)
  /-- DIE_PLL_LOSS: loss of a die's PLL or of a whole die-to-die link starts a die warm reset (R505). -/
  | diePllLoss (die : Nat)
  /-- WARM_RESET_DONE: the reset die has retrained and passed BIST and returns to service (R564). -/
  | warmResetDone (die : Nat)
  /-- ENGINE_HEARTBEAT_TIMEOUT: one recovery engine hears nothing for 100 µs and takes over the other's work (R510). -/
  | engineHeartbeatTimeout (e : Nat)
  /-- RECOVERY_START: a queued recovery starts when one of the engine's four places frees (R511). -/
  | recoveryStart (e : Nat)
  /-- CORE_LOCKSTEP: a core sequencer pair disagrees and the core stops (R517). -/
  | coreLockstep (k index : Nat)
  /-- CLUSTER_LOCKSTEP: a cluster sequencer pair disagrees and takes a cluster reset (R518). -/
  | clusterLockstep (c : Nat)
  /-- CLUSTER_SELFTEST_DONE: the 20 µs self-test after a cluster reset ends and may retire the cluster (R518). -/
  | clusterSelftestDone (c : Nat) (failedCopy : Option Nat)
  /-- COLUMN_DIAGNOSIS: a core with a confirmed mismatch is withdrawn at an item boundary for column diagnosis (R524). -/
  | columnDiagnosis (k : Nat)
  /-- DIAGNOSIS_DONE: the diagnosis attributes the event and may make a column permanent (R524). -/
  | diagnosisDone (k : Nat) (differ : List (Nat × Int)) (repairOk : Bool)
  /-- HARROW_DUE: a core's harrow pass falls due (R526). -/
  | harrowDue (k : Nat)
  /-- HARROW_START: a due harrow pass starts at an item boundary when no other pass runs in the cluster (R528). -/
  | harrowStart (k : Nat)
  /-- HARROW_DEFER_EXPIRE: a pass not started within the deferral limit forces a full pre-emption of the core (R529). -/
  | harrowDeferExpire (k : Nat)
  /-- HARROW_COMPLETE: a harrow pass ends and its outcome is judged transient or permanent (R530). -/
  | harrowComplete (k : Nat) (failure : Option HarrowFailure) (differ : List (Nat × Int)) (repairOk : Bool)
  /-- HISTORY_WRITE_DONE: an event is written to the fault history in flash and its record's HISTORY flag is set (R534). -/
  | historyWriteDone (entry : Nat)
  /-- SERVICE_TIME_TICK: every 60 s the reeve writes the service time to flash (R534). -/
  | serviceTimeTick
  /-- HIST_SELECT: a write of FLT_HIST_SELECT captures a history entry into the window (R535). -/
  | histSelect (f n : Nat)
  /-- TRAFFIC_TEST_DONE: a channel traffic generator test ends, passing or failing (R540). -/
  | trafficTestDone (g errors : Nat)
  /-- REEVE_TAKEOVER: the standby reeve hears nothing for 10 ms and takes the primary role (R551). -/
  | reeveTakeover
  /-- REEVE_RESTART: one second after a failover the old primary is restarted from flash (R551). -/
  | reeveRestart
  /-- KEY_ENROLL: the maintenance command enrolls a plan or maintenance key in a slot (R558). -/
  | keyEnroll (ep : Nat) (msg : List Byte)
  /-- KEY_REVOKE: the maintenance command revokes a key slot (R558). -/
  | keyRevoke (ep : Nat) (msg : List Byte)
  /-- STACK_REPAIR: the maintenance command runs post-package repair and tests on a mapped-out channel (R543). -/
  | stackRepair (ep : Nat) (msg : List Byte) (g : Nat) (rows : List Nat) (resources passed : Bool)
  /-- HISTORY_CLEAR: the maintenance command returns history entries to OK (R558). -/
  | historyClear (ep : Nat) (msg : List Byte)
  /-- TEST_START: the maintenance command starts a channel traffic generator (R558). -/
  | testStart (ep : Nat) (msg : List Byte)
  /-- IMAGE_PREFER: the maintenance command sets the preferred firmware image (R558). -/
  | imagePrefer (ep : Nat) (msg : List Byte)
  /-- DEBUG_UNLOCK: the maintenance command enables the internal debug port until the next cold reset (R558). -/
  | debugUnlock (ep : Nat) (msg : List Byte)
  /-- DEBUG_LOCK_BLOW: the maintenance command blows DEBUG_LOCK for good (R576). -/
  | debugLockBlow (ep : Nat) (msg : List Byte)
  /-- GET_NONCE: the unsigned message returns a fresh nonce for the sending endpoint (R559). -/
  | getNonce (ep : Nat)
  /-- MGMT_READ: the unsigned message reads monitoring registers, fault records, captures or history (R559). -/
  | mgmtRead (ep kind index off words : Nat)
  /-- MGMT_RESET: the unsigned message requests a die warm reset or a device cold reset (R559). -/
  | mgmtReset (ep : Nat) (die : Option Nat)
  /-- MGMT_CAP: the unsigned message sets BMC_CAP and the BMC ceilings (R559). -/
  | mgmtCap (ep : Nat) (cap ceiling0 ceiling1 : Option Nat)
  /-- NONCE_EXPIRE: an outstanding nonce expires after 60 s (R557). -/
  | nonceExpire (ep : Nat)
  /-- POWER_ON: the input reaches 46 V, the always-on domain powers, and the boot ROMs start (R561). -/
  | powerOn
  /-- IMAGE_VERIFY_DONE: the boot ROM finishes verifying a firmware image and runs it, or falls back (R554). -/
  | imageVerifyDone
  /-- HBM_TRAINING_DONE: HBM training of the stacks finishes (R561). -/
  | hbmTrainingDone (failed : List Nat)
  /-- LPDDR_TRAINING_DONE: LPDDR training finishes and TRAINED is set (R561). -/
  | lpddrTrainingDone (failed : List Nat)
  /-- BIST_DONE: BIST finishes, repairs are applied, READY is set and fetching starts (R561). -/
  | bistDone (cores clusters : List Nat) (rows : List (Nat × Nat))
  /-- POWER_LOOP_TICK: every 1 ms the reeve compares power and temperatures with the limits and steps die clocks (R567). -/
  | powerLoopTick (power average volts watts0 watts1 : Nat) (temps : List Nat)
  /-- CLOCK_STEP_DONE: a die's one-point clock and voltage step completes (R565). -/
  | clockStepDone (d : Nat)
  /-- CURRENT_LIMIT_TRIP: a die regulator's current limit trips and the die drops to the lowest point (R568). -/
  | currentLimitTrip (d : Nat)
  /-- THERMAL_TRIP: a sensor reaches TRIP and package power is removed (R569). -/
  | thermalTrip (n : Nat)
  /-- INPUT_DIP: the input falls below 46 V and both dies are held at the lowest point (R589). -/
  | inputDip
  /-- DIP_TIMEOUT: a dip lasts 10 ms and the input controller opens (R589). -/
  | dipTimeout
  /-- INPUT_COLLAPSE: the input falls below 40 V and the controller opens within 50 µs (R589). -/
  | inputCollapse
  /-- POWER_LOSS: power is lost or the module is removed, and DRAM contents are lost (R506). -/
  | powerLoss
  /-- MCTP_CONTROL: an MCTP control message is served by the active reeve (R570). -/
  | mctpControl (binding command : Nat) (data : List Byte)
  /-- PLDM_GET_SENSOR: a PLDM type 2 request returns a sensor reading (R571). -/
  | pldmGetSensor (ep n : Nat)
  /-- PLDM_SET_EFFECTER: a PLDM type 2 request sets BMC_CAP or a BMC ceiling (R571). -/
  | pldmSetEffecter (ep n value : Nat)
  /-- PLDM_FW_TRANSFER: a PLDM type 5 transfer writes a firmware image into the slot not running (R572). -/
  | pldmFwTransfer (ep : Nat) (overSmbus : Bool) (image : FwImage)
  /-- PLDM_ACTIVATE_FIRMWARE: activateFirmware moves the preference and starts an activation (R572). -/
  | pldmActivateFirmware (ep : Nat) (overSmbus : Bool)
  /-- ACTIVATION_STEP: an in-service activation completes one step of its reeve and microcode replacement (R573). -/
  | activationStep
  /-- MICROCODE_ROLL_STEP: every 100 ms the roll holds the next stack or package for its gleaner microcode (R574). -/
  | microcodeRollStep
  /-- MICROCODE_LOAD: once threads end and maps empty, gleaner microcode is loaded and held requests released (R574). -/
  | microcodeLoad (failed : List Nat)
  /-- TAP_INSTRUCTION: an IEEE 1149.1 instruction is loaded into the TAP (R577). -/
  | tapInstruction (n : Nat)
  /-- TAP_RESET: test-Logic-Reset releases the pins from boundary scan (R577). -/
  | tapReset
  /-- ACCESS_CLEAR: a write of DEV_ACCESS_CLR zeros every function's access error count (R601). -/
  | accessClear (f : Nat) (value : Word32)
  /-- INT_CTL_WRITE: a write of DEV_INT_CTL, where it enables a bit already set, sends the vector once (R605). -/
  | intCtlWrite (f : Nat) (value : Word32)
  /-- CHANNEL_ACCESS_COMPLETE: operation `n` of gleaner `g` completes at its channel (R280). -/
  | channelAccessComplete (g n : Nat) (ecc : Ecc)
  /-- PCIE_LINK_RETRAIN: a host port's link leaves L0 to retrain, its attachments stay ATTACHED and their outbound writes wait, and the retrain limit starts (R396). -/
  | pcieLinkRetrain (q : Nat)
  /-- PCIE_LINK_L0: a retraining host link returns to L0 within the retrain limit and the waiting outbound writes resume (R396). -/
  | pcieLinkL0 (q : Nat)
  /-- TLP_ACKNOWLEDGE: the link partner acknowledges posted TLPs, which are released and, during replay, leave the detach journal (R397). -/
  | tlpAcknowledge (a n : Nat)
  /-- INPUT_RESTORED: the input rises back to 46 V or above during a dip, stopping the 10 ms dip timer (R589). -/
  | inputRestored
  /-- PWR_GOOD_RISE: all rails reach regulation about 5 ms after the input crosses 46 V and PWR_GOOD is asserted (R588). -/
  | pwrGoodRise
  /-- DIE_POWER_UP_DONE: the compute and base dies finish powering in sequence, their PLLs lock, and memory training starts (R561). -/
  | diePowerUpDone (absent : Nat)
  /-- REPLICA_WITHDRAW_MARKER: the withdrawal marker of copy `k` reaches gleaner `g` (R251). -/
  | replicaWithdrawMarker (g tk row k : Nat)
  /-- WINDOW_DRAIN_ACK: an Igrum engine acknowledges that no operation admitted under an old window mapping is in flight, and with both the WINDOW_WRITE completes (R379). -/
  | windowDrainAck (e c : Nat)
  /-- THRESHOLD_CROSSING: a sensor reaches its THROTTLE value, setting TEL_SENSOR.SEEN and sending a PLDM PlatformEventMessage (R593). -/
  | thresholdCrossing (n : Nat)
  /-- PFC_PAUSE_EXPIRE: the pause time of a received PFC frame runs out and the paused VCs resume sending (R457). -/
  | pfcPauseExpire (p : Nat) (half : Bool) (priority : Nat)
  /-- INTERFACE_RETRAINING_START: the controller holds LPDDR5X package `p` for retraining (R316). -/
  | interfaceRetrainingStart (p : Nat)
  /-- INTERFACE_RETRAINING_DONE: the retraining of package `p` ends (R316). -/
  | interfaceRetrainingDone (p : Nat)
  deriving DecidableEq, Repr

end Sys2Proof
end

