-- ==== Sys2Proof/Decode.lean ====
section
/-!
DEFINITION. The command that a word spells. The operation table gives no row any bits (every row's `fields` is empty),
so no word of the table spells a command. The words of a stage program and of a gleaner program have bits of their own in the
spec (R167, R171, R263, R265): here stand the fields they are read into and the command that each opcode names.
-/

namespace Sys2Proof

/-- The command of a word of `nbits` bits: none, for no row of the table has bits. -/
def decodeTableWord (_nbits _w : Nat) : Option Instr := none

/-! ### Stage programs (R167, R171) -/

/-- The fields of an instruction word of a stage program (R167). -/
def vecWordOf (w : BitVec 64) : VWord :=
  { d := w.extractLsb' 8 5, a := w.extractLsb' 13 5, b := w.extractLsb' 18 5, c := w.extractLsb' 23 5, m := w.extractLsb' 28 3
    masked := w.getLsbD 31, z := w.getLsbD 32, rm := w.extractLsb' 33 3, f := w.extractLsb' 36 4, g := w.extractLsb' 40 4
    imm := w.extractLsb' 44 20 }

/-- The command that an opcode of a stage program names on core `k` (R171); none where it is reserved. `ecc` is what the ECC check of
the data that the instruction reads finds. -/
def vecCommandOf (k op : Nat) (v : VWord) (ecc : Ecc) : Option Instr :=
  match op with
  | 0x00 => some (.nop k v)
  | 0x01 => some (.sli k v)
  | 0x02 => some (.slui k v)
  | 0x03 => some (.sadd k v)
  | 0x04 => some (.ssub k v)
  | 0x05 => some (.saddi k v)
  | 0x06 => some (.smul k v)
  | 0x07 => some (.sand k v)
  | 0x08 => some (.sor k v)
  | 0x09 => some (.sxor k v)
  | 0x0A => some (.sshl k v)
  | 0x0B => some (.sshr k v)
  | 0x0C => some (.ssra k v)
  | 0x0D => some (.sld k v ecc)
  | 0x0E => some (.sst k v)
  | 0x10 => some (.loopOpen k v)
  | 0x11 => some (.loopClose k v)
  | 0x12 => some (.coreEnd k v)
  | 0x13 => some (.fence k v)
  | 0x14 => some (.seed k v)
  | 0x15 => some (.vrdt k v)
  | 0x20 => some (.vadd k v)
  | 0x21 => some (.vsub k v)
  | 0x22 => some (.vmul k v)
  | 0x23 => some (.vfma k v)
  | 0x24 => some (.vmin k v)
  | 0x25 => some (.vmax k v)
  | 0x26 => some (.vabs k v)
  | 0x27 => some (.vneg k v)
  | 0x28 => some (.vand k v)
  | 0x29 => some (.vor k v)
  | 0x2A => some (.vxor k v)
  | 0x2B => some (.vshl k v)
  | 0x2C => some (.vshr k v)
  | 0x2D => some (.vsra k v)
  | 0x2E => some (.vsel k v)
  | 0x2F => some (.vcvt k v)
  | 0x30 => some (.vbcast k v)
  | 0x31 => some (.viota k v)
  | 0x32 => some (.vext k v)
  | 0x34 => some (.vcmp k v)
  | 0x38 => some (.vrsum k v)
  | 0x39 => some (.vrmax k v)
  | 0x3A => some (.vrmin k v)
  | 0x3C => some (.vrev k v)
  | 0x3D => some (.vrot k v)
  | 0x3E => some (.vperm k v)
  | 0x3F => some (.vxcmp k v)
  | 0x40 => some (.vxchg k v)
  | 0x48 => some (.mand k v)
  | 0x49 => some (.mor k v)
  | 0x4A => some (.mxor k v)
  | 0x4B => some (.mandn k v)
  | 0x4C => some (.mnot k v)
  | 0x4D => some (.mfill k v)
  | 0x4E => some (.mpop k v)
  | 0x4F => some (.mfirst k v)
  | 0x50 => some (.vflg k v)
  | 0x51 => some (.vfclr k ⟨v, none⟩)
  | 0x58 => some (.vld k v ecc)
  | 0x59 => some (.vst k v)
  | 0x5A => some (.vgth k v ecc)
  | 0x60 => some (.gtile k v ecc)
  | 0x61 => some (.gwait k v)
  | 0x62 => some (.wnw k v ecc)
  | 0x63 => some (.wwait k v)
  | 0x64 => some (.sfu k v ⟨false, ecc⟩)
  | 0x65 => some (.rowput k v ecc)
  | 0x66 => some (.sflush k v)
  | 0x67 => some (.dmaq k v ecc)
  | 0x68 => some (.dmark k v)
  | _ => none

/-- The command that an instruction word of a stage program spells on core `k` (R167, R171). -/
def decodeVecWord (k : Nat) (w : BitVec 64) (ecc : Ecc) : Option Instr := vecCommandOf k (w.extractLsb' 0 8).toNat (vecWordOf w) ecc

/-! ### Gleaner programs (R263, R265) -/

/-- The fields of a gleaner instruction word (R263). -/
def glnWordOf (w : BitVec 64) : GWord :=
  { d := w.extractLsb' 8 5, a := w.extractLsb' 13 5, b := w.extractLsb' 18 5, mode := w.extractLsb' 23 4, fmt := w.extractLsb' 27 4
    imm := w.extractLsb' 32 32 }

/-- The command that an opcode of a gleaner program names on thread `t` of gleaner `g` (R265); none where it is reserved. -/
def glnCommandOf (g t op : Nat) (v : GWord) (ecc : Ecc) : Option Instr :=
  match op with
  | 0x00 => some (.glnNop g t v)
  | 0x01 => some (.glnSli g t v)
  | 0x02 => some (.glnSlui g t v)
  | 0x03 => some (.glnSadd g t v)
  | 0x04 => some (.glnSsub g t v)
  | 0x05 => some (.glnSaddi g t v)
  | 0x06 => some (.glnSmul g t v)
  | 0x07 => some (.smulh g t v)
  | 0x08 => some (.glnSand g t v)
  | 0x09 => some (.glnSor g t v)
  | 0x0A => some (.glnSxor g t v)
  | 0x0B => some (.glnSshl g t v)
  | 0x0C => some (.glnSshr g t v)
  | 0x0D => some (.sarg g t v)
  | 0x10 => some (.glnLoop g t v)
  | 0x11 => some (.glnEndloop g t v)
  | 0x12 => some (.glnEnd g t v)
  | 0x18 => some (.hash g t v)
  | 0x20 => some (.gpool g t v)
  | 0x21 => some (.dot g t v)
  | 0x22 => some (.expacc g t v)
  | 0x23 => some (.vop g t v)
  | 0x30 => some (.addm g t v ecc)
  | 0x31 => some (.casm g t v ecc)
  | 0x40 => some (.emit g t v)
  | 0x41 => some (.emits g t v)
  | 0x42 => some (.wrow g t v)
  | _ => none

/-- The command that a gleaner instruction word spells on thread `t` of gleaner `g` (R263, R265). -/
def decodeGlnWord (g t : Nat) (w : BitVec 64) (ecc : Ecc) : Option Instr := glnCommandOf g t (w.extractLsb' 0 8).toNat (glnWordOf w) ecc

end Sys2Proof
end

