-- ==== Sys2Proof/Config.lean ====
section
/-!
DEFINITION. What the spec leaves open: free values, on which no proof may rest, and the contents of built-in tables
that the spec constrains but does not list.
-/

namespace Sys2Proof

/-- A value the spec leaves open, applied to the State counter `freeCtr` (DESIGN CHOICE, log 2). -/
opaque Config.freeValue : Nat → BitVec 64

/-- A credential of 128 bits from the device's random source (R395, DESIGN CHOICE, log 2). -/
opaque Config.freeCredential : Nat → BitVec 128

/-- The contents of a codebook store entry that no plan has loaded, by identifier and code (R92, DESIGN CHOICE, log 2). -/
opaque Config.freeBook : Nat → Nat → Int

/-- The error of a value of a built-in SFU table, by function number and half-segment, in units of 2^−66; the model bounds it to what the
accuracy of R196 leaves (DESIGN CHOICE, log 20). -/
opaque Config.sfuError : Nat → Nat → Int
/-- The exponent that SCALE applies in a microprogram whose REDUCE is LINEAR, which forms none, by FUNC_ID (R204, DESIGN
CHOICE, log 20). -/
opaque Config.microExponent : Nat → Int
/-- The sign S of a microprogram whose REDUCE is not BINADE, by FUNC_ID (R204, DESIGN CHOICE, log 20). -/
opaque Config.microSign : Nat → Bool
/-- The constant of a SELECT that names none: the compared one, field 0, or the selected one, field 1, by FUNC_ID (R204,
DESIGN CHOICE, log 20). -/
opaque Config.microConst : Nat → Nat → BitVec 32
/-- L, ln 2 held to 66 bits: the numerator over 2^66 (R194). -/
def Config.lnTwo : Nat := 51145234580810622639
/-- K, log2 e held to 66 bits: the numerator over 2^65 (R194). -/
def Config.logTwoE : Nat := 53226052391377289967

/-- The 14-bit hash of a peer and VC in the UDP source port (R468), which the spec does not give (DESIGN CHOICE, log 2). -/
opaque Config.udpHash : Nat → Nat → BitVec 14
/-- The identification of an IPv4 header and the flow label of an IPv6 header, by the number of the frame (R468, DESIGN CHOICE, log 2). -/
opaque Config.ipLabel : Nat → BitVec 20
/-- A byte of a core's TWIN region as a plan commit leaves it, by free-value counter, core and offset: the spec does not say which
twin tiles lie where (R288, DESIGN CHOICE, log 2). -/
opaque Config.twinByte : Nat → Nat → Nat → BitVec 8

/-- Dastiavo's JEP106 identity in IDCODE, which the spec does not give (R577, DESIGN CHOICE, log 2). -/
opaque Config.jepIdentity : BitVec 11

/-- A byte of a capture's sections, by the capture's serial number and the offset in its slot: the spec lists what a section holds and not
where in it (R503, DESIGN CHOICE, log 2). -/
opaque Config.captureByte : Nat → Nat → BitVec 8

/-- The DRAM bank and row in which a 64 B unit of a channel lies, by gleaner and unit: the spec names DRAM rows and gives no address
mapping of them (R532, R536, DESIGN CHOICE, log 2). -/
opaque Config.dramRow : Nat → Nat → Nat

end Sys2Proof
end

