-- ==== Sys2Proof/Machine/NumTypes.lean ====
section
/-!
DEFINITION. The vocabulary of the numeric formats (R81 to R103): formats, exact values, flags, rounding modes and
the parameters a conversion names.
-/

namespace Sys2Proof.Machine

/-- The eleven formats of R81, and INT64, the operand of the gleaners' memory-side adds. -/
inductive Format where
  | bg4 | bg2 | aq8 | e4m3 | e5m2 | bf16 | b16 | b32 | sf32 | int8 | int32
  deriving DecidableEq, Repr

/-- An exact real value with the special values a conversion must carry: a signed zero is `fin` with numerator 0.
The magnitude is the quotient of two naturals, the second never 0 (R97). -/
inductive Value where
  | nan
  | inf (neg : Bool)
  | fin (neg : Bool) (num den : Nat)
  deriving DecidableEq, Repr

/-- The sticky flags a conversion or an operation raises (R85, R101). -/
structure NumFlags where
  nv : Bool := false
  ovf : Bool := false
  uf : Bool := false
  range : Bool := false
  deriving DecidableEq, Repr

/-- The rounding modes of R96. -/
inductive Rounding where
  | rne | rna | rtz | rup | rdn | stoch
  deriving DecidableEq, Repr

/-- A layout of R82: exponent and fraction widths, bias and the encoding of the largest finite magnitude. -/
structure FloatLayout where
  expBits : Nat
  fracBits : Nat
  bias : Nat
  maxFinite : Nat
  deriving DecidableEq, Repr

/-- What a conversion is told about a scaled format: the codebook and binary16 scale of BG4 or BG2 (R89), or the
binary32 scale and the zero point of AQ8 (R87). -/
structure ScaleInfo where
  codebook : List Int := []
  scale : Nat := 0x3C00
  zeroPoint : Nat := 0
  deriving DecidableEq, Repr

end Sys2Proof.Machine
end

