-- ==== Sys2Proof/Machine/Flags.lean ====
section
/-!
DEFINITION. The flag computations of conversions and arithmetic (R85, R101): which flags exist, how they join, and
how they pack into the four status bits NV, OF, UF, RANGE.
-/

namespace Sys2Proof.Machine

/-- No flag raised. -/
def flagNone : NumFlags := { nv := false, ovf := false, uf := false, range := false }
/-- NV alone (R101). -/
def flagNV : NumFlags := { nv := true, ovf := false, uf := false, range := false }
/-- OF alone (R101). -/
def flagOF : NumFlags := { nv := false, ovf := true, uf := false, range := false }
/-- UF alone (R101). -/
def flagUF : NumFlags := { nv := false, ovf := false, uf := true, range := false }
/-- RANGE alone (R85). -/
def flagRange : NumFlags := { nv := false, ovf := false, uf := false, range := true }

/-- Sticky flags accumulate by disjunction (R101). -/
def NumFlags.join (a b : NumFlags) : NumFlags :=
  { nv := a.nv || b.nv, ovf := a.ovf || b.ovf, uf := a.uf || b.uf, range := a.range || b.range }

/-- The four flags as a nibble: bit 0 NV, bit 1 OF, bit 2 UF, bit 3 RANGE. -/
def NumFlags.toNat (f : NumFlags) : Nat :=
  f.nv.toNat + 2 * f.ovf.toNat + 4 * f.uf.toNat + 8 * f.range.toNat

/-- The nibble read back as flags. -/
def flagsOfNat (n : Nat) : NumFlags :=
  { nv := n.testBit 0, ovf := n.testBit 1, uf := n.testBit 2, range := n.testBit 3 }

/-- The flags of a list of results, joined. -/
def joinFlags (fs : List NumFlags) : NumFlags := fs.foldl NumFlags.join flagNone

end Sys2Proof.Machine
end

