-- ==== Sys2Proof/Machine/Numeric.lean ====
section
/-!
DEFINITION. Numeric formats and conversions (spec 03, R81 to R103): decoding to an exact value, rounding once, the
special-value table of R100, the AQ8 sequence of R102, and exact arithmetic on decoded values.
-/

namespace Sys2Proof.Machine

/-- The rounding mode a 3-bit code names; 6 and 7 behave as RNE (R96). -/
def roundingOf (code : Nat) : Rounding :=
  match code with
  | 1 => .rna
  | 2 => .rtz
  | 3 => .rup
  | 4 => .rdn
  | 5 => .stoch
  | _ => .rne

/-- binary32 (R82). -/
def layoutB32 : FloatLayout := { expBits := 8, fracBits := 23, bias := 127, maxFinite := 0x7F7FFFFF }
/-- binary16 (R82). -/
def layoutB16 : FloatLayout := { expBits := 5, fracBits := 10, bias := 15, maxFinite := 0x7BFF }
/-- BF16 (R82). -/
def layoutBF16 : FloatLayout := { expBits := 8, fracBits := 7, bias := 127, maxFinite := 0x7F7F }
/-- FP8 E4M3, no infinity, one NaN magnitude (R82). -/
def layoutE4M3 : FloatLayout := { expBits := 4, fracBits := 3, bias := 7, maxFinite := 0x7E }
/-- FP8 E5M2 (R82). -/
def layoutE5M2 : FloatLayout := { expBits := 5, fracBits := 2, bias := 15, maxFinite := 0x7B }
/-- SF32 (R82). -/
def layoutSF32 : FloatLayout := { expBits := 11, fracBits := 20, bias := 1023, maxFinite := 0x7FEFFFFF }

/-- The layout of a floating-point format; none for an integer or codebook format. -/
def layoutOf (f : Format) : Option FloatLayout :=
  match f with
  | .e4m3 => some layoutE4M3
  | .e5m2 => some layoutE5M2
  | .bf16 => some layoutBF16
  | .b16 => some layoutB16
  | .b32 => some layoutB32
  | .sf32 => some layoutSF32
  | .bg4 | .bg2 | .aq8 | .int8 | .int32 => none

/-- The width of one element in bits (R81). -/
def Format.bits (f : Format) : Nat :=
  match f with
  | .bg4 => 4
  | .bg2 => 2
  | .aq8 | .e4m3 | .e5m2 | .int8 => 8
  | .bf16 | .b16 => 16
  | .b32 | .sf32 | .int32 => 32

/-- The canonical NaN a unit writes (R84). -/
def canonicalNaN (f : Format) : Nat :=
  match f with
  | .b32 => 0x7FC00000
  | .b16 => 0x7E00
  | .bf16 => 0x7FC0
  | .e4m3 => 0x7F
  | .e5m2 => 0x7E
  | .sf32 => 0x7FF80000
  | .bg4 | .bg2 | .aq8 | .int8 | .int32 => 0

/-- The value (−1)^neg × m × 2^(e − bias), as a quotient of naturals. -/
def scaled (neg : Bool) (m e bias : Nat) : Value :=
  if bias ≤ e then .fin neg (m <<< (e - bias)) 1 else .fin neg m (1 <<< (bias - e))

/-- The exact value of a floating-point encoding (R82, R83, R84). -/
def decodeFloat (f : Format) (l : FloatLayout) (bits : Nat) : Value :=
  let neg := bits.testBit (l.expBits + l.fracBits)
  let frac := bits % 2 ^ l.fracBits
  let e := bits / 2 ^ l.fracBits % 2 ^ l.expBits
  let top := 2 ^ l.expBits - 1
  if f = .e4m3 ∧ e = top then
    if frac = 7 then .nan else scaled neg (2 ^ l.fracBits + frac) e (l.bias + l.fracBits)
  else if e = top then
    if frac = 0 then .inf neg else .nan
  else if e = 0 then
    if f = .sf32 then .fin neg 0 1 else scaled neg frac 1 (l.bias + l.fracBits)
  else scaled neg (2 ^ l.fracBits + frac) e (l.bias + l.fracBits)

/-- The two's complement reading of the low `w` bits. -/
def signedOf (w bits : Nat) : Int :=
  let b := bits % 2 ^ w
  if b.testBit (w - 1) then (b : Int) - (2 ^ w : Nat) else b

/-- The low `w` bits of a two's complement integer. -/
def unsignedOf (w : Nat) (i : Int) : Nat := (i % (2 ^ w : Nat)).toNat

/-- An integer as an exact value. -/
def intValue (i : Int) : Value := .fin (i < 0) i.natAbs 1

/-- The default BG4 codebook (R90). -/
def defaultBG4 : List Int := [-256, -181, -139, -107, -80, -55, -33, -11, 11, 33, 55, 80, 107, 139, 181, 256]
/-- The default BG2 codebook (R90). -/
def defaultBG2 : List Int := [-256, -71, 71, 256]

/-- The codebook a conversion uses: the named one, or the default of the kind (R90, R91). -/
def bookOf (f : Format) (p : ScaleInfo) : List Int :=
  match p.codebook with
  | [] => if f = .bg2 then defaultBG2 else defaultBG4
  | vs => if f = .bg2 then vs.take 4 else vs

/-- An AQ8 scale is valid from 2^−126 to 2^100 inclusive (R87). -/
def aq8ScaleValid (scale : Nat) : Bool := 0x00800000 ≤ scale && scale ≤ 0x71800000

/-- A product of two exact values with the sign rule; the caller has excluded NaN and infinity. -/
def finMul (a b : Value) : Value :=
  match a, b with
  | .fin na n d, .fin nb m e => .fin (na != nb) (n * m) (d * e)
  | _, _ => .nan

/-- The rounding of n / d, a magnitude, to an integer. `draw` is the lane's 16-bit draw under STOCH (R96, R99). -/
def roundNat (mode : Rounding) (neg : Bool) (draw : Nat) (n d : Nat) : Nat :=
  let q := n / d
  let r := n % d
  if r = 0 then q else
    match mode with
    | .rne => if 2 * r < d then q else if d < 2 * r then q + 1 else q + q % 2
    | .rna => if 2 * r < d then q else q + 1
    | .rtz => q
    | .rup => if neg then q else q + 1
    | .rdn => if neg then q + 1 else q
    | .stoch =>
      if neg then (if draw < 65536 * (d - r) / d then q else q + 1)
      else (if draw < 65536 * r / d then q + 1 else q)

/-- The mode a destination really uses: STOCH only into BG4 and FP8 (R96). -/
def destMode (f : Format) (mode : Rounding) : Rounding :=
  match mode with
  | .stoch => if f = .e4m3 ∨ f = .e5m2 ∨ f = .bg4 then .stoch else .rne
  | m => m

/-- The exponent of a positive quotient: the e with 2^e ≤ n/d < 2^(e+1). -/
def exponentOf (n d : Nat) : Int :=
  let e : Int := (n.log2 : Int) - (d.log2 : Int)
  let le : Bool := if 0 ≤ e then d <<< e.toNat ≤ n else d ≤ n <<< (-e).toNat
  if le then e else e - 1

/-- The magnitude bits of a positive quotient rounded in the layout with an unbounded exponent upward: an encoding
above `maxFinite` says that the rounded value is out of range (R97, R100). -/
def roundMagnitude (l : FloatLayout) (mode : Rounding) (neg : Bool) (draw n d : Nat) : Nat :=
  let emin : Int := 1 - (l.bias : Int)
  let e := max (exponentOf n d) emin
  let q := e - l.fracBits
  let m := if 0 ≤ q then roundNat mode neg draw n (d <<< q.toNat) else roundNat mode neg draw (n <<< (-q).toNat) d
  m + (e - emin).toNat * 2 ^ l.fracBits

/-- The sign bit of a layout. -/
def signBits (l : FloatLayout) (neg : Bool) : Nat := if neg then 2 ^ (l.expBits + l.fracBits) else 0

/-- The infinity encoding of a layout that has one (R82). -/
def infMagnitude (l : FloatLayout) : Nat := (2 ^ l.expBits - 1) * 2 ^ l.fracBits

/-- IEEE 754's overflow result by mode: infinity or the largest finite magnitude (R100). -/
def overflowIsInf (mode : Rounding) (neg : Bool) : Bool :=
  match mode with
  | .rne | .rna | .stoch => true
  | .rtz => false
  | .rup => !neg
  | .rdn => neg

/-- Whether a positive quotient, rounded to 21 significant bits with no bound on its exponent, lies below SF32's
smallest normal 2^−1022 (R85). -/
def belowSF32 (mode : Rounding) (neg : Bool) (n d : Nat) : Bool :=
  let e := exponentOf n d
  if -1022 ≤ e then false
  else
    let m := n * 2 ^ (20 - e).toNat
    !(e == -1023 && roundNat mode neg 0 m d == 2 ^ 21)

/-- Encoding an exact value in a floating-point format (R97, R99, R100). -/
def encodeFloat (f : Format) (l : FloatLayout) (mode : Rounding) (draw : Nat) (x : Value) : Nat × NumFlags :=
  match x with
  | .nan => (canonicalNaN f, flagNone)
  | .inf neg => if f = .e4m3 then (signBits l neg + l.maxFinite, flagNV) else (signBits l neg + infMagnitude l, flagNone)
  | .fin neg n d =>
    if n = 0 then (signBits l neg, flagNone) else
      let md := destMode f mode
      let isOver : Bool := match md with
        | .stoch => l.maxFinite < roundMagnitude l .rup false 0 n d
        | m => l.maxFinite < roundMagnitude l m neg draw n d
      if isOver then
        if f = .e4m3 ∨ f = .e5m2 ∨ f = .sf32 then (signBits l neg + l.maxFinite, if f = .sf32 then flagRange else flagOF)
        else (signBits l neg + (if overflowIsInf md neg then infMagnitude l else l.maxFinite), flagOF)
      else
        let m := roundMagnitude l md neg draw n d
        if f = .sf32 ∧ belowSF32 md neg n d then (signBits l neg, flagUF)
        else (signBits l neg + m, if m = 0 then flagUF else flagNone)

/-- Encoding in INT8 or INT32, symmetric (R86, R100). -/
def encodeInt (w : Nat) (mode : Rounding) (x : Value) : Nat × NumFlags :=
  let top := 2 ^ (w - 1) - 1
  let put (neg : Bool) (m : Nat) : Nat := unsignedOf w (if neg then -(m : Int) else m)
  match x with
  | .nan => (0, flagNV)
  | .inf neg => (put neg top, flagNV)
  | .fin neg n d =>
    let m := roundNat (destMode .int32 mode) neg 0 n d
    if top < m then (put neg top, flagOF) else (put neg m, flagNone)

/-- A codebook entry against an exact t = num/den with its sign: the comparison v < t, v = t or v > t. -/
def cmpCode (v : Int) (neg : Bool) (n d : Nat) : Ordering :=
  compare (v * (d : Int)) (if neg then -(n : Int) else n)

/-- The number of codebook values that are at most t. -/
def countBelow (book : List Int) (neg : Bool) (n d : Nat) : Nat :=
  (book.filter (fun v => cmpCode v neg n d ≠ .gt)).length

/-- The code of smallest magnitude, the higher code on a tie (R100, a NaN into a codebook). -/
def smallestCode (book : List Int) : Nat :=
  (book.zipIdx.foldl (fun (best : Nat × Nat) v => if v.1.natAbs ≤ best.1 then (v.1.natAbs, v.2) else best) (2 ^ 16, 0)).2

/-- Rounding t between the entries i and i + 1 of the codebook (R98). -/
def codeBetween (book : List Int) (mode : Rounding) (neg : Bool) (draw i : Nat) (n d : Nat) : Nat :=
  let lo := book.getD i 0
  let hi := book.getD (i + 1) 0
  let t : Int := if neg then -(n : Int) else n
  let below := t - lo * d
  let above := hi * d - t
  let bySign (j : Nat) : Nat := if lo.natAbs = hi.natAbs then (if neg then i else i + 1) else j
  match mode with
  | .rne => if below < above then i else if above < below then i + 1 else (if i % 2 = 0 then i else i + 1)
  | .rna => if below < above then i else if above < below then i + 1 else bySign (if lo.natAbs < hi.natAbs then i + 1 else i)
  | .rtz => bySign (if lo.natAbs < hi.natAbs then i else i + 1)
  | .rup => i + 1
  | .rdn => i
  | .stoch => if (draw : Int) < (65536 * below) / ((hi - lo) * d) then i + 1 else i

/-- Encoding in BG4 or BG2 under a codebook and a binary16 scale (R98, R100). -/
def encodeBook (f : Format) (p : ScaleInfo) (mode : Rounding) (draw : Nat) (x : Value) : Nat × NumFlags :=
  let book := bookOf f p
  let k := book.length - 1
  match decodeFloat .b16 layoutB16 p.scale with
  | .fin sneg sn sd =>
    if sn = 0 then (smallestCode book, flagNV) else
      match x with
      | .nan => (smallestCode book, flagNV)
      | .inf neg => (if neg != sneg then 0 else k, flagNV)
      | .fin neg n d =>
        let tneg := neg != sneg
        let tn := n * 256 * sd
        let td := d * sn
        let c := countBelow book tneg tn td
        if c = 0 then (0, flagOF)
        else if cmpCode (book.getD (c - 1) 0) tneg tn td = .eq then (c - 1, flagNone)
        else if c = k + 1 then (k, flagOF)
        else (codeBetween book mode tneg draw (c - 1) tn td, flagNone)
  | _ => (smallestCode book, flagNV)

/-- Encoding in binary32 to nearest, the step rne32 of the forerunner's sequence (R102). -/
def rne32 (x : Value) : Nat := (encodeFloat .b32 layoutB32 .rne 0 x).1

/-- The exact value of a binary32 encoding. -/
def valueB32 (bits : Nat) : Value := decodeFloat .b32 layoutB32 bits

/-- Multiplication of exact values as IEEE 754 defines it: the second component says the operation was invalid. -/
def mulValue (a b : Value) : Value × Bool :=
  match a, b with
  | .nan, _ => (.nan, false)
  | _, .nan => (.nan, false)
  | .inf na, .inf nb => (.inf (na != nb), false)
  | .inf na, .fin nb n _ => if n = 0 then (.nan, true) else (.inf (na != nb), false)
  | .fin na n _, .inf nb => if n = 0 then (.nan, true) else (.inf (na != nb), false)
  | .fin na n d, .fin nb m e => (.fin (na != nb) (n * m) (d * e), false)

/-- A signed numerator over a denominator as an exact value; `zeroNeg` is the sign of an exact zero. -/
def ofSigned (i : Int) (d : Nat) (zeroNeg : Bool) : Value :=
  if i = 0 then .fin zeroNeg 0 1 else .fin (i < 0) i.natAbs d

/-- The signed numerator of a finite value. -/
def signedNum (neg : Bool) (n : Nat) : Int := if neg then -(n : Int) else n

/-- Addition of exact values as IEEE 754 defines it: an exact zero sum of opposite signs is +0, or −0 under RDN. -/
def addValue (mode : Rounding) (a b : Value) : Value × Bool :=
  match a, b with
  | .nan, _ => (.nan, false)
  | _, .nan => (.nan, false)
  | .inf na, .inf nb => if na = nb then (.inf na, false) else (.nan, true)
  | .inf na, .fin _ _ _ => (.inf na, false)
  | .fin _ _ _, .inf nb => (.inf nb, false)
  | .fin na n d, .fin nb m e =>
    if n = 0 ∧ m = 0 then (.fin (if na = nb then na else (mode == .rdn)) 0 1, false)
    else (ofSigned (signedNum na n * e + signedNum nb m * d) (d * e) (mode == .rdn), false)

/-- Negation of a value. -/
def negValue (a : Value) : Value :=
  match a with
  | .nan => .nan
  | .inf n => .inf (!n)
  | .fin n x d => .fin (!n) x d

/-- Whether a value is finite. -/
def Value.isFinite (a : Value) : Bool :=
  match a with
  | .fin _ _ _ => true
  | _ => false

/-- Conversion into AQ8, the forerunner's sequence step by step (R102). A clamped finite source raises OF, also where its product or its
narrowing to binary32 overflows; an infinite source raises NV (R100, R101). -/
def encodeAq8 (p : ScaleInfo) (mode : Rounding) (x : Value) : Nat × NumFlags :=
  if !aq8ScaleValid p.scale then (p.zeroPoint, flagNV) else
    match valueB32 (rne32 x) with
    | .nan => (p.zeroPoint, flagNV)
    | x32 =>
      match valueB32 p.scale with
      | .fin _ n d =>
        let inv := valueB32 (rne32 (.fin false d n))
        match valueB32 (rne32 (mulValue x32 inv).1) with
        | .nan => (p.zeroPoint, flagNV)
        | .inf neg => (if neg then 0 else 255, if x.isFinite then flagOF else flagNV)
        | .fin neg yn yd =>
          let q : Int := signedNum neg (roundNat (destMode .int32 mode) neg 0 yn yd) + p.zeroPoint
          if q < 0 then (0, flagOF) else if 255 < q then (255, flagOF) else (q.toNat, flagNone)
      | _ => (p.zeroPoint, flagNV)

/-- The exact value an element's code stands for, with the flag its decoding raises (R82, R89, R93, R100, R102). -/
def decodeValue (f : Format) (p : ScaleInfo) (bits : Nat) : Value × NumFlags :=
  match f with
  | .bg4 | .bg2 =>
    let v := (bookOf f p).getD (bits % 2 ^ f.bits) 0
    match decodeFloat .b16 layoutB16 p.scale with
    | .fin sneg sn sd => (.fin ((v < 0 : Bool) != sneg) (v.natAbs * sn) (256 * sd), flagNone)
    | _ => (.nan, flagNV)
  | .aq8 =>
    if aq8ScaleValid p.scale then
      (valueB32 (rne32 (mulValue (valueB32 p.scale) (intValue ((bits % 256 : Nat) - (p.zeroPoint : Int)))).1), flagNone)
    else (.nan, flagNV)
  | .int8 => (intValue (signedOf 8 bits), flagNone)
  | .int32 => (intValue (signedOf 32 bits), flagNone)
  | .e4m3 => (decodeFloat f layoutE4M3 bits, flagNone)
  | .e5m2 => (decodeFloat f layoutE5M2 bits, flagNone)
  | .bf16 => (decodeFloat f layoutBF16 bits, flagNone)
  | .b16 => (decodeFloat f layoutB16 bits, flagNone)
  | .b32 => (decodeFloat f layoutB32 bits, flagNone)
  | .sf32 => (decodeFloat f layoutSF32 bits, flagNone)

/-- Encoding an exact value in a format (R97 to R102). -/
def encodeValue (f : Format) (p : ScaleInfo) (mode : Rounding) (draw : Nat) (x : Value) : Nat × NumFlags :=
  match f with
  | .bg4 | .bg2 => encodeBook f p (destMode f mode) draw x
  | .aq8 => encodeAq8 p mode x
  | .int8 => encodeInt 8 mode x
  | .int32 => encodeInt 32 mode x
  | .e4m3 => encodeFloat f layoutE4M3 mode draw x
  | .e5m2 => encodeFloat f layoutE5M2 mode draw x
  | .bf16 => encodeFloat f layoutBF16 mode draw x
  | .b16 => encodeFloat f layoutB16 mode draw x
  | .b32 => encodeFloat f layoutB32 mode draw x
  | .sf32 => encodeFloat f layoutSF32 mode draw x

/-- A format whose same-format conversion copies the bits (the = cells of R103). -/
def copiesBits (f : Format) : Bool :=
  match f with
  | .bg4 | .bg2 | .aq8 => false
  | _ => true

/-- A conversion between two formats, every ordered pair (R103): decode exactly, round once, join the flags. -/
def convert (src : Format) (sp : ScaleInfo) (dst : Format) (dp : ScaleInfo) (mode : Rounding) (draw bits : Nat) :
    Nat × NumFlags :=
  if src = dst ∧ copiesBits src then (bits % 2 ^ src.bits, flagNone)
  else
    let v := decodeValue src sp bits
    let r := encodeValue dst dp mode draw v.1
    (r.1, v.2.join r.2)

/-- The 32-bit generator of a lane (R99): the next state. -/
def nextDrawState (x : Word32) : Word32 :=
  let a := x ^^^ (x <<< 13)
  let b := a ^^^ (a >>> 17)
  b ^^^ (b <<< 5)

/-- The 16-bit draw of a generator state (R99). -/
def drawOf (x : Word32) : Nat := (x >>> 16).toNat

/-- A seed of 0 is replaced by 1 (R99). -/
def seedOf (x : Word32) : Word32 := if x = 0 then 1 else x

/-- The largest exact value below 2^128 that a comparison needs: finite values ordered by their real value. -/
def ltFin (na : Bool) (n d : Nat) (nb : Bool) (m e : Nat) : Bool :=
  signedNum na n * e < signedNum nb m * d

/-- The order of two values that are not NaN: infinities beyond every finite value. -/
def ltValue (a b : Value) : Bool :=
  match a, b with
  | .nan, _ => false
  | _, .nan => false
  | .inf na, .inf nb => na && !nb
  | .inf na, .fin _ _ _ => na
  | .fin _ _ _, .inf nb => !nb
  | .fin na n d, .fin nb m e => ltFin na n d nb m e

/-- Equality of two values that are not NaN: the zeros are equal. -/
def eqValue (a b : Value) : Bool :=
  match a, b with
  | .nan, _ => false
  | _, .nan => false
  | .inf na, .inf nb => na == nb
  | .inf _, .fin _ _ _ => false
  | .fin _ _ _, .inf _ => false
  | .fin na n d, .fin nb m e => signedNum na n * e == signedNum nb m * d

end Sys2Proof.Machine
end

