-- ==== Sys2Proof/Machine/Tbl.lean ====
section
/-!
DEFINITION. Sparse tables: the one shape in which State holds every array of like things (memories, register banks,
cores, queues). A table is a list of key and entry pairs in one canonical form, with a default for every key not
listed, so that equal contents are equal data.
-/

namespace Sys2Proof.Machine

/-- A sparse table of entries by natural key. A byte memory is `Tbl Byte`, a list of `Host.Cell`. -/
abbrev Tbl (α : Type) := List (Nat × α)

/-- The entry at key `k`, or the default where none is listed. -/
def Tbl.get {α : Type} (dflt : α) : Tbl α → Nat → α
  | [], _ => dflt
  | (j, x) :: rest, k => if j = k then x else Tbl.get dflt rest k

/-- The table without key `k`. -/
def Tbl.drop {α : Type} (t : Tbl α) (k : Nat) : Tbl α := t.filter (fun e => e.1 != k)

/-- Insertion of an entry before the first larger key. -/
def Tbl.place {α : Type} (k : Nat) (v : α) : Tbl α → Tbl α
  | [] => [(k, v)]
  | (j, x) :: rest => if k < j then (k, v) :: (j, x) :: rest else (j, x) :: Tbl.place k v rest

/-- Writing an entry. Writing the default removes the key, which keeps the form canonical. -/
def Tbl.set {α : Type} [DecidableEq α] (dflt : α) (t : Tbl α) (k : Nat) (v : α) : Tbl α :=
  if v = dflt then Tbl.drop t k else Tbl.place k v (Tbl.drop t k)

/-- Changing one entry by a function. -/
def Tbl.modify {α : Type} [DecidableEq α] (dflt : α) (t : Tbl α) (k : Nat) (f : α → α) : Tbl α :=
  Tbl.set dflt t k (f (Tbl.get dflt t k))

/-- Writing a run of consecutive entries. -/
def Tbl.setRun {α : Type} [DecidableEq α] (dflt : α) : Tbl α → Nat → List α → Tbl α
  | t, _, [] => t
  | t, k, v :: vs => Tbl.setRun dflt (Tbl.set dflt t k v) (k + 1) vs

/-- The entries of a run of keys. -/
def Tbl.getRun {α : Type} (dflt : α) (t : Tbl α) (k n : Nat) : List α := (List.range n).map (fun i => Tbl.get dflt t (k + i))

/-- Changing every listed entry whose key and value satisfy a test. -/
def Tbl.mapWhere {α : Type} [DecidableEq α] (dflt : α) (t : Tbl α) (p : Nat → α → Bool) (f : α → α) : Tbl α :=
  (t.filter (fun e => p e.1 e.2)).foldl (fun acc e => Tbl.set dflt acc e.1 (f e.2)) t

/-- Keys strictly rise. -/
def Tbl.sorted {α : Type} : Tbl α → Bool
  | [] => true
  | [_] => true
  | (j, _) :: (k, y) :: rest => decide (j < k) && Tbl.sorted ((k, y) :: rest)

/-- The canonical form: keys strictly rise and no entry equals the default. -/
def Tbl.wf {α : Type} [DecidableEq α] (dflt : α) (t : Tbl α) : Bool :=
  Tbl.sorted t && t.all (fun e => decide (e.2 ≠ dflt))

end Sys2Proof.Machine
end

