-- ==== Sys2Proof/Machine/AccTypes.lean ====
section
/-!
DEFINITION. Accounting (spec 16, R450 to R454).
-/

namespace Sys2Proof.Machine

/-- The charges of one context (R450). -/
structure Charges where
  coreNs : Word64
  gleanerNs : Word64
  binBytes : Word64
  granaryBytes : Word64
  loftBytes : Word64
  hostBytes : Word64
  linkBytes : Word64
  energy : Word64
  deriving DecidableEq, Repr

/-- The accounting registers (R454): charges by context, the snapshot bank, ACC_TRIM, ACC_UNATTRIBUTED and ACC_COEF. -/
structure AccState where
  ctxs : Tbl Charges
  snap : Tbl Charges
  trim : BitVec 17
  unattributed : Word64
  coef : Tbl Word32
  deriving DecidableEq, Repr

end Sys2Proof.Machine
end

