-- ==== Sys2Proof/Machine/Bytes.lean ====
section
/-!
DEFINITION. Byte order and byte memories (R7): little-endian fields, bit fields of words, reads and writes of runs of
bytes in a sparse memory.
-/

namespace Sys2Proof.Machine

/-- A byte memory: `Host.Cell`s in canonical form, an unlisted address reading 0. -/
abbrev Mem := Tbl Byte

/-- What an unlisted address of any memory reads as. DESIGN CHOICE: the spec gives no contents after power-on
(DESIGN CHOICE, log 3); scrubbed storage is zero (R41). -/
def unlistedByte : Byte := 0

/-- One byte. -/
def Mem.byte (m : Mem) (a : Nat) : Byte := Tbl.get unlistedByte m a
/-- A run of bytes. -/
def Mem.bytes (m : Mem) (a n : Nat) : List Byte := Tbl.getRun unlistedByte m a n
/-- Writing a run of bytes. -/
def Mem.put (m : Mem) (a : Nat) (bs : List Byte) : Mem := Tbl.setRun unlistedByte m a bs
/-- The canonical form of a memory. -/
def Mem.wf (m : Mem) : Bool := Tbl.wf unlistedByte m

/-- The little-endian number a list of bytes spells (R7). -/
def leNat : List Byte → Nat
  | [] => 0
  | b :: bs => b.toNat + 256 * leNat bs

/-- A number as `n` little-endian bytes, taken modulo 2^(8n) (R7). -/
def natLE : Nat → Nat → List Byte
  | 0, _ => []
  | n + 1, v => BitVec.ofNat 8 v :: natLE n (v / 256)

/-- The big-endian number a list of bytes spells, for Ethernet, IP and UDP headers (R7). -/
def beNat (bs : List Byte) : Nat := leNat bs.reverse
/-- A number as `n` big-endian bytes. -/
def natBE (n v : Nat) : List Byte := (natLE n v).reverse

/-- Bits [hi:lo] of a number. -/
def bitsOf (v hi lo : Nat) : Nat := v / 2 ^ lo % 2 ^ (hi + 1 - lo)

/-- A field of `n` bytes at offset `off` of a byte string. -/
def fieldLE (bs : List Byte) (off n : Nat) : Nat := leNat ((bs.drop off).take n)

/-- A little-endian number of `n` bytes in a memory. -/
def Mem.nat (m : Mem) (a n : Nat) : Nat := leNat (m.bytes a n)
/-- Writing a number as `n` little-endian bytes in a memory. -/
def Mem.putNat (m : Mem) (a n v : Nat) : Mem := m.put a (natLE n v)

/-- `n` zero bytes. -/
def zeroBytes (n : Nat) : List Byte := List.replicate n 0

/-- Whether every byte is zero. -/
def allZero (bs : List Byte) : Bool := bs.all (fun b => b == 0)

/-- A byte string cut or padded with zeros to `n` bytes. -/
def padTo (n : Nat) (bs : List Byte) : List Byte := (bs ++ zeroBytes (n - bs.length)).take n

/-- The sum of a list of naturals. -/
def sumNat (xs : List Nat) : Nat := xs.foldl (· + ·) 0

/-- Division rounding up. -/
def ceilDiv (a b : Nat) : Nat := (a + b - 1) / b

/-- The first index of a list whose entry satisfies a test, counted from `i`. -/
def findIdxFrom {α : Type} (p : α → Bool) : List α → Nat → Option Nat
  | [], _ => none
  | x :: xs, i => if p x then some i else findIdxFrom p xs (i + 1)

/-- The first element with the least key, used where ties go to the earlier entry. -/
def argMin {α : Type} (key : α → Nat) : List α → Option α
  | [] => none
  | x :: xs =>
    match argMin key xs with
    | none => some x
    | some y => if key y < key x then some y else some x

/-- A list with its n-th entry replaced. -/
def replaceAt {α : Type} (xs : List α) (n : Nat) (x : α) : List α := xs.set n x

/-- The set bits of a mask below `n`, in rising order. -/
def bitsSet (mask n : Nat) : List Nat := (List.range n).filter (fun i => mask.testBit i)

end Sys2Proof.Machine
end

