-- ==== Sys2Proof/Machine/PlanTypes.lean ====
section
/-!
DEFINITION. A Gleush plan as the loader has parsed it (spec 02, R42 to R59): one structure per section entry. The
units of a partition read their configuration from the installed plan.
-/

namespace Sys2Proof.Machine

/-- A stage pool entry (R46). `cores` holds CORES[n], the pool's core count in cluster n. -/
structure StagePool where
  stage : Nat
  fullPreempt : Bool
  sfuFirst : Nat
  sfuCount : Nat
  compat : Nat
  cores : List Nat
  codeOffset : Nat
  codeLength : Nat
  deriving DecidableEq, Repr

/-- A route entry (R48). `path` holds the 48 hop codes. -/
structure Route where
  route : Nat
  source : Nat
  dest : Nat
  vc : Nat
  hops : Nat
  path : List Nat
  deriving DecidableEq, Repr

/-- A BIN_MAP region (R287), offsets in 4 KiB units. -/
structure BinRegion where
  stage : Nat
  scope : Nat
  kind : Nat
  cluster : Nat
  core : Nat
  offset : Nat
  size : Nat
  deriving DecidableEq, Repr

/-- A SAVE_MAP entry (R51). -/
structure SaveArea where
  kind : Nat
  cluster : Nat
  core : Nat
  channel : Nat
  offset : Nat
  deriving DecidableEq, Repr

/-- A placement record (R124); `length` 0 is an absent placement. -/
structure Placement where
  tier : Nat
  channel : Nat
  stripe : Nat
  length : Nat
  offset : Nat
  deriving DecidableEq, Repr

/-- A segment entry (R366). -/
structure Segment where
  limit : Nat
  policy : Nat
  perm : Nat
  frames : Nat
  placement : Placement
  framePlacement : Placement
  deriving DecidableEq, Repr

/-- A context record (R366): its partition-relative number, the USED mask and 16 segments. -/
structure ContextRecord where
  context : Nat
  used : Nat
  segments : List Segment
  deriving DecidableEq, Repr

/-- A queue binding (R56). -/
structure QueueBinding where
  queue : Nat
  stage : Nat
  context : Nat
  priority : Nat
  cls : Nat
  check : Bool
  deriving DecidableEq, Repr

/-- A deadline class entry (R57), times in units of 10 ns. -/
structure DeadlineClass where
  cls : Nat
  fallback : Nat
  sheafWait : Nat
  deadline : Nat
  deriving DecidableEq, Repr

/-- A LINK_CREDITS entry (R58). -/
structure LinkCredit where
  context : Nat
  link : Nat
  vc : Nat
  credits0 : Nat
  credits1 : Nat
  deriving DecidableEq, Repr

/-- A RESERVES entry (R59). -/
structure Reserve where
  table : Nat
  tier : Nat
  channel : Nat
  offset : Nat
  units : Nat
  deriving DecidableEq, Repr

/-- A codebook entry (R91): KIND 0 is BG4, 1 is BG2. -/
structure Codebook where
  ident : Nat
  kind : Nat
  values : List Int
  deriving DecidableEq, Repr

/-- A dense layer entry (R123). -/
structure Layer where
  layer : Nat
  stage : Nat
  rotate : Bool
  perChannel : Bool
  twinResident : Bool
  actFormat : Nat
  weightFormat : Nat
  wideFormat : Nat
  round : Nat
  k : Nat
  n : Nat
  threshold : Nat
  signFirst : Nat
  wCodebook : Nat
  aCodebook : Nat
  ceiling : Nat
  aq8Scale : Nat
  aq8Zero : Nat
  weights : Placement
  wideTwin : Placement
  mirror : Placement
  wideMirror : Placement
  seed : Nat
  deriving DecidableEq, Repr

/-- A segment record of an SFU microprogram (R203), the coefficients as signed integers of their Q formats. -/
structure SfuSegment where
  c0 : Int
  c1 : Int
  c2 : Int
  deriving DecidableEq, Repr

/-- A step word of a microprogram (R204). -/
structure SfuStep where
  op : Nat
  mode : Nat
  a : Nat
  b : Nat
  deriving DecidableEq, Repr

/-- An SFU_PROGRAMS entry (R202). -/
structure SfuProgram where
  funcId : Nat
  monotone : Nat
  steps : List SfuStep
  domainLo : Nat
  domainHi : Nat
  reduceK : Int
  consts : List Nat
  segments : List SfuSegment
  deriving DecidableEq, Repr

/-- A gleaner program (R54): its identifier and instruction words. -/
structure GleanerProgram where
  program : Nat
  code : List Nat
  deriving DecidableEq, Repr

/-- A gleaner placement entry (R54). -/
structure GleanerPlacement where
  kind : Nat
  tier : Nat
  channel : Nat
  slot : Nat
  value : Nat
  deriving DecidableEq, Repr

/-- An inbound window mapping (R377). -/
structure WindowMapping where
  window : Nat
  context : Nat
  perm : Nat
  key : Nat
  peer : Nat
  winOffset : Nat
  length : Nat
  target : Nat
  deriving DecidableEq, Repr

/-- A TABLES entry (R222). `defaultRow` is the default row's slot, header included; empty for a composed table. -/
structure TableDesc where
  table : Nat
  kind : Nat
  rowFormat : Nat
  elements : Nat
  hash : Nat
  combine : Nat
  rows : Nat
  seed : Nat
  tableId : Nat
  flags : Nat
  codebook : Nat
  stubCodebook : Nat
  quotient : Nat
  remainder : Nat
  bayFirst : Nat
  bayCount : Nat
  pinnedStages : Nat
  hotFactor : Nat
  replMax : Nat
  replThreshold : Nat
  loadRing : Nat
  loadRingLength : Nat
  loadContext : Nat
  defaultRow : List Byte
  deriving DecidableEq, Repr

/-- A BAYS entry (R225). -/
structure Bay where
  table : Nat
  tier : Nat
  role : Nat
  channel : Nat
  spare : Nat
  firstRow : Nat
  rows : Nat
  offset : Nat
  ref : Nat
  deriving DecidableEq, Repr

/-- A plan: the sections of an accepted image (R45), with the header fields that outlive the load. -/
structure Plan where
  planId : Nat
  build : Nat
  mirrored : Bool
  pools : List StagePool
  stageCode : List Byte
  routes : List Route
  binMap : List BinRegion
  saveMap : List SaveArea
  contexts : List ContextRecord
  bindings : List QueueBinding
  classes : List DeadlineClass
  tables : List TableDesc
  bays : List Bay
  layers : List Layer
  codebooks : List Codebook
  signVectors : List Nat
  gleanerPrograms : List GleanerProgram
  gleanerPlacement : List GleanerPlacement
  sfuPrograms : List SfuProgram
  linkCredits : List LinkCredit
  reserves : List Reserve
  windows : List WindowMapping
  deriving DecidableEq, Repr

end Sys2Proof.Machine
end

