-- ==== Sys2Proof/Machine/CoreTypes.lean ====
section
/-!
DEFINITION. The state of one core and of one cluster: vector engine, special-function unit, winnow unit, grid
(spec 04 to 07), sheaf former, sequencer and DMA engine (spec 05, 12, 16, 19).
-/

namespace Sys2Proof.Machine

/-- The 128 lanes of a vector register (R164). -/
abbrev Lanes := Vector Word32 128

/-- A register whose lanes all hold one word. -/
def lanesOf (f : Nat → Word32) : Lanes := Vector.ofFn (fun i : Fin 128 => f i.val)

/-- The register every lane of which is 0. -/
def zeroLanes : Lanes := Vector.replicate 128 0

/-- One frame of the loop stack (R181): the index of the body's first instruction and the runs that remain. -/
structure LoopFrame where
  body : Nat
  remaining : Nat
  deriving DecidableEq, Repr

/-- The flags that one instruction raised, a mask of lanes for each (R179). -/
structure LaneFlags where
  nv : Word128
  ovf : Word128
  uf : Word128
  range : Word128
  deriving DecidableEq, Repr

/-- The architectural registers of a vector engine (R164), with the sticky flags NV, OF, UF and RANGE, one bit a lane. `recent` are the flags
that the instructions before raised, latest first, any of which may complete in the clock of a VFCLR (R180). -/
structure VecRegs where
  v : Tbl Lanes
  m : Tbl Word128
  x : Tbl Word64
  nv : Word128
  ovf : Word128
  uf : Word128
  range : Word128
  recent : List LaneFlags
  gens : Tbl Word32
  loops : List LoopFrame
  pc : Nat
  deriving DecidableEq, Repr

/-- A row descriptor of a sheaf (R150, R185). `arrival` is the device time at which it joined. -/
structure RowDesc where
  stage : Nat
  cls : Nat
  length : Nat
  inAddr : Nat
  tag : Nat
  marks : Nat
  arrival : Nat
  deriving DecidableEq, Repr

/-- What END releases, in issue order (R166): a held row or a held flush of a stage. -/
inductive Held where
  | row (r : RowDesc)
  | flush (stage : Nat)
  deriving DecidableEq, Repr

/-- The two kinds of work item (R165): a sheaf, by its record's slot, or a command's share. -/
inductive ItemKind where
  | sheaf (slot : Nat)
  | share (record : List Byte)
  deriving DecidableEq, Repr

/-- A work item. `ctx` is device-wide, `relCtx` relative to the partition; `wrote` says that it issued a memory write
or memory-side add (R446); `pins` are its sheaf pins as table and epoch, `heldPin` that of its command's pin handle (R234). `entered` is the device time at which it entered its list and `order` breaks ties (R434). `units` are the written 4 KiB units
of the core bin and `staged` those of its STAGING slot (R443, R444); `homeCluster` keeps its sheaf record and pins; `forced` says that a
full pre-emption has been started for it (R439). -/
structure WorkItem where
  kind : ItemKind
  part : Nat
  ctx : Nat
  relCtx : Nat
  stage : Nat
  tag : Nat
  rows : List RowDesc
  marks : Nat
  priority : Nat
  cls : Nat
  entered : Nat
  order : Nat
  started : Nat
  pins : List (Nat × Nat)
  heldPin : Option (Nat × Nat)
  added : Bool
  wrote : Bool
  preempted : Bool
  units : Nat
  staged : Nat
  failedCores : List Nat
  cleared : List Nat := []
  homeCluster : Nat
  forced : Bool
  deriving DecidableEq, Repr

/-- A winnow descriptor (R185). -/
structure WinnowDesc where
  layer : Nat
  sheaf : Nat
  pos : Nat
  wide : Bool
  inFmt : Nat
  inAddr : Nat
  outAddr : Nat
  scaleAddr : Nat
  deriving DecidableEq, Repr

/-- A stream descriptor (R340): strides and counts innermost first. -/
structure StreamDesc where
  addr : Nat
  space : Nat
  esize : Nat
  highNibble : Bool
  strides : List Int
  counts : List Nat
  deriving DecidableEq, Repr

/-- A tile descriptor (R141), with the stream table entry it copied when it entered the queue (R353). -/
structure TileDesc where
  layer : Nat
  pairing : Nat
  start : Bool
  isEnd : Bool
  reuse : Bool
  bank : Nat
  streamed : Bool
  wide : Bool
  rows : Nat
  scaleDim : Nat
  sheaf : Nat
  act : Nat
  weight : Nat
  rowScale : Nat
  colScale : Nat
  out : Nat
  cols : Nat
  outStride : Nat
  stream : Option StreamDesc
  deriving DecidableEq, Repr

/-- A tile in the array: its operands as they entered (integers, or binary32 encodings in the float class), the
activation scale of its row block, the next row to leave, and whether its chain is void (R157). -/
structure TileInFlight where
  desc : TileDesc
  acts : List (List Int)
  weights : List (List Int)
  blockScale : Nat
  nextRow : Nat
  voided : Bool
  deriving DecidableEq, Repr

/-- An accumulator entry (R143, R144): the sum, an integer or a binary32 encoding, and SAT. -/
structure AccEntry where
  value : Int
  sat : Bool
  deriving DecidableEq, Repr

/-- A drain bank (R138): whether a chain is open in it and void, its entries by row × 128 + column, the chains handed
over for it whose completion is not posted, and a posted MISMATCH that no GWAIT has taken (R139, R184). -/
structure Bank where
  isOpen : Bool
  voided : Bool
  entries : Tbl AccEntry
  waiting : Nat
  mismatch : Bool
  deriving DecidableEq, Repr

/-- The grid of one core (R129 to R162). `active` holds the weights of the tile last issued, `shadow` those loaded for
the next queued tile (R136). `before` are the entries of the bank of the oldest tile in flight as they stood before its first row (R160). `discard` names the
sheaf and layer pairs whose later tiles are discarded (R157); `aborting` is an abort not yet acknowledged (R161); `repairWanted` is steering not yet
applied and `reload` makes the next tile load its weights in full (R159). -/
structure Grid where
  queue : List TileDesc
  flight : List TileInFlight
  active : List (List Int)
  shadow : Option (List (List Int))
  banks : Tbl Bank
  before : Tbl AccEntry
  discard : List (Nat × Nat)
  aborting : Bool
  repairWanted : Option Nat
  reload : Bool
  status : BitVec 5
  repairColumn : BitVec 7
  repairActive : Bool
  tiles : Word64
  busy : Word64
  mismatches : Word32
  lastMismatch : BitVec 22
  skips : Word32
  deriving DecidableEq, Repr

/-- The winnow unit of one core (R104 to R127): the queued rows and the registers. STATUS bits 0 to 5: NV, OF, UF,
SCALE_SAT, NONFINITE, WIDE_SAT. -/
structure Winnow where
  queue : List WinnowDesc
  status : BitVec 6
  rows : Word64
  clips : Word64
  deriving DecidableEq, Repr

/-- The special-function unit of one core (R191 to R216). -/
structure Sfu where
  status : BitVec 2
  loaded : BitVec 7
  ops : Word64
  busy : Word64
  deriving DecidableEq, Repr

/-- Where a core stands: no item, running, waiting for END's retirement, quiescing for a full pre-emption, saving,
resuming, or stopped by a fault. -/
inductive CorePhase where
  | idle
  | running
  | atEnd
  | quiesce
  | saving
  | resuming
  | stopped
  deriving DecidableEq, Repr

/-- A saved item and what its save record holds beside the bins' bytes, which lie in the save areas (R443, R444): header priority,
engine state, held rows, queues, marks and grid. `restart` says that a save ended LOST (R446), `since` is when its save or resume
began, `by_` the context that caused it (R450). -/
structure SavedItem where
  item : WorkItem
  priority : Nat
  vec : VecRegs
  held : List Held
  winnowQueue : List WinnowDesc
  grid : Grid
  dmaMarks : Tbl Nat
  restart : Bool
  since : Nat
  by_ : Option Nat
  deriving DecidableEq, Repr

/-- The harrow state of a core (R545): STATE (0 IDLE, 1 DUE, 2 RUNNING, 3 OVERDUE), SUSPECT, PERMANENT, LAST_FAILED, the service second
of the last pass, from which AGE follows, and CORE_HARROW_PASSES. `diagnosing` is a column diagnosis under way (R524); `codeLost` a core
out of its pool until the next commit (R289). -/
structure Harrow where
  phase : Nat
  suspect : Bool
  permanent : Bool
  lastFailed : Bool
  passedAt : Nat
  passes : Word32
  diagnosing : Bool
  codeLost : Bool
  deriving DecidableEq, Repr

/-- One core. `vecStatus` is CORE_VEC_STATUS: NV, OF, UF, RANGE, BIN_FAULT, ROW_OVERFLOW (R190). `binEcc` is
CORE_BIN_ECC (R317). `incoming` is a stolen item whose inputs are being copied (R435). `dmaMarks` counts the DMARKs posted on
each DMA queue since the item started (R355). -/
structure CoreState where
  phase : CorePhase
  item : Option WorkItem
  saved : Option SavedItem
  vec : VecRegs
  held : List Held
  incoming : Option (WorkItem × List Byte)
  vecStatus : BitVec 6
  retired : Word64
  stalls : Word64
  sfu : Sfu
  winnow : Winnow
  grid : Grid
  bin : Mem
  binCorrected : Word16
  binUncorrectable : Bool
  dmaMarks : Tbl Nat
  harrow : Harrow
  codeBase : Nat
  deriving DecidableEq, Repr

/-- A core bin region that the cluster sequencer holds for a layer of a sheaf (R117). -/
structure HeldRegion where
  core : Nat
  layer : Nat
  off : Nat
  len : Nat
  deriving DecidableEq, Repr

/-- Whether a mismatch was found in a work item, which its kind, home cluster and entry time tell from any other. -/
def itemIs (kind : ItemKind) (home entered : Nat) (i : WorkItem) : Bool := i.kind == kind && i.homeCluster == home && i.entered == entered

/-- What the recovery engine keeps of a checksum mismatch (R523): the report of R157, the row's activation operands, the
tile's weights, the work item, and whether a replay has confirmed it (R522). `fault` is the SEQUENCE of its record, 0 until that
is written; `discarded` says that the mismatch also occurred on a replaying core. -/
structure MismatchPattern where
  core : Nat
  item : ItemKind
  home : Nat
  entered : Nat
  layer : Nat
  row : Nat
  pairing : Nat
  dSum : Int
  cSum : Int
  tile : TileDesc
  acts : List Int
  weights : List (List Int)
  fault : Nat
  discarded : Bool
  confirmed : Bool
  deriving DecidableEq, Repr

/-- A sheaf record of a cluster sequencer (R112, R115, R147). `counts` are keyed by layer × 128 + row position and hold
count + 1, 0 being "not yet"; `verdicts` by layer: 0 none, 1 narrow, 2 WIDE; `wideRows` by layer: a mask of the positions winnowed wide; `nonFinite`
the layer × 128 + position of the rows winnowed as non-finite (R108). -/
structure SheafRecord where
  part : Nat
  ctx : Nat
  stage : Nat
  rows : List RowDesc
  counts : Tbl Nat
  verdicts : Tbl Nat
  wideRows : Tbl Nat
  nonFinite : List Nat
  held : List HeldRegion
  deriving DecidableEq, Repr

/-- An open sheaf of the former (R150), or a closed one waiting to be listed (R437). `opened` orders eviction. -/
structure OpenSheaf where
  part : Nat
  ctx : Nat
  stage : Nat
  rows : List RowDesc
  opened : Nat
  deriving DecidableEq, Repr

/-- The five closing causes (R151). -/
inductive CloseCause where
  | full | timer | flush | evict | preempt
  deriving DecidableEq, Repr

/-- The sheaf former's counters (R163). -/
structure FormerCounters where
  full : Word32
  timed : Word32
  flushed : Word32
  evicted : Word32
  rows : Word64
  deriving DecidableEq, Repr

/-- A full pre-emption in progress (R439 to R441): the victim core, the waiting item, none for a harrow pass (R529), and when it began. -/
structure Preemption where
  core : Nat
  waiting : Option WorkItem
  since : Nat
  deriving DecidableEq, Repr

/-- One piece of a transfer: its requests still without an END, or a direct copy. -/
inductive XferOp where
  | copy | request | lookup | promote | demote
  deriving DecidableEq, Repr

/-- A transfer descriptor as parsed (R339). -/
structure XferDesc where
  op : XferOp
  queue : Nat
  srcRow : Bool
  dstRow : Bool
  cls : Nat
  table : Nat
  kind : Nat
  slot : Nat
  tag : Nat
  returnAddr : Nat
  target : Nat
  stride : Nat
  outFmt : Nat
  markOut : Nat
  src : StreamDesc
  dst : StreamDesc
  deriving DecidableEq, Repr

/-- A record slot that a LOOKUP expects (R349): its group, and the COUNT, MARKS and LENGTH of the record that has arrived. -/
structure XferRecord where
  group : Nat
  count : Nat
  marks : Nat
  length : Nat
  arrived : Bool
  deriving DecidableEq, Repr

/-- A submitted transfer (R339, R352): who issued it (core 255 once its work has ended or was aborted), the tag of its
command where the item is a share, the mark group it belongs to and its translation generation. `requests` are the gleaner
requests of a LOOKUP, formed at submission, `parts` the request parts that still lack an END and the gleaners they went to,
`defaults` the keys of lost bays as group and weight (R311), `bales` the bales of a tier transfer that have not flipped, `rows` the row slots of a
SRC_ROW copy as they arrive (R347), `host` the bus address of the destination's handle at submission (R344, R392). -/
structure Xfer where
  desc : XferDesc
  serial : Nat
  core : Nat
  ctx : Nat
  part : Nat
  itemTag : Option Nat
  group : Nat
  held : Bool
  generation : Nat
  epoch : Option Nat
  requests : List (Nat × GReq)
  records : List XferRecord
  defaults : List (Nat × Nat)
  parts : List (Nat × Nat)
  bales : List Nat
  rows : List (Option (List Byte))
  status : Nat
  marks : Nat
  host : Option Nat := none
  deriving DecidableEq, Repr

/-- A mark on a DMA queue (R355): the core whose later transfers wait, and the group it closes. -/
inductive DmaEntry where
  | xfer (x : Xfer)
  | barrier (core : Nat)
  deriving DecidableEq, Repr

/-- A record or END that has reached a DMA engine and whose write stalls on a held input region (R117), or that came behind such a one. -/
inductive StalledMsg where
  | record (m : RecordMsg)
  | ending (g : Nat) (m : EndMsg)
  deriving DecidableEq, Repr

/-- The DMA engine of one cluster (R338 to R359). STATUS bits 0 to 3: DESC_FAULT, BOUNDS, LOST, REFUSED. `stalled` are the messages that wait for
the end of a hold, oldest first (R117). -/
structure DmaEngine where
  queues : Tbl (List DmaEntry)
  outstanding : List Xfer
  serial : Nat
  status : BitVec 4
  peak : BitVec 10
  done : Word64
  bytes : Word64
  qlimit : Tbl Word16
  stalled : List StalledMsg
  deriving DecidableEq, Repr

/-- The widening registers of a cluster (R128). -/
structure WidenRegs where
  count : Word32
  last : BitVec 18
  lastClips : Word32
  deriving DecidableEq, Repr

/-- The scheduling registers of a cluster (CLS_SCHED_*, CLS_PREEMPT_*, CLS_STEALS_*; spec 16). -/
structure SchedRegs where
  preemptWait : BitVec 14
  fullGap : BitVec 3
  fullDisable : Bool
  stealBytes : Byte
  cancelled : Bool
  saveLost : Bool
  fullCount : Word32
  lightCount : Word32
  stealsIn : Word32
  stealsOut : Word32
  saveNs : Word64
  deriving DecidableEq, Repr

/-- The integrity registers of a cluster (R546): lockstep mismatch counters, replays, and the spare rows in use by bin and bank (R539),
keyed bin × 16 + bank, bin 8 being the cluster bin. -/
structure IntegrityRegs where
  lockstepCore : Word32
  lockstepCluster : Word32
  replays : Word32
  spareRows : Tbl Nat
  deriving DecidableEq, Repr

/-- One cluster: its bin, former, sequencer lists, sheaf records and DMA engine. `ready` is keyed by stage; `unlisted`
holds closed sheaves kept back by a full list (R437). `leases` is the epoch its bay map copy holds of each table and `pinCount`
its sheaf pins, keyed table × 2^32 + epoch (R234). `progress` counts items started and verdicts taken (R499); `stopped` says that the
sequencer pair has stopped or is being reset (R516, R518), `retired` that the cluster is out of service (R538). -/
structure ClusterState where
  bin : Mem
  binCorrected : Word16
  binUncorrectable : Bool
  openSheaves : List OpenSheaf
  unlisted : List WorkItem
  ready : Tbl (List WorkItem)
  records : Tbl (Option SheafRecord)
  former : FormerCounters
  widen : WidenRegs
  sched : SchedRegs
  preempts : List Preemption
  dma : DmaEngine
  integrity : IntegrityRegs
  leases : Tbl Nat
  pinCount : Tbl Nat
  nextOpened : Nat
  progress : Nat
  stopped : Bool
  retired : Bool
  deriving DecidableEq, Repr

end Sys2Proof.Machine
end

