-- ==== Sys2Proof/Machine/SysTypes.lean ====
section
/-!
DEFINITION. What units send each other, and the partitions: fault reports, messages on the mesh and the ports, the
descriptor of a partition (spec 02, 18).
-/

namespace Sys2Proof.Machine

/-- The resources of a partition (R37, R40): masks of clusters, loft channels, Ethernet port halves and functions;
ranges as first and count. -/
structure PartitionDesc where
  clusters : Nat
  granary : List (Nat × Nat)
  loft : Nat
  queues : Nat × Nat
  semaphores : Nat × Nat
  contexts : Nat × Nat
  windows : Nat × Nat
  ports : Nat
  functions : Nat
  d2dCredits : List (Nat × Nat)
  igrumCredits : List Nat
  deriving DecidableEq, Repr

/-- The logical cores of a cluster (DEV_CORE_MAP, R602): physical core of each logical core 0 to 6, which are present,
the spare and whether it is free. -/
structure CoreMap where
  phys : List Nat
  present : Nat
  spare : Nat
  spareFree : Bool
  deriving DecidableEq, Repr

/-- The pin board of a table (R233, R234): its epoch counter and the leases of the bay map copies, as copy and epoch.
Copies are numbered by requester (R227). -/
structure TableBoard where
  epoch : Nat
  leases : List (Nat × Nat)
  deriving DecidableEq, Repr

/-- A table registry entry (R77): TABLE_ID, the layout digest, the epoch, and the channels in which the table's bays lay (R74). -/
structure RegEntry where
  tableId : Nat
  digest : Nat
  epoch : Nat
  channels : List Nat
  deriving DecidableEq, Repr

/-- A held pin (R234), with the queue whose command took it (R428). -/
structure HeldPin where
  handle : Nat
  table : Nat
  epoch : Nat
  ctx : Nat
  queue : Nat
  deriving DecidableEq, Repr

end Sys2Proof.Machine
end

