-- ==== Sys2Proof/Machine/FaultTypes.lean ====
section
/-!
DEFINITION. The state of fault handling (spec 18): the fault queue, teardowns, recoveries, progress sampling and captures.
-/

namespace Sys2Proof.Machine

/-- A fault on its way to the queue (R494, R495): its report, the serial number by which its recovery and its event know it, the capture slot
given to it (0xFFFF for none), ENGINE_MASK, COUNT, MERGED, and when the first of them arrived. -/
structure HeldFault where
  report : FaultReport
  serial : Nat
  capture : Nat
  mask : Nat
  count : Nat
  merged : Bool
  since : Nat
  deriving DecidableEq, Repr

/-- A teardown in progress (R497): its context, the code its commands complete with (R75, R426), the capture slot that comes first, and
whether that capture has been taken. -/
structure Teardown where
  ctx : Nat
  code : Nat
  slot : Nat
  captured : Bool
  deriving DecidableEq, Repr

/-- A recovery of a unit (R511, R512): the serial number of the fault behind it, its engine, unit, reset domain, the fault kind that opened it and the DETAIL of that fault, whether it is
open or queued, its capture slot (0xFFFF for none) and whether that has been taken. -/
structure Recovery where
  serial : Nat
  engine : Nat
  unitKind : Nat
  unit : Nat
  domain : Nat
  kind : Nat
  detail : Nat
  address : Nat
  ctx : Option Nat
  running : Bool
  slot : Nat
  captured : Bool
  deriving DecidableEq, Repr

/-- A context's fault registers (R514). -/
structure CtxFaults where
  overflow : Word16
  stopped : Bool
  last : Word32
  deriving DecidableEq, Repr

/-- The samples of one engine (R499): its counter at the last sample, how many samples in a row found it unchanged with work pending, and
whether this episode has been reported. -/
structure Sample where
  counter : Nat
  still : Nat
  reported : Bool
  deriving DecidableEq, Repr

/-- A capture record (R503): the serial number and the SEQUENCE of its fault, TIME, DOMAIN, COMPLETE, TRUNCATED, and its sections by TYPE,
COUNT and bytes. -/
structure Capture where
  serial : Nat
  fault : Nat
  time : Nat
  domain : Nat
  complete : Bool
  truncated : Bool
  sections : List (Nat × Nat × Nat)
  deriving DecidableEq, Repr

/-- Fault handling (R514). `records` holds the records of the ring by SEQUENCE mod 1,024, `sequences` the SEQUENCE that a fault's serial number
took. STATUS bits 0 to 2: OVERFLOW, CAPTURE_SKIPPED, INSTANCE_LOST. `intCtl` is kept by physical function; `lost` is the mask of silent
engines (R510). -/
structure FaultState where
  records : Tbl (List Byte)
  head : Word32
  tail : Word32
  serial : Nat
  sequences : Tbl Nat
  merge : List HeldFault
  overflowFirst : Option HeldFault
  overflowLast : Option HeldFault
  status : BitVec 3
  period : Word16
  limit : Word16
  overflowDevice : Word32
  captureHead : BitVec 7
  captureSlot : BitVec 7
  capturePage : BitVec 5
  intCtl : Tbl (BitVec 12)
  ctxs : Tbl CtxFaults
  teardowns : List Teardown
  recoveries : List Recovery
  samples : Tbl Sample
  captures : Tbl (Option Capture)
  lost : Nat
  deriving DecidableEq, Repr

end Sys2Proof.Machine
end

