-- ==== Sys2Proof/Machine/GleanerTypes.lean ====
section
/-!
DEFINITION. The state of one gleaner and its channel (spec 08 to 10): data and its readability, tags, threads, queues,
the displaced-row map, the reserve, the hot-row cache, the load counters and the registers. A gleaner's key is its
physical channel: stack × 32 + channel for granary, 384 + channel for loft (R349).
-/

namespace Sys2Proof.Machine

/-- A gleaner's vector register: 128 lanes of 64 bits (R252). -/
abbrev WideLanes := Vector Word64 128

/-- The vector register that holds zeros. -/
def zeroWide : WideLanes := Vector.replicate 128 0
/-- A vector register by lanes. -/
def wideOf (f : Nat → Word64) : WideLanes := Vector.ofFn (fun i : Fin 128 => f i.val)

/-- A context tag (R259). -/
structure BaleTag where
  owner : Nat
  valid : Bool
  partition : Bool
  read : Bool
  write : Bool
  poison : Bool
  deriving DecidableEq, Repr

/-- The displaced-row map's roles and states (R278). -/
inductive MoveState where
  | copying | dual | forward | taking | ordering
  deriving DecidableEq, Repr

/-- A displaced-row map entry (R278): the moving row by table key and index, this gleaner's slot offset, the destination
bay, and the command TAG that asked for the move (0 for the balancer). `marked` is a mask of requesters. -/
structure Displaced where
  table : Nat
  row : Nat
  state : MoveState
  peer : Nat
  count : Nat
  marked : Nat
  offset : Nat
  bay : Nat
  tag : Nat
  deriving DecidableEq, Repr

/-- Where a pooled row comes from (R266, R299, R306); `remote` is the home's row, read for a replica that cannot be (R277). -/
inductive RowSource where
  | home | moved | retained | replica | cache | default | composed | remote
  deriving DecidableEq, Repr

/-- A row read in flight (R297 to R306): the version fixed at its point, whether it is unreadable, and how it is resolved.
`stubble`: 0 none sent, 1 in flight, 2 in the buffer, 3 failed; `mirror`: 0 not asked, 1 asked, 2 failed. `got` is the row that
the program takes: slot bytes, whether it is a stubble row, and DEGRADED. -/
structure RowFetch where
  table : Nat
  row : Nat
  bay : Nat
  source : RowSource
  addr : Nat
  cls : Nat
  slot : List Byte
  bad : Bool
  arrived : Bool
  deadline : Bool
  expired : Bool
  stubble : Nat
  stubbleSlot : List Byte
  mirror : Nat
  got : Option (List Byte × Bool × Bool)
  deriving DecidableEq, Repr

/-- A row read that a GPOOL has issued (R266, R269): where it combines, and its P row where the table is composed. -/
structure PendingRow where
  fetch : RowFetch
  second : Option RowFetch
  vd : Nat
  block : Nat
  comb : Nat
  fmt : Nat
  weight : Nat
  deriving DecidableEq, Repr

/-- How a thread stands: running, waiting at END, or ended by a status that its END record will carry. -/
inductive ThreadPhase where
  | running
  | atEnd
  | stopped (status : Nat)
  deriving DecidableEq, Repr

/-- One thread (R262 to R270). `record` is the open record's bytes; `marks` and `count` its header's; `allMarks` the
END record's; `began` is when the thread started, `replaced` whether it has issued a
replacement (R508), `late` whether its request's deadline has passed (R298). -/
structure Thread where
  req : GReq
  phase : ThreadPhase
  s : Tbl Word64
  v : Tbl WideLanes
  args : List Byte
  isOpen : Bool
  record : List Byte
  count : Nat
  marks : Nat
  sent : Nat
  allMarks : Nat
  loops : List LoopFrame
  pc : Nat
  issued : Nat
  pendingRows : List PendingRow
  began : Nat
  replaced : Bool
  late : Bool
  deriving DecidableEq, Repr

/-- A retained copy in the reserve (R235): its tag and slot bytes, `poisoned` where it was written unreadable. -/
structure Retained where
  table : Nat
  row : Nat
  tag : Nat
  slot : List Byte
  poisoned : Bool
  deriving DecidableEq, Repr

/-- A row in the add buffer (R274), with the channel bytes it lies in. -/
structure AddRow where
  table : Nat
  row : Nat
  off : Nat
  size : Nat
  deriving DecidableEq, Repr

/-- A hot-row cache slot (R275): 0 home, 1 replica, 2 default; `recency` orders displacement, `hits` counts a replica's lookups in its home's
current load window (R251). -/
structure CacheSlot where
  table : Nat
  row : Nat
  kind : Nat
  slot : List Byte
  recency : Nat
  markers : Nat
  withdrawing : Bool
  hits : Nat
  deriving DecidableEq, Repr

/-- A bay's traffic in the current load window (R242). -/
structure BayLoad where
  lookups : Nat
  reads : Nat
  replacements : Nat
  waits : Nat
  rows : Tbl Nat
  dramRows : Tbl Nat
  deriving DecidableEq, Repr

/-- A replicated row at its home (R249): the gleaners that hold its replicas, and the load windows in a row in which its lookups stayed
below a quarter of REPL_THRESHOLD (R251). -/
structure ReplicaEntry where
  table : Nat
  row : Nat
  holders : List Nat
  quiet : Nat
  deriving DecidableEq, Repr

/-- A built-in request that has taken its point and waits for the channel (R280): a raw read's bytes, the old value of a
compare-and-swap, or a row read. `status` and `marks` are what its END will carry. -/
structure ChannelOp where
  req : GReq
  fetch : Option RowFetch
  data : List Byte
  bad : Bool
  mirror : Nat
  status : Nat
  marks : Nat
  deriving DecidableEq, Repr

/-- A bale stub (R294): requests for the bale are forwarded to the destination. -/
structure BaleStub where
  bale : Nat
  dest : Nat
  destBale : Nat
  deriving DecidableEq, Repr

/-- A tag write not yet acknowledged (R261): the bales written, and the waiting requests that name one of them and were admitted under the
old tags. -/
structure TagChange where
  bales : List Nat
  ctx : Nat
  old : List GReq
  deriving DecidableEq, Repr

/-- A channel's traffic test and what decides on the channel (R540 to R547): GLN_TEST STATE, MODE, SUSPECT, FAILED_SEEN, the DRAM rows
PENDING_REPAIR and the errors; the units corrected in each of the last 60 min of service, latest first (R541); the units found
uncorrectable, each with the service second of its last finding (R542). -/
structure TrafficTest where
  phase : Nat
  mode : Nat
  suspect : Bool
  failedSeen : Bool
  hardRows : List Nat
  errors : Word32
  recent : List Nat
  found : List (Nat × Nat)
  deriving DecidableEq, Repr

/-- One gleaner and its channel. `bad` gives the readability of a 64 B unit: 0 readable, 1 uncorrectable, 2 the
reserved poison syndrome (R305, R310); an unlisted unit has `badRest`, 2 in a channel that has been written whole with that syndrome. Tables are keyed by partition × 4,096 + table. `queue` holds the
requests that have arrived and are not taken: the first 64 fill the request queue, the rest wait at the station or fabric for credits (R254);
`forwardQueue` the forwarded requests not taken (R278). `held` is the held-request buffer of row
moves and `heldBale` that of bale moves; `waiting` the replacements that wait for reserve space, a program's with the kind 16 + 8 × gleaner + thread
(R237); `addBuffer` the rows last added to, latest first (R274); `history` the LOOKUPS of each bay in its last 8 load windows, latest first (R243);
`refusedMoves` the moves refused for a retained copy (R247); `moved` lists the rows that live in this channel's move slots; `freeSlots` the free move
slots of a bay; `baleHold` the bales that hold direct requests (R294); `lateReads` the loft reads whose rows were resolved without them, with their requests. STATUS bits 0 to 5 are those
of R283. -/
structure GleanerState where
  data : Mem
  bad : Tbl Nat
  badRest : Nat
  tags : Tbl BaleTag
  queue : List GReq
  forwardQueue : List GReq
  held : List GReq
  heldBale : List GReq
  threads : Tbl (Option Thread)
  ops : List ChannelOp
  map : List Displaced
  mapPeak : Nat
  moved : List (Nat × Nat × Nat)
  lateReads : List (GReq × RowFetch)
  stubs : List BaleStub
  baleHold : List Nat
  tagChanges : List TagChange
  retained : List Retained
  waiting : List GReq
  cache : List CacheSlot
  cacheClock : Nat
  replicas : List ReplicaEntry
  epochs : Tbl Nat
  pinned : Tbl (List Nat)
  addBuffer : List AddRow
  load : Tbl BayLoad
  history : Tbl (List Nat)
  refusedMoves : Nat
  window : Nat
  freeSlots : Tbl (List Nat)
  stubbleUsed : Nat
  holding : Bool
  status : BitVec 6
  retired : Word64
  rows : Word64
  cacheHits : Word32
  adds : Word32
  flags : Word32
  lastFault : Word32
  corrected : Word16
  uncorrectable : Word16
  poisoned : Nat
  degraded : Word32
  scrubCursor : Nat
  scrubLapped : Bool
  test : TrafficTest
  deriving DecidableEq, Repr

/-- The binding of a stack's logical channels (R315): physical channel of each logical one, and what is absent,
evacuating or reserved. -/
structure StackMap where
  phys : List Nat
  absent : Nat
  evacuating : Option Nat
  cursor : Nat
  oldPhys : Nat
  reserve : Nat
  reserveFree : Bool
  reserveFailed : Bool
  deriving DecidableEq, Repr

/-- The loft block's registers (R316). -/
structure LoftRegs where
  out : Nat
  retraining : Nat
  classDegraded : Tbl Word32
  classLate : Tbl Word32
  promoted : Word32
  demoted : Word32
  deriving DecidableEq, Repr

end Sys2Proof.Machine
end

