-- ==== Sys2Proof/Machine/XltTypes.lean ====
section
/-!
DEFINITION. The state of translation and protection (spec 13): contexts, translation copies, TIERED residency, segment
changes in progress and inbound windows.
-/

namespace Sys2Proof.Machine

/-- The part of a segment entry that may change at run time (R369). -/
structure SegCur where
  limit : Nat
  perm : Nat
  deriving DecidableEq, Repr

/-- What a translation copy holds of a context: its 16 entries and the generation it translates under (R364, R374). -/
structure CopyCtx where
  segs : List SegCur
  gen : Nat
  deriving DecidableEq, Repr

/-- The steps of a segment change (R371 to R374): waiting for the generation before the last, revoking copies, revoking
tags, granting tags, granting copies. -/
inductive ChangePhase where
  | waiting | revokeCopies | revokeTags | grantTags | grantCopies
  deriving DecidableEq, Repr

/-- A segment change in progress (R369 to R374). `after` is the entry once complete, `between` the entry with the
revoking part alone; `form` is what the result reports and `drain` says that it runs in drain form. `updated` and `copies` are the masks of the copies that
hold the phase's entry and that have acknowledged it, `marks` the last transfer serial of each cluster when its copy took the
entry; `subs` the gleaners still to acknowledge in range form; `stations` the mask of the 14 acknowledgements of drain form. -/
structure SegChange where
  ctx : Nat
  seg : Nat
  between : SegCur
  after : SegCur
  form : Nat
  drain : Bool
  phase : ChangePhase
  updated : Nat
  copies : Nat
  marks : Tbl Nat
  subs : List Nat
  stations : Nat
  fn : Nat
  deriving DecidableEq, Repr

/-- One context (R360, R370, R380): STATE 0 FREE, 1 ACTIVE, 2 TORN_DOWN. -/
structure CtxState where
  state : Nat
  part : Nat
  version : Word32
  gen : Nat
  segs : List SegCur
  deriving DecidableEq, Repr

/-- A bale move in progress (R294): to granary or to loft, whether it has flipped, and the transfer it serves (cluster 255: none). `drains` are the
transfers translated before the flip, by cluster and serial number. -/
structure BaleMove where
  bale : Nat
  promote : Bool
  frame : Nat
  flipped : Bool
  cluster : Nat
  serial : Nat
  drains : List (Nat × Nat)
  deriving DecidableEq, Repr

/-- The residency of a TIERED segment (R290 to R294): `resident` maps a bale to its frame + 1; `order` is the order in
which PROMOTEs were taken; `dirty` marks the units (bale × 1,024 + unit) written since the promotion; `waiting` the bales that wait for a
free frame, and `leaving` those whose DEMOTE waits for room at its loft gleaner (R296), each with the cluster and serial number of its
transfer. -/
structure TieredSeg where
  resident : Tbl Nat
  order : List Nat
  dirty : Tbl Bool
  moves : List BaleMove
  waiting : List (Nat × Nat × Nat)
  leaving : List (Nat × Nat × Nat)
  deriving DecidableEq, Repr

/-- An inbound window mapping as it stands (R377, R379). -/
structure MappingCur where
  context : Nat
  perm : Nat
  key : Nat
  peer : Nat
  winOffset : Nat
  length : Nat
  target : Nat
  cleared : Bool
  deriving DecidableEq, Repr

/-- A window change waiting for the two Igrum engines (R379); `acks` is the mask of those that have acknowledged, `mark`
the first operation that the new mapping admits. -/
structure WindowChange where
  window : Nat
  mapping : Nat
  ctx : Nat
  acks : Nat
  mark : Nat
  fn : Nat
  deriving DecidableEq, Repr

/-- What a function captured by XLT_SEG_SELECT (R380). -/
structure SegCapture where
  select : BitVec 12
  data : List Word32
  version : Word32
  deriving DecidableEq, Repr

/-- The translation block (R360 to R380). `copies` is keyed copy × 256 + context: copies 0 to 23 the clusters, 24 and
25 the GFE instances, 26 and 27 the Igrum engines, 28 and 29 the host ports. `changeQueue` are the functions whose administrative command waits for its turn
(R370). `windows` is keyed by device-wide window, contexts in it device-wide. `tiered` is keyed context × 16 + segment.
STATUS bits: 1 BOUNDS, 2 WIN_REFUSED. -/
structure XltState where
  ctxs : Tbl CtxState
  copies : Tbl CopyCtx
  tiered : Tbl TieredSeg
  changes : List SegChange
  changeQueue : List Nat
  windows : Tbl (List MappingCur)
  windowChanges : List WindowChange
  status : BitVec 3
  upgraded : Word32
  winRefused : BitVec 27
  captures : Tbl SegCapture
  deriving DecidableEq, Repr

end Sys2Proof.Machine
end

