-- ==== Sys2Proof/Machine/FrontTypes.lean ====
section
/-!
DEFINITION. The state of the host interface (spec 14) and of the global front end (spec 15): functions, window slots,
attachments and their journals, queues, commands and semaphores.
-/

namespace Sys2Proof.Machine

/-- A window slot entry (R386). -/
structure SlotEntry where
  valid : Bool
  read : Bool
  write : Bool
  filter : Bool
  landingEn : Bool
  context : Nat
  requester : Nat
  reqMask : Nat
  target : Nat
  landing : Nat
  deriving DecidableEq, Repr

/-- An outbound handle (R392). -/
structure HandleEntry where
  valid : Bool
  anyContext : Bool
  suspended : Bool
  context : Nat
  hostAddress : Nat
  length : Nat
  deriving DecidableEq, Repr

/-- One outbound write as the device issues it: its outbound address, its bytes and, for a completion record, its queue and the
vector that follows it (R392, R397, R427). `host` is the bus address of a transfer translated at its submission (R344); a journal record
goes by its outbound address, and `lost` says that a granary failure took it (R398). `tags` are the commands that the write serves (R425). -/
structure OutWrite where
  addr : Nat
  bytes : List Byte
  queue : Option Nat
  vector : Option Nat
  host : Option Nat := none
  lost : Bool := false
  tags : List Nat := []
  deriving DecidableEq, Repr

/-- An attachment (R395 to R401). `state`: 0 FREE, 1 ATTACHED, 2 DETACHED, 3 REPLAYING. `unacked` are the posted TLPs not yet
acknowledged, `waiting` the writes held by a retraining link or a full journal, `withheld` the records of completion targets that are stopped, which
the journal holds, or that wait for a check read (R393, R394), `journalSent` how many journal records replay has sent, `adoptHold` a replay that waits for REPLAY. `credRead` says that CRED3 has been read. -/
structure Attachment where
  state : Nat
  fn : Nat
  journal : List OutWrite
  journalSent : Nat
  withheld : List OutWrite
  journalLost : Bool
  adoptHold : Bool
  cause : BitVec 3
  unacked : List OutWrite
  waiting : List OutWrite
  pendingVectors : List Nat
  handles : Tbl (Option HandleEntry)
  landing : Tbl Word64
  credential : BitVec 128
  credRead : Bool
  refusals : Nat
  locked : Bool
  timeout : BitVec 14
  beatAt : Nat
  alarm : BitVec 11
  deriving DecidableEq, Repr

/-- One PCIe function (R383 to R386, R401): its BAR2 run, enables, MSI-X table, and its copies of HOST_ATTACH_CTL,
HOST_ATTACH_CRED and the administrative ring's registers (R411, R429). -/
structure HostFn where
  slotBase : Nat
  slotCount : Nat
  short : Bool
  bar2 : Nat
  memSpace : Bool
  busMaster : Bool
  d3hot : Bool
  disabled : Bool
  msix : Mem  -- the MSI-X table, and behind its 32 KiB the pending bit array (R384)
  ctlAttachment : BitVec 5
  ctlMode : BitVec 2
  ctlResult : BitVec 3
  cred : BitVec 128
  adminSlots : Mem
  adminTail : Word32
  adminHead : Nat
  adminSeal : Option Nat  -- the slot whose seal fetch waits on (R410, R411)
  adminSeq : Nat
  adminDone : Word32
  adminCq : Word64
  accessErr : Word32
  deriving DecidableEq, Repr

/-- One host port (R382, R383, R396): whether its link is up, retraining, and PERST# asserted; `retrainLimit` in ms. -/
structure HostPort where
  up : Bool
  retraining : Bool
  perst : Bool
  clksel : Bool
  retrainLimit : Nat
  deriving DecidableEq, Repr

/-- A check read on its way (R393): the queue, attachment and function of its record, the record's bus address, and the vector that
follows a success. -/
structure CheckRead where
  queue : Nat
  att : Nat
  fn : Nat
  addr : Nat
  vector : Option Nat
  deriving DecidableEq, Repr

/-- The host block (R401). STATUS bits 0 to 3: WIN_REFUSED, DOORBELL_DROPPED, CHECK_FAILED, ALARM_CONFLICT. `slots` is keyed
by device-wide pool slot; `cmirror` by queue. -/
structure HostState where
  status : BitVec 4
  winRefused : Word32
  ports : Tbl HostPort
  fns : Tbl HostFn
  atts : Tbl Attachment
  slots : Tbl (Option SlotEntry)
  checks : List CheckRead
  cmirror : Tbl Nat
  deriving DecidableEq, Repr

/-- Where a command stands: parsed and waiting for dispatch, dispatched and not yet begun, begun, complete. -/
inductive CmdPhase where
  | parsed | dispatched | running | complete
  deriving DecidableEq, Repr

/-- A relocated reference (R420): FORM 0 absent, 1 a context address, 3 an outbound address. -/
structure Ref where
  form : Nat
  addr : Nat
  len : Nat
  deriving DecidableEq, Repr

/-- A fetched command (R414, R424 to R426). `live` is the count of R425; `code` the highest code raised that is not from a
mark; `granted` says that its wait has been satisfied (R416), `ended` that its work is over and its outbound writes are still to be issued (R425). -/
structure Cmd where
  seq : Nat
  op : Nat
  flags : Nat
  waitObj : Nat
  signalSem : Nat
  waitKind : Nat
  userTag : Nat
  waitValue : Nat
  signalValue : Nat
  operands : List Byte
  inline : List Byte
  refs : List Ref
  phase : CmdPhase
  code : Nat
  marks : Nat
  live : Int
  stopped : Bool
  progress : Nat
  granted : Bool
  ended : Bool := false
  deriving DecidableEq, Repr

/-- A work queue (R403 to R410, R428). `ring` are the device physical addresses of the 64 KiB pieces of its ring, from the ring's
first byte; `waitSeal` is the slot whose seal fetch waits on (R410); `destroyer` is the function whose QUEUE_DESTROY is under way. -/
structure QueueState where
  state : Nat
  inst : Nat
  attachment : Nat
  part : Nat
  context : Nat
  ring : List Nat
  ringOffset : Nat
  slotsLog2 : Nat
  recordsLog2 : Nat
  cq : Nat
  vector : Nat
  head : Nat
  tail : Nat
  cqHead : Nat
  waitSeal : Option Nat
  waitEvent : Bool
  cmds : List Cmd
  nextSeq : Nat
  cstop : Bool
  destroyer : Option Nat
  deriving DecidableEq, Repr

/-- A semaphore (R416 to R418). `waiters` are the queues whose next command waits on it, and 1,024 + f for the administrative command of
function f, in the order in which they began to wait. -/
structure Semaphore where
  value : Nat
  holder : Option Nat
  revoked : Bool
  waiters : List Nat
  deriving DecidableEq, Repr

/-- The administrative command that a function is running (R411). `fetched` is the device time of its
fetch; `begun` says that its outcome comes later, `granted` that its wait has been satisfied. -/
structure AdminCmd where
  seq : Nat
  op : Nat
  flags : Nat
  userTag : Nat
  operands : List Byte
  inline : List Byte
  waitKind : Nat
  waitObj : Nat
  waitValue : Nat
  signalSem : Nat
  signalValue : Nat
  malformed : Bool
  planTag : Nat
  fetched : Nat
  begun : Bool
  granted : Bool
  deriving DecidableEq, Repr

/-- The front end (R429). STATUS bits 0 to 2: MALFORMED, DOORBELL_DROPPED, EARLY. `turns` is the partition at which the search for an instance's next turn
begins, `equals` the queue at which that among a partition's equal queues begins, by instance × 8 + partition (R449). -/
structure FrontEnd where
  status : BitVec 3
  early : Word32
  dispatched : Word64
  queues : Tbl QueueState
  sems : Tbl Semaphore
  semSelect : Word16
  semState : Word32
  semValue : Word64
  admin : Tbl (Option AdminCmd)
  clock : Nat
  turns : Tbl Nat
  equals : Tbl Nat
  deriving DecidableEq, Repr

/-- A table epoch on its way to the gleaners of a table (R233): those that have not acknowledged, and the command. -/
structure EpochAdvance where
  part : Nat
  table : Nat
  epoch : Nat
  waiting : List Nat
  queue : Nat
  seq : Nat
  deriving DecidableEq, Repr

/-- A bay map copy (R227): its move table as table key, row and gleaner, and its replica table. -/
structure BayMapCopy where
  moves : List (Nat × Nat × Nat)
  replicas : List ReplicaEntry
  deriving DecidableEq, Repr

end Sys2Proof.Machine
end

