-- ==== Sys2Proof/Machine/LinkTypes.lean ====
section
/-!
DEFINITION. The state of the Ethernet ports and of the Igrum transport (spec 17).
-/

namespace Sys2Proof.Machine

/-- One Ethernet port (R486). `paused` holds a bit for each priority of half a and, from bit 8, of half b (R457). -/
structure EthPort where
  mode : BitVec 2
  pmd : BitVec 2
  pfcEn : Bool
  linkA : Bool
  linkB : Bool
  linkLost : Bool
  fecCorrected : Word32
  fecUncorrected : Word32
  macA : BitVec 48
  macB : BitVec 48
  ipv4A : Word32
  ipv4B : Word32
  ipv6A : BitVec 128
  ipv6B : BitVec 128
  rxDropped : Word32
  txFrames : Word64
  rxFrames : Word64
  paused : BitVec 16
  deriving DecidableEq, Repr

/-- The transport registers (R487). STATUS bits 0 to 3: PATH_FAILED, PEER_DOWN, CREDIT_VIOLATION, DROP. `vcMap` holds PCP and DSCP as
the register lays them out. -/
structure IgtRegs where
  etherType : Word16
  ttl : Byte
  node : Word32
  udpPort : Word16
  status : BitVec 4
  drops : Word16
  dropReason : BitVec 3
  vcMap : Tbl (BitVec 9)
  selKind : BitVec 2
  selIndex : Byte
  selResult : BitVec 3
  data : Tbl Word32
  deriving DecidableEq, Repr

/-- The running state of a peer (R482 to R484): the paths that are UP, the path that a failover probes, the active path, the epoch, the
last proposal of the other side, replies in a row on each path, and the paths with a probe outstanding. -/
structure PeerState where
  pathsUp : Nat
  probing : Option Nat
  active : Nat
  epoch : Nat
  proposal : Option Nat
  failovers : Word16
  replies : Tbl Nat
  probed : Nat
  deriving DecidableEq, Repr

/-- A DATA packet that is not yet acknowledged (R462, R473): its PSN, whether it is a response, its bytes after the transport header. -/
structure TxPacket where
  psn : Nat
  response : Bool
  body : List Byte
  deriving DecidableEq, Repr

/-- An operation that a send ring has handed to the transport (R477): its ring and free-running index, its slot, the tag its packets
carry, its next packet, the cells taken for its response (R466), and what its response has brought. -/
structure SendOp where
  serial : Nat
  ring : Nat
  index : Nat
  ctx : Nat
  slot : List Byte
  tag : Nat
  nextPacket : Nat
  sent : Bool
  respCells : Nat
  got : Nat
  status : Nat
  aborted : Bool
  deriving DecidableEq, Repr

/-- An operation that a peer has sent (R479): its first operation header, the data assembled, the cells it holds, and its gleaner
request's state. `base` is the context address to which an admitted WRITE writes; `drop` says that its response is discarded (R483). -/
structure RecvOp where
  serial : Nat
  peer : Nat
  vc : Nat
  header : List Byte
  ctx : Nat
  base : Option Nat
  data : List Byte
  cells : Nat
  status : Nat
  detail : Nat
  marks : Nat
  waiting : Bool
  drop : Bool
  deriving DecidableEq, Repr

/-- Whether an operation has been admitted and is not answered yet (R379). -/
def RecvOp.inFlight (r : RecvOp) : Bool := r.waiting || r.base.isSome

/-- One stream, a peer and VC (R465, R471 to R474): as a sender its next PSN, the grant's ACK_PSN and CREDIT, the packets not yet
acknowledged, retries, rate in units of 2^−32 of the port rate and the operations in order; as a receiver the PSN it expects, the
ports on which it holds a reservation, whether an acknowledgement is due, on which path, and owes ECN_ECHO, and when it last sent a NAK. -/
structure Stream where
  nextPsn : Nat
  ackPsn : Nat
  credit : Nat
  unacked : List TxPacket
  retries : Nat
  rate : Nat
  ops : List SendOp
  expected : Nat
  reserved : Tbl Bool
  ackDue : Bool
  ackPath : Nat
  echo : Bool
  lastNak : Option Nat
  deriving DecidableEq, Repr

/-- A completion entry that waits for those before it (R478). -/
structure RingDone where
  index : Nat
  entry : List Byte
  signal : Bool
  deriving DecidableEq, Repr

/-- A send ring in service (R476, R478): the next slot to read, when it last yielded a sealed slot, the next entry to write and the
entries that are ready early. -/
structure RingState where
  next : Nat
  lastYield : Nat
  written : Nat
  ready : List RingDone
  deriving DecidableEq, Repr

/-- The links: ports by number; the transport's registers; entries as 64 bytes (empty where all are 0); running peers, streams (keyed
peer × 8 + VC), rings, and operations received. `serial` numbers operations. -/
structure LinkState where
  ports : Tbl EthPort
  regs : IgtRegs
  peerEntries : Tbl (List Byte)
  pathEntries : Tbl (List Byte)
  ringEntries : Tbl (List Byte)
  peers : Tbl PeerState
  streams : Tbl Stream
  rings : Tbl RingState
  recv : List RecvOp
  serial : Nat
  deriving DecidableEq, Repr

end Sys2Proof.Machine
end

