-- ==== Sys2Proof/Machine/LoadTypes.lean ====
section
/-!
DEFINITION. The state of the loader and of the plan key store (spec 02).
-/

namespace Sys2Proof.Machine

/-- A key slot of the store in flash (R61, R558): state 0 EMPTY, 1 ACTIVE, 2 REVOKED; the public key and the floor. -/
structure KeySlot where
  state : Nat
  key : Nat
  floor : Nat
  deriving DecidableEq, Repr

/-- Where a load stands: fetched and waiting for a staging slot; staged; decided for acceptance and waiting for the old plan's commands
to drain (R78); installing (R71), and after a switch installed with its record still to write. -/
inductive LoadPhase where
  | waiting | staged | draining | installing | installed
  deriving DecidableEq, Repr

/-- A PLAN_LOAD (R62, R67, R70): the function that asked, the partition, the flags, the device physical bytes of the image and of the
result record, the staging slot that holds the image's bytes, and the capacity as it stood when the load started (R71). -/
structure Load where
  fn : Nat
  part : Nat
  mirror : Bool
  replace : Bool
  source : List Nat
  record : List Nat
  fetched : Nat
  phase : LoadPhase
  image : List Byte
  coreMap0 : Tbl CoreMap
  stacks0 : Tbl StackMap
  loft0 : Nat
  sysArea0 : Nat
  decided : Nat
  deriving DecidableEq, Repr

/-- A PARTITION_DEFINE that waits for its scrubs (R41): the function, the RESULT address, and the units still to scrub. -/
structure Scrub where
  fn : Nat
  result : Nat
  part : Nat
  clusters : Nat
  channels : List Nat
  deriving DecidableEq, Repr

/-- An unload (R75) or the drain of a replacement: the function whose command it is, and whether it aborts. -/
structure Unload where
  fn : Nat
  part : Nat
  abort : Bool
  result : Nat
  deriving DecidableEq, Repr

/-- The loader: loads in fetch order, definitions and unloads in progress, the key store, and the silicon stepping (R43). -/
structure LoaderState where
  loads : List Load
  scrubs : List Scrub
  unloads : List Unload
  keys : Tbl KeySlot
  stepping : Nat
  deriving DecidableEq, Repr

end Sys2Proof.Machine
end

