-- ==== Sys2Proof/Machine/MgmtTypes.lean ====
section
/-!
DEFINITION. The state of start-up and management, of the module's power and sensors, of the fault history and of the registers that belong to
no single unit (spec 01, 19 to 22).
-/

namespace Sys2Proof.Machine

/-- How far a start has come (R561): off; the boot ROMs run; firmware runs; dies powered and HBM training; HBM trained; memory trained; READY;
or FAILED. -/
inductive BootPhase where
  | off | bootRom | firmware | training | hbmTrained | trained | ready | failed
  deriving DecidableEq, Repr

/-- A sensor (R593, R596): TEMP, ABOVE, SEEN. -/
structure Sensor where
  temp : Nat
  above : Bool
  seen : Bool
  deriving DecidableEq, Repr

/-- A compute die's clock and power (R565 to R569, R579): CEILING and the BMC's ceiling, the operating point k and the one a step in progress
leads to, LIMITER, DIE_CAP, rail power over the last 1 ms, TEMP_MAX and the downward steps. -/
structure DieClock where
  ceiling : Nat
  bmcCeiling : Nat
  current : Nat
  stepTo : Option Nat
  limiter : Nat
  dieCap : Nat
  watts : Nat
  tempMax : Nat
  stepsDown : Word32
  deriving DecidableEq, Repr

/-- An outstanding nonce and its endpoint (R557, R559). -/
structure Nonce where
  endpoint : Nat
  value : Nat
  deriving DecidableEq, Repr

/-- A pattern record of the fault history (R533). `summary`, `operandsA`, `operandsW` and `diagnosis` are its byte fields. -/
structure PatternRecord where
  time : Nat
  kind : Nat
  fault : Nat
  planId : Nat
  summary : List Byte
  operandsA : List Byte
  operandsW : List Byte
  diagnosis : List Byte
  deriving DecidableEq, Repr

/-- A fault history entry (R532). -/
structure HistEntry where
  unitKind : Nat
  part : Nat
  unit : Nat
  index : Nat
  state : Nat
  transients : Nat
  confirmed : Nat
  recent : List Nat
  lastEvent : Nat
  permanentAt : Nat
  lastFault : Nat
  patterns : List PatternRecord
  deriving DecidableEq, Repr

/-- An event that awaits its flash write (R534): the entry's index and the serial number of the fault behind it, 0 for none. -/
structure PendingEvent where
  entry : Nat
  serial : Nat
  deriving DecidableEq, Repr

/-- The fault history (R532 to R535, R548): entries in the reeve's memory, those written to flash, events that await the write, FULL, and the
entry captured into the window. -/
structure History where
  entries : List HistEntry
  flash : List HistEntry
  pending : List PendingEvent
  full : Bool
  select : Nat
  window : Option HistEntry
  deriving DecidableEq, Repr

/-- One direction of a die-to-die link (R26, R27): the number of the flit expected next, whether a replay is under way, how many of its
flits have been replayed, and what the sender's retry buffer holds: the flits sent and not yet taken, by number. -/
structure FlitPath where
  expected : Nat
  replaying : Bool
  replays : Nat
  retry : List (Nat × List Byte)
  deriving DecidableEq, Repr

/-- What a function has captured by a read of a _LO register or holds by a write of one (R13): the pair's offset, whether it is a write, and
the 32 bits held. -/
structure PairHold where
  offset : Nat
  write : Bool
  value : Word32
  deriving DecidableEq, Repr

/-- A physical function's interrupt summary (R604, R605): DEV_INT_CTL, READY_EVENT and UNITS, and the summary as last observed. -/
structure IntSummary where
  ctl : BitVec 22
  readyEvent : Bool
  units : Bool
  seen : Nat
  deriving DecidableEq, Repr

/-- A PLDM update or an activation (R572, R573): how many of the five steps are complete. -/
structure Activation where
  done : Nat
  deriving DecidableEq, Repr

/-- Start-up and management. `dies` is keyed by compute die, `down` is the mask of dies held in a warm reset (bits 0, 1 compute, 2, 3 I/O),
`absent` that of compute dies that did not power up. `images` are slots A and B, `prefer` the preferred slot. `maintKeys` are the maintenance
key slots (R556). `roll` is the next stack (0 to 11) or package (12 to 27) of a microcode roll and `rolling` whether it is held. `dipHold` is how many
ms the input has still to stay in range before a die is raised (R589); `calm` counts ms with P below 0.97 C. `untested` is the mask of loft channels not yet tested (R563).
`eids` are the endpoint identifiers by binding (R570): 0 and 1 the VDM of a host port, 2 SMBus. `tap` is the TAP's instruction (R577): 0 BYPASS,
1 IDCODE, 2 SAMPLE/PRELOAD, 3 EXTEST, 4 CLAMP, 5 HIGHZ, others as given; `boundary` says that the pins are under boundary scan. `pairs` are kept by function, `ints` by physical function. -/
structure MgmtState where
  phase : BootPhase
  powerGood : Bool
  thermTrip : Bool
  reeve : Bool
  trained : Bool
  bist : Bool
  ready : Bool
  failed : Bool
  activeReeve : Nat
  standby : Bool
  image : Nat
  lastTrip : Bool
  untested : Nat
  error : Nat
  down : Nat
  absent : Nat
  fwFloor : Nat
  debugLock : Bool
  debugOpen : Bool
  serial : Nat
  rootKeyHash : Nat
  prefer : Nat
  images : Tbl (Option FwImage)
  maintKeys : Tbl KeySlot
  nonces : List Nonce
  activation : Option Activation
  roll : Option Nat
  rolling : Bool
  service : Nat
  serviceFlash : Nat
  harrowEnable : Bool
  harrowInterval : BitVec 8
  harrowDefer : BitVec 10
  hist : History
  hostCap : BitVec 11
  bmcCap : BitVec 11
  lastMs : Nat
  lastS : Nat
  calm : Nat
  dies : Tbl DieClock
  volts : Nat
  dip : Bool
  dipping : Bool
  dipHold : Nat
  energy : Word64
  sensors : Tbl Sensor
  eids : Tbl Nat
  tap : Nat
  boundary : Bool
  modulesOut : Tbl Nat
  flits : Tbl FlitPath
  pairs : Tbl (Option PairHold)
  ints : Tbl IntSummary
  deriving DecidableEq, Repr

end Sys2Proof.Machine
end

