-- ==== Sys2Proof/Machine/State.lean ====
section
/-!
DEFINITION. The state of the block: every register, queue, buffer, counter and memory the spec gives the device, as
plain data, and the queue of waiting commands.
-/

namespace Sys2Proof.Machine

/-- Why the machine stops with a fault. -/
inductive Fault where
  /-- A command names a unit that the device does not have (R6). Raised by the shared guards of every command that
  carries a unit number; safe: the machine stops where the hardware has no such command. -/
  | noSuchUnit
  deriving DecidableEq, Repr

/-- Why a command is refused. -/
inductive Refusal where
  /-- A command whose meaning is not written. Raised by the arms of `exec` alone; safe. -/
  | notModelled (mnemonic : String)
  deriving DecidableEq, Repr

/-- Everything a unit sends to another unit or out of the module. A receiving step is a command of its own. -/
inductive Out where
  /-- A fault report to the recovery engine (R489); FAULT_REPORT receives it. -/
  | fault (r : FaultReport)
  /-- A released row on its way to another cluster's sheaf former, with its copied input (R185); ROW_ARRIVE receives
  it. -/
  | row (cluster part ctx : Nat) (r : RowDesc) (input : List Byte)
  /-- A released flush for another cluster's former (R185); ROW_ARRIVE receives it. -/
  | flush (cluster part ctx stage : Nat)
  /-- Work items ended, rows consumed and rows released for a command, with marks and a completion code (R425, R426);
  WORK_END_NOTICE receives it. -/
  | workEnd (tag marks code ended released : Nat)
  /-- A clip count on its way to its sheaf record (R112); CLIP_COUNT receives it. -/
  | clips (cluster sheaf pos layer count : Nat)
  /-- A unit acknowledges an abort (R152, R161, R189, R281, R357); `cause` names what it acknowledges. -/
  | acknowledge (unitKind unit cause : Nat)
  /-- A core's request for work (R435); STEAL_REQUEST receives it. -/
  | steal (thief cluster : Nat)
  /-- An END record on its way to a requester (R258); END_RECORD_RECEIVE receives it. -/
  | endRecord (requester gleaner : Nat) (m : EndMsg)
  /-- A record on its way to a requester (R258); RECORD_RECEIVE receives it. -/
  | record (requester gleaner : Nat) (m : RecordMsg)
  /-- A request for a gleaner, sent by a requester or forwarded by a gleaner (R257, R278); the request commands receive it. -/
  | request (gleaner : Nat) (r : GReq)
  /-- A refresh of a replica of a row (R232); REPLICA_REFRESH receives it. -/
  | refresh (gleaner table row : Nat) (slot : List Byte)
  /-- A stubble row for its bay (R232); STUBBLE_REFRESH receives it. -/
  | stubRefresh (gleaner table row : Nat) (slot : List Byte)
  /-- A moving row's copy, or a replacement behind it (R244); MIGRATION_COPY receives it. -/
  | moveCopy (gleaner source table row : Nat) (slot : List Byte) (first : Bool)
  /-- The destination's acknowledgement of a copy (R244); MIGRATION_COPY_ACK receives it. -/
  | moveAck (gleaner table row : Nat)
  /-- FORWARD_START (R244); the command of that name receives it. -/
  | forwardStart (gleaner table row : Nat)
  /-- A move's new location for a bay map copy (R244, R245); MOVE_UPDATE receives it. -/
  | moveUpdate (copy table row dest source : Nat)
  /-- A bay map copy's marker on its route to a source channel (R245); MOVE_MARKER receives it. -/
  | moveMarker (gleaner table row copy : Nat)
  /-- A marker that the source forwards (R245); MOVE_MARKER_FORWARD receives it. -/
  | moveMarkerForward (gleaner table row copy : Nat)
  /-- A stubble read of a loft row (R299); STUBBLE_ROW_ARRIVE answers it. -/
  | stubbleRead (gleaner source table row ctx cls : Nat)
  /-- A read of a mirror's row or unit for an unreadable one (R306, R307); MIRROR_READ_RETURN answers it. -/
  | mirrorRead (gleaner source table row : Nat)
  /-- A copy's marker that follows the withdrawal of a replica (R251); REPLICA_WITHDRAW_MARKER receives it. -/
  | withdrawMarker (gleaner table row copy : Nat)
  /-- The reeve is told to place a replica again (R277). -/
  | replaceReplica (gleaner table row : Nat)
  /-- A gleaner's acknowledgement of a tag write for a context (R261, R373); SUBSCRIBER_ACK receives it. -/
  | tagAck (gleaner ctx : Nat)
  /-- A gleaner holds a table's new epoch (R233); EPOCH_ACK receives it. -/
  | epochAck (gleaner part table : Nat)
  /-- A new epoch and its pin set for a gleaner (R233); EPOCH_DISTRIBUTE receives it. -/
  | epoch (gleaner part table epoch : Nat) (pins : List Nat)
  /-- A bay's load record on its way to the reeve's balancer (R242). -/
  | loadRecord (gleaner : Nat) (record : List Byte)
  /-- A posted memory write leaves a host port for a bus address (R392). -/
  | tlp (fn addr : Nat) (bytes : List Byte)
  /-- An MSI-X message (R382). -/
  | msix (fn vector : Nat)
  /-- A check read of a completion record's first 4 bytes (R393); CHECK_READ_COMPLETE or CHECK_READ_TIMEOUT answers it. -/
  | checkRead (fn addr queue : Nat)
  /-- A completion with data for a read that a host sent (R388, R395). -/
  | completion (fn : Nat) (bytes : List Byte)
  /-- An abort for an engine (R428, R75, R497); the abort commands receive it. -/
  | abort (unitKind unit ctx : Nat) (requester : Option Nat) (tag mask cause : Nat)
  /-- A tag write for bales of a gleaner on behalf of a context (R261, R373); TAG_WRITE receives it. -/
  | tagWrite (gleaner first count word ctx : Nat)
  /-- An Ethernet frame leaves a port, or its half b (R468). -/
  | frame (port : Nat) (half : Bool) (bytes : List Byte)
  /-- The reeve's answer to a maintenance command or a management message (R557, R559): the endpoint, the outcome and the data. -/
  | management (endpoint outcome : Nat) (data : List Byte)
  /-- The data register that the TAP presents (R577). -/
  | tap (value : Nat)
  /-- An MCTP or PLDM response or event (R570 to R572). -/
  | pldm (endpoint : Nat) (kind : Nat) (data : List Byte)
  /-- A checked flit is delivered at the end of a die-to-die link (R26). -/
  | flit (link dir : Nat) (payload : List Byte)
  /-- The sender of a link is asked to replay its flits from a number on (R26, R27). -/
  | flitReplay (link dir first : Nat)
  /-- An event of a history entry for the reeve to write to flash (R534); HISTORY_WRITE_DONE follows. -/
  | history (entry : Nat)
  /-- A table's pinned epochs for its gleaners (R234); PIN_SET_UPDATE receives it. -/
  | pinSet (part table : Nat) (epochs : List Nat)
  deriving DecidableEq, Repr

/-- One partition: its descriptor, its installed plan and tag, its home instance (R404), the pin boards of its tables, its held pins,
the pins a plan switch released (R79), the epoch advances in progress, the next record of each host load ring (R242) and the table
registry (R77). `halted` says that the front end does not fetch on its queues (R75, R78). -/
structure PartState where
  desc : Option PartitionDesc
  plan : Option Plan
  tag : Word16
  home : Nat
  boards : Tbl TableBoard
  heldPins : List HeldPin
  lapsedPins : List HeldPin
  advances : List EpochAdvance
  rings : Tbl Nat
  registry : List RegEntry
  halted : Bool
  deriving DecidableEq, Repr

/-- The machine. -/
structure State where
  pending : List Instr
  freeCtr : Nat
  devTime : Nat
  out : List Out
  parts : Tbl PartState
  coreMap : Tbl CoreMap
  cores : Tbl CoreState
  clusters : Tbl ClusterState
  gleaners : Tbl GleanerState
  stackMaps : Tbl StackMap
  loft : LoftRegs
  sysArea : Nat
  inherited : Tbl Nat
  patterns : List MismatchPattern
  xlt : XltState
  copyMaps : Tbl BayMapCopy
  host : HostState
  gfe : FrontEnd
  links : LinkState
  loader : LoaderState
  faults : FaultState
  acc : AccState
  mgmt : MgmtState
  deriving DecidableEq, Repr

/-- The engine registers at the start of a work item (R165), which is also what the model takes at reset. -/
def vecRegsReset : VecRegs :=
  { v := [], m := [], x := [], nv := 0, ovf := 0, uf := 0, range := 0, recent := [], gens := [], loops := [], pc := 0 }

/-- A bank with no chain (R138). -/
def bankReset : Bank :=
  { isOpen := false, voided := false, entries := [], waiting := 0, mismatch := false }

/-- An accumulator entry that nothing has been added to. -/
def accZero : AccEntry := { value := 0, sat := false }

/-- The grid after reset (R162). -/
def gridReset : Grid :=
  { queue := [], flight := [], active := [], shadow := none, banks := [], before := [], discard := [], aborting := false, repairWanted := none,
    reload := false, status := 0, repairColumn := 0, repairActive := false, tiles := 0, busy := 0, mismatches := 0,
    lastMismatch := 0, skips := 0 }

/-- A core's harrow state after reset (R545). -/
def harrowReset : Harrow :=
  { phase := 0, suspect := false, permanent := false, lastFailed := false, passedAt := 0, passes := 0, diagnosing := false,
    codeLost := false }

/-- A core after reset (R127, R162, R190, R216, R545). -/
def coreReset : CoreState :=
  { phase := .idle, item := none, saved := none, vec := vecRegsReset, held := [], incoming := none, vecStatus := 0, retired := 0,
    stalls := 0, sfu := { status := 0, loaded := 0, ops := 0, busy := 0 },
    winnow := { queue := [], status := 0, rows := 0, clips := 0 }, grid := gridReset, bin := [], binCorrected := 0,
    binUncorrectable := false, dmaMarks := [], harrow := harrowReset, codeBase := 0 }

/-- A cluster's DMA engine after reset (R358, R359). -/
def dmaReset : DmaEngine :=
  { queues := [], outstanding := [], serial := 0, status := 0, peak := 0, done := 0, bytes := 0, qlimit := [], stalled := [] }

/-- CLS_DMA_QLIMIT[q] after reset (R359). -/
def qlimitReset : Word16 := 32

/-- A cluster after reset (R128, R163, R317, R358, R546; CLS_SCHED_CTL of spec 16). -/
def clusterReset : ClusterState :=
  { bin := [], binCorrected := 0, binUncorrectable := false, openSheaves := [], unlisted := [], ready := [],
    records := [], former := { full := 0, timed := 0, flushed := 0, evicted := 0, rows := 0 },
    widen := { count := 0, last := 0, lastClips := 0 },
    sched := { preemptWait := 50, fullGap := 2, fullDisable := false, stealBytes := 63, cancelled := false,
               saveLost := false, fullCount := 0, lightCount := 0, stealsIn := 0, stealsOut := 0, saveNs := 0 },
    preempts := [], dma := dmaReset,
    integrity := { lockstepCore := 0, lockstepCluster := 0, replays := 0, spareRows := [] }, leases := [],
    pinCount := [], nextOpened := 0, progress := 0, stopped := false, retired := false }

/-- A partition that has never been defined (R37). -/
def partReset : PartState := { desc := none, plan := none, tag := 0, boards := [], home := 0, heldPins := [], lapsedPins := [], advances := [], rings := [], registry := [], halted := false }

/-- The binding of logical to physical cores before any repair: physical core n bears logical core n, core 7 is the
free spare. DESIGN CHOICE (log 5): the spec gives no reset value for DEV_CORE_MAP (R602). -/
def coreMapReset : CoreMap := { phys := [0, 1, 2, 3, 4, 5, 6], present := 127, spare := 7, spareFree := true }

/-- A tag with VALID clear (R259). -/
def tagReset : BaleTag := { owner := 0, valid := false, partition := false, read := false, write := false, poison := false }

/-- A gleaner after reset (R283, R314, R547). -/
def gleanerReset : GleanerState :=
  { data := [], bad := [], badRest := 0, tags := [], queue := [], forwardQueue := [], held := [], heldBale := [], threads := [], ops := [],
    map := [], mapPeak := 0, moved := [], lateReads := [], stubs := [], baleHold := [], tagChanges := [], retained := [], waiting := [], cache := [], cacheClock := 0,
    replicas := [], epochs := [], pinned := [], addBuffer := [], load := [], history := [], refusedMoves := 0, window := 0, freeSlots := [], stubbleUsed := 0, holding := false,
    status := 0, retired := 0, rows := 0, cacheHits := 0, adds := 0, flags := 0, lastFault := 0, corrected := 0,
    uncorrectable := 0, poisoned := 0, degraded := 0, scrubCursor := 0, scrubLapped := false,
    test := { phase := 0, mode := 0, suspect := false, failedSeen := false, hardRows := [], errors := 0, recent := [], found := [] } }

/-- A stack's channel map before any repair: logical channel n on physical channel n, channel 31 the free reserve.
DESIGN CHOICE (log 5): PHYSICAL and RESERVE are written at manufacture (R315). -/
def stackReset : StackMap :=
  { phys := List.range 31, absent := 0, evacuating := none, cursor := 0, oldPhys := 0, reserve := 31, reserveFree := true,
    reserveFailed := false }

/-- The loft block after reset (R316). -/
def loftReset : LoftRegs := { out := 0, retraining := 0, classDegraded := [], classLate := [], promoted := 0, demoted := 0 }

/-- A segment entry that maps nothing. -/
def segCurReset : SegCur := { limit := 0, perm := 0 }
/-- A context that no plan has made active (R380). -/
def ctxReset : CtxState := { state := 0, part := 0, version := 0, gen := 0, segs := [] }
/-- A copy that holds no entry of a context. -/
def copyReset : CopyCtx := { segs := [], gen := 0 }
/-- A TIERED segment with nothing resident. -/
def tieredReset : TieredSeg := { resident := [], order := [], dirty := [], moves := [], waiting := [], leaving := [] }
/-- A function's capture before any XLT_SEG_SELECT write (R380). -/
def captureReset : SegCapture := { select := 0, data := List.replicate 12 0, version := 0 }
/-- The translation block after reset (R380). -/
def xltReset : XltState :=
  { ctxs := [], copies := [], tiered := [], changes := [], changeQueue := [], windows := [], windowChanges := [],
    status := 0, upgraded := 0, winRefused := 0, captures := [] }

/-- A bay map copy that routes by home ranges alone. -/
def copyMapReset : BayMapCopy := { moves := [], replicas := [] }

/-- A free attachment (R401). -/
def attReset : Attachment :=
  { state := 0, fn := 0, journal := [], journalSent := 0, withheld := [], journalLost := false, adoptHold := false, cause := 0, unacked := [],
    waiting := [], pendingVectors := [], handles := [], landing := [], credential := 0, credRead := true, refusals := 0,
    locked := false, timeout := 0, beatAt := 0, alarm := 0 }

/-- A function after reset (R384, R401, R429): the BAR2 default of a physical function is set where the function is read. -/
def fnReset : HostFn :=
  { slotBase := 0, slotCount := 0, short := false, bar2 := 0, memSpace := false, busMaster := false, d3hot := false,
    disabled := false, msix := [], ctlAttachment := 0, ctlMode := 0, ctlResult := 0, cred := 0, adminSlots := [], adminTail := 0,
    adminHead := 0, adminSeal := none, adminSeq := 0, adminDone := 0, adminCq := 0, accessErr := 0 }

/-- A host port after reset: PERST# asserted, its link down; the retrain limit is 5 ms (R381). -/
def portReset : HostPort := { up := false, retraining := false, perst := true, clksel := false, retrainLimit := 5 }

/-- The host block after reset (R401). -/
def hostReset : HostState :=
  { status := 0, winRefused := 0, ports := [], fns := [], atts := [], slots := [], checks := [], cmirror := [] }

/-- A free queue (R429). -/
def queueReset : QueueState :=
  { state := 0, inst := 0, attachment := 0, part := 0, context := 0, ring := [], ringOffset := 0, slotsLog2 := 6, recordsLog2 := 4,
    cq := 0, vector := 0, head := 0, tail := 0, cqHead := 0, waitSeal := none, waitEvent := false, cmds := [], nextSeq := 1,
    cstop := false, destroyer := none }

/-- A semaphore after reset. -/
def semReset : Semaphore := { value := 0, holder := none, revoked := false, waiters := [] }

/-- The front end after reset (R429). -/
def gfeReset : FrontEnd :=
  { status := 0, early := 0, dispatched := 0, queues := [], sems := [], semSelect := 0, semState := 0, semValue := 0, admin := [],
    clock := 0, turns := [], equals := [] }

/-- A port after reset (R486). -/
def ethReset : EthPort :=
  { mode := 0, pmd := 0, pfcEn := false, linkA := false, linkB := false, linkLost := false, fecCorrected := 0, fecUncorrected := 0,
    macA := 0, macB := 0, ipv4A := 0, ipv4B := 0, ipv6A := 0, ipv6B := 0, rxDropped := 0, txFrames := 0, rxFrames := 0, paused := 0 }

/-- The transport registers after reset (R487). -/
def igtReset : IgtRegs :=
  { etherType := 0x88B5, ttl := 64, node := 0, udpPort := 0xC2A5, status := 0, drops := 0, dropReason := 0, vcMap := [], selKind := 0,
    selIndex := 0, selResult := 0, data := [] }

/-- A peer none of whose paths has answered yet (R484). -/
def peerReset : PeerState :=
  { pathsUp := 0, probing := none, active := 0, epoch := 0, proposal := none, failovers := 0, replies := [], probed := 0 }

/-- A stream at the start of an epoch, at full rate (R471, R474). -/
def streamReset : Stream :=
  { nextPsn := 0, ackPsn := 0, credit := 0, unacked := [], retries := 0, rate := 2 ^ 32, ops := [], expected := 0, reserved := [],
    ackDue := false, ackPath := 0, echo := false, lastNak := none }

/-- A ring from which nothing has been read. -/
def ringReset : RingState := { next := 0, lastYield := 0, written := 0, ready := [] }

/-- The links after reset. -/
def linksReset : LinkState :=
  { ports := [], regs := igtReset, peerEntries := [], pathEntries := [], ringEntries := [], peers := [], streams := [], rings := [],
    recv := [], serial := 0 }

/-- An empty key slot (R61). -/
def keyReset : KeySlot := { state := 0, key := 0, floor := 0 }

/-- The loader after reset. The stepping is fused at manufacture; 0 is a DESIGN CHOICE (log 5). -/
def loaderReset : LoaderState := { loads := [], scrubs := [], unloads := [], keys := [], stepping := 0 }

/-- A context with no fault (R514). -/
def ctxFaultsReset : CtxFaults := { overflow := 0, stopped := false, last := 0 }
/-- An engine not yet sampled. -/
def sampleReset : Sample := { counter := 0, still := 0, reported := false }

/-- Fault handling after reset (R514). -/
def faultsReset : FaultState :=
  { records := [], head := 1, tail := 1, serial := 1, sequences := [], merge := [], overflowFirst := none, overflowLast := none, status := 0, period := 1000,
    limit := 50, overflowDevice := 0, captureHead := 0, captureSlot := 0, capturePage := 0, intCtl := [], ctxs := [], teardowns := [],
    recoveries := [], samples := [], captures := [], lost := 0 }

/-- A context to which nothing has been charged (R454). -/
def chargesReset : Charges :=
  { coreNs := 0, gleanerNs := 0, binBytes := 0, granaryBytes := 0, loftBytes := 0, hostBytes := 0, linkBytes := 0, energy := 0 }

/-- Accounting after reset (R454); the coefficients are written at test, 0 is a DESIGN CHOICE (log 5). -/
def accReset : AccState := { ctxs := [], snap := [], trim := 0x4000, unattributed := 0, coef := [] }

/-- A sensor before its first reading (R596). -/
def sensorReset : Sensor := { temp := 0, above := false, seen := false }
/-- A compute die at its nominal point (R565, R579). The BMC's ceiling has no reset value: 18, the highest point (DESIGN CHOICE, log 5). -/
def dieReset : DieClock :=
  { ceiling := 14, bmcCeiling := 18, current := 14, stepTo := none, limiter := 0, dieCap := 360, watts := 0, tempMax := 0, stepsDown := 0 }
/-- A link direction that no flit has used. -/
def flitReset : FlitPath := { expected := 0, replaying := false, replays := 0, retry := [] }
/-- A physical function's interrupt summary after reset (R604). -/
def intReset : IntSummary := { ctl := 0, readyEvent := false, units := false, seen := 0 }
/-- An empty fault history: the device as it leaves manufacture (R532; DESIGN CHOICE, log 5). -/
def histReset : History := { entries := [], flash := [], pending := [], full := false, select := 0, window := none }

/-- Start-up and management after reset (R548, R578, R579, R596, R601). Fuses and flash are written at manufacture; the values here are a
DESIGN CHOICE (log 5). -/
def mgmtReset : MgmtState :=
  { phase := .off, powerGood := false, thermTrip := false, reeve := false, trained := false, bist := false, ready := false, failed := false,
    activeReeve := 0, standby := false, image := 0, lastTrip := false, untested := 0, error := 0, down := 0, absent := 0, fwFloor := 0,
    debugLock := true, debugOpen := false, serial := 0, rootKeyHash := 0, prefer := 0, images := [], maintKeys := [], nonces := [],
    activation := none, roll := none, rolling := false, service := 0, serviceFlash := 0, harrowEnable := true, harrowInterval := 24,
    harrowDefer := 200, hist := histReset, hostCap := 1200, bmcCap := 1200, lastMs := 0, lastS := 0, calm := 0, dies := [], volts := 0,
    dip := false, dipping := false, dipHold := 0, energy := 0, sensors := [], eids := [], tap := 1, boundary := false, modulesOut := [],
    flits := [], pairs := [], ints := [] }

/-- The machine right after reset. -/
def State.reset : State :=
  { pending := [], freeCtr := 0, devTime := 0, out := [], parts := [], coreMap := [], cores := [], clusters := [],
    gleaners := [], stackMaps := [], loft := loftReset, sysArea := 8, inherited := [], patterns := [], xlt := xltReset,
    copyMaps := [], host := hostReset, gfe := gfeReset, links := linksReset, loader := loaderReset, faults := faultsReset,
    acc := accReset, mgmt := mgmtReset }

end Sys2Proof.Machine
end

