-- ==== Sys2Proof/Machine/Ops.lean ====
section
/-!
DEFINITION. The named operations every meaning is written over: access to one unit's part of the state, free values,
messages, the installed plan, and bin accesses with their checks.
-/

namespace Sys2Proof.Machine

/-- What a meaning answers. -/
abbrev Answer := Host.Outcome State Fault Refusal

/-! ### One unit's part of the state -/

/-- Core `k` (R6: device-wide number). -/
def State.core (s : State) (k : Nat) : CoreState := Tbl.get coreReset s.cores k
/-- The state with core `k` replaced. -/
def State.setCore (s : State) (k : Nat) (c : CoreState) : State := { s with cores := Tbl.set coreReset s.cores k c }
/-- The state with core `k` changed by a function. -/
def State.updCore (s : State) (k : Nat) (f : CoreState → CoreState) : State := s.setCore k (f (s.core k))

/-- Cluster `c` (R6: device-wide number). -/
def State.cluster (s : State) (c : Nat) : ClusterState := Tbl.get clusterReset s.clusters c
/-- The state with cluster `c` replaced. -/
def State.setCluster (s : State) (c : Nat) (x : ClusterState) : State :=
  { s with clusters := Tbl.set clusterReset s.clusters c x }
/-- The state with cluster `c` changed by a function. -/
def State.updCluster (s : State) (c : Nat) (f : ClusterState → ClusterState) : State := s.setCluster c (f (s.cluster c))

/-- Partition `p`. -/
def State.part (s : State) (p : Nat) : PartState := Tbl.get partReset s.parts p
/-- The state with partition `p` replaced. -/
def State.setPart (s : State) (p : Nat) (x : PartState) : State := { s with parts := Tbl.set partReset s.parts p x }
/-- The state with partition `p` changed by a function. -/
def State.updPart (s : State) (p : Nat) (f : PartState → PartState) : State := s.setPart p (f (s.part p))

/-- A command on core `k` faults where there is no such core (R6). -/
def onCore (k : Nat) (s : State) (f : State → Answer) : Answer := if k < 192 then f s else .fault .noSuchUnit
/-- A command on cluster `c` faults where there is no such cluster (R6). -/
def onCluster (c : Nat) (s : State) (f : State → Answer) : Answer := if c < 24 then f s else .fault .noSuchUnit
/-- A command on partition `p` faults where there is no such partition (R6). -/
def onPart (p : Nat) (s : State) (f : State → Answer) : Answer := if p < 8 then f s else .fault .noSuchUnit

/-- The 64 bytes of an Igrum entry. -/
def entryAt (t : Tbl (List Byte)) (n : Nat) : List Byte := padTo 64 (Tbl.get [] t n)
/-- Peer entry `k` (R460). -/
def State.peerEntry (s : State) (k : Nat) : List Byte := entryAt s.links.peerEntries k
/-- HOME of a peer or ring entry: its I/O die's engine. -/
def entryHome (e : List Byte) : Nat := fieldLE e 0 1 / 2 % 2

/-! ### Free values and messages -/

/-- The next free value. -/
def State.free (s : State) : Word64 := Config.freeValue s.freeCtr
/-- The state after a free value has been taken. -/
def State.tookFree (s : State) : State := { s with freeCtr := s.freeCtr + 1 }

/-- Free bytes, from a free value of the machine. -/
def freeBytes (ctr n : Nat) : List Byte :=
  (List.range n).map (fun i => BitVec.ofNat 8 ((Config.freeValue (ctr + i / 8)).toNat / 256 ^ (i % 8)))

/-- Sending a message. -/
def State.send (s : State) (o : Out) : State := { s with out := s.out ++ [o] }
/-- Sending messages in order. -/
def State.sendAll (s : State) (os : List Out) : State := { s with out := s.out ++ os }

/-- A change of the charges of a context (R450). -/
def State.charge (s : State) (c : Nat) (f : Charges → Charges) : State :=
  { s with acc := { s.acc with ctxs := Tbl.set chargesReset s.acc.ctxs c (f (Tbl.get chargesReset s.acc.ctxs c)) } }
/-- CORE_NS. -/
def State.chargeCore (s : State) (c n : Nat) : State := s.charge c (fun x => { x with coreNs := x.coreNs + BitVec.ofNat 64 n })
/-- GLEANER_NS. -/
def State.chargeGleaner (s : State) (c n : Nat) : State := s.charge c (fun x => { x with gleanerNs := x.gleanerNs + BitVec.ofNat 64 n })
/-- BIN_BYTES. -/
def State.chargeBin (s : State) (c n : Nat) : State := s.charge c (fun x => { x with binBytes := x.binBytes + BitVec.ofNat 64 n })
/-- HOST_BYTES. -/
def State.chargeHost (s : State) (c n : Nat) : State := s.charge c (fun x => { x with hostBytes := x.hostBytes + BitVec.ofNat 64 n })
/-- LINK_BYTES. -/
def State.chargeLink (s : State) (c n : Nat) : State := s.charge c (fun x => { x with linkBytes := x.linkBytes + BitVec.ofNat 64 n })

/-- DEV_INT_STATUS.UNITS of both physical functions is set: the active unit set has changed (R604). -/
def State.noteUnits (s : State) : State :=
  { s with mgmt := { s.mgmt with ints := [0, 16].foldl (fun t f => Tbl.modify intReset t f (fun x => { x with units := true })) s.mgmt.ints } }
/-- READY_EVENT of both physical functions is set (R604). -/
def State.noteReady (s : State) : State :=
  { s with mgmt := { s.mgmt with ints := [0, 16].foldl (fun t f => Tbl.modify intReset t f (fun x => { x with readyEvent := true })) s.mgmt.ints } }

/-- A fault report with nothing known but its kind and unit (R489: 0xFFFF is no queue, 0xFF no partition or domain). -/
def faultOf (kind unitKind unit : Nat) : FaultReport :=
  { kind := kind, action := 0, ctx := none, part := 0xFF, queue := 0xFFFF, tag := 0, unitKind := unitKind, unit := unit,
    addrKind := 0, address := 0, table := 0, detail := 0, domain := 0xFF }

/-- The mark bits of R426. -/
def markDegraded : Nat := 1
/-- WIDENED (R426). -/
def markWidened : Nat := 2
/-- RANGE (R426). -/
def markRange : Nat := 4
/-- WEIGHT_LOST (R426). -/
def markWeightLost : Nat := 8
/-- PREEMPTED (R426). -/
def markPreempted : Nat := 16

/-! ### Numbering -/

/-- The cluster of a core (R6). -/
def clusterOf (k : Nat) : Nat := k / 8
/-- The cluster that keeps the sheaf record of core `k`'s item. -/
def CoreState.home (c : CoreState) (k : Nat) : Nat :=
  match c.item with
  | some i => i.homeCluster
  | none => clusterOf k
/-- The compute die of a cluster (R6). -/
def dieOfCluster (c : Nat) : Nat := c / 12
/-- The binding of a cluster's logical cores. -/
def State.mapOf (s : State) (c : Nat) : CoreMap := Tbl.get coreMapReset s.coreMap c
/-- The logical number that a physical core bears, if any (R602). -/
def State.logicalOf (s : State) (k : Nat) : Option Nat :=
  let m := s.mapOf (clusterOf k)
  (List.range 7).find? (fun j => m.present.testBit j && m.phys.getD j 8 == k % 8)
/-- The device-wide physical core that bears a logical core of a cluster. -/
def State.physicalOf (s : State) (c j : Nat) : Option Nat :=
  let m := s.mapOf c
  if m.present.testBit j then some (8 * c + m.phys.getD j 8) else none

/-! ### The installed plan -/

/-- The partition that holds a cluster (R37). -/
def State.partOfCluster (s : State) (c : Nat) : Option Nat :=
  (List.range 8).find? (fun p => match (s.part p).desc with
    | some d => d.clusters.testBit c
    | none => false)
/-- The plan a cluster runs. -/
def State.clusterPlan (s : State) (c : Nat) : Option Plan :=
  match s.partOfCluster c with
  | some p => (s.part p).plan
  | none => none
/-- The plan of a partition, or none. -/
def State.planOf (s : State) (p : Nat) : Option Plan := (s.part p).plan
/-- The first context of a partition's range (R40). -/
def State.ctxBase (s : State) (p : Nat) : Nat :=
  match (s.part p).desc with
  | some d => d.contexts.1
  | none => 0

/-- Pools in ascending STAGE order. -/
def poolsSorted (pl : Plan) : List StagePool := pl.pools.mergeSort (fun a b => a.stage ≤ b.stage)
/-- The pool of a stage. -/
def Plan.pool (pl : Plan) (stage : Nat) : Option StagePool := pl.pools.find? (fun p => p.stage == stage)
/-- The cores a pool holds in a cluster (R46). -/
def StagePool.coresIn (p : StagePool) (c : Nat) : Nat := p.cores.getD c 0
/-- The pool and stage-relative index of a logical core (R46): pools take logical cores in ascending STAGE order. -/
def poolOfLogical (pools : List StagePool) (c j : Nat) : Option (StagePool × Nat) :=
  match pools with
  | [] => none
  | p :: ps => if j < p.coresIn c then some (p, j) else poolOfLogical ps c (j - p.coresIn c)
/-- The first logical core of a pool in a cluster. -/
def firstLogical (pools : List StagePool) (c stage : Nat) : Nat :=
  sumNat ((pools.filter (fun p => p.stage < stage)).map (fun p => p.coresIn c))
/-- The pool of core `k`, its stage-relative index and the plan. -/
def State.poolOf (s : State) (k : Nat) : Option (Plan × StagePool × Nat) :=
  match s.clusterPlan (clusterOf k), s.logicalOf k with
  | some pl, some j =>
    match poolOfLogical (poolsSorted pl) (clusterOf k) j with
    | some (p, i) => some (pl, p, i)
    | none => none
  | _, _ => none
/-- Two stages that may take each other's items (R434, R436). -/
def compatible (p : StagePool) (stage : Nat) : Bool := p.stage == stage || p.compat.testBit stage

/-- The layer entry of a plan (R123). -/
def Plan.layerOf (pl : Plan) (n : Nat) : Option Layer := pl.layers.find? (fun l => l.layer == n)
/-- A table entry of a plan (R222). -/
def Plan.tableOf (pl : Plan) (n : Nat) : Option TableDesc := pl.tables.find? (fun t => t.table == n)
/-- A deadline class of a plan (R57). -/
def Plan.classOf (pl : Plan) (n : Nat) : Option DeadlineClass := pl.classes.find? (fun c => c.cls == n)
/-- A queue binding of a plan (R56), by the queue number relative to the partition. -/
def Plan.bindingOf (pl : Plan) (q : Nat) : Option QueueBinding := pl.bindings.find? (fun b => b.queue == q)
/-- The codebook of an identifier and kind: 0 is the default; one the plan did not load has contents the spec leaves
open (R91, R92; DESIGN CHOICE, log 2). -/
def Plan.codebookOf (pl : Plan) (f : Format) (ident : Nat) : List Int :=
  if ident = 0 then [] else
    match pl.codebooks.find? (fun c => c.ident == ident && c.kind == (if f = .bg2 then 1 else 0)) with
    | some c => c.values
    | none => (List.range 16).map (fun i => Config.freeBook ident i)

/-! ### Bin addresses and accesses (R286 to R289) -/

/-- Where a bin address falls: the core's own bin or its cluster's, and the byte offset. -/
inductive BinPlace where
  | core (off : Nat)
  | cluster (off : Nat)
  deriving DecidableEq, Repr

/-- The space and offset of a bin address (R286); none for any other space or a nonzero bit that must be 0. -/
def binPlace (addr : Nat) : Option BinPlace :=
  if addr < 2 ^ 21 then some (.core addr)
  else if 2 ^ 24 ≤ addr ∧ addr < 2 ^ 24 + 2 ^ 23 then some (.cluster (addr - 2 ^ 24))
  else none

/-- Whether an access lies wholly within a region (R288). -/
def inRegion (r : BinRegion) (off len : Nat) : Bool := r.offset * 4096 ≤ off && off + len ≤ (r.offset + r.size) * 4096

/-- Whether a region is open to a core of a pool while it runs an item of a stage (R288). -/
def regionOpen (r : BinRegion) (c : Nat) (pool : StagePool) (idx itemStage : Nat) : Bool :=
  r.cluster == c &&
    (if r.scope = 0 then r.stage == pool.stage && (r.core == 0xFF || r.core == idx)
     else r.stage == 0xFFFF || r.stage == pool.stage || r.stage == itemStage)

/-- The region that holds an access of core `k` (R288). -/
def State.regionFor (s : State) (k : Nat) (pl : BinPlace) (len : Nat) : Option BinRegion :=
  match s.poolOf k with
  | none => none
  | some (plan, pool, idx) =>
    let stage := match (s.core k).item with
      | some i => i.stage
      | none => pool.stage
    plan.binMap.find? (fun r => regionOpen r (clusterOf k) pool idx stage &&
      (match pl with
       | .core off => r.scope == 0 && inRegion r off len
       | .cluster off => r.scope == 1 && inRegion r off len))

/-- The access-size alignment of R176: a multiple of the size, or of 64 B if the access is larger. -/
def aligned (addr len : Nat) : Bool := addr % (if len ≤ 64 then len else 64) == 0

/-- The check of a bin access of core `k` (R190, R286, R288): the place and region, or none for a BIN_FAULT. A CODE or
TWIN region is never written. -/
def State.binCheck (s : State) (k addr len : Nat) (write align : Bool) : Option (BinPlace × BinRegion) :=
  if align && !aligned addr len then none else
    match binPlace addr with
    | none => none
    | some pl =>
      match s.regionFor k pl len with
      | none => none
      | some r => if write && (r.kind == 0 || r.kind == 2) then none else some (pl, r)

/-- Bytes of a bin, as core `k` reads them. -/
def State.binRead (s : State) (k : Nat) (pl : BinPlace) (n : Nat) : List Byte :=
  match pl with
  | .core off => (s.core k).bin.bytes off n
  | .cluster off => (s.cluster (clusterOf k)).bin.bytes off n

/-- The STAGING slot of a core: byte offset in the cluster bin and size (R288, R444). -/
def State.stagingSlot (s : State) (k : Nat) : Option (Nat × Nat) :=
  match s.poolOf k with
  | none => none
  | some (plan, pool, idx) =>
    let c := clusterOf k
    match plan.binMap.find? (fun r => r.scope == 1 && r.kind == 3 && r.stage == pool.stage && r.cluster == c) with
    | none => none
    | some r =>
      let size := r.size * 4096 / (max 1 (pool.coresIn c)) / 64 * 64
      some (r.offset * 4096 + idx * size, size)

/-- The 4 KiB units, from the unit of `base`, that a run of bytes meets, as a mask. -/
def unitMask (base off len : Nat) : Nat :=
  (List.range (len / 4096 + 2)).foldl (fun m i =>
    if (off - base) / 4096 + i ≤ (off + len - 1 - base) / 4096 then m ||| 2 ^ ((off - base) / 4096 + i) else m) 0

/-- Writing bytes of a bin on behalf of core `k`, with the record of written 4 KiB units that a save needs (R443). -/
def State.binWrite (s : State) (k : Nat) (pl : BinPlace) (bs : List Byte) : State :=
  match pl with
  | .core off =>
    s.updCore k (fun c => { c with
      bin := c.bin.put off bs
      item := c.item.map (fun it => { it with units := it.units ||| unitMask 0 off bs.length }) })
  | .cluster off =>
    let s1 := s.updCluster (clusterOf k) (fun c => { c with bin := c.bin.put off bs })
    match s.stagingSlot k with
    | some (base, size) =>
      if off < base + size ∧ base < off + bs.length then
        s1.updCore k (fun c => { c with item := c.item.map (fun it =>
          { it with staged := it.staged ||| unitMask base (max base off) (min (base + size) (off + bs.length) - max base off) }) })
      else s1
    | none => s1

/-- Whether a write of core `k` meets an input region that its cluster sequencer holds for its sheaf (R117). -/
def State.heldInput (s : State) (k : Nat) (pl : BinPlace) (len : Nat) : Bool :=
  match pl with
  | .cluster _ => false
  | .core off =>
    match (s.core k).item.map (fun (i : WorkItem) => i.kind) with
    | some (ItemKind.sheaf n) =>
      match Tbl.get none (s.cluster ((s.core k).home k)).records n with
      | some r => r.held.any (fun h => h.core == k && decide (off < h.off + h.len) && decide (h.off < off + len))
      | none => false
    | _ => false

end Sys2Proof.Machine
end

