-- ==== Sys2Proof/Machine/MemOps.lean ====
section
/-!
DEFINITION. Channels and addresses: the gleaner a physical address lies at, placements (R124), the translation of a
context address (R361 to R365), context tags (R259, R260) and raw accesses in 64 B units (R231, R305).
-/

namespace Sys2Proof.Machine

/-- Gleaner `g` by physical channel: stack × 32 + channel, or 384 + loft channel. -/
def State.gleaner (s : State) (g : Nat) : GleanerState := Tbl.get gleanerReset s.gleaners g
/-- The state with gleaner `g` replaced. -/
def State.setGleaner (s : State) (g : Nat) (x : GleanerState) : State :=
  { s with gleaners := Tbl.set gleanerReset s.gleaners g x }
/-- The state with gleaner `g` changed by a function. -/
def State.updGleaner (s : State) (g : Nat) (f : GleanerState → GleanerState) : State := s.setGleaner g (f (s.gleaner g))
/-- A command on gleaner `g` faults where there is none (R6: 384 granary and 64 loft channels). -/
def onGleaner (g : Nat) (s : State) (f : State → Answer) : Answer := if g < 448 then f s else .fault .noSuchUnit
/-- Whether a gleaner's channel is in loft. -/
def isLoft (g : Nat) : Bool := decide (384 ≤ g)
/-- UNIT_KIND and UNIT of a gleaner (R490). -/
def gleanerUnit (g : Nat) : Nat × Nat := if g < 384 then (4, g) else (5, g - 384)

/-- A stack's channel map. -/
def State.stack (s : State) (n : Nat) : StackMap := Tbl.get stackReset s.stackMaps n
/-- The state with a stack's map replaced. -/
def State.setStack (s : State) (n : Nat) (m : StackMap) : State :=
  if s.stack n = m then s else { s with stackMaps := Tbl.set stackReset s.stackMaps n m }.noteUnits
/-- The bytes of one channel: 1,536 MiB of granary, 14,336 MiB of loft (R285, R362). -/
def channelBytes (loft : Bool) : Nat := if loft then 14336 * 2 ^ 20 else 1536 * 2 ^ 20

/-- The gleaner that serves a bale of a logical granary channel (R309, R311, R315); none where it is absent. -/
def State.granaryAt (s : State) (code bale : Nat) : Option Nat :=
  let st := code / 32
  let n := code % 32
  let m := s.stack st
  if 31 ≤ n ∨ 12 ≤ st ∨ m.absent.testBit n then none
  else if m.evacuating = some n ∧ m.cursor ≤ bale then some (st * 32 + m.oldPhys)
  else some (st * 32 + m.phys.getD n n)

/-- The gleaner of a loft channel; none where it is mapped out (R312). -/
def State.loftAt (s : State) (ch : Nat) : Option Nat := if 64 ≤ ch ∨ s.loft.out.testBit ch then none else some (384 + ch)

/-- The gleaner of a channel named by tier and number (R124). -/
def State.channelAt (s : State) (tier code bale : Nat) : Option Nat := if tier = 0 then s.granaryAt code bale else s.loftAt code

/-- The channel that bale `i` of a placement lies in (R124): granary in logical order over the stacks, loft modulo 64. -/
def Placement.channelOf (p : Placement) (i : Nat) : Nat :=
  let j := i % p.stripe
  if p.tier = 0 then
    let n := (p.channel / 32 * 31 + p.channel % 32 + j) % 372
    n / 31 * 32 + n % 31
  else (p.channel + j) % 64

/-- The byte offset in its channel of bale `i` of a placement (R124, R363). -/
def State.placeOffset (s : State) (p : Placement) (i : Nat) : Nat :=
  (if p.tier = 0 then s.sysArea * 2 ^ 20 else 0) + p.offset + 65536 * (i / p.stripe)

/-- The device physical address of a byte of a channel (R362). -/
def physAddr (tier code off : Nat) : Nat := if tier = 0 then code * 2 ^ 31 + off else 2 ^ 44 + code * 2 ^ 34 + off

/-- The tier, channel number and byte offset of a device physical address (R362). -/
def physParts (a : Nat) : Nat × Nat × Nat :=
  if a / 2 ^ 44 = 0 then (0, a / 2 ^ 31 % 512, a % 2 ^ 31) else (1, a / 2 ^ 34 % 64, a % 2 ^ 34)

/-- The gleaner and channel offset of a device physical address; none where the channel is lost. -/
def State.physAt (s : State) (a : Nat) : Option (Nat × Nat) :=
  let (tier, code, off) := physParts a
  (s.channelAt tier code (off / 65536)).map (fun g => (g, off))

/-- The physical address of byte `off` of a placed extent (R124, R363). -/
def State.placePhys (s : State) (p : Placement) (off : Nat) : Nat :=
  physAddr p.tier (p.channelOf (off / 65536)) (s.placeOffset p (off / 65536) + off % 65536)

/-! ### Segments -/

/-- READ (R366). -/
def permRead : Nat := 1
/-- WRITE (R366). -/
def permWrite : Nat := 2
/-- HOST (R366). -/
def permHost : Nat := 4
/-- REMOTE (R366). -/
def permRemote : Nat := 8
/-- SHARED (R366). -/
def permShared : Nat := 16
/-- VALID (R366). -/
def permValid : Nat := 32

/-- A context. -/
def State.ctx (s : State) (c : Nat) : CtxState := Tbl.get ctxReset s.xlt.ctxs c
/-- The state with a context replaced. -/
def State.setCtx (s : State) (c : Nat) (x : CtxState) : State :=
  { s with xlt := { s.xlt with ctxs := Tbl.set ctxReset s.xlt.ctxs c x } }
/-- What copy `n` holds of context `c` (R364). -/
def State.copyCtx (s : State) (n c : Nat) : CopyCtx := Tbl.get copyReset s.xlt.copies (n * 256 + c)
/-- The plan's entry of a segment of a device-wide context (R366). -/
def State.planSegment (s : State) (c seg : Nat) : Option Segment :=
  let p := (s.ctx c).part
  match s.planOf p with
  | none => none
  | some pl =>
    match pl.contexts.find? (fun r => r.context + s.ctxBase p == c) with
    | some r => if r.used.testBit seg then r.segments[seg]? else none
    | none => none
/-- The residency of a TIERED segment. -/
def State.tier (s : State) (c seg : Nat) : TieredSeg := Tbl.get tieredReset s.xlt.tiered (c * 16 + seg)
/-- The state with a TIERED segment's residency replaced. -/
def State.setTier (s : State) (c seg : Nat) (t : TieredSeg) : State :=
  { s with xlt := { s.xlt with tiered := Tbl.set tieredReset s.xlt.tiered (c * 16 + seg) t } }

/-- The logical granary channels a partition holds that are present, in ascending order of stack × 32 + channel (R37, R413). -/
def State.partChannels (s : State) (p : Nat) : List Nat :=
  match (s.part p).desc with
  | none => []
  | some d => (d.granary.zipIdx.flatMap (fun e => (List.range e.1.2).map (fun i => e.2 * 32 + e.1.1 + i))).filter
      (fun c => !(s.stack (c / 32)).absent.testBit (c % 32))

/-- Whether a segment is the load segment of a partition without a plan: segment 0 of its first context (R413). -/
def State.isLoadSeg (s : State) (c seg : Nat) : Bool :=
  let p := (s.ctx c).part
  seg == 0 && (s.planOf p).isNone && c == s.ctxBase p && (s.part p).desc.isSome

/-- The physical address of a byte of a segment, by its tier policy (R363); none for UNBACKED (R290). -/
def State.segPhys (s : State) (c seg off : Nat) : Option Nat :=
  if s.isLoadSeg c seg then
    let chs := s.partChannels (s.ctx c).part
    let i := off / 65536
    match chs[i % max 1 chs.length]? with
    | some ch => some (physAddr 0 ch (s.sysArea * 2 ^ 20 + 65536 * (i / max 1 chs.length) + off % 65536))
    | none => none
  else
    match s.planSegment c seg with
    | none => none
    | some g =>
      match g.policy with
      | 0 | 1 => some (s.placePhys g.placement off)
      | 2 =>
        match Tbl.get 0 (s.tier c seg).resident (off / 65536) with
        | 0 => some (s.placePhys g.placement off)
        | f + 1 => some (s.placePhys g.framePlacement (f * 65536 + off % 65536))
      | _ => none

/-- The check of an extent [low, high] of a context address at a copy (R343, R361): in one valid segment, below its
LIMIT, with the permissions. -/
def State.extentOk (s : State) (copy c : Nat) (low high : Int) (perm : Nat) : Bool :=
  0 ≤ low && low ≤ high && high < 2 ^ 52 &&
    (let seg := low.toNat / 2 ^ 48
     let e := (s.copyCtx copy c).segs.getD seg segCurReset
     high.toNat / 2 ^ 48 == seg && e.perm.testBit 5 && (e.perm &&& perm) == perm &&
       decide (high.toNat % 2 ^ 48 < e.limit) &&
       (s.isLoadSeg c seg || (match s.planSegment c seg with
        | some g => g.policy != 3
        | none => false)))

/-- The physical addresses of `n` consecutive bytes of a checked context address. -/
def State.physRun (s : State) (c addr n : Nat) : List Nat :=
  (List.range n).filterMap (fun i => s.segPhys c (addr / 2 ^ 48) (addr % 2 ^ 48 + i))

/-- A translation rejected with BOUNDS sets XLT_STATUS.BOUNDS (R380). -/
def State.xltBounds (s : State) : State := { s with xlt := { s.xlt with status := s.xlt.status ||| 2 } }

/-! ### Tags and raw accesses -/

/-- The partition that a device-wide context belongs to. -/
def State.partOfCtx (s : State) (c : Nat) : Option Nat :=
  (List.range 8).find? (fun p => match (s.part p).desc with
    | some d => d.contexts.1 ≤ c && decide (c < d.contexts.1 + d.contexts.2)
    | none => false)

/-- The stack (0 to 11) or loft package (12 to 27) of a gleaner, in the order of a microcode roll (R574). -/
def rollUnit (g : Nat) : Nat := if g < 384 then g / 32 else 12 + (g - 384) / 4
/-- Whether a gleaner is held while its microcode is replaced (R574). -/
def State.rolls (s : State) (g : Nat) : Bool := s.mgmt.rolling && s.mgmt.roll == some (rollUnit g)

/-- Whether a tag admits an operation of a context (R260). -/
def State.tagAdmits (s : State) (t : BaleTag) (c : Nat) (write : Bool) : Bool :=
  t.valid && (if t.partition then s.partOfCtx c == some t.owner else t.owner == c) && (if write then t.write else t.read)

/-- Every request that waits at a gleaner: in its queues, for reserve space, or held behind a move. -/
def GleanerState.waitingReqs (x : GleanerState) : List GReq := x.queue ++ x.forwardQueue ++ x.waiting ++ x.held ++ x.heldBale

/-- The tag of a bale of a gleaner. -/
def GleanerState.tag (g : GleanerState) (bale : Nat) : BaleTag := Tbl.get tagReset g.tags bale

/-- Whether every bale of a byte range admits the operation (R260). -/
def State.rangeAdmits (s : State) (g off len c : Nat) (write : Bool) : Bool :=
  (List.range ((off + len - 1) / 65536 + 1 - off / 65536)).all
    (fun i => s.tagAdmits ((s.gleaner g).tag (off / 65536 + i)) c write)

/-- Setting POISON in a bale's tag, with the count of GLN_POISONED (R305). -/
def GleanerState.poison (g : GleanerState) (bale : Nat) : GleanerState :=
  let t := g.tag bale
  if t.poison then g
  else { g with tags := Tbl.set tagReset g.tags bale { t with poison := true }, poisoned := g.poisoned + 1 }

/-- The readability of a 64 B unit (R305): 0 readable. -/
def GleanerState.unitBad (g : GleanerState) (unit : Nat) : Nat := Tbl.get g.badRest g.bad unit
/-- Whether a byte range holds an unreadable unit. -/
def GleanerState.rangeBad (g : GleanerState) (off len : Nat) : Bool :=
  (List.range ((off + len - 1) / 64 + 1 - off / 64)).any (fun i => g.unitBad (off / 64 + i) != 0)
/-- Marking the units of a byte range readable or not. -/
def GleanerState.markUnits (g : GleanerState) (off len v : Nat) : GleanerState :=
  { g with bad := (List.range ((off + len - 1) / 64 + 1 - off / 64)).foldl (fun t i => Tbl.set g.badRest t (off / 64 + i) v) g.bad }

/-- A write inside one 64 B unit (R305): a whole unit replaces it; a part of a readable unit is merged; a part of an
unreadable unit stores nothing and leaves the poison syndrome. The second component says that nothing was stored. -/
def GleanerState.writeUnit (g : GleanerState) (off : Nat) (bs : List Byte) : GleanerState × Bool :=
  if bs.length = 64 then ({ g with data := g.data.put off bs, bad := Tbl.set g.badRest g.bad (off / 64) 0 }, false)
  else if g.unitBad (off / 64) = 0 then ({ g with data := g.data.put off bs }, false)
  else ({ g with bad := Tbl.set g.badRest g.bad (off / 64) 2 }, true)

/-- A raw write split into its 64 B units (R231); the second component counts the units that stored nothing. -/
def writeUnits : Nat → GleanerState → Nat → List Byte → Nat → GleanerState × Nat
  | 0, g, _, _, n => (g, n)
  | fuel + 1, g, off, bs, n =>
    match bs with
    | [] => (g, n)
    | _ =>
      let k := 64 - off % 64
      let r := g.writeUnit off (bs.take k)
      writeUnits fuel r.1 (off + k) (bs.drop k) (if r.2 then n + 1 else n)

/-- GRANARY_BYTES or LOFT_BYTES of the units of a byte range that a request of a context reads or writes (R450). -/
def State.chargeUnits (s : State) (g c off len : Nat) : State :=
  let n := if len = 0 then 0 else 64 * ((off + len - 1) / 64 + 1 - off / 64)
  s.charge c (fun x => if isLoft g then { x with loftBytes := x.loftBytes + BitVec.ofNat 64 n }
    else { x with granaryBytes := x.granaryBytes + BitVec.ofNat 64 n })
/-- The charges of raw requests of up to 16 KiB over a range (R256, R450). -/
def State.chargeRaw (s : State) (g c off len : Nat) : State := (s.chargeUnits g c off len).chargeGleaner c (ceilDiv len 16384)

/-- The bits of an element in a bay's slots: BG2 in a stubble bay, else those of ROW_FORMAT (R221). -/
def Bay.elementBits (b : Bay) (t : TableDesc) : Nat :=
  if b.role = 2 then 2 else if t.rowFormat = 0 then 4 else if t.rowFormat = 1 then 8 else if t.rowFormat ≤ 3 then 16
  else if t.rowFormat ≤ 5 then 32 else 64

/-- Whether a byte range of a channel meets a bay of a plan, of a table whose BALANCE or REPLICATE is set (R231). -/
def Plan.guardedRange (pl : Plan) (sysArea tier code off len : Nat) : Bool :=
  pl.bays.any (fun b => b.tier == tier && b.channel == code &&
    (match pl.tableOf b.table with
     | some t => (t.flags / 16 % 4 != 0 || t.flags.testBit 6) &&
        (let base := (if tier = 0 then sysArea * 2 ^ 20 else 0) + b.offset * 4096
         let slot := (8 + (t.elements * b.elementBits t + 7) / 8 + 7) / 8 * 8
         decide (base < off + len) && decide (off < base + (b.rows + b.spare) * slot))
     | none => false))

/-- The logical number of a physical granary channel, or the loft channel: tier and number (R315). -/
def State.channelCode (s : State) (g : Nat) : Nat × Nat :=
  if 384 ≤ g then (1, g - 384)
  else
    let m := s.stack (g / 32)
    match (List.range 31).find? (fun n => m.phys.getD n n == g % 32 || (m.evacuating == some n && m.oldPhys == g % 32)) with
    | some n => (0, g / 32 * 32 + n)
    | none => (0, g / 32 * 32 + 31)

/-- Whether a raw write meets a guarded bay region of its context's plan (R231). -/
def State.rawGuarded (s : State) (g c off len : Nat) : Bool :=
  match s.partOfCtx c with
  | none => false
  | some p =>
    match s.planOf p with
    | none => false
    | some pl => let (tier, code) := s.channelCode g; pl.guardedRange s.sysArea tier code off len

/-- A fault of a gleaner against a context, at a physical address (R282, R492). -/
def State.gleanerFault (s : State) (g kind c tag off detail : Nat) : FaultReport :=
  let (uk, u) := gleanerUnit g
  let (tier, code) := s.channelCode g
  { faultOf kind uk u with
    ctx := some c, part := (s.partOfCtx c).getD 0xFF, queue := tag / 2 ^ 22, tag := tag
    action := 1, addrKind := 1, address := physAddr tier code off, detail := detail }

/-- The 16-bit word of a tag entry (R259). -/
def BaleTag.word (t : BaleTag) : Nat :=
  t.owner % 256 + 256 * t.valid.toNat + 512 * t.partition.toNat + 1024 * t.read.toNat + 2048 * t.write.toNat + 4096 * t.poison.toNat

/-- An operation of a context that its tags refuse (R260, R282, R283): TAG_FAULT, GLN_LAST_FAULT and the fault. -/
def State.noteRefusal (s : State) (g c tag off : Nat) : State :=
  let s1 := s.updGleaner g (fun x => { x with
    status := x.status ||| 1
    lastFault := BitVec.ofNat 32 (c % 256 + 256) })
  s1.send (.fault (s1.gleanerFault g 0x0202 c tag off ((s.gleaner g).tag (off / 65536)).word))

/-- The raw requests of up to 16 KiB that carry a range to a gleaner retire there (R256, R283). -/
def State.retireRaw (s : State) (g len : Nat) : State :=
  s.updGleaner g (fun x => { x with retired := x.retired + BitVec.ofNat 64 (ceilDiv len 16384) })

/-- Bytes of a channel have been written around the add buffer: its rows that lie there are read from DRAM again (R274). -/
def GleanerState.dropAdds (x : GleanerState) (off len : Nat) : GleanerState :=
  { x with addBuffer := x.addBuffer.filter (fun e => !(decide (e.off < off + len) && decide (off < e.off + e.size))) }

/-- A raw write that its tags admit, at its points (R231, R305): into a guarded bay it is discarded with a fault, else its units are
written. -/
def State.putRaw (s : State) (g c tag off : Nat) (bs : List Byte) (system : Bool) : State :=
  if !system && s.rawGuarded g c off bs.length then s.send (.fault (s.gleanerFault g 0x0206 c tag off 0))
  else
    let r := writeUnits (bs.length / 64 + 2) (s.gleaner g) off bs 0
    let s0 := s.setGleaner g (r.1.dropAdds off bs.length)
    let s1 := if system then s0 else s0.chargeRaw g c off bs.length
    if r.2 = 0 then s1
    else
      let f := { s1.gleanerFault g 0x0307 c tag off 3 with action := 0 }
      s1.send (.fault (if system then { f with ctx := none, part := 0xFF, queue := 0xFFFF } else f))

/-- A raw write of a context at a gleaner (R231, R260, R305): the state and the END status (R258). -/
def State.rawWrite (s : State) (g c tag off : Nat) (bs : List Byte) (system : Bool) : State × Nat :=
  if bs.isEmpty then (s, 0)
  else
    let s0 := s.retireRaw g bs.length
    if !system && !s.rangeAdmits g off bs.length c true then (s0.noteRefusal g c tag off, 1)
    else (s0.putRaw g c tag off bs system, 0)

/-- A raw read of a context at a gleaner: status and bytes (R260, R307). -/
def State.rawRead (s : State) (g c off len : Nat) (system : Bool) : Nat × List Byte :=
  if !system && !s.rangeAdmits g off len c false then (1, [])
  else if (s.gleaner g).rangeBad off len then (5, [])
  else (0, (s.gleaner g).data.bytes off len)

/-- One byte of the device by physical address; none where it is lost or unreadable. -/
def State.physByte (s : State) (a : Nat) : Option Byte :=
  match s.physAt a with
  | none => none
  | some (g, off) => if (s.gleaner g).unitBad (off / 64) = 0 then some ((s.gleaner g).data.byte off) else none

/-- Bytes by physical address, with no tag check: what the device's own loaders read. -/
def State.physBytes (s : State) (as : List Nat) : List Byte := as.map (fun a => (s.physByte a).getD 0)

/-- Bytes of a placed extent, read by the device itself. -/
def State.placeBytes (s : State) (p : Placement) (off n : Nat) : List Byte :=
  (List.range n).map (fun i => (s.physByte (s.placePhys p (off + i))).getD 0)

/-! ### Accesses by context address -/

/-- A context address cut into pieces that lie in one bale: address and bytes. -/
def pieces : Nat → Nat → Nat → List (Nat × Nat)
  | 0, _, _ => []
  | fuel + 1, a, n =>
    if n = 0 then [] else
      let k := min n (65536 - a % 65536)
      (a, k) :: pieces fuel (a + k) (n - k)

/-- The gleaner and channel offset of a context address's byte; none where it is unmapped or its channel is lost. -/
def State.ctxAt (s : State) (c addr : Nat) : Option (Nat × Nat) :=
  (s.segPhys c (addr / 2 ^ 48) (addr % 2 ^ 48)).bind s.physAt

/-- Noting a write to a TIERED segment's resident bale: its units are dirty until demoted (R294). -/
def State.noteDirty (s : State) (c addr n : Nat) : State :=
  let seg := addr / 2 ^ 48
  let off := addr % 2 ^ 48
  match s.planSegment c seg with
  | some g =>
    if g.policy ≠ 2 ∨ Tbl.get 0 (s.tier c seg).resident (off / 65536) = 0 then s
    else s.setTier c seg { s.tier c seg with dirty :=
      (List.range ((off + n - 1) / 64 + 1 - off / 64)).foldl (fun t i => Tbl.set false t (off / 64 + i) true) (s.tier c seg).dirty }
  | none => s

end Sys2Proof.Machine
end

