-- ==== Sys2Proof/Machine/HostOps.lean ====
section
/-!
DEFINITION. Host functions and attachments (spec 14): ownership, outbound addresses, posted writes, the detach journal and
MSI-X messages.
-/

namespace Sys2Proof.Machine

/-- Device-wide function `f` (R383). -/
def State.fn (s : State) (f : Nat) : HostFn := Tbl.get fnReset s.host.fns f
/-- The state with a function changed. -/
def State.updFn (s : State) (f : Nat) (h : HostFn → HostFn) : State :=
  { s with host := { s.host with fns := Tbl.set fnReset s.host.fns f (h (s.fn f)) } }
/-- Attachment `a`. -/
def State.att (s : State) (a : Nat) : Attachment := Tbl.get attReset s.host.atts a
/-- The state with an attachment changed. -/
def State.updAtt (s : State) (a : Nat) (h : Attachment → Attachment) : State :=
  { s with host := { s.host with atts := Tbl.set attReset s.host.atts a (h (s.att a)) } }
/-- Host port `q`. -/
def State.port (s : State) (q : Nat) : HostPort := Tbl.get portReset s.host.ports q
/-- The state with a port changed. -/
def State.updPort (s : State) (q : Nat) (h : HostPort → HostPort) : State :=
  { s with host := { s.host with ports := Tbl.set portReset s.host.ports q (h (s.port q)) } }
/-- A command of function `f` faults where there is none (R383). -/
def onFn (f : Nat) (s : State) (h : State → Answer) : Answer := if f < 32 then h s else .fault .noSuchUnit
/-- Whether BAR0 is served whole: once DEV_READY.READY is set. Until then its registers, but for DEV_READY and the identity registers, read 0
and ignore writes (R560). -/
def State.served (s : State) : Bool := s.mgmt.ready
/-- A BAR0 register access of function `f`: without effect until READY (R560). -/
def onBar0 (f : Nat) (s : State) (h : State → Answer) : Answer := onFn f s (fun s => if s.served then h s else .next s)
/-- A command on host port `q` faults where there is none (R381). -/
def onPort (q : Nat) (s : State) (h : State → Answer) : Answer := if q < 2 then h s else .fault .noSuchUnit
/-- A command on attachment `a` faults where there is none (R381). -/
def onAtt (a : Nat) (s : State) (h : State → Answer) : Answer := if a < 32 then h s else .fault .noSuchUnit

/-- A register word from its fields, each given by its lowest bit. -/
def fieldsAt (fs : List (Nat × Nat)) : Nat := fs.foldl (fun a f => a + f.2 * 2 ^ f.1) 0
/-- A flag as a number. -/
def bit01 (b : Bool) : Nat := if b then 1 else 0
/-- A physical function: 0 of either port (R383). -/
def isPhysical (f : Nat) : Bool := f % 16 == 0 && decide (f < 32)
/-- Whether a function owns a partition (R40). -/
def State.ownsPart (s : State) (f p : Nat) : Bool :=
  match (s.part p).desc with
  | some d => d.functions.testBit f
  | none => false

/-- The attachment a function holds: one that is ATTACHED or REPLAYING through it (R395, R399). -/
def State.attOf (s : State) (f : Nat) : Option Nat :=
  (List.range 32).find? (fun a => ((s.att a).state == 1 || (s.att a).state == 3) && (s.att a).fn == f)

/-- The physical function's or a virtual function's BAR2 size: the default until it is resized (R384). -/
def State.bar2Size (s : State) (f : Nat) : Nat :=
  if (s.fn f).bar2 = 0 then (if f % 16 = 0 then 2 ^ 31 else 2 ^ 28) else (s.fn f).bar2

/-! ### Outbound addresses (R392) -/

/-- The attachment of an outbound address. -/
def outAtt (addr : Nat) : Nat := addr / 2 ^ 59 % 32
/-- Its handle. -/
def outHandle (addr : Nat) : Nat := addr / 2 ^ 48 % 2048
/-- Its offset. -/
def outOffset (addr : Nat) : Nat := addr % 2 ^ 48

/-- A handle entry. -/
def State.handle (s : State) (a h : Nat) : Option HandleEntry := Tbl.get none (s.att a).handles h

/-- The bus address an outbound address now names. -/
def State.hostAddr (s : State) (addr : Nat) : Option Nat :=
  (s.handle (outAtt addr) (outHandle addr)).bind (fun h => if h.valid then some (h.hostAddress + outOffset addr) else none)

/-- The extent check of an outbound address for a context (R343, R392). -/
def State.outboundOk (s : State) (ctx addr len : Nat) : Bool :=
  match s.handle (outAtt addr) (outHandle addr) with
  | none => false
  | some h =>
    h.valid && (s.att (outAtt addr)).state != 0 && decide (outOffset addr + len ≤ h.length) &&
      (if h.anyContext then
        (match s.partOfCtx ctx with
         | some p => s.ownsPart (s.att (outAtt addr)).fn p
         | none => false)
       else h.context == ctx)

/-! ### Posted writes and the journal (R392, R393, R396 to R400) -/

/-- Whether a queue's binding sets CHECK (R56, R393). -/
def State.queueChecked (s : State) (q : Nat) : Bool :=
  let p := (Tbl.get queueReset s.gfe.queues q).part
  match (s.part p).desc, s.planOf p with
  | some d, some pl => ((pl.bindingOf (q - d.queues.1)).map (fun b => b.check)).getD false
  | _, _ => false
/-- Whether a check read of a queue is on its way. -/
def State.checking (s : State) (q : Nat) : Bool := s.host.checks.any (fun c => c.queue == q)
/-- Whether a queue's completion target is stopped (R394). -/
def State.cstop (s : State) (q : Nat) : Bool := (Tbl.get queueReset s.gfe.queues q).cstop

/-- The journal bytes of a write: a 16-byte header and the payload padded to 16 B (R397). -/
def OutWrite.journalBytes (w : OutWrite) : Nat := 16 + (w.bytes.length + 15) / 16 * 16
/-- The journal bytes in use. -/
def Attachment.journalUsed (a : Attachment) : Nat := sumNat ((a.journal ++ a.withheld).map OutWrite.journalBytes)
/-- Whether a write fits the journal of 64 MiB (R381, R398). -/
def Attachment.journalFits (a : Attachment) (w : OutWrite) : Bool := decide (a.journalUsed + w.journalBytes ≤ 64 * 2 ^ 20)

/-- A vector marked pending (R397). -/
def Attachment.pend (a : Attachment) (v : Option Nat) : Attachment :=
  match v with
  | some n => if a.pendingVectors.contains n then a else { a with pendingVectors := a.pendingVectors ++ [n] }
  | none => a

/-- Byte `i` of a function's MSI-X table (R384). The first byte of an entry's vector control, whose bit 0 masks the vector, is held inverted,
since every entry is masked after a reset of its function (PRESUMED, log 39). -/
def HostFn.msixByte (h : HostFn) (i : Nat) : Byte := if i % 16 = 12 then h.msix.byte i ^^^ 1 else h.msix.byte i
/-- Whether a vector is masked (PRESUMED, log 39). -/
def HostFn.masked (h : HostFn) (v : Nat) : Bool := decide (v < 2048) && (h.msixByte (16 * v + 12)).getLsbD 0
/-- A vector's bit of the pending bit array (R384), which `msix` holds behind the table. -/
def HostFn.msixPending (h : HostFn) (v : Nat) : Bool := (h.msix.byte (0x8000 + v / 8)).getLsbD (v % 8)
/-- The pending bit array with a vector's bit set or cleared. -/
def HostFn.setMsixPending (h : HostFn) (v : Nat) (on : Bool) : HostFn :=
  let old := (h.msix.byte (0x8000 + v / 8)).toNat
  let bit := 2 ^ (v % 8)
  { h with msix := h.msix.putNat (0x8000 + v / 8) 1 (if on then old ||| bit else old - (if old.testBit (v % 8) then bit else 0)) }
/-- The MSI-X message of a function's vector; a masked vector sets its pending bit instead (PRESUMED, log 39). -/
def State.sendMsix (s : State) (f v : Nat) : State :=
  if (s.fn f).masked v then s.updFn f (fun h => h.setMsixPending v true) else s.send (.msix f v)

/-- An MSI-X message of an attachment's function; while it is not ATTACHED, the vector is marked pending (R397). -/
def State.sendVector (s : State) (a vector : Nat) : State :=
  match (s.att a).state with
  | 1 => s.sendMsix (s.att a).fn vector
  | 0 => s
  | _ => s.updAtt a (fun x => x.pend (some vector))

/-- A function's configured vector (R604), sent through whatever attachment it holds, or at once where it holds none. -/
def State.fnVector (s : State) (f vector : Nat) : State :=
  match s.attOf f with
  | some a => s.sendVector a vector
  | none => s.sendMsix f vector

/-- One 4-byte write at an offset of BAR4's MSI-X table; every other byte of BAR4 but a doorbell ignores writes (R384). A vector that is
unmasked while its pending bit is set is sent (PRESUMED, log 39). -/
def State.writeMsix (s : State) (f off : Nat) (w : Word32) : State :=
  if 0x10000 ≤ off ∧ off < 0x18000 ∧ off % 4 = 0 then
    let o := off - 0x10000
    let kept := if o % 16 = 12 then (w.toNat % 2) ^^^ 1 else if o % 16 = 0 then w.toNat / 4 * 4 else w.toNat
    let s1 := s.updFn f (fun h => { h with msix := h.msix.putNat o 4 kept })
    let v := o / 16
    if o % 16 = 12 ∧ w.getLsbD 0 = false ∧ (s1.fn f).msixPending v then (s1.updFn f (fun h => h.setMsixPending v false)).fnVector f v else s1
  else s

/-- The DWORDs of a write to BAR4 in ascending address order. -/
def writeMsixWords : State → Nat → Nat → List Word32 → State
  | s, _, _, [] => s
  | s, f, off, w :: ws => writeMsixWords (s.writeMsix f off w) f (off + 4) ws

/-- A 4-byte read at an offset of BAR4: the MSI-X table, the pending bit array with the vectors of R397, and 0 elsewhere (R384). -/
def State.readMsix (s : State) (f off : Nat) : Nat :=
  if 0x10000 ≤ off ∧ off < 0x18000 then leNat ((List.range 4).map (fun i => (s.fn f).msixByte (off - 0x10000 + i)))
  else if 0x18000 ≤ off ∧ off < 0x18100 then
    let due := match s.attOf f with
      | some a => (s.att a).pendingVectors
      | none => []
    sumNat ((List.range 32).map (fun i =>
      let v := (off - 0x18000) * 8 + i
      if (s.fn f).msixPending v || due.contains v then 2 ^ i else 0))
  else 0

/-- What follows a completion record's write: on a CHECK queue its check read, which holds its vector back, else its vector
(R393, R427). -/
def State.afterRecord (s : State) (a h : Nat) (w : OutWrite) : State :=
  match w.queue with
  | none => s
  | some q =>
    if s.queueChecked q then
      let check : CheckRead := { queue := q, att := a, fn := (s.att a).fn, addr := h, vector := w.vector }
      let s1 := { s with host := { s.host with checks := s.host.checks ++ [check] } }
      s1.send (.checkRead (s.att a).fn h q)
    else match w.vector with
      | some v => s.sendVector a v
      | none => s

/-- A posted write leaves the port of the attachment's function; it is held until the link partner acknowledges it. -/
def State.postWrite (s : State) (a : Nat) (w : OutWrite) : State :=
  match w.host.or (s.hostAddr w.addr) with
  | none => s
  | some h =>
    ((s.updAtt a (fun x => { x with unacked := x.unacked ++ [w] })).send (.tlp (s.att a).fn h w.bytes)).afterRecord a h w

/-- Whether the link of an attachment's function is in L0. -/
def State.linkReady (s : State) (a : Nat) : Bool :=
  let q := s.port ((s.att a).fn / 16)
  q.up && !q.retraining

/-- A write as the journal holds it: by its outbound address, its vector marked pending apart (R397). -/
def OutWrite.journaled (w : OutWrite) : OutWrite := { w with vector := none, host := none }

/-- Journal records that a granary failure took are skipped at replay: JOURNAL_LOST is set and the bytes skipped are reported (R398). -/
def State.skipLost (s : State) (a : Nat) : State :=
  let gone := ((s.att a).journal.drop (s.att a).journalSent).filter (fun w => w.lost)
  if gone.isEmpty then s
  else (s.updAtt a (fun x => { x with
      journal := x.journal.take x.journalSent ++ (x.journal.drop x.journalSent).filter (fun w => !w.lost), journalLost := true })).send
    (.fault { faultOf 0x0405 11 a with detail := sumNat (gone.map (fun w => w.bytes.length)) })

/-- Replay sends the journal's records in order, up to and with the next completion that is checked (R400); it waits for REPLAY after
ADOPT, and for a check read that is on its way. -/
def State.pumpJournal (s : State) (a : Nat) : State :=
  let x := s.att a
  if x.state ≠ 3 ∨ x.adoptHold ∨ s.host.checks.any (fun c => c.att == a) then s
  else
    let s0 := s.skipLost a
    let y := s0.att a
    let todo := y.journal.drop y.journalSent
    let isChecked (w : OutWrite) : Bool := (w.queue.map s.queueChecked).getD false
    let n := match findIdxFrom isChecked todo 0 with
      | some i => i + 1
      | none => todo.length
    let s1 := (todo.take n).foldl (fun s w =>
      match s.hostAddr w.addr with
      | some h => (s.send (.tlp x.fn h w.bytes)).afterRecord a h w
      | none => s) s0
    s1.updAtt a (fun x => { x with journalSent := x.journalSent + n })

/-- Whether a completion record of an ATTACHED attachment must wait for its queue's check read (R393). -/
def State.awaitsCheck (s : State) (w : OutWrite) : Bool :=
  match w.queue with
  | some q => s.queueChecked q && s.checking q
  | none => false

/-- The device issues an outbound write (R392, R396, R397, R398): it leaves the port, waits for a retraining link, goes into the
journal, its vector pending, or waits for journal space. A journal under replay goes on with it (R400). -/
def State.issueOut (s : State) (w : OutWrite) : State :=
  let a := outAtt w.addr
  let x := s.att a
  match x.state with
  | 0 => s
  | 1 =>
    if s.awaitsCheck w then s.updAtt a (fun x => { x with withheld := x.withheld ++ [w] })
    else if s.linkReady a && x.waiting.isEmpty then s.postWrite a w else s.updAtt a (fun x => { x with waiting := x.waiting ++ [w] })
  | _ =>
    if x.waiting.isEmpty && x.journalFits w then
      (s.updAtt a (fun x => { x.pend w.vector with journal := x.journal ++ [w.journaled] })).pumpJournal a
    else s.updAtt a (fun x => { x with waiting := x.waiting ++ [w] })

/-- Writes that waited go on, in order. -/
def State.releaseWrites (s : State) (a : Nat) : State :=
  let ws := (s.att a).waiting
  ws.foldl (fun s w => s.issueOut w) (s.updAtt a (fun x => { x with waiting := [] }))

/-- HOST_ATT_STATE.JOURNAL_FULL: engines wait on a full journal (R398). -/
def Attachment.journalFull (a : Attachment) : Bool := (a.state == 2 || a.state == 3) && !a.waiting.isEmpty

/-- A completion record issued (R394): one of a stopped target, or behind one, is withheld in the journal. -/
def State.issueCompletion (s : State) (q : Nat) (w : OutWrite) : State :=
  let a := outAtt w.addr
  let s := s.chargeHost (Tbl.get queueReset s.gfe.queues q).context w.bytes.length
  if s.cstop q || (s.att a).withheld.any (fun x => x.queue == some q) then s.updAtt a (fun x => { x with withheld := x.withheld ++ [w] })
  else s.issueOut w

/-- A resumed target's withheld records are written in order, each one checked where the queue sets CHECK (R394); while the attachment is
not ATTACHED they join the journal. -/
def State.drainWithheld (s : State) (a q : Nat) : State :=
  let x := s.att a
  let mine := x.withheld.filter (fun w => w.queue == some q)
  if s.cstop q || s.checking q then s
  else
    let go := if x.state = 1 ∧ s.queueChecked q then mine.take 1 else mine
    go.foldl (fun s w => s.issueOut w) (s.updAtt a (fun x => { x with withheld := go.foldl (fun l w => l.erase w) x.withheld }))

end Sys2Proof.Machine
end

