-- ==== Sys2Proof/Machine/Sequencer.lean ====
section
/-!
DEFINITION. The cluster sequencer and the sheaf former (spec 05, 06, 16, 19): ready lists and dispatch, the start and
the end of a work item, replay, sheaves and their closing.
-/

namespace Sys2Proof.Machine

/-! ### Order of work -/

/-- The effective priority of a work item (R431). -/
def State.effPrio (s : State) (i : WorkItem) : Nat := max i.priority (Tbl.get 0 s.inherited i.ctx)

/-- The order of a ready list (R434): highest effective priority first, then the earlier entry. -/
def State.listKey (s : State) (i : WorkItem) : Nat := (8 - s.effPrio i) * 2 ^ 128 + i.entered * 2 ^ 64 + i.order

/-- The ready list of a stage in a cluster. -/
def ClusterState.listOf (c : ClusterState) (stage : Nat) : List WorkItem := Tbl.get [] c.ready stage

/-- Whether a core that may run an item and has not failed on it is left on core `k`'s die (R520, R521). -/
def State.othersLeft (s : State) (k : Nat) (i : WorkItem) : Bool :=
  ((List.range 96).map (fun j => k / 96 * 96 + j)).any (fun n => !i.failedCores.contains n && !(s.core n).harrow.permanent &&
    s.partOfCluster (clusterOf n) == some i.part &&
    (match s.poolOf n with
     | some (_, pool, _) => compatible pool i.stage
     | none => false))

/-- Whether core `k` may run an item: it has not failed on it, or it has cleared diagnosis or a harrow pass since and no other core of the pool is
left on its die (R520, R521). -/
def State.mayRun (s : State) (k : Nat) (i : WorkItem) : Bool :=
  !i.failedCores.contains k || (i.cleared.contains k && !s.othersLeft k i)

/-- The first item of the lists of a pool's stage and its compatible stages that a core may take: one it has not
failed on (R434, R520). -/
def State.listedFor (s : State) (k : Nat) (pool : StagePool) : Option WorkItem :=
  let c := s.cluster (clusterOf k)
  let own := c.listOf pool.stage
  let others := (List.range 64).flatMap (fun st =>
    if st ≠ pool.stage ∧ pool.compat.testBit st then c.listOf st else [])
  argMin s.listKey ((own ++ others).filter (s.mayRun k))

/-- Taking an item off its list; the former then lists a sheaf it held back (R437). -/
def ClusterState.takeItem (c : ClusterState) (i : WorkItem) : ClusterState :=
  let rest := (c.listOf i.stage).erase i
  match c.unlisted.find? (fun u => u.stage == i.stage) with
  | some u =>
    { c with ready := Tbl.set [] c.ready i.stage (rest ++ [u]), unlisted := c.unlisted.erase u }
  | none => { c with ready := Tbl.set [] c.ready i.stage rest }

/-- Listing an item; a full list keeps it back (R437). -/
def ClusterState.listItem (c : ClusterState) (i : WorkItem) : ClusterState :=
  let xs := c.listOf i.stage
  if xs.length < 256 then { c with ready := Tbl.set [] c.ready i.stage (xs ++ [i]) }
  else { c with unlisted := c.unlisted ++ [i] }

/-! ### Bin space the sequencer owns -/

/-- Writing a core's STAGING slot, with the record of written 4 KiB units that a save needs (R444). -/
def State.writeStaging (s : State) (k off : Nat) (bs : List Byte) : State :=
  match s.stagingSlot k with
  | none => s
  | some (base, _) => s.binWrite k (.cluster (base + off)) bs

/-- A row record (R185). -/
def rowRecord (r : RowDesc) : List Byte :=
  natLE 1 r.stage ++ natLE 1 r.cls ++ natLE 2 r.length ++ natLE 4 r.inAddr ++ natLE 4 r.tag ++ natLE 4 r.marks

/-- The work record of an item: its row descriptors, or the share's 320 bytes (R165, R422). -/
def WorkItem.record (i : WorkItem) : List Byte :=
  match i.kind with
  | .sheaf _ => i.rows.flatMap rowRecord
  | .share bs => bs

/-- The input bytes of an item: the work record and its rows' inputs (R435). -/
def WorkItem.inputBytes (i : WorkItem) : Nat := i.record.length + 64 * sumNat (i.rows.map (fun r => r.length))

/-! ### Sheaf pins (R234) -/

/-- The key of a table and epoch. -/
def pinKey (table epoch : Nat) : Nat := table * 2 ^ 32 + epoch

/-- The epochs of a table that carry pins: leases and held pins (R234). -/
def State.pinnedEpochs (s : State) (p table : Nat) : List Nat :=
  let ps := s.part p
  ((Tbl.get { epoch := 0, leases := [] } ps.boards table).leases.map Prod.snd ++
    (ps.heldPins.filter (fun h => h.table == table)).map (fun h => h.epoch)).eraseDups

/-- Changing a table's pin board; its gleaners are told if the pinned epochs change (R234). -/
def State.updBoard (s : State) (p table : Nat) (f : TableBoard → TableBoard) : State :=
  let before := s.pinnedEpochs p table
  let s1 := s.updPart p (fun x => { x with boards := Tbl.modify { epoch := 0, leases := [] } x.boards table f })
  if s1.pinnedEpochs p table = before then s1 else s1.send (.pinSet p table (s1.pinnedEpochs p table))

/-- The tables on which an item of a stage takes sheaf pins, with the epoch its home cluster's copy holds (R234). -/
def State.pinsFor (s : State) (c p stage : Nat) : List (Nat × Nat) :=
  match s.planOf p with
  | none => []
  | some pl => (pl.tables.filter (fun t => t.pinnedStages.testBit stage)).map
      (fun t => (t.table, Tbl.get 0 (s.cluster c).leases t.table))

/-- Taking sheaf pins at a cluster. -/
def State.takePins (s : State) (c : Nat) (pins : List (Nat × Nat)) : State :=
  s.updCluster c (fun x => { x with pinCount := pins.foldl (fun t e => Tbl.modify 0 t (pinKey e.1 e.2) (· + 1)) x.pinCount })

/-- Releasing one sheaf pin: the last local pin on an earlier epoch gives the lease on it back (R234). -/
def State.releasePin (s : State) (c p : Nat) (e : Nat × Nat) : State :=
  let s1 := s.updCluster c (fun x => { x with pinCount := Tbl.modify 0 x.pinCount (pinKey e.1 e.2) (· - 1) })
  if Tbl.get 0 (s1.cluster c).pinCount (pinKey e.1 e.2) = 0 ∧ Tbl.get 0 (s1.cluster c).leases e.1 ≠ e.2 then
    s1.updBoard p e.1 (fun b => { b with leases := b.leases.filter (fun l => l != (c, e.2)) })
  else s1

/-- Releasing the pins of an item. -/
def State.releasePins (s : State) (i : WorkItem) : State :=
  i.pins.foldl (fun s e => s.releasePin i.homeCluster i.part e) s

/-! ### Starting items -/

/-- The transfers of core `k`'s item that have not completed, queued or outstanding (R352). -/
def ClusterState.transfersOf (c : ClusterState) (k : Nat) : Nat :=
  (c.dma.outstanding.filter (fun x => x.core == k)).length +
  sumNat (c.dma.queues.map (fun q => (q.2.filter (fun e => match e with
    | .xfer x => x.core == k
    | .barrier _ => false)).length))

/-- Every unit the core drives has finished: winnow rows, tiles, transfers (R166). Special functions complete within
their command. -/
def State.unitsDone (s : State) (k : Nat) : Bool :=
  let c := s.core k
  c.winnow.queue.isEmpty && c.grid.queue.isEmpty && c.grid.flight.isEmpty &&
    (s.cluster (clusterOf k)).transfersOf k == 0

/-- The engine as a work item finds it (R165): cleared, with the work registers. -/
def State.startRegs (s : State) (k : Nat) (i : WorkItem) : VecRegs :=
  let base := match s.stagingSlot k with
    | some (b, _) => 2 ^ 24 + b
    | none => 0
  let slot := match i.kind with
    | .sheaf n => n
    | .share _ => 0xFFFF
  let x := Tbl.set 0 (Tbl.set 0 (Tbl.set 0 (Tbl.set 0 [] 12 (BitVec.ofNat 64 base)) 13 (BitVec.ofNat 64 slot)) 14
    (BitVec.ofNat 64 i.rows.length)) 15 (BitVec.ofNat 64 (i.relCtx % 256 + 256 * (i.stage % 64)))
  { vecRegsReset with x := x }

/-- WORK_ITEM_START (R165): the work record is written, the item takes its sheaf pins (R234) unless a replay kept
them, and the stage program starts at its first instruction. -/
def State.startItem (s : State) (k : Nat) (i : WorkItem) : State :=
  let pins := if i.pins.isEmpty then s.pinsFor i.homeCluster i.part i.stage else i.pins
  let s1 := if i.pins.isEmpty then s.takePins i.homeCluster pins else s
  let item := { i with pins := pins, started := s.devTime, units := 0, staged := 0 }
  let s2 := s1.updCore k (fun c => { c with
    phase := .running, item := some item, vec := s1.startRegs k i, held := [], dmaMarks := []
    grid := { c.grid with banks := [], discard := [] } })
  (s2.updCluster (clusterOf k) (fun c => { c with progress := c.progress + 1 })).writeStaging k 0 i.record

/-- Whether a core may take an item: it is free, its units are quiet, its cluster's sequencer and its die run, and it is not in a pass, due
one with none running in its cluster, awaiting or in a diagnosis, suspect or out of service (R289, R518, R524, R528, R537, R538). -/
def State.mayTake (s : State) (k : Nat) : Bool :=
  let c := s.core k
  let passing := (List.range 8).any (fun j => (s.core (8 * clusterOf k + j)).harrow.phase == 2)
  c.phase == .idle && c.item.isNone && c.incoming.isNone && s.unitsDone k &&
    c.harrow.phase != 2 && (c.harrow.phase == 0 || passing) && !c.harrow.diagnosing && !c.harrow.suspect && !c.harrow.permanent &&
    !c.harrow.codeLost && !s.patterns.any (fun p => p.core == k && p.confirmed) && !(s.cluster (clusterOf k)).stopped &&
    !s.mgmt.down.testBit (dieOfCluster (clusterOf k))

/-- Mesh hops between two clusters of one die (R20). -/
def meshHops (a b : Nat) : Nat :=
  let row (n : Nat) : Int := (n % 12 / 4 : Nat)
  let col (n : Nat) : Int := (n % 4 : Nat)
  (row a - row b).natAbs + (col a - col b).natAbs

/-- The clusters that core `k` asks for an item, nearest first and lower numbers first (R435): the other clusters of its
die that hold cores of its stage or of a compatible stage. -/
def State.stealOrder (s : State) (k : Nat) : List Nat :=
  match s.poolOf k with
  | none => []
  | some (plan, pool, _) =>
    let c := clusterOf k
    let ok (n : Nat) : Bool := n != c && !(s.cluster n).retired && plan.pools.any (fun p => compatible pool p.stage && 0 < p.coresIn n)
    let die := (List.range 12).map (fun i => c / 12 * 12 + i)
    ((die.filter ok).mergeSort (fun a b => meshHops c a * 32 + a ≤ meshHops c b * 32 + b))

/-- A core takes an item off its cluster's list. CLS_PREEMPT_LIGHT counts one taken while another core of the cluster runs an item of
lower effective priority for the pool or a compatible one (R438, R453; DEDUCED, log 46). -/
def State.takeListed (s : State) (k : Nat) (pool : StagePool) (i : WorkItem) : State :=
  let below (j : Nat) : Bool := match (s.core j).item with
    | some r => j != k && compatible pool r.stage && decide (s.effPrio r < s.effPrio i)
    | none => false
  let ahead : Word32 := if ((List.range 8).map (fun n => 8 * clusterOf k + n)).any below then 1 else 0
  (s.updCluster (clusterOf k) (fun x =>
    let y := x.takeItem i
    { y with sched := { y.sched with lightCount := y.sched.lightCount + ahead } })).startItem k i

/-- The resume of a core's saved item begins (R442). -/
def State.startResume (s : State) (k : Nat) : State :=
  s.updCore k (fun c => { c with phase := .resuming, saved := c.saved.map (fun v => { v with since := s.devTime }) })

/-- The core takes its next item (R434): its saved item if no listed item outranks it (R442), else the first listed item,
else it asks the nearest cluster (R435). -/
def State.takeNext (s : State) (k : Nat) : State :=
  if !s.mayTake k then s else
    match s.poolOf k with
    | none => s
    | some (_, pool, _) =>
      let c := s.core k
      let listed := s.listedFor k pool
      match c.saved, listed with
      | some sv, some i =>
        if s.effPrio sv.item < s.effPrio i then s.takeListed k pool i else s.startResume k
      | some _, none => s.startResume k
      | none, some i => s.takeListed k pool i
      | none, none =>
        match s.stealOrder k with
        | a :: _ => s.send (.steal k a)
        | [] => s

/-- Every free core of a cluster takes a listed item, in the order of their logical numbers (DESIGN CHOICE, log 10). -/
def State.dispatch (s : State) (c : Nat) : State :=
  (List.range 7).foldl (fun s j =>
    match s.physicalOf c j with
    | some k =>
      match s.poolOf k with
      | some (_, pool, _) =>
        if s.mayTake k && ((s.listedFor k pool).isSome || (s.core k).saved.isSome) then s.takeNext k else s
      | none => s
    | none => s) s

/-- An item enters its stage's ready list, and a free core may take it at once. -/
def State.enlist (s : State) (c : Nat) (i : WorkItem) : State := (s.updCluster c (fun x => x.listItem i)).dispatch c

/-! ### Ending items -/

/-- The codes of R426 that a notice carries. -/
def codeOk : Nat := 0
/-- BOUNDS (R426). -/
def codeBounds : Nat := 0x12

/-- The notices of an item's end (R425): one for each row consumed, or one for the share. -/
def WorkItem.endNotices (i : WorkItem) (rows : List RowDesc) (marks code : Nat) : List Out :=
  match i.kind with
  | .sheaf _ => rows.map (fun r => .workEnd r.tag (r.marks ||| i.marks ||| marks) code 1 0)
  | .share _ => [.workEnd i.tag (i.marks ||| marks) code 1 0]

/-- The rows of an item as its sheaf record holds them, with the marks the grid added (R147). -/
def State.rowsOf (s : State) (i : WorkItem) : List RowDesc :=
  match i.kind with
  | .sheaf n =>
    match Tbl.get none (s.cluster i.homeCluster).records n with
    | some r => r.rows
    | none => i.rows
  | .share _ => i.rows

/-- Freeing a sheaf record, with the input regions held for it. -/
def State.freeRecord (s : State) (i : WorkItem) : State :=
  match i.kind with
  | .sheaf n => s.updCluster i.homeCluster (fun c => { c with records := Tbl.set none c.records n none })
  | .share _ => s

/-- CORE_NS of a core's item, up to now (R450). -/
def State.chargeItem (s : State) (k : Nat) : State :=
  match (s.core k).item with
  | some i => s.chargeCore i.ctx (s.devTime - i.started)
  | none => s

/-- A full pre-emption of a core stops (R446). -/
def State.dropPreempt (s : State) (k : Nat) : State :=
  s.updCluster (clusterOf k) (fun c => { c with preempts := c.preempts.filter (fun p => p.core != k) })

/-- The end of a grid's abort: once no row is in the array it acknowledges (R161). -/
def State.abortDone (s : State) (k : Nat) : State :=
  let g := (s.core k).grid
  if g.aborting && g.flight.isEmpty then
    (s.updCore k (fun c => { c with grid := { c.grid with aborting := false, shadow := none, banks := [], discard := [] } })).send (.acknowledge 1 k 1)
  else s

/-- The units of a core let go of an ended item: queued rows and tiles are dropped, banks cleared, unadmitted transfers
discarded, and admitted ones run on without the core (DEDUCED, log 11). -/
def State.clearUnits (s : State) (k : Nat) : State :=
  let s0 := (s.chargeItem k).dropPreempt k
  let s1 := (s0.updCore k (fun c => { c with
    item := none, held := [], vec := vecRegsReset, dmaMarks := []
    winnow := { c.winnow with queue := [] }
    grid := { c.grid with queue := [], flight := [], banks := [], discard := [] } })).abortDone k
  s1.updCluster (clusterOf k) (fun c => { c with dma := { c.dma with
    queues := c.dma.queues.filterMap (fun q =>
      let rest := q.2.filter (fun e => match e with
        | .xfer x => x.core != k
        | .barrier j => j != k)
      if rest.isEmpty then none else some (q.1, rest))
    outstanding := c.dma.outstanding.map (fun x => if x.core = k then { x with core := 255 } else x) } })

/-- A core that has let its item go: free, or stopped where the fault lies in the core. -/
def State.afterEnd (s : State) (k : Nat) (stopped : Bool) : State :=
  let s1 := s.clearUnits k
  if stopped then s1.updCore k (fun c => { c with phase := .stopped })
  else (s1.updCore k (fun c => { c with phase := .idle })).takeNext k

/-- Ending an item without replay (R344, R352, R521): no row is released, its rows carry WEIGHT_LOST, its pins are
released. -/
def State.endItem (s : State) (k code : Nat) (stopped : Bool) : State :=
  match (s.core k).item with
  | none => s.afterEnd k stopped
  | some i =>
    let s1 := s.sendAll (i.endNotices (s.rowsOf i) markWeightLost code)
    ((s1.freeRecord i).releasePins i).afterEnd k stopped

/-- The sheaf record as a fresh run of the item finds it: the marks of the failed run are discarded (R520); the rows are winnowed again, so that
a verdict not yet taken waits for their new counts, a wide run for its rows, and the holds of the failed run end (R120). -/
def State.resetRows (s : State) (i : WorkItem) : State :=
  match i.kind with
  | .sheaf n => s.updCluster i.homeCluster (fun c => { c with
      records := match Tbl.get none c.records n with
        | some r => Tbl.set none c.records n (some { r with rows := i.rows, counts := [], wideRows := [], nonFinite := [], held := [] })
        | none => c.records })
  | .share _ => s

/-- Whether a replay of the item on core `k` is refused (R521). -/
def WorkItem.exhausted (i : WorkItem) (k : Nat) : Bool := i.added || decide (3 ≤ (k :: i.failedCores).eraseDups.length)

/-- Whether an item that has failed on core `k` is ended: its replay is refused, or its context is being torn down (R498, R521). -/
def State.endsItem (s : State) (i : WorkItem) (k : Nat) : Bool := i.exhausted k || s.faults.teardowns.any (fun t => t.ctx == i.ctx)

/-- ITEM_REPLAY (R520, R521): an item without ADDED that has failed on fewer than three cores returns to its stage's list
in this cluster at its entry time; any other is ended, and one of a context that is being torn down (R498). -/
def State.replayItem (s : State) (k : Nat) (stopped : Bool) : State :=
  match (s.core k).item with
  | none => s.afterEnd k stopped
  | some i =>
    let failed := (k :: i.failedCores).eraseDups
    if s.endsItem i k then s.endItem k codeOk stopped
    else
      let item := { i with failedCores := failed, cleared := i.cleared.filter (fun n => n != k), marks := 0, wrote := false, units := 0, staged := 0 }
      let s1 := (s.resetRows i).updCluster (clusterOf k) (fun c => { c with
        integrity := { c.integrity with replays := c.integrity.replays + 1 } })
      ((s1.updCluster (clusterOf k) (fun c => c.listItem item)).afterEnd k stopped).dispatch (clusterOf k)

/-- The device fields a core's fault names (R492). -/
def State.coreFault (s : State) (k kind detail : Nat) : FaultReport :=
  let base := faultOf kind 1 k
  match (s.core k).item with
  | some i => { base with ctx := some i.ctx, part := i.part, queue := i.tag / 2 ^ 22, tag := i.tag, detail := detail }
  | none => { base with detail := detail }

/-- A core fault while an item runs: the core stops, the fault is reported, and the item is returned for replay or ended
(R520, R521). `r` is the report without its ACTION. -/
def State.coreFailedWith (s : State) (k : Nat) (r : FaultReport) : State :=
  let action := match (s.core k).item with
    | some i => if s.endsItem i k then 1 else 3
    | none => 0
  (s.send (.fault { r with action := action })).replayItem k true
/-- The same for a fault without an address. -/
def State.coreFailed (s : State) (k kind detail : Nat) : State := s.coreFailedWith k (s.coreFault k kind detail)

/-! ### The sheaf former (R150 to R152) -/

/-- The lowest free sheaf record slot. -/
def ClusterState.freeSlot (c : ClusterState) : Nat :=
  ((List.range (c.records.length + 1)).find? (fun n => (Tbl.get none c.records n).isNone)).getD 0

/-- The priority a row's queue binding gives (R431): TAG[31:22] names the queue. -/
def State.rowPriority (s : State) (p tag : Nat) : Nat :=
  match (s.part p).desc, s.planOf p with
  | some d, some pl =>
    match pl.bindingOf (tag / 2 ^ 22 - d.queues.1) with
    | some b => b.priority
    | none => 0
  | _, _ => 0

/-- Counting a closing (R163). -/
def FormerCounters.closed (f : FormerCounters) (cause : CloseCause) : FormerCounters :=
  match cause with
  | .full => { f with full := f.full + 1 }
  | .timer => { f with timed := f.timed + 1 }
  | .evict => { f with evicted := f.evicted + 1 }
  | .flush | .preempt => { f with flushed := f.flushed + 1 }

/-- SHEAF_CLOSE (R151): the sheaf leaves the former, takes a record and is listed for dispatch. -/
def State.closeSheaf (s : State) (c : Nat) (o : OpenSheaf) (cause : CloseCause) : State :=
  let x := s.cluster c
  let slot := x.freeSlot
  let record : SheafRecord :=
    { part := o.part, ctx := o.ctx, stage := o.stage, rows := o.rows, counts := [], verdicts := [], wideRows := [], nonFinite := [], held := [] }
  let prio := o.rows.foldl (fun m r => max m (s.rowPriority o.part r.tag)) 0
  let first := o.rows.headD { stage := o.stage, cls := 0, length := 0, inAddr := 0, tag := 0, marks := 0, arrival := 0 }
  let item : WorkItem :=
    { kind := .sheaf slot, part := o.part, ctx := o.ctx, relCtx := o.ctx - s.ctxBase o.part, stage := o.stage, tag := first.tag
      rows := o.rows, marks := 0, priority := prio, cls := first.cls, entered := s.devTime, order := x.nextOpened
      started := 0, pins := [], heldPin := none, added := false, wrote := false, preempted := false, units := 0, staged := 0
      failedCores := [], homeCluster := c, forced := false }
  let s1 := s.setCluster c { x with
    openSheaves := x.openSheaves.erase o
    records := Tbl.set none x.records slot (some record)
    former := x.former.closed cause
    nextOpened := x.nextOpened + 1 }
  s1.enlist c item

/-- The open sheaf of a stage and context. -/
def ClusterState.openFor (c : ClusterState) (ctx stage : Nat) : Option OpenSheaf :=
  c.openSheaves.find? (fun o => o.ctx == ctx && o.stage == stage)

/-- SHEAF_FLUSH (R151): a flush closes the open sheaf of its stage and context. -/
def State.flushSheaf (s : State) (c ctx stage : Nat) (cause : CloseCause) : State :=
  match (s.cluster c).openFor ctx stage with
  | some o => s.closeSheaf c o cause
  | none => s

/-- A row joins the open sheaf of its stage and context, or opens one, after SHEAF_EVICT where 16 are open; the 128th
row closes the sheaf FULL (R150, R151). -/
def State.joinRow (s : State) (c p ctx : Nat) (r : RowDesc) : State :=
  let row := { r with arrival := s.devTime }
  let s0 := match (s.cluster c).openFor ctx r.stage with
    | some _ => s
    | none =>
      let x := s.cluster c
      if x.openSheaves.length < 16 then s else
        match argMin (fun o : OpenSheaf => o.opened) x.openSheaves with
        | some o => s.closeSheaf c o .evict
        | none => s
  let x := s0.cluster c
  let o := match x.openFor ctx r.stage with
    | some o => { o with rows := o.rows ++ [row] }
    | none => { part := p, ctx := ctx, stage := r.stage, rows := [row], opened := x.nextOpened }
  let s1 := s0.setCluster c { x with
    openSheaves := x.openSheaves.filter (fun q : OpenSheaf => !(q.ctx == ctx && q.stage == r.stage)) ++ [o]
    former := { x.former with rows := x.former.rows + 1 }
    nextOpened := x.nextOpened + 1 }
  if 128 ≤ o.rows.length then s1.closeSheaf c o .full else s1

/-- The former that receives a released row or flush (R185). -/
def State.formerOf (s : State) (c p stage : Nat) : Nat :=
  match s.planOf p with
  | none => c
  | some pl =>
    let holds (n : Nat) : Bool := !(s.cluster n).retired && (match pl.pool stage with
      | some q => 0 < q.coresIn n
      | none => false)
    if holds c then c else
      let die := ((List.range 12).map (fun i => c / 12 * 12 + i)).filter holds
      match argMin (fun n => meshHops c n * 32 + n) die with
      | some n => n
      | none => ((List.range 24).find? holds).getD c

/-- The marks that the rows an item consumed under a tag have gathered: a released row carries them on (R119, R147). -/
def State.tagMarks (s : State) (i : WorkItem) (tag : Nat) : Nat :=
  ((s.rowsOf i).filter (fun r => r.tag == tag)).foldl (fun m r => m ||| r.marks) 0

/-- One held row or flush of core `k` goes to its former: this cluster's at once, another's as a message with the row's
input bytes (R166, R185). The row carries the marks of the consumed rows that bear its tag (R119). -/
def State.release (s : State) (k : Nat) (i : WorkItem) (h : Held) : State :=
  let c := clusterOf k
  match h with
  | .row r =>
    let marks := r.marks ||| s.tagMarks i r.tag
    let row := { r with marks := if i.preempted then marks ||| markPreempted else marks }
    let t := s.formerOf c i.part row.stage
    if t = c then s.joinRow c i.part i.ctx row
    else
      let input := match binPlace row.inAddr with
        | some pl => s.binRead k pl (64 * row.length)
        | none => []
      s.send (.row t i.part i.ctx row input)
  | .flush stage =>
    let t := s.formerOf c i.part stage
    if t = c then s.flushSheaf c i.ctx stage .flush else s.send (.flush t i.part i.ctx stage)

/-- The notice that rows were released with a tag (R425). -/
def releaseNotices (hs : List Held) : List Out :=
  hs.filterMap (fun h => match h with
    | .row r => some (.workEnd r.tag 0 0 0 1)
    | .flush _ => none)

/-- A replay that completed CLEAN on this core confirms the mismatches of the same item elsewhere (R522). -/
def State.confirmPatterns (s : State) (k : Nat) (i : WorkItem) : State :=
  { s with patterns := s.patterns.map (fun p =>
      if itemIs p.item p.home p.entered i && p.core != k && !p.discarded then { p with confirmed := true } else p) }

/-! ### The commands of the sequencer and the former -/

/-- Where the input of a row delivered to another cluster lands: the first STAGING region of the row's stage there, at a 64 B unit that is a free
value, for R185 names the bin and no place in it (log 67). -/
def State.landing (s : State) (c stage bytes : Nat) : Option Nat :=
  ((s.clusterPlan c).bind (fun pl => pl.binMap.find? (fun r => r.kind == 3 && r.scope == 1 && r.cluster == c && r.stage == stage))).map (fun r =>
    r.offset * 4096 + 64 * (s.free.toNat % ((r.size * 4096 - bytes) / 64 + 1)))

/-- The input of a row from another cluster lands in this cluster's bin: the state with it, and the row's new IN (R185). -/
def State.landRow (s : State) (c stage : Nat) (r : RowArg) (input : List Byte) : State × Nat :=
  if r.length = 0 then (s, r.inAddr)
  else
    let bytes := input.take (64 * r.length)
    match s.landing c stage bytes.length with
    | some off => ((s.updCluster c (fun x => { x with bin := x.bin.put off bytes })).tookFree, 2 ^ 24 + off)
    | none => (s, r.inAddr)

/-- ROW_ARRIVE: a released row, or a released flush, reaches a sheaf former, that of a retired cluster's successor in its place (R538); a row
from another cluster brings its input bytes, which land in this cluster's bin, and its IN names where (R150, R185). A row of LENGTH 0 brings none. -/
def execRowArrive (to_ part ctx stage : Nat) (row : Option RowArg) (input : List Byte) (s : State) : Answer :=
  onCluster to_ s (fun s =>
    let cluster := if (s.cluster to_).retired then s.formerOf to_ part stage else to_
    match row with
    | none => .next (s.flushSheaf cluster ctx stage .flush)
    | some r =>
      let landed := s.landRow cluster stage r input
      .next (landed.1.joinRow cluster part ctx { stage := stage, cls := r.cls, length := r.length, inAddr := landed.2, tag := r.tag
                                                 marks := r.marks, arrival := 0 }))

/-- Whether a row's class lets the sheaf timer run (R151). -/
def State.timedRow (s : State) (p : Nat) (r : RowDesc) : Bool :=
  match s.planOf p with
  | none => false
  | some pl =>
    match pl.classOf r.cls with
    | some c => c.sheafWait != 0
    | none => false

/-- SHEAF_TIMER: the sheaf deadline passes and the sheaf closes (R151); a sheaf none of whose rows has a nonzero
SHEAF_WAIT has no deadline. -/
def execSheafTimer (cluster ctx stage : Nat) (s : State) : Answer :=
  onCluster cluster s (fun s =>
    match (s.cluster cluster).openFor ctx stage with
    | some o => if o.rows.any (s.timedRow o.part) then .next (s.closeSheaf cluster o .timer) else .next s
    | none => .next s)

/-- ITEM_RETIRE: once everything before END has completed, held rows and flushes leave in issue order, the marks are
posted, END itself is counted as retired, and the core takes its next item (R166, R190, R425). -/
def execItemRetire (k : Nat) (s : State) : Answer :=
  onCore k s (fun s =>
    let c := s.core k
    match c.item with
    | none => .next s
    | some i0 =>
      if c.phase ≠ .atEnd ∨ !s.unitsDone k then .next s else
        let range := if c.vec.range = 0 then 0 else markRange
        let i := { i0 with marks := i0.marks ||| range ||| (if i0.preempted then markPreempted else 0) }
        let rows := s.rowsOf i
        let s1 := (s.updCore k (fun c => { c with retired := c.retired + 1 })).sendAll (releaseNotices c.held)
        let s2 := c.held.foldl (fun s h => s.release k i h) s1
        let s3 := s2.sendAll (i.endNotices rows 0 codeOk)
        let s4 := if i.failedCores.isEmpty then s3 else s3.confirmPatterns k i
        .next (((s4.freeRecord i).releasePins i).afterEnd k false))

/-- The queue that a tag names (R424). -/
def tagQueue (tag : Nat) : Nat := tag / 2 ^ 22

/-- Removing the rows of aborted work from the open sheaves: an empty sheaf is discarded, one left with rows closes
FLUSH (R152). -/
def State.abortRows (s : State) (c : Nat) (p : OpenSheaf → RowDesc → Bool) : State :=
  (s.cluster c).openSheaves.foldl (fun s o =>
    let rest := o.rows.filter (fun r => !p o r)
    if rest.length = o.rows.length then s
    else
      let o' := { o with rows := rest }
      let s1 := s.updCluster c (fun x => { x with openSheaves := x.openSheaves.map (fun q => if q = o then o' else q) })
      if rest.isEmpty then s1.updCluster c (fun x => { x with openSheaves := x.openSheaves.erase o' })
      else s1.closeSheaf c o' .flush) s

/-- Discarding the listed shares of aborted work, with their pins (R428). -/
def State.abortListed (s : State) (c : Nat) (p : WorkItem → Bool) : State :=
  let x := s.cluster c
  let gone := (x.ready.flatMap Prod.snd ++ x.unlisted).filter p
  let s1 := s.updCluster c (fun x => { x with
    ready := x.ready.filterMap (fun e =>
      let rest := e.2.filter (fun i => !p i)
      if rest.isEmpty then none else some (e.1, rest))
    unlisted := x.unlisted.filter (fun i => !p i) })
  gone.foldl (fun s i => s.releasePins i) s1

/-- The unadmitted transfers of a core's item, with its barriers, pass to another holder: core `k` itself, or `k` + 256 while the item is
saved (R357). -/
def State.moveTransfers (s : State) (c src dst : Nat) (held : Bool) : State :=
  s.updCluster c (fun x => { x with dma := { x.dma with
    queues := x.dma.queues.map (fun q => (q.1, q.2.map (fun e => match e with
      | .xfer t => if t.core = src then .xfer { t with core := dst, held := held } else e
      | .barrier j => if j = src then .barrier dst else e))) } })

/-- The unadmitted transfers of a holder are discarded (R357). -/
def State.dropTransfers (s : State) (c src : Nat) : State :=
  s.updCluster c (fun x => { x with dma := { x.dma with
    queues := x.dma.queues.filterMap (fun q =>
      let rest := q.2.filter (fun e => match e with
        | .xfer t => t.core != src
        | .barrier j => j != src)
      if rest.isEmpty then none else some (q.1, rest)) } })

/-- Discarding the saved items of aborted work of a cluster's cores (R446). -/
def State.abortSaved (s : State) (c : Nat) (p : WorkItem → Bool) : State :=
  (List.range 8).foldl (fun s j =>
    let k := 8 * c + j
    match (s.core k).saved with
    | some sv =>
      if p sv.item then
        ((((s.updCore k (fun x => { x with saved := none, phase := if x.phase = .resuming then .idle else x.phase })).freeRecord
          sv.item).releasePins sv.item).dropTransfers c (k + 256)).takeNext k
      else s
    | none => s) s

/-- Whether an item is a share of a queue's command: closed sheaves run on (R152, R428). -/
def shareOfQueue (queue : Nat) (i : WorkItem) : Bool :=
  match i.kind with
  | .share _ => tagQueue i.tag == queue
  | .sheaf _ => false

/-- Whether an item is a share of a context's command. -/
def shareOfContext (ctx : Nat) (i : WorkItem) : Bool :=
  match i.kind with
  | .share _ => i.ctx == ctx
  | .sheaf _ => false

/-- SEQUENCER_ABORT, of a queue's work, or of all of a context's where none is named: rows leave the open sheaves, listed and saved
shares are discarded, with a context its saved sheaves too, and the sequencer acknowledges (R152, R428, R446, R497). -/
def execSequencerAbort (cluster ctx : Nat) (queue : Option Nat) (s : State) : Answer :=
  onCluster cluster s (fun s =>
    match queue with
    | some q =>
      let s1 := s.abortRows cluster (fun _ r => tagQueue r.tag == q)
      let s2 := s1.abortListed cluster (shareOfQueue q)
      .next ((s2.abortSaved cluster (shareOfQueue q)).send (.acknowledge 2 cluster q))
    | none =>
      let s1 := s.abortRows cluster (fun o _ => o.ctx == ctx)
      let s2 := s1.abortListed cluster (shareOfContext ctx)
      .next ((s2.abortSaved cluster (fun i => i.ctx == ctx)).send (.acknowledge 2 cluster (1024 + ctx))))

/-- CORE_ABORT: the engine stops at the next instruction boundary, held rows and flushes are discarded, the queued winnow
rows with them, and the core acknowledges (R189). -/
def execCoreAbort (k : Nat) (s : State) : Answer :=
  onCore k s (fun s =>
    match (s.core k).item with
    | none => .next (s.send (.acknowledge 1 k 0))
    | some i =>
      let s0 := (s.chargeItem k).dropPreempt k
      let s1 := s0.updCore k (fun c => { c with
        phase := .idle, item := none, held := [], vec := vecRegsReset, dmaMarks := []
        winnow := { c.winnow with queue := [] } })
      .next ((((s1.freeRecord i).releasePins i).send (.acknowledge 1 k 0)).takeNext k))

/-- The first item of a cluster's lists, in list order, that a thief may take (R435, R436). -/
def State.stealable (s : State) (thief asked : Nat) : Option WorkItem :=
  match s.poolOf thief with
  | none => none
  | some (_, pool, _) =>
    let limit := ((s.cluster (clusterOf thief)).sched.stealBytes.toNat + 1) * 4096
    let x := s.cluster asked
    let items := (List.range 64).flatMap (fun st => if compatible pool st then x.listOf st else [])
    argMin s.listKey (items.filter (fun i => decide (i.inputBytes ≤ limit) && s.mayRun thief i))

/-- STEAL_REQUEST: the asked cluster gives up the first item that qualifies, whose inputs its DMA then copies; if none
qualifies the next cluster is asked (R435). -/
def execStealRequest (thief asked : Nat) (s : State) : Answer :=
  onCore thief s (fun s => onCluster asked s (fun s =>
    if !s.mayTake thief ∨ dieOfCluster asked ≠ dieOfCluster (clusterOf thief) then .next s else
      match s.stealable thief asked with
      | some i =>
        let s1 := s.updCluster asked (fun x =>
          let y := x.takeItem i
          { y with sched := { y.sched with stealsOut := y.sched.stealsOut + 1 } })
        let bytes := i.rows.flatMap (fun r => match binPlace r.inAddr with
          | some (.cluster off) => (s.cluster asked).bin.bytes off (64 * r.length)
          | _ => zeroBytes (64 * r.length))
        .next (s1.updCore thief (fun c => { c with incoming := some (i, bytes) }))
      | none =>
        match (s.stealOrder thief).dropWhile (fun a => a != asked) with
        | _ :: a :: _ => .next (s.send (.steal thief a))
        | _ => .next s))

/-- The rows of a stolen item with their IN rewritten to where the copied inputs land: after the work record, one after
another (R185, R435; DEDUCED, log 12). -/
def relocateRows (base : Nat) : List RowDesc → List RowDesc
  | [] => []
  | r :: rs => { r with inAddr := base } :: relocateRows (base + 64 * r.length) rs

/-- STEAL_COPY_DONE: the inputs of a stolen item reach the thief cluster's bin, and the item starts (R435). -/
def execStealCopyDone (thief : Nat) (s : State) : Answer :=
  onCore thief s (fun s =>
    let c := s.core thief
    match c.incoming with
    | none => .next s
    | some (i, bytes) =>
      let off := ceilDiv i.record.length 64 * 64
      let base := match s.stagingSlot thief with
        | some (b, _) => 2 ^ 24 + b + off
        | none => 0
      let item := { i with rows := relocateRows base i.rows }
      let s1 := s.updCore thief (fun c => { c with incoming := none })
      let s2 := s1.writeStaging thief off bytes
      let s3 := s2.updCluster (clusterOf thief) (fun x => { x with
        sched := { x.sched with stealsIn := x.sched.stealsIn + 1 } })
      .next (s3.startItem thief item))

end Sys2Proof.Machine
end

