-- ==== Sys2Proof/Machine/StreamOps.lean ====
section
/-!
DEFINITION. Stream descriptors (R340 to R343): parsing, the enumeration of elements, and extents.
-/

namespace Sys2Proof.Machine

/-- The stream descriptor of R340 at the head of a byte string. -/
def parseStream (bs : List Byte) : StreamDesc :=
  { addr := fieldLE bs 0 8, space := fieldLE bs 8 1, esize := fieldLE bs 9 1, highNibble := (fieldLE bs 10 1).testBit 0
    strides := (List.range 5).map (fun i => signedOf 32 (fieldLE bs (16 + 4 * i) 4))
    counts := (List.range 5).map (fun i => fieldLE bs (36 + 2 * i) 2) }

/-- Whether the reserved bytes and flags of a stream descriptor are 0. -/
def streamReserved (bs : List Byte) : Bool :=
  fieldLE bs 10 1 / 2 == 0 && allZero ((bs.drop 11).take 5) && allZero ((bs.drop 46).take 2)

/-- The count of pair `p`. -/
def StreamDesc.count (d : StreamDesc) (p : Nat) : Nat := d.counts.getD p 1
/-- The stride of pair `p`, in elements. -/
def StreamDesc.stride (d : StreamDesc) (p : Nat) : Int := d.strides.getD p 0

/-- The number of elements of a stream (R341). -/
def StreamDesc.total (d : StreamDesc) : Nat := d.count 0 * d.count 1 * d.count 2 * d.count 3 * d.count 4

/-- The index of pair `p` in element `n`, pair 0 innermost (R341). -/
def StreamDesc.index (d : StreamDesc) (p n : Nat) : Nat :=
  match p with
  | 0 => n % d.count 0
  | 1 => n / d.count 0 % d.count 1
  | 2 => n / (d.count 0 * d.count 1) % d.count 2
  | 3 => n / (d.count 0 * d.count 1 * d.count 2) % d.count 3
  | _ => n / (d.count 0 * d.count 1 * d.count 2 * d.count 3)

/-- The offset of element `n` from ADDR, in elements; an unused pair has count 1 and adds nothing (R341). -/
def StreamDesc.offset (d : StreamDesc) (n : Nat) : Int :=
  (List.range 5).foldl (fun (acc : Int) p => acc + (d.index p n : Int) * d.stride p) 0

/-- The lowest element offset of a stream (R343). -/
def StreamDesc.lowOff (d : StreamDesc) : Int :=
  (List.range 5).foldl (fun (acc : Int) p => acc + min 0 (d.stride p * ((d.count p : Int) - 1))) 0
/-- The highest element offset of a stream (R343). -/
def StreamDesc.highOff (d : StreamDesc) : Int :=
  (List.range 5).foldl (fun (acc : Int) p => acc + max 0 (d.stride p * ((d.count p : Int) - 1))) 0

/-- The first byte of a stream's extent for elements of `size` bytes (R343). -/
def StreamDesc.low (d : StreamDesc) (size : Nat) : Int := d.addr + d.lowOff * size
/-- The last byte of a stream's extent (R343). -/
def StreamDesc.high (d : StreamDesc) (size : Nat) : Int := d.addr + d.highOff * size + size - 1

end Sys2Proof.Machine
end

