-- ==== Sys2Proof/Machine/Operands.lean ====
section
/-!
DEFINITION. The operand forms of the vector engine (R164 to R169, R176): scalar, mask and lane registers, format
codes, effective bin addresses, element packing, and the masked writing of lanes.
-/

namespace Sys2Proof.Machine

/-- Scalar register s0 to s15; the index is the low 4 bits of its field (R167). -/
def VecRegs.scalar (r : VecRegs) (i : BitVec 5) : Word64 := Tbl.get 0 r.x (i.toNat % 16)
/-- Writing a scalar register: s12 to s15 are read-only (R164). -/
def VecRegs.setScalar (r : VecRegs) (i : BitVec 5) (v : Word64) : VecRegs :=
  if 12 ≤ i.toNat % 16 then r else { r with x := Tbl.set 0 r.x (i.toNat % 16) v }
/-- Mask register m0 to m7; the index is the low 3 bits of its field (R167). -/
def VecRegs.mask (r : VecRegs) (i : Nat) : Word128 := Tbl.get 0 r.m (i % 8)
/-- Writing a mask register. -/
def VecRegs.setMask (r : VecRegs) (i : Nat) (v : Word128) : VecRegs := { r with m := Tbl.set 0 r.m (i % 8) v }
/-- Vector register v0 to v31. -/
def VecRegs.lanes (r : VecRegs) (i : BitVec 5) : Lanes := Tbl.get zeroLanes r.v i.toNat
/-- Writing a vector register. -/
def VecRegs.setLanes (r : VecRegs) (i : BitVec 5) (v : Lanes) : VecRegs := { r with v := Tbl.set zeroLanes r.v i.toNat v }
/-- One lane of a vector register. -/
def VecRegs.lane (r : VecRegs) (i : BitVec 5) (l : Nat) : Word32 := ((r.lanes i)[l]?).getD 0
/-- The generator of a lane (R164, R165: 1 at a work item's start). -/
def VecRegs.gen (r : VecRegs) (l : Nat) : Word32 := Tbl.get 1 r.gens l

/-- The format a code names (R168); a reserved code is read as binary32 and never reaches a core (R170). -/
def formatOf (code : Nat) : Format :=
  match code with
  | 1 => .sf32
  | 2 => .int32
  | 3 => .bf16
  | 4 => .b16
  | 5 => .e4m3
  | 6 => .e5m2
  | 7 => .int8
  | 8 => .bg4
  | 9 => .bg2
  | 10 => .aq8
  | _ => .b32

/-- The lane format F names. -/
def laneFmt (w : VWord) : Format := formatOf w.f.toNat
/-- The format G names. -/
def otherFmt (w : VWord) : Format := formatOf w.g.toNat
/-- The rounding mode RM names (R96). -/
def roundMode (w : VWord) : Rounding := roundingOf w.rm.toNat
/-- The mode of binary32 arithmetic: modes 5 to 7 behave as RNE (R172). -/
def arithMode (w : VWord) : Rounding :=
  match roundMode w with
  | .stoch => .rne
  | m => m

/-- Whether a lane is enabled: every lane unless the word is governed by its mask M (R169). -/
def VecRegs.enabled (r : VecRegs) (w : VWord) (l : Nat) : Bool := !w.masked || (r.mask w.m.toNat).getLsbD l

/-- A mask of the lanes that satisfy a test. -/
def maskOf (f : Nat → Bool) : Word128 := BitVec.ofNat 128 ((List.range 128).foldl (fun m i => if f i then m + 2 ^ i else m) 0)

/-- The flags that lanes raise, as masks. -/
def laneFlagsOf (f : Nat → NumFlags) : LaneFlags :=
  { nv := maskOf (fun i => (f i).nv), ovf := maskOf (fun i => (f i).ovf), uf := maskOf (fun i => (f i).uf), range := maskOf (fun i => (f i).range) }

/-- No flag in any lane. -/
def laneFlagsNone : LaneFlags := { nv := 0, ovf := 0, uf := 0, range := 0 }

/-- How many instructions before a VFCLR may still be completing: more than the longest latency of R171 and R193 has clocks. -/
def recentFlags : Nat := 32

/-- Adding the flags that lanes raise to the sticky lane flags (R179). -/
def VecRegs.raise (r : VecRegs) (f : Nat → NumFlags) : VecRegs :=
  let x := laneFlagsOf f
  { r with nv := r.nv ||| x.nv, ovf := r.ovf ||| x.ovf, uf := r.uf ||| x.uf, range := r.range ||| x.range
           recent := (x :: r.recent).take recentFlags }

/-- The OR of lane flags over all lanes, as CORE_VEC_STATUS keeps it (R179). -/
def anyFlags (f : Nat → NumFlags) : NumFlags :=
  (List.range 128).foldl (fun a i => a.join (f i)) flagNone

/-- The effective bin address sA + IMM, the immediate a signed byte offset (R167). -/
def VecRegs.address (r : VecRegs) (w : VWord) : Nat := (r.scalar w.a + w.imm.signExtend 64).toNat

/-- The format parameters in sB (R176). -/
def scaleInfoOf (pl : Option Plan) (f : Format) (sb : Word64) : ScaleInfo :=
  match f with
  | .bg4 | .bg2 =>
    let ident := bitsOf sb.toNat 25 16
    { codebook := match pl with
        | some p => p.codebookOf f ident
        | none => []
      scale := bitsOf sb.toNat 15 0, zeroPoint := 0 }
  | .aq8 => { codebook := [], scale := bitsOf sb.toNat 31 0, zeroPoint := bitsOf sb.toNat 39 32 }
  | _ => { codebook := [], scale := 0x3C00, zeroPoint := 0 }

/-- The bytes that `n` elements of a format occupy, contiguous (R88, R168). -/
def bytesFor (f : Format) (n : Nat) : Nat := (n * f.bits + 7) / 8

/-- Element `i` of a packed run (R88). -/
def elementOf (f : Format) (bs : List Byte) (i : Nat) : Nat :=
  let b := f.bits
  if b < 8 then (bs.getD (i * b / 8) 0).toNat / 2 ^ (i * b % 8) % 2 ^ b
  else fieldLE bs (i * (b / 8)) (b / 8)

/-- A number with the field [lo + n − 1 : lo] replaced. -/
def putBits (v lo n x : Nat) : Nat := v / 2 ^ (lo + n) * 2 ^ (lo + n) + (x % 2 ^ n) * 2 ^ lo + v % 2 ^ lo

/-- A packed run with element `i` replaced; other elements of a shared byte keep their bits (R169). -/
def putElement (f : Format) (bs : List Byte) (i x : Nat) : List Byte :=
  let b := f.bits
  if b < 8 then
    let j := i * b / 8
    bs.set j (BitVec.ofNat 8 (putBits (bs.getD j 0).toNat (i * b % 8) b x))
  else bs.take (i * (b / 8)) ++ natLE (b / 8) x ++ bs.drop ((i + 1) * (b / 8))

/-- Packing a list of elements (R88). -/
def packElements (f : Format) (xs : List Nat) : List Byte :=
  if f.bits < 8 then
    natLE (bytesFor f xs.length) (xs.foldr (fun x acc => x % 2 ^ f.bits + acc * 2 ^ f.bits) 0)
  else xs.flatMap (fun x => natLE (f.bits / 8) x)

/-- Unpacking `n` elements (R88). -/
def unpackElements (f : Format) (bs : List Byte) (n : Nat) : List Nat := (List.range n).map (elementOf f bs)

end Sys2Proof.Machine
end

