-- ==== Sys2Proof/Machine/VecMath.lean ====
section
/-!
DEFINITION. What the vector engine computes in a lane, in a mask and across lanes (R172 to R175, R187): arithmetic,
comparisons, the total order of sorting steps and the reduction tree.
-/

namespace Sys2Proof.Machine

/-- A lane result with its flags. -/
abbrev LaneOut := Word32 × NumFlags

/-- A lane as an exact value in a lane format. -/
def laneValue (f : Format) (x : Word32) : Value := (decodeValue f { codebook := [], scale := 0x3C00, zeroPoint := 0 } x.toNat).1

/-- Rounding an arithmetic result in binary32 or SF32; `invalid` raises NV on the canonical NaN (R85, R172). -/
def roundArith (f : Format) (mode : Rounding) (v : Value × Bool) : LaneOut :=
  let r := encodeFloat f (if f = .sf32 then layoutSF32 else layoutB32) mode 0 v.1
  (BitVec.ofNat 32 r.1, if v.2 then flagNV else r.2)

/-- Saturation into INT32, symmetric, raising OF (R86, R173). -/
def saturate32 (i : Int) : LaneOut :=
  if 2 ^ 31 - 1 < i then (0x7FFFFFFF, flagOF)
  else if i < -(2 ^ 31 - 1) then (0x80000001, flagOF)
  else (BitVec.ofInt 32 i, flagNone)

/-- Lane arithmetic over two operands: exact integers saturated, or exact values rounded once (R172, R173). -/
def laneArith (f : Format) (mode : Rounding) (onInt : Int → Int → Int) (onVal : Value → Value → Value × Bool)
    (a b : Word32) : LaneOut :=
  if f = .int32 then saturate32 (onInt a.toInt b.toInt)
  else roundArith f mode (onVal (laneValue f a) (laneValue f b))

/-- VADD (R172, R173). -/
def laneAdd (f : Format) (mode : Rounding) : Word32 → Word32 → LaneOut := laneArith f mode (· + ·) (addValue mode)
/-- VSUB. -/
def laneSub (f : Format) (mode : Rounding) : Word32 → Word32 → LaneOut :=
  laneArith f mode (· - ·) (fun a b => addValue mode a (negValue b))
/-- VMUL. -/
def laneMul (f : Format) (mode : Rounding) : Word32 → Word32 → LaneOut := laneArith f mode (· * ·) mulValue
/-- VFMA: the product and sum exact, rounded once; 0 × ∞ + c is invalid whatever c is (R172). -/
def laneFma (f : Format) (mode : Rounding) (a b c : Word32) : LaneOut :=
  if f = .int32 then saturate32 (a.toInt * b.toInt + c.toInt)
  else
    let p := mulValue (laneValue f a) (laneValue f b)
    let t := addValue mode p.1 (laneValue f c)
    roundArith f mode (t.1, p.2 || t.2)

/-- The sign bit of a lane. -/
def laneSign (a : Word32) : Bool := a.msb

/-- A lane as a unit reads it: an SF32 encoding with E = 0 is a zero of its sign, and no unit writes any other such encoding (R83). -/
def laneRead (f : Format) (a : Word32) : Word32 := if f = .sf32 ∧ a &&& 0x7FF00000 = 0 then a &&& 0x80000000 else a

/-- VABS: the sign bit of the lane as it is read (R83, R172). -/
def laneAbs (f : Format) (a : Word32) : LaneOut :=
  if f = .int32 then saturate32 a.toInt.natAbs else (laneRead f a &&& 0x7FFFFFFF, flagNone)
/-- VNEG: the sign bit of the lane as it is read (R83, R172). -/
def laneNeg (f : Format) (a : Word32) : LaneOut :=
  if f = .int32 then saturate32 (-a.toInt) else (laneRead f a ^^^ 0x80000000, flagNone)

/-- Whether a lane is a NaN of its format. -/
def laneNaN (f : Format) (a : Word32) : Bool := f != .int32 && (laneValue f a == .nan)

/-- The total order of the sorting steps: NaN below −∞, numbers in order, −0 below +0; INT32 is numeric (R174). -/
def laneBelow (f : Format) (a b : Word32) : Bool :=
  if f = .int32 then decide (a.toInt < b.toInt)
  else
    let x := laneValue f a
    let y := laneValue f b
    if x = .nan then y != .nan
    else if y = .nan then false
    else ltValue x y || (eqValue x y && laneSign a && !laneSign b)

/-- VMIN and VMAX: the number beats a NaN, two NaNs give the canonical NaN, −0 is less than +0 (R174). -/
def laneExtreme (f : Format) (wantMax : Bool) (a b : Word32) : LaneOut :=
  let pick := if laneBelow f a b then (if wantMax then b else a) else (if wantMax then a else b)
  if f = .int32 then (pick, flagNone)
  else if laneNaN f a then (if laneNaN f b then (BitVec.ofNat 32 (canonicalNaN f), flagNone) else (laneRead f b, flagNone))
  else if laneNaN f b then (laneRead f a, flagNone)
  else (laneRead f pick, flagNone)

/-- A VCMP condition (R174): 0 EQ, 1 NE, 2 LT, 3 LE, 4 GT, 5 GE, 6 UNORD, 7 ORD. -/
def laneCompare (f : Format) (cond : Nat) (a b : Word32) : Bool :=
  let un := laneNaN f a || laneNaN f b
  let lt := if f = .int32 then decide (a.toInt < b.toInt) else ltValue (laneValue f a) (laneValue f b)
  let eq := if f = .int32 then a == b else eqValue (laneValue f a) (laneValue f b)
  match cond with
  | 0 => !un && eq
  | 1 => un || !eq
  | 2 => !un && lt
  | 3 => !un && (lt || eq)
  | 4 => !un && !(lt || eq)
  | 5 => !un && !lt
  | 6 => un
  | _ => !un

/-- One level of the reduction tree: lane i with lane i + half (R175). -/
def reduceLevel (op : Word32 → Word32 → LaneOut) (half : Nat) (xs : List LaneOut) : List LaneOut :=
  (List.range half).map (fun i =>
    let a := xs.getD i (0, flagNone)
    let b := xs.getD (i + half) (0, flagNone)
    let r := op a.1 b.1
    (r.1, (a.2.join b.2).join r.2))

/-- The fixed seven-level tree (R175): the result and every flag it raised. -/
def reduceTree (op : Word32 → Word32 → LaneOut) (xs : List LaneOut) : LaneOut :=
  ([64, 32, 16, 8, 4, 2, 1].foldl (fun ys h => reduceLevel op h ys) xs).getD 0 (0, flagNone)

/-- The identity a masked lane contributes (R169): +0, −∞ or +∞; for INT32 extremes the encodings that no lane value
lies beyond (DEDUCED, log 8). -/
def reduceIdentity (f : Format) (kind : Nat) : Word32 :=
  match kind with
  | 0 => 0
  | 1 => if f = .int32 then 0x80000000 else if f = .sf32 then 0xFFF00000 else 0xFF800000
  | _ => if f = .int32 then 0x7FFFFFFF else if f = .sf32 then 0x7FF00000 else 0x7F800000

/-- The seed of a lane's generator (R178). -/
def seedLane (seed stream : Word32) (i : Nat) : Word32 :=
  seedOf (seed ^^^ (stream * 0x9E3779B9) ^^^ (BitVec.ofNat 32 (i + 1) * 0x85EBCA6B))

/-- The exchange mask of a sorting step (R187): j = IMM[2:0], k = IMM[5:3]. -/
def exchangeBit (f : Format) (x : Nat → Word32) (j k i : Nat) : Bool :=
  let p := i ^^^ 2 ^ j
  let lo := min i p
  let hi := max i p
  let descending := k == 7 || !lo.testBit k
  if descending then laneBelow f (x lo) (x hi) else laneBelow f (x hi) (x lo)

end Sys2Proof.Machine
end

