-- ==== Sys2Proof/Machine/Vector.lean ====
section
/-!
DEFINITION. The vector engine's instructions (spec 06): issue and retirement, scalar, mask and lane instructions,
loads and stores, loops. A command on a core that is not running a work item has no effect (DESIGN CHOICE, log 6); one that must wait leaves
the core waiting at it (DEDUCED, log 7).
-/

namespace Sys2Proof.Machine

/-- How an instruction leaves its core: retired at the next index, retired at a named index, waiting at issue, or
ended with the state as it is (END reached, or the core stopped). -/
inductive Issue where
  | done (s : State)
  | jump (s : State) (pc : Nat)
  | wait (s : State)
  | ended (s : State)

/-- The core is executing a work item. -/
def CoreState.running (c : CoreState) : Bool := c.phase == .running && c.item.isSome

/-- Retirement at index `pc` (R190: RETIRED counts predicated no-ops too). STALLS advances by the clocks that the instruction waited at issue
for its registers, a number that timing gives and the model leaves free (R186, R190; log 44). -/
def State.retireTo (s : State) (k pc : Nat) : State :=
  (s.updCore k (fun c => { c with vec := { c.vec with pc := pc % 2 ^ 18 }, retired := c.retired + 1, stalls := c.stalls + s.free })).tookFree

/-- An instruction waits at issue: STALLS advances by a number of clocks that the spec leaves open (R190). -/
def State.stall (s : State) (k : Nat) : State :=
  (s.updCore k (fun c => { c with stalls := c.stalls + s.free })).tookFree

/-- The outcome of an issue. -/
def finishIssue (k : Nat) (pc : Nat) : Issue → State
  | .done s => s.retireTo k (pc + 1)
  | .jump s q => s.retireTo k q
  | .wait s => s.stall k
  | .ended s => s

/-- Issue of one instruction on core `k`: nothing where the core runs no item, otherwise the body. -/
def issue (k : Nat) (body : State → CoreState → Issue) (s : State) : Answer :=
  onCore k s (fun s =>
    let c := s.core k
    if c.running then .next (finishIssue k c.vec.pc (body s c)) else .next s)

/-- A unit instruction, predicated on bit 0 of its mask when MK is set (R169). -/
def issueUnit (k : Nat) (w : VWord) (body : State → CoreState → Issue) (s : State) : Answer :=
  issue k (fun s c => if w.masked && !(c.vec.mask w.m.toNat).getLsbD 0 then .done s else body s c) s

/-- Replacing the engine's registers. -/
def State.setVec (s : State) (k : Nat) (r : VecRegs) : State := s.updCore k (fun c => { c with vec := r })

/-- An instruction that only changes the engine's registers. -/
def issueRegs (k : Nat) (f : VecRegs → VecRegs) (s : State) : Answer :=
  issue k (fun s c => .done (s.setVec k (f c.vec))) s

/-- A core stops on a fault of its context (R190): the status bit is set and the fault reported. -/
def State.stopWith (s : State) (k bit kind : Nat) (addrKind addr : Nat) : State :=
  let r := s.coreFault k kind (s.core k).vec.pc
  (s.updCore k (fun c => { c with phase := .stopped, vecStatus := c.vecStatus ||| BitVec.ofNat 6 (2 ^ bit) })).send
    (.fault { r with addrKind := addrKind, address := addr })

/-- BIN_FAULT: bit 4, kind 0x0101, the bin address (R190, R491). -/
def State.binFault (s : State) (k addr : Nat) : State := s.stopWith k 4 0x0101 3 addr

/-- An uncorrectable bin word stops the core before the value is used; a corrected one is counted (R289). -/
def State.binEcc (s : State) (k : Nat) (pl : BinPlace) (ecc : Ecc) (kind : Nat) : State × Bool :=
  match ecc with
  | .clean => (s, true)
  | .corrected =>
    match pl with
    | .core _ => (s.updCore k (fun c => { c with binCorrected := c.binCorrected + 1 }), true)
    | .cluster _ => (s.updCluster (clusterOf k) (fun c => { c with binCorrected := c.binCorrected + 1 }), true)
  | .uncorrectable =>
    let s1 := match pl with
      | .core _ => s.updCore k (fun c => { c with binUncorrectable := true })
      | .cluster _ => s.updCluster (clusterOf k) (fun c => { c with binUncorrectable := true })
    let address := match pl with
      | .core off => off
      | .cluster off => 2 ^ 24 + off
    (s1.coreFailedWith k { s1.coreFault k 0x0305 kind with addrKind := 3, address := address }, false)

/-- A checked read of `n` bytes by core `k`: the bytes, or the state of the stopped core. -/
def State.coreLoad (s : State) (k addr n : Nat) (align : Bool) (ecc : Ecc) : State × Option (List Byte) :=
  match s.binCheck k addr n false align with
  | none => (s.binFault k addr, none)
  | some (pl, r) =>
    match s.binEcc k pl ecc r.kind with
    | (s1, true) => (s1, some (s1.binRead k pl n))
    | (s1, false) => (s1, none)

/-- A checked write by core `k`: BIN_FAULT, a wait on a held input region, or the write (R117, R288). -/
def State.coreStore (s : State) (k addr : Nat) (bs : List Byte) : Issue :=
  match s.binCheck k addr bs.length true true with
  | none => .ended (s.binFault k addr)
  | some (pl, _) => if s.heldInput k pl bs.length then .wait s else .done (s.binWrite k pl bs)

/-- Raising lane flags, and CORE_VEC_STATUS with them (R179). -/
def State.raiseLanes (s : State) (k : Nat) (f : Nat → NumFlags) : State :=
  s.updCore k (fun c => { c with
    vec := c.vec.raise f
    vecStatus := c.vecStatus ||| BitVec.ofNat 6 (anyFlags f).toNat })

/-- Writing lanes of vD under the mask: a lane that is off takes 0 or keeps its value, and raises nothing (R169). -/
def State.writeLanes (s : State) (k : Nat) (w : VWord) (f : Nat → LaneOut) : State :=
  let r := (s.core k).vec
  let on := r.enabled w
  let old := r.lanes w.d
  let new := lanesOf (fun i => if on i then (f i).1 else if w.z then 0 else (old[i]?).getD 0)
  (s.setVec k (r.setLanes w.d new)).raiseLanes k (fun i => if on i then (f i).2 else flagNone)

/-- A lane instruction. -/
def issueLanes (k : Nat) (w : VWord) (f : VecRegs → Nat → LaneOut) (s : State) : Answer :=
  issue k (fun s c => .done (s.writeLanes k w (f c.vec))) s

/-- A lane instruction of two lane operands that raises no flag. -/
def issueBits (k : Nat) (w : VWord) (f : Word32 → Word32 → Word32) (s : State) : Answer :=
  issueLanes k w (fun r i => (f (r.lane w.a i) (r.lane w.b i), flagNone)) s

/-- A scalar instruction of two scalar operands. -/
def issueScalar (k : Nat) (w : VWord) (f : Word64 → Word64 → Word64) (s : State) : Answer :=
  issueRegs k (fun r => r.setScalar w.d (f (r.scalar w.a) (r.scalar w.b))) s

/-- A mask instruction of two mask operands; a mask index is the low 3 bits of its field (R167). -/
def issueMask (k : Nat) (w : VWord) (f : Word128 → Word128 → Word128) (s : State) : Answer :=
  issueRegs k (fun r => r.setMask w.d.toNat (f (r.mask w.a.toNat) (r.mask w.b.toNat))) s

/-- NOP (R171). -/
def execNop (k : Nat) (_w : VWord) (s : State) : Answer := issueRegs k (fun r => r) s
/-- SLI: sD = IMM, sign-extended. -/
def execSli (k : Nat) (w : VWord) (s : State) : Answer := issueRegs k (fun r => r.setScalar w.d (w.imm.signExtend 64)) s
/-- SLUI: sD = (sD << 20) | IMM. -/
def execSlui (k : Nat) (w : VWord) (s : State) : Answer :=
  issueRegs k (fun r => r.setScalar w.d ((r.scalar w.d <<< 20) ||| w.imm.zeroExtend 64)) s
/-- SADD, modulo 2^64. -/
def execSadd (k : Nat) (w : VWord) (s : State) : Answer := issueScalar k w (· + ·) s
/-- SSUB, modulo 2^64. -/
def execSsub (k : Nat) (w : VWord) (s : State) : Answer := issueScalar k w (· - ·) s
/-- SADDI: sD = sA + IMM; the immediate of an addition is read as signed, as a byte offset is (DEDUCED, log 9). -/
def execSaddi (k : Nat) (w : VWord) (s : State) : Answer :=
  issueRegs k (fun r => r.setScalar w.d (r.scalar w.a + w.imm.signExtend 64)) s
/-- SMUL: the low 64 bits of the product. -/
def execSmul (k : Nat) (w : VWord) (s : State) : Answer := issueScalar k w (· * ·) s
/-- SAND. -/
def execSand (k : Nat) (w : VWord) (s : State) : Answer := issueScalar k w (· &&& ·) s
/-- SOR. -/
def execSor (k : Nat) (w : VWord) (s : State) : Answer := issueScalar k w (· ||| ·) s
/-- SXOR. -/
def execSxor (k : Nat) (w : VWord) (s : State) : Answer := issueScalar k w (· ^^^ ·) s
/-- The shift amount IMM[5:0]. -/
def shiftImm (w : VWord) : Nat := w.imm.toNat % 64
/-- SSHL by IMM[5:0]. -/
def execSshl (k : Nat) (w : VWord) (s : State) : Answer := issueScalar k w (fun a _ => a <<< shiftImm w) s
/-- SSHR by IMM[5:0], logical. -/
def execSshr (k : Nat) (w : VWord) (s : State) : Answer := issueScalar k w (fun a _ => a >>> shiftImm w) s
/-- SSRA by IMM[5:0], arithmetic. -/
def execSsra (k : Nat) (w : VWord) (s : State) : Answer := issueScalar k w (fun a _ => a.sshiftRight (shiftImm w)) s

/-- SLD: 8 bytes from a bin. -/
def execSld (k : Nat) (w : VWord) (ecc : Ecc) (s : State) : Answer :=
  issue k (fun s c =>
    match s.coreLoad k (c.vec.address w) 8 true ecc with
    | (s1, some bs) => .done (s1.updCore k (fun c => { c with vec := c.vec.setScalar w.d (BitVec.ofNat 64 (leNat bs)) }))
    | (s1, none) => .ended s1) s

/-- SST: sB to a bin. -/
def execSst (k : Nat) (w : VWord) (s : State) : Answer :=
  issue k (fun s c => s.coreStore k (c.vec.address w) (natLE 8 (c.vec.scalar w.b).toNat)) s

/-- The opcode of instruction `pc` of the program in core `k`'s code region (R47, R167). -/
def State.opcodeAt (s : State) (k pc : Nat) : Nat := ((s.core k).bin.byte ((s.core k).codeBase + 8 * pc)).toNat

/-- The instruction word at `pc` of the program in core `k`'s code region (R47, R167). -/
def State.codeWord (s : State) (k pc : Nat) : BitVec 64 := BitVec.ofNat 64 (leNat ((s.core k).bin.bytes ((s.core k).codeBase + 8 * pc) 8))

/-- The command that core `k`'s program issues next (R165, R167, R171). -/
def State.nextCommand (s : State) (k : Nat) (ecc : Ecc) : Option Instr := decodeVecWord k (s.codeWord k (s.core k).vec.pc) ecc

/-- The index after the ENDLOOP that closes the loop opened before `pc` (R181), searched within `fuel` instructions. -/
def findLoopEnd (op : Nat → Nat) : Nat → Nat → Nat → Nat
  | 0, pc, _ => pc
  | fuel + 1, pc, depth =>
    if op pc = 0x11 then (if depth = 0 then pc + 1 else findLoopEnd op fuel (pc + 1) (depth - 1))
    else if op pc = 0x10 then findLoopEnd op fuel (pc + 1) (depth + 1)
    else findLoopEnd op fuel (pc + 1) depth

/-- The count of a LOOP: IMM[15:0], or a work register's value up to 65,535 (R181). -/
def loopCount (r : VecRegs) (w : VWord) : Nat :=
  if w.imm.getLsbD 16 then min (r.scalar (BitVec.ofNat 5 (12 + w.imm.toNat % 4))).toNat 65535 else w.imm.toNat % 65536

/-- LOOP opens a counted loop; a count of 0 skips the body (R181). -/
def execLoopOpen (k : Nat) (w : VWord) (s : State) : Answer :=
  issue k (fun s c =>
    let n := loopCount c.vec w
    if n = 0 then .jump s (findLoopEnd (s.opcodeAt k) 262144 (c.vec.pc + 1) 0)
    else .done (s.setVec k { c.vec with loops := { body := c.vec.pc + 1, remaining := n } :: c.vec.loops })) s

/-- ENDLOOP closes the innermost loop: back to its body while runs remain (R181). -/
def execLoopClose (k : Nat) (_w : VWord) (s : State) : Answer :=
  issue k (fun s c =>
    match c.vec.loops with
    | [] => .done s
    | f :: fs =>
      if 1 < f.remaining then
        .jump (s.setVec k { c.vec with loops := { f with remaining := f.remaining - 1 } :: fs }) f.body
      else .done (s.setVec k { c.vec with loops := fs })) s

/-- END: the item waits for its retirement (R166), which ITEM_RETIRE does. -/
def execCoreEnd (k : Nat) (_w : VWord) (s : State) : Answer :=
  issue k (fun s _ => .ended (s.updCore k (fun c => { c with phase := .atEnd }))) s

/-- FENCE waits until every earlier instruction of the core has completed. -/
def execFence (k : Nat) (_w : VWord) (s : State) : Answer :=
  issue k (fun s _ => if s.unitsDone k then .done s else .wait s) s

/-- SEED sets every lane's generator (R178). -/
def execSeed (k : Nat) (w : VWord) (s : State) : Answer :=
  issueRegs k (fun r => { r with gens := (List.range 128).foldl (fun t i => Tbl.set 1 t i
    (seedLane ((r.scalar w.a).truncate 32) ((r.scalar w.b).truncate 32) i)) r.gens }) s

/-- The verdict a sheaf record holds for a layer: 0 none, 1 narrow, 2 WIDE (R115). -/
def ClusterState.verdict (c : ClusterState) (slot layer : Nat) : Nat :=
  match Tbl.get none c.records slot with
  | some r => Tbl.get 0 r.verdicts layer
  | none => 0

/-- VRDT waits for the verdict of a layer and returns it as a mask (R182). -/
def execVrdt (k : Nat) (w : VWord) (s : State) : Answer :=
  issue k (fun s c =>
    match (s.cluster (c.home k)).verdict (c.vec.scalar w.a).toNat (w.imm.toNat % 4096) with
    | 0 => .wait s
    | 1 => .done (s.setVec k (c.vec.setMask w.d.toNat 0))
    | _ => .done (s.setVec k (c.vec.setMask w.d.toNat (BitVec.allOnes 128)))) s

/-- VADD. -/
def execVadd (k : Nat) (w : VWord) (s : State) : Answer :=
  issueLanes k w (fun r i => laneAdd (laneFmt w) (arithMode w) (r.lane w.a i) (r.lane w.b i)) s
/-- VSUB. -/
def execVsub (k : Nat) (w : VWord) (s : State) : Answer :=
  issueLanes k w (fun r i => laneSub (laneFmt w) (arithMode w) (r.lane w.a i) (r.lane w.b i)) s
/-- VMUL. -/
def execVmul (k : Nat) (w : VWord) (s : State) : Answer :=
  issueLanes k w (fun r i => laneMul (laneFmt w) (arithMode w) (r.lane w.a i) (r.lane w.b i)) s
/-- VFMA. -/
def execVfma (k : Nat) (w : VWord) (s : State) : Answer :=
  issueLanes k w (fun r i => laneFma (laneFmt w) (arithMode w) (r.lane w.a i) (r.lane w.b i) (r.lane w.c i)) s
/-- VMIN. -/
def execVmin (k : Nat) (w : VWord) (s : State) : Answer :=
  issueLanes k w (fun r i => laneExtreme (laneFmt w) false (r.lane w.a i) (r.lane w.b i)) s
/-- VMAX. -/
def execVmax (k : Nat) (w : VWord) (s : State) : Answer :=
  issueLanes k w (fun r i => laneExtreme (laneFmt w) true (r.lane w.a i) (r.lane w.b i)) s
/-- VABS. -/
def execVabs (k : Nat) (w : VWord) (s : State) : Answer :=
  issueLanes k w (fun r i => laneAbs (laneFmt w) (r.lane w.a i)) s
/-- VNEG. -/
def execVneg (k : Nat) (w : VWord) (s : State) : Answer :=
  issueLanes k w (fun r i => laneNeg (laneFmt w) (r.lane w.a i)) s
/-- VAND. -/
def execVand (k : Nat) (w : VWord) (s : State) : Answer := issueBits k w (· &&& ·) s
/-- VOR. -/
def execVor (k : Nat) (w : VWord) (s : State) : Answer := issueBits k w (· ||| ·) s
/-- VXOR. -/
def execVxor (k : Nat) (w : VWord) (s : State) : Answer := issueBits k w (· ^^^ ·) s
/-- VSHL by bits [4:0] of vB's lane. -/
def execVshl (k : Nat) (w : VWord) (s : State) : Answer := issueBits k w (fun a b => a <<< (b.toNat % 32)) s
/-- VSHR, logical. -/
def execVshr (k : Nat) (w : VWord) (s : State) : Answer := issueBits k w (fun a b => a >>> (b.toNat % 32)) s
/-- VSRA, arithmetic. -/
def execVsra (k : Nat) (w : VWord) (s : State) : Answer := issueBits k w (fun a b => a.sshiftRight (b.toNat % 32)) s

/-- A lane instruction that reads M as an operand and ignores MK and Z (R169). -/
def unmasked (w : VWord) : VWord := { w with masked := false }

/-- VSEL: lane i = M[i] ? vA[i] : vB[i]. -/
def execVsel (k : Nat) (w : VWord) (s : State) : Answer :=
  issueLanes k (unmasked w) (fun r i =>
    (if (r.mask w.m.toNat).getLsbD i then r.lane w.a i else r.lane w.b i, flagNone)) s

/-- VCVT between lane formats, one rounding in mode RM (R177). -/
def execVcvt (k : Nat) (w : VWord) (s : State) : Answer :=
  issueLanes k w (fun r i =>
    let p : ScaleInfo := { codebook := [], scale := 0x3C00, zeroPoint := 0 }
    let x := convert (laneFmt w) p (otherFmt w) p (roundMode w) 0 (r.lane w.a i).toNat
    (BitVec.ofNat 32 x.1, x.2)) s

/-- VBCAST: every lane = bits [31:0] of sA. -/
def execVbcast (k : Nat) (w : VWord) (s : State) : Answer :=
  issueLanes k w (fun r _ => ((r.scalar w.a).truncate 32, flagNone)) s
/-- VIOTA: lane i = i. -/
def execViota (k : Nat) (w : VWord) (s : State) : Answer := issueLanes k w (fun _ i => (BitVec.ofNat 32 i, flagNone)) s
/-- VEXT: sD = lane IMM[6:0] of vA, zero-extended. -/
def execVext (k : Nat) (w : VWord) (s : State) : Answer :=
  issueRegs k (fun r => r.setScalar w.d ((r.lane w.a (w.imm.toNat % 128)).zeroExtend 64)) s

/-- A mask result computed lane by lane: a lane that is off takes 0 if Z is set and otherwise keeps its bit (R169). -/
def maskResult (r : VecRegs) (w : VWord) (f : Nat → Bool) : Word128 :=
  maskOf (fun i => if r.enabled w i then f i else if w.z then false else (r.mask w.d.toNat).getLsbD i)

/-- VCMP (R174). -/
def execVcmp (k : Nat) (w : VWord) (s : State) : Answer :=
  issueRegs k (fun r => r.setMask w.d.toNat
    (maskResult r w (fun i => laneCompare (laneFmt w) (w.imm.toNat % 8) (r.lane w.a i) (r.lane w.b i)))) s

/-- A reduction over the enabled lanes, its flags on lane 0 (R169, R175, R179). -/
def issueReduce (k : Nat) (w : VWord) (kind : Nat) (op : Word32 → Word32 → LaneOut) (s : State) : Answer :=
  issue k (fun s c =>
    let xs := (List.range 128).map (fun i =>
      (if c.vec.enabled w i then c.vec.lane w.a i else reduceIdentity (laneFmt w) kind, flagNone))
    let r := reduceTree op xs
    let s1 := s.setVec k (c.vec.setScalar w.d (r.1.zeroExtend 64))
    .done (s1.raiseLanes k (fun i => if i = 0 then r.2 else flagNone))) s

/-- VRSUM. -/
def execVrsum (k : Nat) (w : VWord) (s : State) : Answer := issueReduce k w 0 (laneAdd (laneFmt w) (arithMode w)) s
/-- VRMAX. -/
def execVrmax (k : Nat) (w : VWord) (s : State) : Answer := issueReduce k w 1 (laneExtreme (laneFmt w) true) s
/-- VRMIN. -/
def execVrmin (k : Nat) (w : VWord) (s : State) : Answer := issueReduce k w 2 (laneExtreme (laneFmt w) false) s
/-- VREV: lane i = vA[127 − i]. -/
def execVrev (k : Nat) (w : VWord) (s : State) : Answer := issueLanes k w (fun r i => (r.lane w.a (127 - i), flagNone)) s
/-- VROT: lane i = vA[(i + IMM[6:0]) mod 128]. -/
def execVrot (k : Nat) (w : VWord) (s : State) : Answer :=
  issueLanes k w (fun r i => (r.lane w.a ((i + w.imm.toNat) % 128), flagNone)) s
/-- VPERM: lane i = vA[vB[i] mod 128]. -/
def execVperm (k : Nat) (w : VWord) (s : State) : Answer :=
  issueLanes k w (fun r i => (r.lane w.a ((r.lane w.b i).toNat % 128), flagNone)) s
/-- VXCMP: the exchange mask of a sorting step (R187). -/
def execVxcmp (k : Nat) (w : VWord) (s : State) : Answer :=
  issueRegs k (fun r => r.setMask w.d.toNat
    (maskResult r w (fun i => exchangeBit (laneFmt w) (r.lane w.a) (w.imm.toNat % 8) (w.imm.toNat / 8 % 8) i))) s
/-- VXCHG: lane i = M[i] ? vA[i XOR 2^j] : vA[i]. -/
def execVxchg (k : Nat) (w : VWord) (s : State) : Answer :=
  issueLanes k (unmasked w) (fun r i =>
    (if (r.mask w.m.toNat).getLsbD i then r.lane w.a (i ^^^ 2 ^ (w.imm.toNat % 8)) else r.lane w.a i, flagNone)) s

/-- MAND. -/
def execMand (k : Nat) (w : VWord) (s : State) : Answer := issueMask k w (· &&& ·) s
/-- MOR. -/
def execMor (k : Nat) (w : VWord) (s : State) : Answer := issueMask k w (· ||| ·) s
/-- MXOR. -/
def execMxor (k : Nat) (w : VWord) (s : State) : Answer := issueMask k w (· ^^^ ·) s
/-- MANDN: mA AND NOT mB. -/
def execMandn (k : Nat) (w : VWord) (s : State) : Answer := issueMask k w (fun a b => a &&& ~~~b) s
/-- MNOT. -/
def execMnot (k : Nat) (w : VWord) (s : State) : Answer := issueMask k w (fun a _ => ~~~a) s
/-- MFILL: lanes 0 to IMM − 1 set, IMM[7:0] from 0 to 128. -/
def execMfill (k : Nat) (w : VWord) (s : State) : Answer :=
  issueMask k w (fun _ _ => BitVec.ofNat 128 (2 ^ (w.imm.toNat % 256) - 1)) s

/-- The number of set bits of a mask. -/
def popCount (m : Word128) : Nat := ((List.range 128).filter (fun i => m.getLsbD i)).length
/-- The lowest set lane of a mask, 128 if none. -/
def firstSet (m : Word128) : Nat := ((List.range 128).find? (fun i => m.getLsbD i)).getD 128

/-- MPOP. -/
def execMpop (k : Nat) (w : VWord) (s : State) : Answer :=
  issueRegs k (fun r => r.setScalar w.d (BitVec.ofNat 64 (popCount (r.mask w.a.toNat)))) s
/-- MFIRST. -/
def execMfirst (k : Nat) (w : VWord) (s : State) : Answer :=
  issueRegs k (fun r => r.setScalar w.d (BitVec.ofNat 64 (firstSet (r.mask w.a.toNat)))) s

/-- Lane flag IMM[1:0]: 0 NV, 1 OF, 2 UF, 3 RANGE. -/
def VecRegs.flagMask (r : VecRegs) (n : Nat) : Word128 :=
  match n with
  | 0 => r.nv
  | 1 => r.ovf
  | 2 => r.uf
  | _ => r.range

/-- VFLG. -/
def execVflg (k : Nat) (w : VWord) (s : State) : Answer :=
  issueRegs k (fun r => r.setMask w.d.toNat (r.flagMask (w.imm.toNat % 4))) s

/-- The flags that an earlier instruction sets in the clock of a VFCLR: those of the `i`-th instruction back that raises flags. -/
def VecRegs.completing (r : VecRegs) (i : Option Nat) : LaneFlags :=
  match i with
  | some n => r.recent.getD n laneFlagsNone
  | none => laneFlagsNone

/-- VFCLR clears the flags whose bits of IMM[3:0] are set, on enabled lanes (R171, R179); one that an earlier instruction sets in the same
clock stays set (R180). -/
def execVfclr (k : Nat) (w : ClearRun) (s : State) : Answer :=
  issueRegs k (fun r =>
    let keep := maskOf (fun i => !r.enabled w.word i)
    let now := r.completing w.completing
    let clr (n : Nat) (m set : Word128) : Word128 := if w.word.imm.getLsbD n then m &&& keep ||| set else m
    { r with nv := clr 0 r.nv now.nv, ovf := clr 1 r.ovf now.ovf, uf := clr 2 r.uf now.uf, range := clr 3 r.range now.range }) s

/-- VLD: 128 elements of format G, each converted once into lanes of format F (R176). -/
def execVld (k : Nat) (w : VWord) (ecc : Ecc) (s : State) : Answer :=
  issue k (fun s c =>
    let g := otherFmt w
    match s.coreLoad k (c.vec.address w) (bytesFor g 128) true ecc with
    | (s1, none) => .ended s1
    | (s1, some bs) =>
      let p := scaleInfoOf (s.clusterPlan (clusterOf k)) g (c.vec.scalar w.b)
      .done (s1.writeLanes k w (fun i =>
        let x := convert g p (laneFmt w) { codebook := [], scale := 0x3C00, zeroPoint := 0 } (roundMode w) 0 (elementOf g bs i)
        (BitVec.ofNat 32 x.1, x.2)))) s

/-- A destination that draws under STOCH (R96). -/
def drawsInto (g : Format) (mode : Rounding) : Bool :=
  mode == .stoch && (g == .bg4 || g == .e4m3 || g == .e5m2)

/-- VST: 128 lanes of format F as elements of format G. A lane that is off writes nothing, raises nothing and draws
nothing (R169, R176, R178). -/
def execVst (k : Nat) (w : VWord) (s : State) : Answer :=
  issue k (fun s c =>
    let g := otherFmt w
    let n := bytesFor g 128
    let addr := c.vec.address w
    match s.binCheck k addr n true true with
    | none => .ended (s.binFault k addr)
    | some (pl, _) =>
      if s.heldInput k pl n then .wait s else
        let p := scaleInfoOf (s.clusterPlan (clusterOf k)) g (c.vec.scalar w.b)
        let on := c.vec.enabled w
        let draws := drawsInto g (roundMode w)
        let gen (i : Nat) : Word32 := nextDrawState (c.vec.gen i)
        let enc (i : Nat) : Nat × NumFlags :=
          convert (laneFmt w) { codebook := [], scale := 0x3C00, zeroPoint := 0 } g p (roundMode w)
            (if draws then drawOf (gen i) else 0) (c.vec.lane w.c i).toNat
        let bytes := (List.range 128).foldl (fun bs i => if on i then putElement g bs i (enc i).1 else bs) (s.binRead k pl n)
        let s1 := s.binWrite k pl bytes
        let s2 := if draws then
            s1.updCore k (fun c => { c with vec := { c.vec with
              gens := (List.range 128).foldl (fun t i => if on i then Tbl.set 1 t i (gen i) else t) c.vec.gens } })
          else s1
        .done (s2.raiseLanes k (fun i => if on i then (enc i).2 else flagNone))) s

/-- VGTH: lane i = the 32-bit word at sA + 4 × vB[i]; a lane that is off makes no access. -/
def execVgth (k : Nat) (w : VWord) (ecc : Ecc) (s : State) : Answer :=
  issue k (fun s c =>
    let addr (i : Nat) : Nat := (c.vec.scalar w.a).toNat + 4 * (c.vec.lane w.b i).toNat
    let lanes := (List.range 128).filter (c.vec.enabled w)
    match lanes.find? (fun i => (s.binCheck k (addr i) 4 false true).isNone) with
    | some i => .ended (s.binFault k (addr i))
    | none =>
      let first := (lanes.head?).bind (fun i => s.binCheck k (addr i) 4 false true)
      let r := match first with
        | some (pl, reg) => s.binEcc k pl ecc reg.kind
        | none => (s, true)
      if r.2 then
        .done (r.1.writeLanes k w (fun i => match binPlace (addr i) with
          | some pl => (BitVec.ofNat 32 (leNat (s.binRead k pl 4)), flagNone)
          | none => (0, flagNone)))
      else .ended r.1) s

end Sys2Proof.Machine
end

