-- ==== Sys2Proof/Machine/WinnowUnit.lean ====
section
/-!
DEFINITION. The winnow unit (spec 04): rotation, the per-token scale, quantising and clip counts, the verdict and
widening, and the instructions WNW and WWAIT.
-/

namespace Sys2Proof.Machine

/-! ### binary32 steps -/

/-- rne32(a + b) on encodings. -/
def add32 (a b : Nat) : Nat := rne32 (addValue .rne (valueB32 a) (valueB32 b)).1
/-- Negation of an encoding: the sign bit flips. -/
def neg32 (a : Nat) : Nat := if a.testBit 31 then a - 2 ^ 31 else a + 2 ^ 31
/-- rne32(a − b) on encodings. -/
def sub32 (a b : Nat) : Nat := add32 a (neg32 b)
/-- The magnitude of an encoding. -/
def abs32 (a : Nat) : Nat := a % 2 ^ 31
/-- A NaN or an infinity. -/
def nonFinite32 (a : Nat) : Bool := a / 2 ^ 23 % 256 == 255

/-! ### The rotation (R106, R107) -/

/-- One butterfly stage (R106). -/
def butterfly (j : Nat) (z : List Nat) : List Nat :=
  (List.range z.length).map (fun i =>
    let p := i ^^^ 2 ^ j
    if i.testBit j then sub32 (z.getD p 0) (z.getD i 0) else add32 (z.getD i 0) (z.getD p 0))

/-- The rotation of one block: the sign stage and seven butterfly stages. -/
def rotateBlock (sv : Nat) (x : List Nat) : List Nat :=
  (List.range 7).foldl (fun z j => butterfly j z)
    ((List.range x.length).map (fun i => if sv.testBit i then neg32 (x.getD i 0) else x.getD i 0))

/-- The values of a row after padding and, where the layer asks for it, rotation (R104, R106). -/
def winnowValues (l : Layer) (signs : List Nat) (x : List Nat) : List Nat :=
  let blocks := ceilDiv l.k 128
  let padded := (x ++ List.replicate (128 * blocks - x.length) 0).take (128 * blocks)
  if l.rotate then
    (List.range blocks).flatMap (fun b => rotateBlock (signs.getD (l.signFirst + b) 0) ((padded.drop (128 * b)).take 128))
  else padded

/-! ### Formats and scales (R109 to R111) -/

/-- The format of a layer's activations: ACT_FORMAT, or WIDE_FORMAT in a wide run (R123). -/
def Layer.actFmt (l : Layer) (wide : Bool) : Format :=
  if wide then (if l.wideFormat = 2 then .bf16 else .e4m3)
  else
    match l.actFormat with
    | 0 => .int8
    | 1 => .bg4
    | 2 => .aq8
    | 3 => .e4m3
    | _ => .bf16

/-- The format of a layer's weights (R123); the wide twin is E4M3. -/
def Layer.weightFmt (l : Layer) (wide : Bool) : Format :=
  if wide then .e4m3
  else
    match l.weightFormat with
    | 0 => .bg4
    | 1 => .aq8
    | 2 => .e4m3
    | _ => .bf16

/-- A quotient rounded toward +∞ to binary16, saturated at 65,504: the encoding and whether it saturated (R110). -/
def rup16 (n d : Nat) : Nat × Bool :=
  if 65504 * d < n then (0x7BFF, true) else ((encodeFloat .b16 layoutB16 .rup 0 (.fin false n d)).1, false)

/-- A magnitude's numerator and denominator. -/
def magParts (a : Nat) : Nat × Nat :=
  match valueB32 (abs32 a) with
  | .fin _ n d => (n, d)
  | _ => (0, 1)

/-- The per-token scale of a finite row with largest magnitude `m32`: encoding and saturation; none where the format has
no scale of its own (R109, R110). -/
def tokenScale (l : Layer) (f : Format) (book : List Int) (m32 : Nat) : Option (Nat × Bool) :=
  let capped := if l.ceiling ≠ 0 ∧ l.ceiling < m32 then l.ceiling else m32
  let a := max ((book.headD 0).natAbs) ((book.getD 15 0).natAbs)
  match f with
  | .int8 => let (n, d) := magParts capped; some (rup16 n (d * 127))
  | .bg4 => let (n, d) := magParts capped; some (rup16 (n * 256) (d * a))
  | .e4m3 => let (n, d) := magParts m32; some (rup16 n (d * 448))
  | .bf16 => some (0x3C00, false)
  | _ => none

/-- z / s as an exact value. -/
def quotValue (z s : Nat) : Value :=
  match valueB32 z, decodeFloat .b16 layoutB16 s with
  | .fin neg n d, .fin _ sn sd => .fin neg (n * sd) (d * sn)
  | v, _ => v

/-- The code of smallest magnitude of an activation format (R100, R108). -/
def leastCode (f : Format) (book : List Int) (zp : Nat) : Nat :=
  match f with
  | .bg4 => smallestCode book
  | .aq8 => zp
  | _ => 0

/-- One element's code and flags under the layer's narrow or wide format (R111). -/
def winnowCode (f : Format) (book : List Int) (mode : Rounding) (aq : ScaleInfo) (s draw z : Nat) : Nat × NumFlags :=
  match f with
  | .int8 => if s = 0 then (0, flagNone) else encodeInt 8 mode (quotValue z s)
  | .bg4 =>
    if s = 0 then (smallestCode book, flagNone)
    else encodeBook .bg4 { codebook := book, scale := s, zeroPoint := 0 } (destMode .bg4 mode) draw (valueB32 z)
  | .aq8 => encodeAq8 aq mode (valueB32 z)
  | .e4m3 => if s = 0 then (0, flagNone) else encodeFloat .e4m3 layoutE4M3 mode draw (quotValue z s)
  | _ => encodeFloat .bf16 layoutBF16 .rne 0 (valueB32 z)

/-- The draw of element `i` of a row: lane i mod 128, whose generator has taken one draw for each block (R99, R111). -/
def winnowDraw (seed pos i : Nat) : Nat :=
  drawOf ((List.range (i / 128 + 1)).foldl (fun g _ => nextDrawState g)
    (seedLane (BitVec.ofNat 32 seed) (BitVec.ofNat 32 pos) (i % 128)))

/-- A winnowed row: its codes, the scale to write, the status bits it raises, and its clip count. -/
structure WinnowedRow where
  codes : List Nat
  scale : Option Nat
  status : Nat
  clips : Nat
  wideSat : Bool

/-- The winnow of one row (R106 to R113). `aq` gives the AQ8 pair of each element. -/
def winnowRow (l : Layer) (signs : List Nat) (book : List Int) (aq : Nat → ScaleInfo) (wide : Bool) (pos : Nat)
    (x : List Nat) : WinnowedRow :=
  let f := l.actFmt wide
  let z := winnowValues l signs x
  if z.any nonFinite32 then
    { codes := (List.range z.length).map (fun i => leastCode f book (aq i).zeroPoint), scale := some 0x7E00
      status := 1 + 16, clips := 0, wideSat := false }
  else
    let m := z.foldl (fun m a => max m (abs32 a)) 0
    let sc := tokenScale l f book m
    let s := match sc with
      | some (v, _) => v
      | none => 0
    let sat := match sc with
      | some (_, b) => b
      | none => false
    let mode := if wide then .rne else roundingOf l.round
    let rs := (List.range z.length).map (fun i =>
      if !l.rotate && l.k ≤ i then (leastCode f book (aq i).zeroPoint, flagNone)
      else winnowCode f book mode (aq i) s (if mode == .stoch then winnowDraw l.seed pos i else 0) (z.getD i 0))
    let fl := joinFlags (rs.map Prod.snd)
    let wideSat := sat && f == .e4m3
    { codes := rs.map Prod.fst
      scale := if f == .aq8 then none else some s
      status := fl.nv.toNat + 2 * fl.ovf.toNat + 4 * fl.uf.toNat + 8 * (sat && f != .e4m3).toNat + 32 * wideSat.toNat
      clips := if wide || f == .e4m3 || f == .bf16 then 0 else (rs.filter (fun r => r.2.ovf)).length
      wideSat := wideSat }

/-! ### The sheaf record -/

/-- Changing a sheaf record. -/
def State.updRecord (s : State) (c slot : Nat) (f : SheafRecord → SheafRecord) : State :=
  s.updCluster c (fun x => { x with
    records := match Tbl.get none x.records slot with
      | some r => Tbl.set none x.records slot (some (f r))
      | none => x.records })

/-- Adding marks to a row of a sheaf record (R147). -/
def SheafRecord.mark (r : SheafRecord) (pos marks : Nat) : SheafRecord :=
  { r with rows := r.rows.zipIdx.map (fun e => if e.2 = pos then { e.1 with marks := e.1.marks ||| marks } else e.1) }

/-- Ending the hold of a layer's inputs (R117). -/
def SheafRecord.unhold (r : SheafRecord) (layer : Nat) : SheafRecord :=
  { r with held := r.held.filter (fun h => h.layer != layer) }

/-- Whether a layer's inputs are held when a row of it is queued: until the verdict, and after WIDE until every row is winnowed wide (R117). -/
def SheafRecord.holding (r : SheafRecord) (layer : Nat) : Bool :=
  Tbl.get 0 r.verdicts layer == 0 ||
    (Tbl.get 0 r.verdicts layer == 2 && !(List.range r.rows.length).all (fun i => (Tbl.get 0 r.wideRows layer).testBit i))

/-- Whether a row was winnowed as non-finite, entered or taken off again (R108). -/
def SheafRecord.noteRow (r : SheafRecord) (key : Nat) (nonFinite : Bool) : SheafRecord :=
  { r with nonFinite := if nonFinite then key :: r.nonFinite.filter (fun n => n != key) else r.nonFinite.filter (fun n => n != key) }

/-- A row is winnowed wide; the last one ends the hold of the layer's inputs (R117, R118). -/
def SheafRecord.wideDone (r : SheafRecord) (layer pos : Nat) : SheafRecord :=
  let y := { r with wideRows := Tbl.set 0 r.wideRows layer (Tbl.get 0 r.wideRows layer ||| 2 ^ pos) }
  if y.holding layer then y else y.unhold layer

/-- The entry of a layer in the plan of a cluster's partition. -/
def State.layerAt (s : State) (c n : Nat) : Option Layer :=
  match s.clusterPlan c with
  | some pl => pl.layerOf n
  | none => none

/-- SHEAF_VERDICT and WIDEN (R115, R118): with every row's count in, the layer runs narrow or is marked WIDE. -/
def State.takeVerdict (s : State) (c slot layer : Nat) : State :=
  match Tbl.get none (s.cluster c).records slot, s.layerAt c layer with
  | some r, some l =>
    let counts := (List.range r.rows.length).map (fun i => Tbl.get 0 r.counts (layer * 128 + i))
    if counts.any (fun n => n == 0) ∨ Tbl.get 0 r.verdicts layer ≠ 0 then s
    else
      let total := sumNat (counts.map (fun n => n - 1))
      let kPad := 128 * ceilDiv l.k 128
      if l.threshold ≠ 0 ∧ l.threshold * r.rows.length * kPad < 4096 * total then
        (s.updRecord c slot (fun r => { r with verdicts := Tbl.set 0 r.verdicts layer 2 })).updCluster c (fun x => { x with
          progress := x.progress + 1
          widen := { count := x.widen.count + 1, last := BitVec.ofNat 18 (layer % 4096 + 4096 * (l.stage % 64))
                     lastClips := BitVec.ofNat 32 total } })
      else (s.updRecord c slot (fun r => ({ r with verdicts := Tbl.set 0 r.verdicts layer 1 }).unhold layer)).updCluster c
        (fun x => { x with progress := x.progress + 1 })
  | _, _ => s

/-! ### The instructions -/

/-- The winnow descriptor of R185. -/
def parseWinnow (bs : List Byte) : WinnowDesc :=
  { layer := fieldLE bs 0 2, sheaf := fieldLE bs 2 2, pos := fieldLE bs 4 1, wide := (fieldLE bs 5 1).testBit 0
    inFmt := fieldLE bs 6 1, inAddr := fieldLE bs 8 4, outAddr := fieldLE bs 12 4, scaleAddr := fieldLE bs 16 4 }

/-- The input format and the bytes of a row (R104, R185). -/
def WinnowDesc.input (d : WinnowDesc) : Format := if d.inFmt = 1 then .bf16 else if d.inFmt = 2 then .b16 else .b32

/-- The hold of a row's input in a core bin, from WNW to the verdict, or to the end of the wide winnow (R117). -/
def State.holdInput (s : State) (k : Nat) (d : WinnowDesc) (l : Layer) : State :=
  let home := (s.core k).home k
  match binPlace d.inAddr with
  | some (.core off) =>
    s.updRecord home d.sheaf (fun r =>
      if r.holding d.layer then { r with held := r.held ++ [{ core := k, layer := d.layer, off := off, len := l.k * d.input.bits / 8 }] } else r)
  | _ => s

/-- WNW: a winnow descriptor is read from the bin and queued; a full queue makes the instruction wait (R183, R185). -/
def execWnw (k : Nat) (w : VWord) (ecc : Ecc) (s : State) : Answer :=
  issueUnit k w (fun s c =>
    if 16 ≤ c.winnow.queue.length then .wait s else
      match s.coreLoad k (c.vec.address w) 32 true ecc with
      | (s1, none) => .ended s1
      | (s1, some bs) =>
        let d := parseWinnow bs
        let s2 := s1.updCore k (fun c => { c with winnow := { c.winnow with queue := c.winnow.queue ++ [d] } })
        match s2.layerAt (clusterOf k) d.layer with
        | some l => .done (s2.holdInput k d l)
        | none => .done s2) s

/-- WWAIT waits until every queued winnow row of the core has written its codes. -/
def execWwait (k : Nat) (w : VWord) (s : State) : Answer :=
  issueUnit k w (fun s c => if c.winnow.queue.isEmpty then .done s else .wait s) s

/-! ### A row done -/

/-- The byte offset of activation entry `i` in a WEIGHTS extent: after the tiles and the column entries (R123, R133). -/
def Layer.actEntry (l : Layer) (i : Nat) : Nat :=
  let tile := 16384 * (l.weightFmt false).bits / 8
  ceilDiv l.n 128 * ceilDiv l.k 128 * tile + l.n * (if l.weightFormat = 1 then 8 else 4) + 8 * i

/-- The AQ8 pair of an activation channel (R111, R123): per tensor, or entry `i` of the WEIGHTS extent. At a padding position, which has no entry, it
is the per-tensor pair (R113; DESIGN CHOICE, log 65). -/
def State.aqPair (s : State) (l : Layer) (i : Nat) : ScaleInfo :=
  if l.perChannel ∧ i < l.k then
    let bs := s.placeBytes l.weights (l.actEntry i) 8
    { codebook := [], scale := fieldLE bs 0 4, zeroPoint := fieldLE bs 4 1 }
  else { codebook := [], scale := l.aq8Scale, zeroPoint := l.aq8Zero }

/-- Taking the head of the winnow queue off, with the counters a row advances (R127). -/
def State.winnowRetire (s : State) (k : Nat) (r : WinnowedRow) (clips : Nat) : State :=
  s.updCore k (fun c => { c with winnow := { c.winnow with
    queue := c.winnow.queue.drop 1
    status := c.winnow.status ||| BitVec.ofNat 6 r.status
    rows := c.winnow.rows + 1
    clips := c.winnow.clips + BitVec.ofNat 64 clips } })

/-- What follows a finished row: the record notes a non-finite one (R108); a narrow row sends its count unless the verdict stands (R112, R120); a
wide row marks RANGE where its scale saturated (R119), and the last one ends the hold (R117, R118). -/
def State.winnowReport (s0 : State) (k : Nat) (d : WinnowDesc) (r : WinnowedRow) : State :=
  let home := (s0.core k).home k
  let s := s0.updRecord home d.sheaf (fun x => x.noteRow (d.layer * 128 + d.pos) (r.status.testBit 4))
  if d.wide then
    let s1 := if r.wideSat then s.updRecord home d.sheaf (fun x => x.mark d.pos (markRange ||| markWidened)) else s
    s1.updRecord home d.sheaf (fun x => x.wideDone d.layer d.pos)
  else if (s.cluster home).verdict d.sheaf d.layer = 0 then s.send (.clips home d.sheaf d.pos d.layer r.clips)
  else s

end Sys2Proof.Machine
end

