-- ==== Sys2Proof/Machine/TileUnit.lean ====
section
/-!
DEFINITION. The grid (spec 05): tile descriptors and their checks, issue, accumulation, the checksum compare, drain,
abort, and the instructions GTILE and GWAIT.
-/

namespace Sys2Proof.Machine

/-- No format parameters: a scale of 1. -/
def plainScale : ScaleInfo := { codebook := [], scale := 0x3C00, zeroPoint := 0 }

/-! ### Pairings (R131) -/

/-- The activation format of a pairing code. -/
def pairAct (p : Nat) : Format :=
  match p with
  | 0 => .int8
  | 1 => .aq8
  | 2 => .bg4
  | 3 => .aq8
  | 4 => .e4m3
  | _ => .bf16
/-- The weight format of a pairing code. -/
def pairWeight (p : Nat) : Format :=
  match p with
  | 0 | 1 | 2 => .bg4
  | 3 => .aq8
  | 4 => .e4m3
  | 5 => .bf16
  | _ => .e4m3
/-- Pairings 4 to 6 are the float class. -/
def floatClass (p : Nat) : Bool := decide (4 ≤ p)

/-- The pairing code that a layer's formats give, narrow or wide (R131, R142). -/
def Layer.pairing (l : Layer) (wide : Bool) : Option Nat :=
  if wide then (if l.wideFormat = 1 then some 4 else if l.wideFormat = 2 then some 6 else none)
  else (List.range 6).find? (fun p => pairAct p == l.actFmt false && pairWeight p == l.weightFmt false)

/-! ### Tile descriptors (R141, R142, R353) -/

/-- The tile descriptor of R141, without its stream table entry. -/
def parseTile (bs : List Byte) : TileDesc :=
  let fl := fieldLE bs 3 1
  { layer := fieldLE bs 0 2, pairing := fieldLE bs 2 1, start := fl.testBit 0, isEnd := fl.testBit 1
    reuse := fl.testBit 2, bank := fl / 8 % 2, streamed := fl.testBit 4, wide := fl.testBit 5
    rows := fieldLE bs 4 1, scaleDim := fieldLE bs 5 1, sheaf := fieldLE bs 6 2, act := fieldLE bs 8 4
    weight := fieldLE bs 12 4, rowScale := fieldLE bs 16 4, colScale := fieldLE bs 20 4, out := fieldLE bs 24 4
    cols := fieldLE bs 28 2, outStride := fieldLE bs 30 2, stream := none }

/-- The stream table of core `k`: the first region of kind DMA in its core bin (R353). -/
def State.streamTable (s : State) (k : Nat) : Option BinRegion :=
  match s.poolOf k with
  | none => none
  | some (plan, pool, idx) => plan.binMap.find? (fun r => r.kind == 4 && r.scope == 0 && r.cluster == clusterOf k &&
      r.stage == pool.stage && (r.core == 0xFF || r.core == idx))

/-- The stream table entry that a tile names, with its raw bytes (R353). -/
def State.streamEntry (s : State) (k n : Nat) : Option (List Byte) :=
  match s.streamTable k with
  | none => none
  | some r => if 64 * (n + 1) ≤ r.size * 4096 then some ((s.core k).bin.bytes (r.offset * 4096 + 64 * n) 64) else none

/-- The code size of an activation format as ESIZE gives it (R353). -/
def streamEsize (f : Format) : Nat := if f.bits = 16 then 1 else if f.bits = 4 then 7 else 0

/-- Whether an extent of the core's bins lies in a region open to it (R142). -/
def State.extentIn (s : State) (k addr len : Nat) (write : Bool) : Bool :=
  len == 0 || (s.binCheck k addr len write false).isSome

/-- The bytes that a stream's extent spans (R343), in nibbles where ESIZE is 7. -/
def State.streamIn (s : State) (k : Nat) (d : StreamDesc) (bits : Nat) : Bool :=
  let base : Int := 8 * d.addr + (if d.highNibble then 4 else 0)
  let low := base + d.lowOff * bits
  let high := base + d.highOff * bits + bits - 1
  decide (0 ≤ low) && s.extentIn k (low / 8).toNat ((high / 8 - low / 8).toNat + 1) false

/-- The checks of a STREAM descriptor (R142, R149, R353). A nonzero reserved byte of the entry, HIGH_NIBBLE with a format other than BG4 and a SCALE_DIM
above 4 refuse the tile, checks that R149 does not list (DESIGN CHOICE, log 66). -/
def State.streamOk (s : State) (k : Nat) (t : TileDesc) (l : Layer) (raw : List Byte) : Bool :=
  let d := parseStream raw
  let f := pairAct t.pairing
  let rows := d.count 1 * d.count 2 * d.count 3 * d.count 4
  streamReserved raw && allZero ((raw.drop 48).take 16) && d.space == 0 && d.esize == streamEsize f && d.stride 0 == 1 &&
    decide (1 ≤ d.count 0 ∧ d.count 0 ≤ 128) && decide (t.act / 2 ^ 12 + t.rows ≤ rows) && (f == .bg4 || !d.highNibble) &&
    decide (t.scaleDim ≤ 4) && s.streamIn k d f.bits &&
    !(l.rotate && [1, 2, 3, 4].any (fun p => 1 < d.count p && decide ((d.stride p).natAbs < d.count 0)))

/-- The bytes of one weight tile (R133). -/
def tileBytes (p : Nat) : Nat := 16384 * (pairWeight p).bits / 8
/-- The bytes of one column entry (R123). -/
def colEntryBytes (p : Nat) : Nat := if pairWeight p = .aq8 then 8 else 4

/-- The checks of a descriptor before it enters the queue (R142). An extent that the tile does not use is not checked, none of a no-op's
(DEDUCED, log 14). A nonzero reserved bit of FLAGS refuses the tile, a check that R142 does not list (DESIGN CHOICE, log 66). -/
def State.tileOk (s : State) (k : Nat) (t : TileDesc) (flags : Nat) (raw : Option (List Byte)) : Bool :=
  match s.layerAt (clusterOf k) t.layer with
  | none => false
  | some l =>
    let f := pairAct t.pairing
    let scales := match raw with
      | some bs => if t.scaleDim = 0 then t.rows else (parseStream bs).count t.scaleDim
      | none => t.rows
    flags / 64 == 0 && l.pairing t.wide == some t.pairing && decide (t.rows ≤ 128) && decide (1 ≤ t.cols ∧ t.cols ≤ 128) &&
      decide (t.cols ≤ t.outStride) &&
      (match raw with
       | some bs => s.streamOk k t l bs
       | none => s.extentIn k t.act (t.rows * 128 * f.bits / 8) false) &&
      (t.reuse || t.rows == 0 || s.extentIn k t.weight (tileBytes t.pairing) false) &&
      (t.rows == 0 || !(t.isEnd || pairWeight t.pairing == .aq8) || s.extentIn k t.colScale (t.cols * colEntryBytes t.pairing) false) &&
      (t.rows == 0 || !t.isEnd || ((f == .aq8 || s.extentIn k t.rowScale (2 * scales) false) &&
        s.extentIn k t.out ((t.rows - 1) * t.outStride * 4 + t.cols * 4) true))

/-- A descriptor that fails a check stops the core with TILE_DESC (R142, R491). -/
def State.tileFault (s : State) (k : Nat) : State :=
  (s.updCore k (fun c => { c with phase := .stopped })).send (.fault (s.coreFault k 0x0103 (s.core k).vec.pc))

/-- A bank of a grid. -/
def Grid.bank (g : Grid) (b : Nat) : Bank := Tbl.get bankReset g.banks b
/-- The grid with a bank changed. -/
def Grid.updBank (g : Grid) (b : Nat) (f : Bank → Bank) : Grid := { g with banks := Tbl.set bankReset g.banks b (f (g.bank b)) }

/-- GTILE: a tile descriptor is read, checked and queued; ROWS 0 issues nothing, and a full queue or an abort makes the
instruction wait (R141, R142, R161, R183). -/
def execGtile (k : Nat) (w : VWord) (ecc : Ecc) (s : State) : Answer :=
  issueUnit k w (fun s c =>
    if 8 ≤ c.grid.queue.length ∨ c.grid.aborting then .wait s else
      match s.coreLoad k (c.vec.address w) 32 true ecc with
      | (s1, none) => .ended s1
      | (s1, some bs) =>
        let t := parseTile bs
        let entry := if t.streamed then s1.streamEntry k (t.act % 2 ^ 12) else none
        if (t.streamed && entry.isNone) || !s1.tileOk k t (fieldLE bs 3 1) entry then .ended (s1.tileFault k)
        else if t.rows = 0 then .done s1
        else
          let t' := { t with stream := entry.map parseStream }
          .done (s1.updCore k (fun c => { c with
            grid := if t.start then
                { c.grid with queue := c.grid.queue ++ [t'] }.updBank t.bank (fun b => { b with waiting := b.waiting + 1 })
              else { c.grid with queue := c.grid.queue ++ [t'] } }))) s

/-- GWAIT completes when every chain handed over for the bank has posted its completion; a MISMATCH ends the item, which
is replayed or ended (R139, R184, R520). It waits out an abort of the grid (R161). -/
def execGwait (k : Nat) (w : VWord) (s : State) : Answer :=
  issueUnit k w (fun s c =>
    let b := c.grid.bank (w.imm.toNat % 2)
    if c.grid.aborting then .wait s
    else if b.mismatch then .ended ((s.retireTo k (c.vec.pc + 1)).replayItem k false)
    else if b.waiting = 0 then .done s else .wait s) s

/-! ### Operands (R95, R132, R149) -/

/-- The element of `bits` bits that starts at a bit offset from a bin address. -/
def State.binBits (s : State) (k addr : Nat) (bitOff : Int) (bits : Nat) : Nat :=
  let b := ((addr * 8 : Nat) + bitOff).toNat
  match binPlace (b / 8) with
  | none => 0
  | some pl => leNat (s.binRead k pl (if bits < 8 then 1 else bits / 8)) / 2 ^ (b % 8) % 2 ^ bits

/-- An operand of a pairing: an integer of R95, or a binary32 encoding in the float class. -/
def operandOf (f : Format) (book : List Int) (zeroPt code : Nat) : Int :=
  match f with
  | .int8 => signedOf 8 code
  | .bg4 => book.getD (code % 16) 0
  | .aq8 => (code : Int) - zeroPt
  | .e4m3 => (convert .e4m3 plainScale .b32 plainScale .rne 0 code).1
  | _ => (convert .bf16 plainScale .b32 plainScale .rne 0 code).1

/-- The stream row and scale index of row `t` of a tile (R149, R353). -/
def TileDesc.scaleIndex (t : TileDesc) (row : Nat) : Nat :=
  match t.stream with
  | none => row
  | some d => if t.scaleDim = 0 then row else d.index t.scaleDim ((t.act / 2 ^ 12 + row) * d.count 0)

/-- The activation codes of row `t` of a tile, in the order of k (R149). -/
def State.tileRow (s : State) (k : Nat) (t : TileDesc) (row : Nat) : List Nat :=
  let bits := (pairAct t.pairing).bits
  match t.stream with
  | none => (List.range 128).map (fun i => s.binBits k t.act (((row * 128 + i) * bits : Nat) : Int) bits)
  | some d =>
    let base : Int := if d.highNibble then 4 else 0
    let start := d.offset ((t.act / 2 ^ 12 + row) * d.count 0)
    (List.range (d.count 0)).map (fun (i : Nat) => s.binBits k d.addr (base + (start + (i : Int)) * (bits : Int)) bits)

/-- The activation operands of a tile (R132). `block` selects the zero points of a per-channel layer. -/
def State.tileActs (s : State) (k : Nat) (t : TileDesc) (l : Layer) (book : List Int) (block : Nat) : List (List Int) :=
  (List.range t.rows).map (fun r => (s.tileRow k t r).zipIdx.map (fun e =>
    operandOf (pairAct t.pairing) book (s.aqPair l (128 * block + e.2)).zeroPoint e.1))

/-- The zero point of a weight column (R123, R132); columns past COLS have none. -/
def State.colZero (s : State) (k : Nat) (t : TileDesc) (j : Nat) : Nat :=
  if pairWeight t.pairing = .aq8 ∧ j < t.cols then s.binBits k (t.colScale + 8 * j + 4) 0 8 else 0

/-- The weight operands of a tile, row by row (R132, R133). -/
def State.tileWeights (s : State) (k : Nat) (t : TileDesc) (book : List Int) : List (List Int) :=
  let f := pairWeight t.pairing
  (List.range 128).map (fun i => (List.range 128).map (fun j =>
    operandOf f book (s.colZero k t j) (s.binBits k t.weight (((i * 128 + j) * f.bits : Nat) : Int) f.bits)))

/-! ### Issue (R136 to R140, R159) -/

/-- Whether any chain of the grid is open. -/
def Grid.anyOpen (g : Grid) : Bool := (g.bank 0).isOpen || (g.bank 1).isOpen

/-- Whether the tile at the head may issue: its verdict is posted (R140) and, with START, its bank's earlier chain has
closed (R138) and no steering waits (R159). -/
def State.tileReady (s : State) (k : Nat) (t : TileDesc) : Bool :=
  let c := s.core k
  (t.sheaf == 0xFFFF || (s.cluster (c.home k)).verdict t.sheaf t.layer != 0) &&
    (!t.start || (!(c.grid.bank t.bank).isOpen && !(c.grid.repairWanted.isSome && c.grid.anyOpen)))

/-- Applying waiting repair steering at a chain boundary (R159). -/
def Grid.steer (g : Grid) : Grid :=
  match g.repairWanted with
  | some col =>
    if g.anyOpen then g
    else { g with repairWanted := none, repairColumn := BitVec.ofNat 7 col, repairActive := true, reload := true, shadow := none }
  | none => g

/-- The tiles in flight of a bank's latest chain are void: from its START on. -/
def voidOpen (bank : Nat) (flight : List TileInFlight) : List TileInFlight := (go flight.reverse).reverse where
  go : List TileInFlight → List TileInFlight
    | [] => []
    | t :: ts =>
      if t.desc.bank ≠ bank then t :: go ts
      else if t.desc.start then { t with voided := true } :: ts
      else { t with voided := true } :: go ts

/-- Whether a tile belongs to the narrow run of a layer that the sheaf runs wide: it is never issued (R118). -/
def State.narrowDropped (s : State) (k : Nat) (t : TileDesc) : Bool :=
  t.sheaf != 0xFFFF && !t.wide && (s.cluster ((s.core k).home k)).verdict t.sheaf t.layer == 2

/-- A narrow tile of a layer that runs wide leaves the queue without issue, and a chain that it would have opened is not waited for (R118; DESIGN
CHOICE, log 68). -/
def Grid.dropNarrow (g : Grid) (t : TileDesc) : Grid :=
  let g1 := { g with queue := g.queue.drop 1, shadow := none }
  if t.start then g1.updBank t.bank (fun b => { b with waiting := b.waiting - 1 }) else g1

/-- A discarded tile (R157): nothing is issued; the chain that it would have opened, or that is open and lacks it, completes with MISMATCH. -/
def Grid.discardTile (g : Grid) (t : TileDesc) : Grid :=
  let g1 := { g with queue := g.queue.drop 1, shadow := none }
  if t.start then g1.updBank t.bank (fun b => { b with waiting := b.waiting - 1, mismatch := true })
  else if (g.bank t.bank).isOpen then
    { g1 with flight := voidOpen t.bank g1.flight }.updBank t.bank (fun b => { b with
      isOpen := false, voided := true, waiting := b.waiting - 1, mismatch := true })
  else g1

/-- The issue of a tile: START opens its chain, END's last row closes it, the counters advance (R138, R162). -/
def Grid.issueTile (g : Grid) (t : TileDesc) (acts weights : List (List Int)) (blockScale : Nat) : Grid :=
  let v := !t.start && (g.bank t.bank).voided
  let g1 := g.updBank t.bank (fun b => { b with isOpen := !t.isEnd, voided := v })
  { g1 with
    queue := g.queue.drop 1
    flight := g.flight ++ [{ desc := t, acts := acts, weights := weights, blockScale := blockScale, nextRow := 0, voided := v }]
    active := weights, shadow := none, reload := false
    tiles := g.tiles + 1
    busy := g.busy + BitVec.ofNat 64 (if t.pairing = 2 then ceilDiv t.rows 2 else t.rows) }

/-- The weights of the next queued tile load into the shadow registers (R136). -/
def State.preload (s : State) (k : Nat) (weightsOf : TileDesc → List (List Int)) : State :=
  s.updCore k (fun c => match c.grid.queue with
    | t :: _ => if t.reuse then c else { c with grid := { c.grid with shadow := some (weightsOf t) } }
    | [] => c)

/-- The bin address whose ECC check the issue of a tile meets: its weights, or its activations where it sets REUSE (R136). -/
def TileDesc.firstRead (t : TileDesc) : Nat :=
  if !t.reuse then t.weight else
    match t.stream with
    | some d => d.addr
    | none => t.act

/-- What the ECC check of a tile's operands makes of its issue (R289); false where the core stops. -/
def State.operandEcc (s : State) (k : Nat) (t : TileDesc) (ecc : Ecc) : State × Bool :=
  match binPlace t.firstRead with
  | some pl => s.binEcc k pl ecc 1
  | none => (s, true)

/-- TILE_ISSUE: the tile at the head of the queue issues its rows once its waits allow; its operands are read from the
bins as they stand, `ecc` being what the check of its weights finds, or of its activations where it loads no weights (R136). A tile of a discarded
sheaf and layer is dropped, and so is a narrow one of a layer that runs wide; none issues during a full pre-emption (R118, R136 to R141, R157, R160). -/
def execTileIssue (k block : Nat) (ecc : Ecc) (s : State) : Answer :=
  onCore k s (fun s =>
    let c := s.core k
    match c.grid.queue, s.clusterPlan (clusterOf k) with
    | t :: _, some plan =>
      if c.phase = .quiesce ∨ c.phase = .saving ∨ c.phase = .resuming then .next s
      else if c.grid.discard.contains (t.sheaf, t.layer) then .next (s.updCore k (fun c => { c with grid := c.grid.discardTile t }))
      else if s.narrowDropped k t then .next (s.updCore k (fun c => { c with grid := c.grid.dropNarrow t }))
      else if !s.tileReady k t then .next s
      else
        match s.layerAt (clusterOf k) t.layer with
        | some l =>
          let s0 := s.updCore k (fun c => { c with grid := c.grid.steer })
          match s0.operandEcc k t ecc with
          | (s1, false) => .next s1
          | (s1, true) =>
            let g := (s1.core k).grid
            let wBook (l : Layer) : List Int := bookOf .bg4 { codebook := plan.codebookOf .bg4 l.wCodebook, scale := 0x3C00, zeroPoint := 0 }
            let aBook := bookOf .bg4 { codebook := plan.codebookOf .bg4 l.aCodebook, scale := 0x3C00, zeroPoint := 0 }
            let weightsOf (u : TileDesc) : List (List Int) := match plan.layerOf u.layer with
              | some m => s1.tileWeights k u (wBook m)
              | none => []
            let weights := if t.reuse && (!g.reload || (binPlace t.weight).isNone) then g.active else g.shadow.getD (weightsOf t)
            let acts := s1.tileActs k t l aBook block
            let scale := (s1.aqPair l (128 * block)).scale
            .next ((s1.updCore k (fun c => { c with grid := c.grid.issueTile t acts weights scale })).preload k weightsOf)
        | none => .next s
    | _, _ => .next s)

/-! ### Sums and the checksum (R143, R144, R153 to R155) -/

/-- A product of two operands as an exact value. -/
def operandProduct (a w : Int) : Value := (mulValue (valueB32 a.toNat) (valueB32 w.toNat)).1

/-- The magnitude of a float operand. -/
def operandAbs (a : Int) : Int := (abs32 a.toNat : Nat)

/-- One cell of the float class: rne32(sum + product), the product exact (R131, R144). -/
def floatCell (acc : Nat) (a w : Int) : Nat := rne32 (addValue .rne (valueB32 acc) (operandProduct a w)).1

/-- The sum of a column for one row, in order of k; positions past the row's K run contribute nothing (R143, R144). -/
def columnSum (isFloat : Bool) (a w : List Int) : Int :=
  if isFloat then ((a.zip w).foldl (fun acc p => floatCell acc p.1 p.2) 0 : Nat)
  else (a.zip w).foldl (fun acc p => acc + p.1 * p.2) 0

/-- The sum of a list of operands: exact, or by rne32 in ascending order (R153, R154). -/
def rowSum (isFloat : Bool) (xs : List Int) : Int :=
  if isFloat then (xs.foldl (fun acc x => add32 acc x.toNat) 0 : Nat) else xs.foldl (· + ·) 0

/-- Column `j` of a tile's weights. -/
def columnOf (weights : List (List Int)) (j : Nat) : List Int := weights.map (fun r => r.getD j 0)

/-- The error a failing cell adds to a sum (R156). -/
def upsetSum (isFloat : Bool) (v delta : Int) : Int :=
  if isFloat then (rne32 (addValue .rne (valueB32 v.toNat) (intValue delta)).1 : Nat) else v + delta

/-- The activation operands of a row as they stand at a position (R134, R156). -/
def actsAt (upset : Option GridUpset) (p : Nat) (a : List Int) : List Int :=
  match upset with
  | none => a
  | some u => a.zipIdx.map (fun e => (u.acts.filter (fun x => x.1 == e.2 && decide (x.2.1 ≤ p))).foldl (fun _ x => x.2.2) e.1)
/-- The weight operands of a column as its cells hold them (R156). -/
def cellsAt (upset : Option GridUpset) (p : Nat) (w : List Int) : List Int :=
  match upset with
  | none => w
  | some u => w.zipIdx.map (fun e => (u.cells.filter (fun x => x.1 == e.2 && x.2.1 == p)).foldl (fun _ x => x.2.2) e.1)
/-- The sum of a position with the errors of its cells (R156). -/
def bumpAt (isFloat : Bool) (upset : Option GridUpset) (p : Nat) (v : Int) : Int :=
  match upset with
  | none => v
  | some u => (u.sums.filter (fun x => x.1 == p)).foldl (fun v x => upsetSum isFloat v x.2) v

/-- The sums that leave the array for a row: the 128 logical columns, the checksum and its magnitude sum. The repair
column serves its data column when it is active (R134, R153 to R158). -/
def rowSums (g : Grid) (isFloat : Bool) (a : List Int) (weights : List (List Int)) (upset : Option GridUpset) :
    List Int × Int × Int :=
  let sK := weights.map (rowSum isFloat)
  let aK := weights.map (fun r => rowSum isFloat (r.map operandAbs))
  let position (j : Nat) : Nat := if g.repairActive && g.repairColumn.toNat == j then 129 else j + 1
  let sumAt (p : Nat) (w : List Int) : Int := bumpAt isFloat upset p (columnSum isFloat (actsAt upset p a) (cellsAt upset p w))
  let cols := (List.range 128).map (fun j => sumAt (position j) (columnOf weights j))
  (cols, sumAt 0 sK, if isFloat then columnSum true ((actsAt upset 0 a).map operandAbs) aK else 0)

/-- What the compare of a row finds (R154, R155). -/
inductive RowCheck where
  | clean | mismatch | skipped
  deriving DecidableEq, Repr

/-- The compare of D_t with C_t (R154, R155). -/
def compareRow (isFloat : Bool) (d c m : Int) : RowCheck :=
  if !isFloat then (if d = c then .clean else .mismatch)
  else if nonFinite32 m.toNat then .skipped
  else
    match valueB32 d.toNat, valueB32 c.toNat, valueB32 m.toNat with
    | .fin nd xd yd, .fin nc xc yc, .fin _ xm ym =>
      let diff := (signedNum nd xd * yc - signedNum nc xc * yd).natAbs
      if xm * (yd * yc) < diff * 8192 * ym then .mismatch else .clean
    | _, _, _ => .mismatch

/-- The saturation bound of the integer class (R143). -/
def accMax : Int := 2147483647

/-- Adding a tile's partial sum to an entry (R143, R144). -/
def accumulate (isFloat : Bool) (e : AccEntry) (v : Int) : AccEntry :=
  if isFloat then { value := (add32 e.value.toNat v.toNat : Nat), sat := false }
  else if e.sat then e
  else
    let t := e.value + v
    if accMax < t then { value := accMax, sat := true }
    else if t < -accMax then { value := -accMax, sat := true }
    else { value := t, sat := false }

/-! ### The drain (R145) -/

/-- Whether a value is a NaN or an infinity. -/
def Value.unbounded (v : Value) : Bool :=
  match v with
  | .fin _ _ _ => false
  | _ => true

/-- One written value y = acc × u × s_row × s_col with its flags. -/
def drainValue (pairing : Nat) (acc : Int) (sRow sCol : Value) : Nat × NumFlags :=
  if sRow.unbounded || sCol.unbounded then (canonicalNaN .b32, flagNV)
  else
    let a := if floatClass pairing then valueB32 acc.toNat else intValue acc
    let u : Value := match pairing with
      | 0 | 1 => .fin false 1 256
      | 2 => .fin false 1 65536
      | _ => .fin false 1 1
    encodeValue .b32 plainScale .rne 0 (mulValue (mulValue (mulValue a u).1 sRow).1 sCol).1

/-- Whether the sheaf record notes a tile's row as winnowed non-finite (R108). -/
def State.nonFiniteRow (s : State) (k : Nat) (t : TileDesc) (row : Nat) : Bool :=
  t.sheaf != 0xFFFF && (match Tbl.get none (s.cluster ((s.core k).home k)).records t.sheaf with
    | some r => r.nonFinite.contains (t.layer * 128 + t.scaleIndex row)
    | none => false)

/-- The row scale of a row (R145, R146). With AQ8 activations, whose scale is the layer's, a row that its sheaf record notes as non-finite has the
scale 0x7E00 that R108 gives it, so that it drains as NaN (DEDUCED, log 69). -/
def State.rowScaleOf (s : State) (k : Nat) (t : TileInFlight) (row : Nat) : Value :=
  if pairAct t.desc.pairing = .aq8 then
    (if s.nonFiniteRow k t.desc row then decodeFloat .b16 layoutB16 0x7E00 else valueB32 t.blockScale)
  else decodeFloat .b16 layoutB16 (s.binBits k (t.desc.rowScale + 2 * t.desc.scaleIndex row) 0 16)

/-- The column scale of a column. -/
def State.colScaleOf (s : State) (k : Nat) (t : TileDesc) (j : Nat) : Value :=
  valueB32 (s.binBits k (t.colScale + colEntryBytes t.pairing * j) 0 32)

/-- The key of an accumulator entry. -/
def entryKey (row col : Nat) : Nat := row * 128 + col

/-- What a mismatch makes of the tiles in flight (R157): which chains are void, by bank as each ends, and how many chains of a bank it voids. -/
structure VoidRun where
  flight : List TileInFlight
  void0 : Bool
  void1 : Bool
  new0 : Nat
  new1 : Nat

/-- Every tile of the mismatched sheaf and layer, and every tile of a chain that lacks one of them, is void. The two flags say whether the chain of
each bank is void where the list begins. -/
def voidRun (sheaf layer : Nat) (v0 v1 : Bool) : List TileInFlight → VoidRun
  | [] => { flight := [], void0 := v0, void1 := v1, new0 := 0, new1 := 0 }
  | t :: ts =>
    let was := !t.desc.start && (if t.desc.bank = 0 then v0 else v1)
    let void := was || t.voided || (t.desc.sheaf == sheaf && t.desc.layer == layer)
    let new := if void && !was && !t.voided then 1 else 0
    let after := void && !t.desc.isEnd
    let r := if t.desc.bank = 0 then voidRun sheaf layer after v1 ts else voidRun sheaf layer v0 after ts
    { r with flight := { t with voided := void } :: r.flight
             new0 := r.new0 + (if t.desc.bank = 0 then new else 0), new1 := r.new1 + (if t.desc.bank = 0 then 0 else new) }

/-- A bank after a mismatch (R157): its entries are cleared where the chain they belong to is void, an open void chain takes no further tile, and
each chain voided completes with MISMATCH. -/
def Bank.voidChains (b : Bank) (n : Nat) (clear open_ : Bool) : Bank :=
  if n = 0 then b
  else { b with entries := if clear then [] else b.entries, waiting := b.waiting - n, mismatch := true, isOpen := b.isOpen && !open_, voided := b.voided || open_ }

/-- CHECKSUM_MISMATCH in the grid (R157): the counters and the last mismatch, the chain voided with its entries cleared and
completed with MISMATCH, every later tile of the sheaf and layer discarded, in flight or queued. -/
def Grid.mismatchRow (g : Grid) (t : TileInFlight) (row : Nat) : Grid :=
  let r := voidRun t.desc.sheaf t.desc.layer false false g.flight
  let g1 : Grid := { g with
    status := g.status ||| 1
    mismatches := g.mismatches + 1
    lastMismatch := BitVec.ofNat 22 (row % 128 + 128 * (t.desc.pairing % 8) + 1024 * (t.desc.layer % 4096))
    flight := if t.voided then g.flight else r.flight
    discard := if t.voided then g.discard else g.discard ++ [(t.desc.sheaf, t.desc.layer)] }
  if t.voided then g1
  else
    let clear (b : Nat) : Bool := (r.flight.find? (fun f => f.desc.bank == b)).any (fun f => f.voided)
    (g1.updBank 0 (fun b => b.voidChains r.new0 (clear 0) r.void0)).updBank 1 (fun b => b.voidChains r.new1 (clear 1) r.void1)

/-- The report and the pattern of a mismatch (R157, R491, R523), which is unconfirmed at both cores where the item met one before (R522); the recorded ACTION says whether the item can be
replayed, NOTED during an abort, which replays nothing (R161). -/
def State.reportMismatch (s : State) (k : Nat) (t : TileInFlight) (row : Nat) (d c : Int) (acts : List Int) : State :=
  let detail := unsignedOf 32 d + 2 ^ 32 * unsignedOf 32 c
  let r := s.coreFault k 0x0303 detail
  match (s.core k).item with
  | none => s.send (.fault r)
  | some i =>
    let s1 := s.send (.fault { r with action := if (s.core k).grid.aborting then 0 else if s.endsItem i k then 1 else 3 })
    let same (p : MismatchPattern) : Bool := itemIs p.item p.home p.entered i && p.core != k
    let old := s1.patterns.map (fun p => if same p then { p with discarded := true } else p)
    { s1 with patterns := old ++ [{
        core := k, item := i.kind, home := i.homeCluster, entered := i.entered, discarded := s1.patterns.any same, layer := t.desc.layer, row := row, pairing := t.desc.pairing
        dSum := d, cSum := c, tile := t.desc, acts := acts, weights := t.weights, fault := 0, confirmed := false }] }

/-- The oldest tile with its next row gone, and without it once all have left. -/
def Grid.rowLeft (g : Grid) : Grid :=
  match g.flight with
  | t :: ts => if t.nextRow + 1 < t.desc.rows then { g with flight := { t with nextRow := t.nextRow + 1 } :: ts } else { g with flight := ts }
  | [] => g

/-- The row position in the sheaf record that a tile's row belongs to: the row whose scale it takes (R147, R149). -/
def State.markRow (s : State) (k : Nat) (t : TileDesc) (row marks : Nat) : State :=
  if marks = 0 then s
  else if t.sheaf = 0xFFFF then s.updCore k (fun c => { c with item := c.item.map (fun i => { i with marks := i.marks ||| marks }) })
  else s.updRecord ((s.core k).home k) t.sheaf (fun r => r.mark (t.scaleIndex row) marks)

/-- An END tile's row: its scaled values are written, flags and marks are raised, and with the last row the chain posts
CLEAN (R139, R145, R147). -/
def State.drainRow (s : State) (k : Nat) (t : TileInFlight) (row : Nat) (entries : List AccEntry) : State :=
  let sr := s.rowScaleOf k t row
  let ys := (List.range t.desc.cols).map (fun j =>
    drainValue t.desc.pairing (entries.getD j accZero).value sr (s.colScaleOf k t.desc j))
  let fl := joinFlags (ys.map Prod.snd)
  let sat := (entries.take t.desc.cols).any (fun e => e.sat)
  let bytes := ys.flatMap (fun y => natLE 4 y.1)
  let s1 := match binPlace (t.desc.out + row * t.desc.outStride * 4) with
    | some pl => s.binWrite k pl bytes
    | none => s
  let s2 := s1.updCore k (fun c => { c with
    grid := { c.grid with status := c.grid.status ||| BitVec.ofNat 5 (4 * fl.ovf.toNat + 8 * fl.uf.toNat + 16 * fl.nv.toNat) } })
  let s3 := s2.markRow k t.desc row
    ((if sat || fl.ovf then markRange else 0) ||| (if t.desc.wide then markWidened else 0))
  if row + 1 = t.desc.rows then
    s3.updCore k (fun c => { c with grid := c.grid.updBank t.desc.bank (fun b => { b with waiting := b.waiting - 1 }) })
  else s3

/-- What follows a row that has left the array: an abort that it ends is acknowledged, and a core that it leaves free takes an item. -/
def State.rowGone (s : State) (k : Nat) : State := (s.abortDone k).takeNext k

/-- GRID_ROW_WRITE: the next row of the oldest tile leaves the array; it is compared, accumulated, and for an END tile
scaled and written (R139, R143 to R147, R153 to R158). A write to a held region stalls (R117). -/
def execGridRowWrite (k : Nat) (upset : Option GridUpset) (s : State) : Answer :=
  onCore k s (fun s =>
    let g := (s.core k).grid
    match g.flight with
    | [] => .next s
    | t :: _ =>
      let row := t.nextRow
      let out := t.desc.out + row * t.desc.outStride * 4
      let stalled := t.desc.isEnd && !t.voided && (match binPlace out with
        | some pl => s.heldInput k pl (4 * t.desc.cols)
        | none => false)
      if stalled then .next s else
        let fc := floatClass t.desc.pairing
        let a := t.acts.getD row []
        let (cols, c, m) := rowSums g fc a t.weights upset
        let d := rowSum fc cols
        match compareRow fc d c m with
        | .mismatch =>
          let s1 := s.reportMismatch k t row d c a
          .next ((s1.updCore k (fun x => { x with grid := (x.grid.mismatchRow t row).rowLeft })).rowGone k)
        | chk =>
          let skip : Word32 := match chk with
            | .skipped => 1
            | _ => 0
          if t.voided then .next ((s.updCore k (fun x => { x with grid := { x.grid with skips := x.grid.skips + skip }.rowLeft })).rowGone k)
          else
            let b := g.bank t.desc.bank
            let olds := (List.range 128).map (fun j => if t.desc.start then accZero else Tbl.get accZero b.entries (entryKey row j))
            let news := (olds.zip cols).map (fun e => accumulate fc e.1 e.2)
            let newSat := (olds.zip news).any (fun e => !e.1.sat && e.2.sat)
            let s1 := s.updCore k (fun x => { x with
              grid := ({ x.grid with
                  skips := x.grid.skips + skip
                  before := if row = 0 then b.entries else x.grid.before
                  status := if newSat then x.grid.status ||| 2 else x.grid.status }.updBank t.desc.bank (fun b => { b with
                    entries := news.zipIdx.foldl (fun (u : Tbl AccEntry) (e : AccEntry × Nat) => Tbl.set accZero u (entryKey row e.2) e.1) b.entries })).rowLeft })
            .next ((if t.desc.isEnd then s1.drainRow k t row news else s1).rowGone k))

/-- The tiles in flight under an abort: those of the open chains, and of the chain of the tile in issue, are void (R161). -/
def Grid.abortFlight (g : Grid) : List TileInFlight :=
  let stops (b : Nat) : Bool := (g.bank b).isOpen || g.flight.getLast?.any (fun t => t.desc.bank == b)
  let f0 := if stops 0 then voidOpen 0 g.flight else g.flight
  if stops 1 then voidOpen 1 f0 else f0

/-- GRID_ABORT: the grid takes no further descriptor, discards its queue and voids every open chain, so that no row of it is written; the rows of
the tiles in the array leave it, and with the last of them, or at once where there is none, it acknowledges (R161). -/
def execGridAbort (k : Nat) (s : State) : Answer :=
  onCore k s (fun s =>
    .next ((s.updCore k (fun c => { c with grid := { c.grid with
      aborting := true, queue := [], flight := c.grid.abortFlight, shadow := none } })).rowGone k))

/-- A grid stopped at its tile boundary (R160): the tiles in progress go back to the queue, to be issued again from their first row, and each bank
stands as it stood before them; the first takes its weights again. -/
def Grid.stopped (g : Grid) : Grid :=
  let live := g.flight.filter (fun t => !t.voided)
  let g1 := match g.flight with
    | t :: _ => if !t.voided && decide (0 < t.nextRow) then g.updBank t.desc.bank (fun b => { b with entries := g.before }) else g
    | [] => g
  let reopen (g : Grid) (b : Nat) : Grid := match live.find? (fun t => t.desc.bank == b) with
    | some t => g.updBank b (fun x => { x with isOpen := !t.desc.start, voided := false })
    | none => g
  let g2 := reopen (reopen g1 0) 1
  { g2 with
    queue := live.map (fun t => t.desc) ++ g.queue, flight := []
    active := match live with
      | t :: _ => t.weights
      | [] => g.active
    shadow := if live.isEmpty then g.shadow else none }

end Sys2Proof.Machine
end

