-- ==== Sys2Proof/Machine/TableOps.lean ====
section
/-!
DEFINITION. Embedding tables (spec 08): row formats and slots, CHECK, hash families, bays, and the place of a row in a
channel; the mirrors of raw units (R307) and raw writes by context address.
-/

namespace Sys2Proof.Machine

/-! ### Row formats and slots (R218 to R221) -/

/-- The width in bits of an element of a ROW_FORMAT (R221); code 7 is BG2, the format of stubble rows. -/
def rowWidth (code : Nat) : Nat :=
  match code with
  | 0 => 4
  | 1 => 8
  | 2 | 3 => 16
  | 4 | 5 => 32
  | 6 => 64
  | _ => 2

/-- The code that stands for BG2 here. -/
def bg2Code : Nat := 7

/-- The bytes of `n` elements of a ROW_FORMAT. -/
def rowElementBytes (code n : Nat) : Nat := (n * rowWidth code + 7) / 8
/-- The slot size (R221). -/
def slotSize (code n : Nat) : Nat := (8 + rowElementBytes code n + 7) / 8 * 8
/-- The slot size of a table's rows. -/
def TableDesc.slot (t : TableDesc) : Nat := slotSize t.rowFormat t.elements
/-- The slot size of a table's stubble rows. -/
def TableDesc.stubSlot (t : TableDesc) : Nat := slotSize bg2Code t.elements
/-- The element bytes of a table's rows. -/
def TableDesc.elementBytes (t : TableDesc) : Nat := rowElementBytes t.rowFormat t.elements

/-- RETAIN (R222). -/
def TableDesc.retain (t : TableDesc) : Bool := t.flags.testBit 0
/-- PINNABLE (R222). -/
def TableDesc.pinnable (t : TableDesc) : Bool := t.flags.testBit 1
/-- CHECK_READS (R222). -/
def TableDesc.checkReads (t : TableDesc) : Bool := t.flags.testBit 2
/-- STUBBLE (R222). -/
def TableDesc.stubble (t : TableDesc) : Bool := t.flags.testBit 3
/-- BALANCE (R222): 0 off, 1 reeve, 2 host. -/
def TableDesc.balance (t : TableDesc) : Nat := t.flags / 16 % 4
/-- REPLICATE (R222). -/
def TableDesc.replicate (t : TableDesc) : Bool := t.flags.testBit 6

/-- The header fields of a row slot (R218). -/
def slotEpoch (b : List Byte) : Nat := fieldLE b 0 2
/-- SCALE. -/
def slotScale (b : List Byte) : Nat := fieldLE b 2 2
/-- FLAGS. -/
def slotFlags (b : List Byte) : Nat := fieldLE b 4 2
/-- CHECK. -/
def slotCheck (b : List Byte) : Nat := fieldLE b 6 2
/-- The element bytes. -/
def slotElements (b : List Byte) (n : Nat) : List Byte := (b.drop 8).take n
/-- VACANT (R219). -/
def slotVacant (b : List Byte) : Bool := (slotFlags b).testBit 0

/-- One byte of the CRC-16 of R220: polynomial 0x1021, no reflection. -/
def crc16Byte (c : Nat) (b : Byte) : Nat :=
  (List.range 8).foldl (fun c _ => if c.testBit 15 then (c * 2 % 65536) ^^^ 0x1021 else c * 2 % 65536) (c ^^^ (b.toNat * 256))
/-- The CRC-16 of R220 over a byte string, initial value 0xFFFF. -/
def crc16 (bs : List Byte) : Nat := bs.foldl crc16Byte 0xFFFF

/-- CHECK as R220 computes it: over SCALE and then the element bytes. -/
def rowCheck (scale : Nat) (elements : List Byte) : Nat := crc16 (natLE 2 scale ++ elements)

/-- A row slot from its fields, padded to the slot size. -/
def makeSlot (size epoch scale flags : Nat) (elements : List Byte) : List Byte :=
  padTo size (natLE 2 epoch ++ natLE 2 scale ++ natLE 2 flags ++ natLE 2 (rowCheck scale elements) ++ elements)

/-- A row as a table's CHECK_READS sees it (R220): whether the stored CHECK differs from its content. -/
def TableDesc.checkFails (t : TableDesc) (slot : List Byte) : Bool :=
  t.checkReads && slotCheck slot != rowCheck (slotScale slot) (slotElements slot t.elementBytes)

/-- The same of a stubble row, whose CHECK covers its BG2 bytes (R220, R232). -/
def TableDesc.stubCheckFails (t : TableDesc) (slot : List Byte) : Bool :=
  t.checkReads && slotCheck slot != rowCheck (slotScale slot) (slotElements slot (rowElementBytes bg2Code t.elements))

/-- The format of a ROW_FORMAT code with a numeric format of chapter 3. -/
def rowFormatOf (code : Nat) : Format :=
  match code with
  | 0 => .bg4
  | 1 => .e4m3
  | 2 => .bf16
  | 3 => .b16
  | 4 => .b32
  | 7 => .bg2
  | _ => .int32

/-- Element `i` of a row as bits. -/
def rowElement (code : Nat) (elements : List Byte) (i : Nat) : Nat :=
  if code = 6 then fieldLE elements (8 * i) 8 else elementOf (rowFormatOf code) elements i

/-- The exact value of an element of a row, under its SCALE and codebook (R89, R94). -/
def rowValue (code : Nat) (scale : ScaleInfo) (elements : List Byte) (i : Nat) : Value × NumFlags :=
  if code = 6 then (intValue (signedOf 64 (rowElement 6 elements i)), flagNone)
  else decodeValue (rowFormatOf code) scale (rowElement code elements i)

/-- The decode parameters of a table's row with a given SCALE; a stubble row uses STUB_CODEBOOK. -/
def rowScaleInfo (pl : Plan) (t : TableDesc) (isStub : Bool) (scale : Nat) : ScaleInfo :=
  { codebook := if isStub then pl.codebookOf .bg2 t.stubCodebook else pl.codebookOf .bg4 t.codebook
    scale := scale, zeroPoint := 0 }

/-- The stubble row of a slot (R232): SCALE kept, each element decoded and encoded into STUB_CODEBOOK under RNE, VACANT
and USER kept, CHECK computed. -/
def stubbleOf (pl : Plan) (t : TableDesc) (slot : List Byte) : List Byte :=
  let scale := slotScale slot
  let els := slotElements slot t.elementBytes
  let codes := (List.range t.elements).map (fun i =>
    (encodeValue .bg2 (rowScaleInfo pl t true scale) .rne 0 (rowValue t.rowFormat (rowScaleInfo pl t false scale) els i).1).1)
  makeSlot t.stubSlot (slotEpoch slot) scale (slotFlags slot &&& 0xFF01) (packElements .bg2 codes)

/-- A stubble row returned whole, re-encoded in the table's ROW_FORMAT (R608). -/
def restoreStubble (pl : Plan) (t : TableDesc) (stub : List Byte) : List Byte :=
  let scale := slotScale stub
  let els := slotElements stub (rowElementBytes bg2Code t.elements)
  let f := rowFormatOf t.rowFormat
  let enc (i : Nat) : Nat :=
    let v := (rowValue bg2Code (rowScaleInfo pl t true scale) els i).1
    if t.rowFormat = 6 then unsignedOf 64 (match v with
      | .fin neg n d => signedNum neg (roundNat .rne neg 0 n d)
      | _ => 0)
    else (encodeValue f (rowScaleInfo pl t false scale) .rne 0 v).1
  let bytes := if t.rowFormat = 6 then (List.range t.elements).flatMap (fun i => natLE 8 (enc i))
    else packElements f ((List.range t.elements).map enc)
  makeSlot t.slot (slotEpoch stub) scale (slotFlags stub) bytes

/-! ### Hash families (R224) -/

/-- The modulus of the hash arithmetic. -/
def two64 : Nat := 2 ^ 64

/-- CRC-32C over the 8 key bytes, reflected, with no final XOR (R224). -/
def crc32c (init k : Nat) : Nat :=
  (natLE 8 k).foldl (fun c b =>
    (List.range 8).foldl (fun c _ => if c.testBit 0 then (c / 2) ^^^ 0x82F63B78 else c / 2) (c ^^^ b.toNat)) init

/-- The 64-bit hash of a key under a family (R224). -/
def hashKey (k seed family : Nat) : Nat :=
  match family with
  | 0 =>
    let a := k ^^^ seed
    let b := (a ^^^ (a / 2 ^ 31)) * 0x9E6C63D0676A9A99 % two64
    let c := (b ^^^ (b / 2 ^ 29)) * 0xD6E8FEB86659FD93 % two64
    c ^^^ (c / 2 ^ 32)
  | 1 => (k + seed) % two64 * 0x9E3779B97F4A7C15 % two64
  | 2 => crc32c (seed / 2 ^ 32) k * 2 ^ 32 + crc32c (seed % 2 ^ 32) k
  | _ => k ^^^ seed

/-- The row of a hash (R224): the upper 64 bits of h × ROWS. -/
def hashRow (h rows : Nat) : Nat := h * rows / two64

/-! ### Bays (R225) -/

/-- The key of a table of a partition at a gleaner. -/
def tableKey (p table : Nat) : Nat := p * 4096 + table

/-- The bays of a table with their BAYS indices. -/
def Plan.baysOf (pl : Plan) (table : Nat) : List (Nat × Bay) :=
  (pl.bays.zipIdx.map (fun e => (e.2, e.1))).filter (fun e => e.2.table == table)

/-- Whether a bay covers a row. -/
def Bay.covers (b : Bay) (row : Nat) : Bool := b.firstRow ≤ row && decide (row < b.firstRow + b.rows)

/-- The home bay of a row. -/
def Plan.homeBay (pl : Plan) (table row : Nat) : Option (Nat × Bay) :=
  (pl.baysOf table).find? (fun e => e.2.role == 0 && e.2.covers row)

/-- The bays of a role that copy a home bay. -/
def Plan.copiesOf (pl : Plan) (table role home : Nat) : List (Nat × Bay) :=
  (pl.baysOf table).filter (fun e => e.2.role == role && e.2.ref == home)

/-- The slot size of a bay. -/
def Bay.slotOf (b : Bay) (t : TableDesc) : Nat := if b.role = 2 then t.stubSlot else t.slot

/-- The byte offset in its channel of slot `i` of a bay (R225, R38). -/
def State.baySlot (s : State) (b : Bay) (t : TableDesc) (i : Nat) : Nat :=
  (if b.tier = 0 then s.sysArea * 2 ^ 20 else 0) + b.offset * 4096 + i * b.slotOf t

/-- The gleaner of a bay's slot; none where its channel is lost (R311, R312). -/
def State.bayGleaner (s : State) (b : Bay) (t : TableDesc) (i : Nat) : Option Nat :=
  s.channelAt b.tier b.channel (s.baySlot b t i / 65536)

/-- The plan, table entry and home bay of a row of a partition. -/
def State.rowHome (s : State) (p table row : Nat) : Option (Plan × TableDesc × Nat × Bay) :=
  match s.planOf p with
  | none => none
  | some pl =>
    match pl.tableOf table, pl.homeBay table row with
    | some t, some (n, b) => some (pl, t, n, b)
    | _, _ => none

/-- The bay of a role in gleaner `g` that covers a row. -/
def State.bayHere (s : State) (g p table row role : Nat) : Option (TableDesc × Nat × Bay) :=
  match s.planOf p with
  | none => none
  | some pl =>
    match pl.tableOf table with
    | none => none
    | some t =>
      match (pl.baysOf table).find? (fun e => e.2.role == role && e.2.covers row &&
          s.bayGleaner e.2 t (row - e.2.firstRow) == some g) with
      | some (n, b) => some (t, n, b)
      | none => none

/-- The first mirror bay of a home bay and its gleaner whose channel is present (R306). -/
def State.mirrorOf (s : State) (p table home row : Nat) : Option (Nat × Bay) :=
  match s.planOf p with
  | none => none
  | some pl =>
    match pl.tableOf table with
    | none => none
    | some t => ((pl.copiesOf table 3 home).filterMap (fun e =>
        (s.bayGleaner e.2 t (row - e.2.firstRow)).map (fun g => (g, e.2)))).head?

/-- Where a gleaner keeps the current version of a row that it orders: its table, bay index and channel offset. A row in a
move slot is found in the list of moved rows, a home row in its bay, and a row of a lost home bay in the mirror that has become its home (R311). -/
def State.rowPlace (s : State) (g p table row : Nat) : Option (TableDesc × Nat × Nat) :=
  match (s.gleaner g).moved.find? (fun m => m.1 == tableKey p table && m.2.1 == row), s.planOf p with
  | some m, some pl =>
    match pl.tableOf table with
    | some t => some (t, ((pl.homeBay table row).map Prod.fst).getD 0, m.2.2)
    | none => none
  | _, _ =>
    match s.bayHere g p table row 0 with
    | some (t, n, b) => some (t, n, s.baySlot b t (row - b.firstRow))
    | none =>
      match s.rowHome p table row with
      | none => none
      | some (_, t, n, b) =>
        if (s.bayGleaner b t (row - b.firstRow)).isSome then none
        else match s.mirrorOf p table n row with
          | some (mg, mb) => if mg = g then some (t, n, s.baySlot mb t (row - mb.firstRow)) else none
          | none => none

/-- The gleaners that hold a bay of a table: both that hold one under evacuation (R309). -/
def State.tableGleaners (s : State) (p table : Nat) : List Nat :=
  match s.planOf p with
  | none => []
  | some pl =>
    match pl.tableOf table with
    | none => []
    | some t => ((pl.baysOf table).flatMap (fun e => [s.bayGleaner e.2 t 0, s.bayGleaner e.2 t (e.2.rows + e.2.spare - 1)].filterMap (fun g => g))).eraseDups

/-- The gleaner that now holds a row: the one that lists it among its moved rows, else its home's, else that of a lost home's mirror (R311). -/
def State.holderOf (s : State) (p table row : Nat) : Option Nat :=
  let tk := tableKey p table
  match (s.tableGleaners p table).find? (fun g => (s.gleaner g).moved.any (fun m => m.1 == tk && m.2.1 == row)) with
  | some g => some g
  | none =>
    match s.rowHome p table row with
    | some (_, t, n, b) => (s.bayGleaner b t (row - b.firstRow)).or ((s.mirrorOf p table n row).map Prod.fst)
    | none => none

/-- Whether a row's home bay is lost and no mirror has become its home (R311, R312). -/
def State.homeLost (s : State) (p table row : Nat) : Bool :=
  match s.rowHome p table row with
  | some (_, t, n, b) => (s.bayGleaner b t (row - b.firstRow)).isNone && (s.mirrorOf p table n row).isNone
  | none => false

/-- The bytes of a slot of a gleaner's channel. -/
def GleanerState.slotAt (x : GleanerState) (off size : Nat) : List Byte := x.data.bytes off size

/-- A table's default row (R222). A composed table has none of its own (R228). -/
def Plan.defaultOf (pl : Plan) (table : Nat) : List Byte :=
  match pl.tableOf table with
  | some t => padTo t.slot t.defaultRow
  | none => []

/-- The epoch that a gleaner holds of a table (R233). -/
def GleanerState.epochOf (x : GleanerState) (tk : Nat) : Nat := Tbl.get 0 x.epochs tk
/-- The pinned epochs that a gleaner holds of a table (R234). -/
def GleanerState.pinsOf (x : GleanerState) (tk : Nat) : List Nat := Tbl.get [] x.pinned tk

/-- Serial comparison of epochs modulo 2^32 (R239): a lies below b. -/
def epochBelow (a b : Nat) : Bool := a != b && decide ((b + 2 ^ 32 - a) % 2 ^ 32 < 2 ^ 31)

/-! ### Mirrors of raw units (R307) -/

/-- The place in a mirror placement of a byte of a channel, by tier and number, that a placement holds. -/
def State.mirrorByte (s : State) (src dst : Placement) (tier code off : Nat) : Option (Nat × Nat) :=
  if src.length = 0 ∨ dst.length = 0 ∨ src.tier ≠ tier then none
  else
    ((List.range (ceilDiv src.length 65536)).filterMap (fun i =>
      let o := s.placeOffset src i
      if o ≤ off ∧ off < o + 65536 ∧ src.channelOf i = code then
        let d := s.placeOffset dst i
        (s.channelAt dst.tier (dst.channelOf i) (d / 65536)).map (fun h => (h, d + (off - o)))
      else none)).head?

/-- The mirror of a byte of a channel, present or lost (R307, R312): of a layer's weights or wide twin, or of a home bay. -/
def State.mirrorPlace (s : State) (tier code off : Nat) : Option (Nat × Nat) :=
  ((List.range 8).filterMap (fun p =>
    match s.planOf p with
    | none => none
    | some pl =>
      ((pl.layers.filterMap (fun l => (s.mirrorByte l.weights l.mirror tier code off).or (s.mirrorByte l.wideTwin l.wideMirror tier code off))) ++
        (pl.bays.zipIdx.filterMap (fun e =>
          let b := e.1
          match pl.tableOf b.table with
          | none => none
          | some t =>
            let base := s.baySlot b t 0
            if b.role ≠ 0 ∨ off < base ∨ base + b.rows * t.slot ≤ off ∨ b.tier ≠ tier ∨ b.channel ≠ code then none
            else ((pl.copiesOf b.table 3 e.2).filterMap (fun m =>
                let o := s.baySlot m.2 t 0 + (off - base)
                (s.channelAt m.2.tier m.2.channel (o / 65536)).map (fun h => (h, o)))).head?))).head?)).head?

/-- The mirror of a byte of a gleaner's channel. -/
def State.mirrorAt (s : State) (g off : Nat) : Option (Nat × Nat) := s.mirrorPlace (s.channelCode g).1 (s.channelCode g).2 off

/-- The units of a raw extent. -/
def unitsOf (off len : Nat) : List Nat := (List.range ((off + len - 1) / 64 + 1 - off / 64)).map (fun i => off / 64 + i)

/-- Serving the unreadable units of an extent from their mirrors, each repaired in place (R307, R308); false where one has no
readable mirror. -/
def State.repairUnits (s : State) (g off len : Nat) : State × Bool :=
  (unitsOf off len).foldl (fun (acc : State × Bool) u =>
    if !acc.2 || (acc.1.gleaner g).unitBad u == 0 then acc
    else
      match acc.1.mirrorAt g (64 * u) with
      | some (mg, mo) =>
        if (acc.1.gleaner mg).unitBad (mo / 64) ≠ 0 then (acc.1, false)
        else
          let bytes := (acc.1.gleaner mg).data.bytes mo 64
          (acc.1.updGleaner g (fun x => (x.writeUnit (64 * u) bytes).1), true)
      | none => (acc.1, false)) (s, true)

/-! ### Raw writes by context address and to frames (R231, R294, R305) -/

/-- A raw write of a context repairs from its mirror a unit that it covers in part and that cannot be read (R305, R308). -/
def State.mendEdges (s : State) (g c off n : Nat) : State :=
  let mend (s : State) (u : Nat) : State :=
    if (s.gleaner g).unitBad u = 0 ∨ !s.rangeAdmits g (64 * u) 64 c true then s else (s.repairUnits g (64 * u) 64).1
  let s1 := if off % 64 = 0 then s else mend s (off / 64)
  if (off + n) % 64 = 0 then s1 else mend s1 ((off + n - 1) / 64)

/-- Raw writes of a run of bytes at a context address (R231): the worst END status of its pieces; those to a lost channel are
discarded (R311). -/
def State.ctxWrite (s : State) (c tag addr : Nat) (bs : List Byte) : State × Nat :=
  (pieces (bs.length / 65536 + 2) addr bs.length).foldl (fun (acc : State × Nat) q =>
    match acc.1.ctxAt c q.1 with
    | none => acc
    | some (g, off) =>
      let r := ((acc.1.noteDirty c q.1 q.2).mendEdges g c off q.2).rawWrite g c tag off ((bs.drop (q.1 - addr)).take q.2) false
      (r.1, max acc.2 r.2)) (s, 0)

/-- A raw write applied at a frame of a TIERED segment: the units of its bale are dirty until demoted (R294). -/
def State.noteFrame (s : State) (g off n : Nat) : State :=
  s.xlt.tiered.foldl (fun s e => match s.planSegment (e.1 / 16) (e.1 % 16) with
    | none => s
    | some sg => e.2.resident.foldl (fun s r => match s.physAt (s.placePhys sg.framePlacement (65536 * (r.2 - 1))) with
      | none => s
      | some (h, o) =>
        let t := s.tier (e.1 / 16) (e.1 % 16)
        if h ≠ g ∨ r.2 = 0 then s
        else
          let us := (unitsOf off n).filter (fun u => u / 1024 == o / 65536)
          s.setTier (e.1 / 16) (e.1 % 16) { t with
            dirty := us.foldl (fun d u => Tbl.set false d (1024 * r.1 + u % 1024) true) t.dirty }) s) s

end Sys2Proof.Machine
end

