-- ==== Sys2Proof/Machine/FrontOps.lean ====
section
/-!
DEFINITION. The front end's shared operations (spec 15): queues, commands and their codes, semaphores, the writing of
results, and the completion of work and administrative commands.
-/

namespace Sys2Proof.Machine

/-- Work queue `q`. -/
def State.queue (s : State) (q : Nat) : QueueState := Tbl.get queueReset s.gfe.queues q
/-- The state with a queue changed. -/
def State.updQueue (s : State) (q : Nat) (f : QueueState → QueueState) : State :=
  { s with gfe := { s.gfe with queues := Tbl.set queueReset s.gfe.queues q (f (s.queue q)) } }
/-- Semaphore `n` by device-wide number. -/
def State.sem (s : State) (n : Nat) : Semaphore := Tbl.get semReset s.gfe.sems n
/-- The state with a semaphore changed. -/
def State.updSem (s : State) (n : Nat) (f : Semaphore → Semaphore) : State :=
  { s with gfe := { s.gfe with sems := Tbl.set semReset s.gfe.sems n (f (s.sem n)) } }
/-- A command on queue `q` faults where there is none (R402). -/
def onQueue (q : Nat) (s : State) (f : State → Answer) : Answer := if q < 1024 then f s else .fault .noSuchUnit
/-- Setting a GFE_STATUS bit. -/
def State.gfeStatus (s : State) (b : BitVec 3) : State := { s with gfe := { s.gfe with status := s.gfe.status ||| b } }

/-- A command in flight. -/
def QueueState.cmd (q : QueueState) (seq : Nat) : Option Cmd := q.cmds.find? (fun c => c.seq == seq)
/-- The state with a command in flight changed. -/
def State.updCmd (s : State) (q seq : Nat) (f : Cmd → Cmd) : State :=
  s.updQueue q (fun x => { x with cmds := x.cmds.map (fun c => if c.seq = seq then f c else c) })

/-- The TAG of a command (R424). -/
def tagOf (q seq : Nat) : Nat := q * 2 ^ 22 + seq % 2 ^ 22
/-- The queue and command in flight that a TAG names. -/
def State.cmdOfTag (s : State) (tag : Nat) : Option (Nat × Cmd) :=
  let q := tag / 2 ^ 22
  ((s.queue q).cmds.find? (fun c => c.seq % 2 ^ 22 == tag % 2 ^ 22)).map (fun c => (q, c))

/-- Whether a context is torn down or being torn down (R497). -/
def State.torn (s : State) (c : Nat) : Bool := (s.ctx c).state == 2 || s.faults.teardowns.any (fun t => t.ctx == c)

/-- The transfers of a cluster that have been submitted and not completed (R375). -/
def DmaEngine.transfers (d : DmaEngine) : List Xfer :=
  d.outstanding ++ (d.queues.flatMap Prod.snd).filterMap (fun e => match e with
    | .xfer x => some x
    | .barrier _ => none)

/-- PARTITION's first semaphore, device-wide (R40, R402). -/
def State.semBase (s : State) (p : Nat) : Nat :=
  match (s.part p).desc with
  | some d => d.semaphores.1 * 256
  | none => 0
/-- The semaphores of a partition. -/
def State.semCount (s : State) (p : Nat) : Nat :=
  match (s.part p).desc with
  | some d => d.semaphores.2 * 256
  | none => 0

/-! ### Effective priority (R431, R432) -/

/-- The effective priority of a queue's commands: its binding's, or what its context inherits. -/
def State.queuePrio (s : State) (inherited : Tbl Nat) (q : Nat) : Nat :=
  let x := s.queue q
  let own := match (s.part x.part).desc, s.planOf x.part with
    | some d, some pl => ((pl.bindingOf (q - d.queues.1)).map (fun b => b.priority)).getD 0
    | _, _ => 0
  max own (Tbl.get 0 inherited x.context)

/-- One link of every chain: each holder inherits the highest effective priority that waits on its semaphore. A revoked semaphore gives
nothing (R432). -/
def State.inheritOnce (s : State) (old : Tbl Nat) : Tbl Nat :=
  s.gfe.sems.foldl (fun (t : Tbl Nat) (e : Nat × Semaphore) =>
    match e.2.holder with
    | some h =>
      if e.2.revoked then t
      else (e.2.waiters.filter (fun q => decide (q < 1024))).foldl (fun (t : Tbl Nat) q => Tbl.set 0 t h (max (Tbl.get 0 t h) (s.queuePrio old q))) t
    | none => t) []

/-- The inherited priorities: chains are followed for up to 16 links (R432). -/
def State.inheritance (s : State) : Tbl Nat := (List.range 16).foldl (fun t _ => s.inheritOnce t) []

/-! ### Codes (R426) -/

/-- PLAN_MISMATCH. -/
def codeMismatch : Nat := 0x11
/-- ABORTED. -/
def codeAborted : Nat := 0x13
/-- CONTEXT_TORN_DOWN. -/
def codeTornDown : Nat := 0x14
/-- ABANDONED. -/
def codeAbandoned : Nat := 0x10

/-- The highest code that applies to a code and marks (R426). -/
def finalCode (code marks : Nat) : Nat :=
  let fromMarks := if marks.testBit 3 then 5 else if marks.testBit 2 then 4 else if marks.testBit 1 then 3
    else if marks.testBit 0 then 2 else if marks.testBit 4 then 1 else 0
  max code fromMarks

/-- STATUS of a completion record (R426). -/
def statusWord (code marks : Nat) (final : Bool) : Nat :=
  finalCode code marks % 256 + 256 * (marks % 32) + 32768 * final.toNat

/-- A completion record (R427). -/
def completionRecord (seq status queue userTag : Nat) : List Byte := natLE 8 seq ++ natLE 2 status ++ natLE 2 queue ++ natLE 4 userTag

/-! ### Administrative commands (R411, R423) -/

/-- The administrative command a function is running. -/
def State.admin (s : State) (f : Nat) : Option AdminCmd := Tbl.get none s.gfe.admin f
/-- The state with it replaced. -/
def State.setAdmin (s : State) (f : Nat) (c : Option AdminCmd) : State :=
  { s with gfe := { s.gfe with admin := Tbl.set none s.gfe.admin f c } }
/-- The running administrative command of an opcode that has not begun. -/
def State.adminOf (s : State) (f op : Nat) : Option AdminCmd :=
  (s.admin f).bind (fun c => if c.op = op ∧ !c.begun then some c else none)
/-- It has begun and its outcome comes later. -/
def State.beginAdmin (s : State) (f : Nat) : State := s.setAdmin f ((s.admin f).map (fun c => { c with begun := true }))
/-- A field of its operands. -/
def AdminCmd.field (c : AdminCmd) (off n : Nat) : Nat := fieldLE c.operands off n

/-- The partition whose queue range holds a queue (R40). -/
def State.partOfQueue (s : State) (q : Nat) : Option Nat :=
  (List.range 8).find? (fun p => match (s.part p).desc with
    | some d => d.queues.1 ≤ q && decide (q < d.queues.1 + d.queues.2)
    | none => false)

/-- The lowest partition that a function owns. -/
def State.ownPart (s : State) (f : Nat) : Option Nat := (List.range 8).find? (fun p => s.ownsPart f p)

/-- The partition that an administrative command names or implies (R423; DEDUCED, log 30). -/
def State.adminPart (s : State) (f : Nat) (c : AdminCmd) : Nat :=
  match c.op with
  | 0x80 => fieldLE c.inline 0 1
  | 0x81 | 0x82 => c.field 0 1
  | 0x83 | 0x84 => (s.partOfQueue (c.field 0 2)).getD 8
  | _ => (s.ownPart f).getD 8

/-- An administrative command's record: GFE_ADMIN_DONE, and the completion record where the function names a ring (R411, R427). -/
def State.recordAdmin (s : State) (f code : Nat) : State :=
  match s.admin f with
  | none => s
  | some c =>
    let status := statusWord code 0 false
    let s1 := (s.setAdmin f none).updFn f (fun h => { h with adminDone := BitVec.ofNat 32 (c.seq % 65536 + 65536 * status) })
    let cq := (s.fn f).adminCq.toNat
    let record := completionRecord c.seq status 0xFFFF c.userTag
    if cq = 0 ∨ (s.attOf f).isNone then s1
      else s1.issueOut { addr := cq + 16 * ((c.seq - 1) % 16), bytes := record, queue := none, vector := none }

/-! ### Waits and signals (R416 to R418) -/

/-- The command a queue dispatches next. -/
def QueueState.nextParsed (x : QueueState) : Option Cmd := x.cmds.find? (fun c => c.phase == CmdPhase.parsed)
/-- Whether an ORDERED command is held by an earlier command of its queue (R415). -/
def QueueState.holds (x : QueueState) (c : Cmd) : Bool :=
  c.flags.testBit 0 && x.cmds.any (fun d => decide (d.seq < c.seq) && d.phase != CmdPhase.complete)

/-- The kind, value and object of the wait of a semaphore's waiter `w`, a queue's next command or, from 1,024 on, a function's administrative
command, while it waits (R416). -/
def State.waitOf (s : State) (w : Nat) : Option (Nat × Nat × Nat) :=
  if w < 1024 then
    (s.queue w).nextParsed.bind (fun c => if c.flags.testBit 2 && !c.granted then some (c.waitKind, c.waitValue, c.waitObj) else none)
  else
    (s.admin (w - 1024)).bind (fun c =>
      if c.flags.testBit 2 && !c.granted && !c.begun then some (c.waitKind, c.waitValue, c.waitObj) else none)

/-- Taking a waiter off a semaphore. -/
def State.stopWaiting (s : State) (n w : Nat) : State := s.updSem n (fun m => { m with waiters := m.waiters.filter (fun x => x != w) })

/-- The wait of waiter `w` is satisfied. -/
def State.markGranted (s : State) (w : Nat) : State :=
  if w < 1024 then
    s.updQueue w (fun x => match x.nextParsed with
      | some c => { x with waitEvent := false, cmds := x.cmds.map (fun d => if d.seq = c.seq then { d with granted := true } else d) }
      | none => x)
  else s.setAdmin (w - 1024) ((s.admin (w - 1024)).map (fun c => { c with granted := true }))

/-- The context for which waiter `w` acquires (R416). -/
def State.waiterCtx (s : State) (w : Nat) : Nat :=
  if w < 1024 then (s.queue w).context
  else match s.admin (w - 1024) with
    | some c => s.ctxBase (s.adminPart (w - 1024) c)
    | none => 0

/-- Waiter `w` completes with ABANDONED, without running (R418). -/
def State.abandonWait (s : State) (n w : Nat) : State :=
  let s1 := s.stopWaiting n w
  if w < 1024 then
    s1.updQueue w (fun x => match x.nextParsed with
      | some c => { x with waitEvent := false, cmds := x.cmds.map (fun d =>
          if d.seq = c.seq then { d with phase := .complete, code := codeAbandoned } else d) }
      | none => x)
  else s1.recordAdmin (w - 1024) codeAbandoned

/-- The waits on semaphore `n` evaluated again after a change (R416, R418): on a revoked one all are abandoned; otherwise those of SEM_GE are
met or not by its value, and acquires are granted in the order in which they began to wait. -/
def State.grantSem (s : State) (n : Nat) : State :=
  let m := s.sem n
  if m.revoked then m.waiters.foldl (fun s w => s.abandonWait n w) s
  else
    let s1 := m.waiters.foldl (fun (s : State) w => match s.waitOf w with
      | some (0, value, _) => if value ≤ m.value then (s.stopWaiting n w).markGranted w else s
      | _ => s) s
    (m.waiters.foldl (fun (acc : State × Bool) w => match acc.1.waitOf w with
      | some (1, value, _) =>
        if acc.2 || decide ((acc.1.sem n).value < value) then (acc.1, true)
        else
          (((acc.1.stopWaiting n w).markGranted w).updSem n (fun m =>
            { m with value := m.value - value, holder := some (acc.1.waiterCtx w) }), false)
      | _ => acc) (s1, false)).1

/-- The waits on every revoked semaphore are abandoned (R418). -/
def State.abandonRevoked (s : State) : State :=
  s.gfe.sems.foldl (fun s e => if e.2.revoked && !e.2.waiters.isEmpty then s.grantSem e.1 else s) s

/-- The waits on landing counter `i` of attachment `a` evaluated again after a change (R389, R416). -/
def State.grantLanding (s : State) (a i : Nat) : State :=
  let met (s : State) (w : Nat) : State := match s.waitOf w with
    | some (2, value, obj) => if obj = i ∧ value ≤ (Tbl.get 0 (s.att a).landing i).toNat then s.markGranted w else s
    | _ => s
  let s1 := s.gfe.queues.foldl (fun s e =>
    if e.2.state = 1 ∧ e.2.attachment = a ∧ e.2.waitEvent ∧ (e.2.nextParsed.map (fun c => e.2.holds c)).getD true = false then met s e.1 else s) s
  s1.gfe.admin.foldl (fun s e => if e.2.isSome ∧ s.attOf e.1 = some a then met s (1024 + e.1) else s) s1

/-- The first of a semaphore's waiters that waits with SEM_ACQUIRE. -/
def State.firstAcquirer (s : State) (n : Nat) : Option Nat :=
  (s.sem n).waiters.find? (fun w => match s.waitOf w with
    | some (1, _, _) => true
    | _ => false)

/-- A signal applied to a semaphore by a command of a context: SET_MAX or ADD, saturating; an ADD of the holder clears it. -/
def Semaphore.signal (x : Semaphore) (mode value ctx : Nat) : Semaphore :=
  if mode = 1 then
    { x with value := min (x.value + value) (2 ^ 64 - 1), holder := if x.holder = some ctx then none else x.holder }
  else { x with value := max x.value value }

/-- The signal of a completed command, after which the waits on its semaphore are evaluated again. -/
def State.signalCmd (s : State) (q : Nat) (c : Cmd) (code : Nat) : State :=
  let x := s.queue q
  if !c.flags.testBit 3 || decide (0x10 ≤ code) || decide (s.semCount x.part ≤ c.signalSem) then s
  else (s.updSem (s.semBase x.part + c.signalSem) (fun m => m.signal (bitsOf c.flags 5 4) c.signalValue x.context)).grantSem
    (s.semBase x.part + c.signalSem)

/-! ### Completing work commands (R425) -/

/-- Whether an outbound write of a command waits to be issued to the port of its queue's attachment (R396, R398, R425). -/
def State.writesWait (s : State) (q seq : Nat) : Bool := (s.att (s.queue q).attachment).waiting.any (fun w => w.tags.contains (tagOf q seq))

/-- A work command's work is over. Once its outbound writes have been issued it is complete: its code is fixed and its signal applied; the record
follows in sequence order. -/
def State.finishCmd (s : State) (q seq code : Nat) : State :=
  match (s.queue q).cmd seq with
  | none => s
  | some c =>
    let final := if c.stopped then c.code else max c.code code
    if c.phase = .complete then s
    else if s.writesWait q seq then s.updCmd q seq (fun c => { c with ended := true, code := final })
    else
      let s1 := s.updCmd q seq (fun c => { c with phase := .complete, code := final })
      s1.signalCmd q c (finalCode final c.marks)

/-- The commands whose work is over and whose last outbound write has been issued complete (R425). -/
def State.settleEnded (s : State) : State :=
  s.gfe.queues.foldl (fun s e => (e.2.cmds.filter (fun c => c.ended)).foldl (fun s c => s.finishCmd e.1 c.seq c.code) s) s
/-- Writes that waited go on, in order, and the commands that waited for them complete. -/
def State.freeWrites (s : State) (a : Nat) : State := (s.releaseWrites a).settleEnded

/-- The translation copy of a front end instance (R364). -/
def gfeCopy (inst : Nat) : Nat := 24 + inst

/-- Writing the bytes of a relocated reference as a command's result (R419, R420); none where the write is refused. A write to a lost
channel is discarded (R311). -/
def State.writeRef (s : State) (ctx tag copy : Nat) (r : Ref) (bs : List Byte) : Option State :=
  match r.form with
  | 1 =>
    if !s.extentOk copy ctx r.addr (r.addr + bs.length - 1 : Nat) permWrite then none
    else
      match s.ctxWrite ctx tag r.addr bs with
      | (_, 1) => none
      | (s1, _) => some s1
  | 3 => if s.outboundOk ctx r.addr bs.length then
      some ((s.issueOut { addr := r.addr, bytes := bs, queue := none, vector := none, tags := [tag] }).chargeHost ctx bs.length) else none
  | _ => some s

/-- A command that has its outcome: the result is written and the command completes OK, or BOUNDS where it cannot be. -/
def State.finishResult (s : State) (q : Nat) (c : Cmd) (r : Ref) (bs : List Byte) : State :=
  let x := s.queue q
  match s.writeRef x.context (tagOf q c.seq) (gfeCopy x.inst) r bs with
  | some s1 => s1.finishCmd q c.seq 0
  | none => s.finishCmd q c.seq codeBounds

/-- A queue's command that has been dispatched and not begun nor stopped, with an opcode. -/
def State.dispatched (s : State) (q seq op : Nat) : Option Cmd :=
  ((s.queue q).cmd seq).bind (fun c => if c.phase = CmdPhase.dispatched ∧ !c.stopped ∧ c.op = op then some c else none)

/-- A field of `n` bytes at offset 0x20 + `off` of a command's head slot. -/
def Cmd.field (c : Cmd) (off n : Nat) : Nat := fieldLE c.operands off n
/-- A relocated reference of a command. -/
def Cmd.ref (c : Cmd) (i : Nat) : Ref := c.refs.getD i { form := 0, addr := 0, len := 0 }

/-- A migration that a command asked for has its outcome (R244, R247). -/
def State.finishMove (s : State) (tag outcome : Nat) : State :=
  if tag = 0 then s
  else match s.cmdOfTag tag with
    | some (q, c) => s.finishResult q c (c.ref 0) (natLE 4 outcome)
    | none => s

/-! ### Completing administrative commands (R411, R423) -/

/-- An administrative command completes (R411, R417, R427): its signal, then its record. -/
def State.finishAdmin (s : State) (f code : Nat) : State :=
  match s.admin f with
  | none => s
  | some c =>
    let p := s.adminPart f c
    let s0 := if !c.flags.testBit 3 || decide (0x10 ≤ code) || decide (s.semCount p ≤ c.signalSem) then s
      else (s.updSem (s.semBase p + c.signalSem) (fun m => m.signal (bitsOf c.flags 5 4) c.signalValue (s.ctxBase p))).grantSem
        (s.semBase p + c.signalSem)
    s0.recordAdmin f code

/-- Whether a function can write an outbound RESULT: it holds the attachment named and the handle covers it (R411, R423). -/
def State.adminResultOk (s : State) (f addr n : Nat) : Bool :=
  s.attOf f == some (outAtt addr) &&
    (match s.handle (outAtt addr) (outHandle addr) with
     | some h => h.valid && decide (outOffset addr + n ≤ h.length)
     | none => false)

/-- An administrative command with its outcome: the RESULT bytes are written and it completes OK; BOUNDS where they cannot
be. -/
def State.answerAdmin (s : State) (f addr : Nat) (bs : List Byte) : State :=
  if s.adminResultOk f addr bs.length then (s.issueOut { addr := addr, bytes := bs, queue := none, vector := none }).finishAdmin f 0
  else s.finishAdmin f codeBounds

/-- What an administrative command's wait makes of it: it waits, is abandoned, or goes on with the state after the wait (R416, R418). -/
inductive WaitEnd where
  | waits
  | abandoned
  | go (s : State)

/-- The wait of waiter `w`, of kind SEM_GE or SEM_ACQUIRE, on semaphore `n` as it stands when the wait is first looked at or looked at again
(R416, R418). -/
def State.semWait (s : State) (w n kind value : Nat) : WaitEnd :=
  let m := s.sem n
  if m.revoked then .abandoned
  else if m.value < value then .waits
  else if kind = 0 then .go (s.stopWaiting n w)
  else if (s.firstAcquirer n).getD w = w then
    .go ((s.stopWaiting n w).updSem n (fun m => { m with value := m.value - value, holder := some (s.waiterCtx w) }))
  else .waits

/-- The wait of an administrative command, on the objects of the partition it names or implies and of the function's attachment
(R414, R416, R423). -/
def State.adminWait (s : State) (f : Nat) (c : AdminCmd) : WaitEnd :=
  if !c.flags.testBit 2 || c.granted then .go s
  else if c.waitKind = 2 then
    match s.attOf f with
    | some a => if c.waitValue ≤ (Tbl.get 0 (s.att a).landing c.waitObj).toNat then .go s else .waits
    | none => .waits
  else
    let p := s.adminPart f c
    if s.semCount p ≤ c.waitObj then .waits else s.semWait (1024 + f) (s.semBase p + c.waitObj) c.waitKind c.waitValue

/-- Waiter `w` begins to wait on semaphore `n`, once (R416). -/
def State.joinWaiters (s : State) (n w : Nat) : State :=
  s.updSem n (fun m => if m.waiters.contains w then m else { m with waiters := m.waiters ++ [w] })

/-- An administrative command of function `f` with an opcode, not begun and no longer waiting: `body` runs it. -/
def onAdminRaw (f op : Nat) (s : State) (body : State → AdminCmd → State) : Answer :=
  onFn f s (fun s =>
    match s.adminOf f op with
    | none => .next s
    | some c =>
      let p := s.adminPart f c
      match s.adminWait f c with
      | .waits => .next (if c.waitKind ≤ 1 ∧ c.waitObj < s.semCount p then s.joinWaiters (s.semBase p + c.waitObj) (1024 + f) else s)
      | .abandoned => .next ((s.stopWaiting (s.semBase p + c.waitObj) (1024 + f)).finishAdmin f codeAbandoned)
      | .go s1 => .next (body s1 c))

/-- The same, for a command whose RESULT is the outbound address at an operand offset: BOUNDS, and no effect, where that cannot be written
(R411, R423). -/
def onAdmin (f op at_ : Nat) (s : State) (body : State → AdminCmd → State) : Answer :=
  onAdminRaw f op s (fun s c => if s.adminResultOk f (c.field at_ 8) 4 then body s c else s.finishAdmin f codeBounds)

/-- The outcomes of R423. -/
def outDone : Nat := 0
/-- QUEUE_BUSY. -/
def outBusy : Nat := 1
/-- NOT_OWNER. -/
def outNotOwner : Nat := 2
/-- HOME_QUEUE. -/
def outHome : Nat := 3
/-- RING_BAD. -/
def outRing : Nat := 4
/-- BAD. -/
def outBad : Nat := 5
/-- NO_PLAN. -/
def outNoPlan : Nat := 6

end Sys2Proof.Machine
end

