-- ==== Sys2Proof/Machine/Replace.lean ====
section
/-!
DEFINITION. Replacing rows (spec 08): the one point at which a home gleaner applies a replacement, with its stamp and
CHECK, the retained copies of pinned epochs, and the copies that follow the home (R229 to R239).
-/

namespace Sys2Proof.Machine

/-! ### Retained copies (R235 to R238) -/

/-- The retained copies of a row, newest tag first. -/
def GleanerState.copiesOf (x : GleanerState) (tk row : Nat) : List Retained :=
  (x.retained.filter (fun r => r.table == tk && r.row == row)).mergeSort (fun a b => !epochBelow a.tag b.tag)

/-- Whether a retained copy is dead (R238): no pinned epoch lies at or above the next older copy's tag and below its own. -/
def GleanerState.isDead (x : GleanerState) (c : Retained) : Bool :=
  let older := (x.copiesOf c.table c.row).find? (fun d => epochBelow d.tag c.tag)
  !(x.pinsOf c.table).any (fun p => epochBelow p c.tag &&
    (match older with
     | some d => !epochBelow p d.tag
     | none => true))

/-- Whether a replacement must retain the row's current version (R235). -/
def GleanerState.mustRetain (x : GleanerState) (tk row : Nat) : Bool :=
  let e := x.epochOf tk
  let copies := x.copiesOf tk row
  !copies.any (fun c => c.tag == e) &&
    (x.pinsOf tk).any (fun p => epochBelow p e &&
      (match copies with
       | c :: _ => !epochBelow p c.tag
       | [] => true))

/-- The number of live copies the reserve of a table in this channel holds (R237). -/
def State.reserveRoom (s : State) (g p : Nat) (t : TableDesc) : Nat :=
  let (tier, code) := s.channelCode g
  match s.planOf p with
  | none => 0
  | some pl =>
    match pl.reserves.find? (fun r => r.table == t.table && r.tier == tier && r.channel == code) with
    | some r => 31 * r.units * 4096 / (32 * (t.slot + 8))
    | none => 0

/-- The live copies of a table in a gleaner. -/
def GleanerState.liveCopies (x : GleanerState) (tk : Nat) : List Retained := x.retained.filter (fun c => c.table == tk && !x.isDead c)

/-- Whether a replacement of a row must retain a copy for which the reserve has no room (R237). -/
def State.lacksRoom (s : State) (g p : Nat) (t : TableDesc) (row : Nat) : Bool :=
  let x := s.gleaner g
  let tk := tableKey p t.table
  t.pinnable && x.mustRetain tk row && decide (s.reserveRoom g p t ≤ (x.liveCopies tk).length)

/-- The retained copy that a pinned read with epoch `pin` takes: the smallest tag above it (R236). -/
def GleanerState.pinnedCopy (x : GleanerState) (tk row pin : Nat) : Option Retained :=
  ((x.copiesOf tk row).reverse).find? (fun c => epochBelow pin c.tag && !x.isDead c)

/-! ### Unreadable units under a write (R305, R308) -/

/-- The units of a byte range that it covers only in part and that read as uncorrectable. -/
def GleanerState.partBad (x : GleanerState) (off len : Nat) : List Nat :=
  ((List.range ((off + len - 1) / 64 + 1 - off / 64)).map (fun i => off / 64 + i)).filter (fun u =>
    x.unitBad u != 0 && (decide (64 * u < off) || decide (off + len < 64 * u + 64)))

/-- Rewriting a row that could not be read from its mirror's bytes, unit by unit (R308): a unit that still cannot be read, and, where `old` are
bytes that failed CHECK, one that still holds them. A unit that the slot covers in part is repaired whole, where a mirror holds all of it. -/
def State.mendRow (s : State) (g off : Nat) (old : Option (List Byte)) (bytes : List Byte) : State :=
  (unitsOf off bytes.length).foldl (fun s u =>
    let x := s.gleaner g
    let lo := max off (64 * u)
    let n := min (off + bytes.length) (64 * u + 64) - lo
    let part (bs : List Byte) : List Byte := (bs.drop (lo - off)).take n
    if x.unitBad u ≠ 0 ∧ n ≠ 64 then (s.repairUnits g (64 * u) 64).1
    else if x.unitBad u ≠ 0 ∨ (old.map (fun o => part o == x.data.bytes lo n)).getD false then
      s.updGleaner g (fun x => (x.writeUnit lo (part bytes)).1)
    else s) s

/-- Repair of a row slot from the mirror (R305, R308); false where the mirror cannot be read, or a unit of the slot still cannot. -/
def State.repairRow (s : State) (g p table home row off : Nat) : State × Bool :=
  match s.mirrorOf p table home row, (s.planOf p).bind (fun pl => pl.tableOf table) with
  | some (mg, b), some t =>
    let moff := s.baySlot b t (row - b.firstRow)
    if (s.gleaner mg).rangeBad moff t.slot then (s, false)
    else
      let x := s.gleaner g
      let s1 := s.mendRow g off (if x.rangeBad off t.slot then none else some (x.data.bytes off t.slot)) ((s.gleaner mg).data.bytes moff t.slot)
      (s1, !(s1.gleaner g).rangeBad off t.slot)
  | _, _ => (s, false)

/-! ### The copies that follow the home (R232) -/

/-- The load counters of a bay (R242). -/
def bayLoadZero : BayLoad := { lookups := 0, reads := 0, replacements := 0, waits := 0, rows := [], dramRows := [] }
/-- The key of a bay of a partition. -/
def bayKey (p bay : Nat) : Nat := p * 2 ^ 20 + bay
/-- Changing a bay's load counters. -/
def GleanerState.countLoad (x : GleanerState) (p bay : Nat) (f : BayLoad → BayLoad) : GleanerState :=
  { x with load := Tbl.modify bayLoadZero x.load (bayKey p bay) f }

/-- Writing a whole slot at a gleaner, unit by unit: a unit that it covers in part and that cannot be read stores nothing (R305). -/
def GleanerState.putSlot (x : GleanerState) (off : Nat) (slot : List Byte) : GleanerState :=
  (writeUnits (slot.length / 64 + 2) x off slot 0).1

/-- A hot-row cache slot of a row follows its home (R276). -/
def GleanerState.updCache (x : GleanerState) (tk row : Nat) (slot : List Byte) : GleanerState :=
  { x with cache := x.cache.map (fun c => if c.table = tk ∧ c.row = row ∧ c.kind ≠ 2 then { c with slot := slot } else c) }

/-- What a replacement at home sends on (R232): the mirror takes it at once; replicas, those of every replica bay that covers the row and the
hot-row ones, and the stubble row are refreshed by messages. -/
def State.followHome (s : State) (g p table row home : Nat) (slot : List Byte) : State :=
  match s.planOf p with
  | none => s
  | some pl =>
    match pl.tableOf table with
    | none => s
    | some t =>
      let tk := tableKey p table
      let at' (e : Nat × Bay) : Option Nat := s.bayGleaner e.2 t (row - e.2.firstRow)
      let s1 := (pl.copiesOf table 3 home).foldl (fun s e =>
        match s.bayGleaner e.2 t (row - e.2.firstRow) with
        | some mg => s.updGleaner mg (fun x => x.putSlot (s.baySlot e.2 t (row - e.2.firstRow)) slot)
        | none => s) s
      let static := ((pl.baysOf table).filter (fun e => e.2.role == 1 && e.2.covers row)).filterMap at'
      let hot := ((s.gleaner g).replicas.filter (fun r => r.table == tk && r.row == row)).flatMap (fun r => r.holders)
      let s2 := s1.sendAll ((static ++ hot).map (fun r => .refresh r tk row slot))
      if isLoft g ∧ t.stubble then
        s2.sendAll (((pl.copiesOf table 2 home).filter (fun e => e.2.covers row)).filterMap (fun e =>
          (s.bayGleaner e.2 t (row - e.2.firstRow)).map (fun sg => .stubRefresh sg tk row (stubbleOf pl t slot))))
      else s2

/-! ### Migration in progress (R244, R247) -/

/-- The map entry of a row. -/
def GleanerState.mapOf (x : GleanerState) (tk row : Nat) : Option Displaced := x.map.find? (fun d => d.table == tk && d.row == row)

/-- Dropping the map entry of a row. -/
def GleanerState.dropMap (x : GleanerState) (tk row : Nat) : GleanerState :=
  { x with map := x.map.filter (fun d => !(d.table == tk && d.row == row)) }

/-- A row leaves this channel's home slots: its cache slot and its place in the add buffer go (R274, R276). -/
def GleanerState.forgetRow (x : GleanerState) (tk row : Nat) : GleanerState :=
  { x with
    cache := x.cache.filter (fun c => !(c.table == tk && c.row == row && c.kind == 0))
    addBuffer := x.addBuffer.filter (fun e => !(e.table == tk && e.row == row)) }

/-- Cancelling a move (R247): both map entries go, the destination slot is free again, and the command learns CANCELLED. -/
def State.cancelMove (s : State) (g tk row : Nat) : State :=
  match (s.gleaner g).mapOf tk row with
  | none => s
  | some d =>
    let s1 := (s.updGleaner g (fun x => x.dropMap tk row)).finishMove d.tag 5
    s1.updGleaner d.peer (fun x =>
      match x.mapOf tk row with
      | some e => { x.dropMap tk row with freeSlots := Tbl.modify [] x.freeSlots (bayKey (tk / 4096) e.bay) (· ++ [e.offset]) }
      | none => x)

/-! ### The replacement -/

/-- How a replacement ends: applied, waiting for reserve space (R237), or impossible (R305, R306). -/
inductive Replaced where
  | applied (s : State)
  | waits
  | lost

/-- Retaining the current version before a replacement (R235): a tagged copy in the reserve; an unreadable version is
taken from the mirror, or kept poisoned. -/
def State.retainCopy (s : State) (g p table row home off size : Nat) : State :=
  let tk := tableKey p table
  let x := s.gleaner g
  let bad := x.rangeBad off size
  let mirrored := match s.mirrorOf p table home row, (s.planOf p).bind (fun pl => pl.tableOf table) with
    | some (mg, b), some t =>
      let moff := s.baySlot b t (row - b.firstRow)
      if (s.gleaner mg).rangeBad moff size then none else some ((s.gleaner mg).data.bytes moff size)
    | _, _ => none
  let copy : Retained :=
    { table := tk, row := row, tag := x.epochOf tk
      slot := if bad then mirrored.getD (zeroBytes size) else x.data.bytes off size
      poisoned := bad && mirrored.isNone }
  s.updGleaner g (fun x => { x with retained := x.retained.filter (fun c => !(c.table == tk && x.isDead c)) ++ [copy] })

/-- One replacement of a row at the gleaner that orders it (R229): `scale`, `flags` and `elements` are the new content.
Retention, the stamp, the flags the gleaner keeps (R219), CHECK, and every copy that follows. -/
def State.replaceRow (s : State) (g p table row scale flags : Nat) (elements : List Byte) : Replaced :=
  match s.rowPlace g p table row with
  | none => .lost
  | some (t, home, off) =>
    let tk := tableKey p table
    let size := t.slot
    let bads := (s.gleaner g).partBad off size
    let s0 := if bads.isEmpty then (s, true) else s.repairRow g p table home row off
    if !s0.2 then .lost
    else
      let x := s0.1.gleaner g
      let retains := t.pinnable && x.mustRetain tk row
      if retains && decide (s0.1.reserveRoom g p t ≤ (x.liveCopies tk).length) then .waits
      else
        let moving := match x.mapOf tk row with
          | some d => d.state == .copying || d.state == .dual
          | none => false
        let s1 := if retains && moving then s0.1.cancelMove g tk row else s0.1
        let s2 := if retains then s1.retainCopy g p table row home off size else s1
        let y := s2.gleaner g
        let keeps := retains || ((slotFlags (y.data.bytes off 8)).testBit 1 && !(y.liveCopies tk).all (fun c => c.row != row))
        let hot := y.replicas.any (fun r => r.table == tk && r.row == row)
        let fl := (flags &&& 0xFF01) + 2 * keeps.toNat + 8 * hot.toNat
        let slot := makeSlot size (y.epochOf tk % 65536) scale fl elements
        let s3 := s2.updGleaner g (fun x =>
          ((x.putSlot off slot).updCache tk row slot).countLoad p home (fun l => { l with replacements := l.replacements + 1 }))
        let s4 := match (s3.gleaner g).mapOf tk row with
          | some d => if d.state = MoveState.copying ∨ d.state = MoveState.dual then s3.send (.moveCopy d.peer g tk row slot false) else s3
          | none => s3
        .applied (s4.followHome g p table row home slot)

end Sys2Proof.Machine
end

