-- ==== Sys2Proof/Machine/RowFetch.lean ====
section
/-!
DEFINITION. Reading rows at a gleaner: finding the row a lookup names (R223, R236, R266, R311, R312), the hot-row cache
(R275 to R277), and resolving a row that is late or unreadable (R299 to R308).
-/

namespace Sys2Proof.Machine

/-! ### Ending requests -/

/-- The partition whose plan a request's table belongs to; 8 where its context belongs to none. -/
def State.reqPart (s : State) (r : GReq) : Nat := (s.partOfCtx r.ctx).getD 8

/-- The END record of a request (R258); it counts the request as retired (R283). -/
def State.endRequest (s : State) (g : Nat) (r : GReq) (status records marks : Nat) : State :=
  let s1 := s.updGleaner g (fun x => { x with retired := x.retired + 1 })
  let s2 := if r.system ∨ r.kind = 1 ∨ 6 ≤ r.kind then s1 else s1.chargeGleaner r.ctx 1
  s2.send
    (.endRecord r.requester g { tag := r.tag, part := r.part, status := status, records := records, marks := marks })

/-- A fault of a gleaner against a request's context; SYSTEM traffic carries no context (R492). -/
def State.reportGleaner (s : State) (g : Nat) (r : GReq) (kind off detail : Nat) : State :=
  let f := s.gleanerFault g kind r.ctx r.tag off detail
  s.send (.fault (if r.system then { f with ctx := none, part := 0xFF } else { f with table := r.table }))

/-- GLN_STATUS and GLN_LAST_FAULT of a request that ends TAG_REFUSED, INVALID or OVERRUN (R282, R283). -/
def GleanerState.noteEnd (x : GleanerState) (r : GReq) (status : Nat) : GleanerState :=
  { x with
    status := x.status ||| BitVec.ofNat 6 (2 ^ (status - 1))
    lastFault := BitVec.ofNat 32 (r.ctx % 256 + status * 256 + r.table % 65536 * 65536) }

/-- A built-in request refused before its point (R260, R270, R282): `kind` is its fault, `off` the byte it names. -/
def State.refuseRequest (s : State) (g : Nat) (r : GReq) (status kind off detail : Nat) : State :=
  ((s.updGleaner g (fun x => x.noteEnd r status)).reportGleaner g r kind off detail).endRequest g r status 0 0

/-- A request that ends TAG_REFUSED, with the failing tag in the fault's DETAIL (R260). -/
def State.refuseTag (s : State) (g : Nat) (r : GReq) (off : Nat) : State :=
  s.refuseRequest g r 1 0x0202 off ((s.gleaner g).tag (off / 65536)).word
/-- A request that ends INVALID (R270). -/
def State.refuseInvalid (s : State) (g : Nat) (r : GReq) : State := s.refuseRequest g r 2 0x0203 0 r.kind
/-- An operation that ends LOST, with its DATA_LOST fault (R306, R311). -/
def State.loseRequest (s : State) (g : Nat) (r : GReq) (off : Nat) : State :=
  (s.reportGleaner g r 0x0207 off 0).endRequest g r 5 0 0

/-- The marks a result's flags leave in a record (R258). -/
def recordMarks (f : NumFlags) : Nat := 2 * f.range.toNat + 4 * f.nv.toNat + 8 * f.ovf.toNat + 16 * f.uf.toNat

/-- One byte counter of GLN_FLAGS advanced, wrapping at 256 (R283). -/
def bumpByte (w : Word32) (i : Nat) (b : Bool) : Word32 :=
  if b then BitVec.ofNat 32 (putBits w.toNat (8 * i) 8 (w.toNat / 2 ^ (8 * i) + 1)) else w

/-- GLN_FLAGS after one result (R283). -/
def GleanerState.countFlags (x : GleanerState) (f : NumFlags) : GleanerState :=
  { x with flags := bumpByte (bumpByte (bumpByte (bumpByte x.flags 0 f.nv) 1 f.ovf) 2 f.uf) 3 f.range }

/-! ### Unreadable units (R303, R305) -/

/-- A channel becomes SUSPECT, and its TRANSPARENT test starts unless a test runs (R540, R541). -/
def TrafficTest.suspects (x : TrafficTest) : TrafficTest :=
  if x.suspect then x else if x.phase = 1 then { x with suspect := true } else { x with suspect := true, phase := 1, mode := 1 }

/-- A corrected unit (R303); more than 100,000 in an hour make the channel SUSPECT (R541). -/
def GleanerState.countCorrected (x : GleanerState) : GleanerState :=
  let t := { x.test with recent := (x.test.recent.headD 0 + 1) :: x.test.recent.drop 1 }
  { x with corrected := x.corrected + 1, test := if 100000 < sumNat t.recent then t.suspects else t }

/-- What the finding of an uncorrectable unit leaves behind (R536, R542): when it was last found, and its DRAM row PENDING_REPAIR where it
had been found before and a write had replaced it since. -/
def TrafficTest.foundBad (x : TrafficTest) (unit : Nat) (readable : Bool) (row seconds : Nat) : TrafficTest :=
  let again := readable && x.found.any (fun f => f.1 == unit)
  { x with found := (unit, seconds) :: x.found.filter (fun f => f.1 != unit)
           hardRows := if again && !x.hardRows.contains row then x.hardRows ++ [row] else x.hardRows }

/-- The fault of an unreadable unit, against the request that met it; none of SYSTEM traffic, a patrol or an evacuation (R491, R492). -/
def State.reportUnit (s : State) (g : Nat) (r : Option GReq) (unit cause : Nat) : State :=
  match r with
  | some q =>
    let f := s.gleanerFault g 0x0307 q.ctx q.tag (64 * unit) cause
    s.send (.fault (if q.system then { f with ctx := none, part := 0xFF, action := 0 } else { f with action := 0 }))
  | none => s.send (.fault { s.gleanerFault g 0x0307 0 0 (64 * unit) cause with ctx := none, part := 0xFF, action := 0 })

/-- A read that meets an uncorrectable unit of a byte range (R305): the unit is marked, its bale's POISON is set, the read is
counted unless the unit carries the reserved syndrome (R314), and the fault is reported. `cause` is the DETAIL of R491. -/
def State.meetUncorrectable (s : State) (g : Nat) (r : Option GReq) (off len cause : Nat) : State :=
  let x := s.gleaner g
  let unit := ((unitsOf off len).find? (fun u => x.unitBad u != 0)).getD (off / 64)
  if x.unitBad unit = 2 then s
  else
    (s.updGleaner g (fun x =>
      { x with bad := Tbl.set x.badRest x.bad unit 1, uncorrectable := x.uncorrectable + 1
               test := x.test.foundBad unit (x.unitBad unit == 0) (Config.dramRow g unit) s.mgmt.service }.poison (unit / 1024))).reportUnit
      g r unit cause

/-- A row read that meets a CHECK mismatch is an uncorrectable error on the row (R220): it is counted and reported, and its bale's POISON set;
its units read as before (DEDUCED, log 70). -/
def State.meetMismatch (s : State) (g : Nat) (r : Option GReq) (off : Nat) : State :=
  (s.updGleaner g (fun x => { x with uncorrectable := x.uncorrectable + 1 }.poison (off / 65536))).reportUnit g r (off / 64) 0

/-- A row read at `off` of a channel could not be read: by its units, or the outcome of this access, else by its CHECK (R220, R305). -/
def State.meetUnreadable (s : State) (g : Nat) (r : Option GReq) (off len : Nat) (ecc : Ecc) : State :=
  if ecc = .uncorrectable ∨ (s.gleaner g).rangeBad off len then s.meetUncorrectable g r off len 0 else s.meetMismatch g r off

/-! ### Finding a row -/

/-- What a lookup names (R266): a row, the Q and P rows of a composed table, a direct index past ROWS, or nothing here. -/
inductive FoundRow where
  | row (f : RowFetch)
  | composed (q p : RowFetch)
  | outside (f : RowFetch)
  | absent

/-- The channel offset of a row that no bale of this channel holds. -/
def noAddr : Nat := 2 ^ 40

/-- A row read before anything has arrived. -/
def fetchOf (tk row bay : Nat) (src : RowSource) (addr cls : Nat) (slot : List Byte) (bad : Bool) : RowFetch :=
  { table := tk, row := row, bay := bay, source := src, addr := addr, cls := cls, slot := slot, bad := bad, arrived := false
    deadline := false, expired := false, stubble := 0, stubbleSlot := [], mirror := 0, got := none }

/-- A hot-row cache slot of a kind. -/
def GleanerState.cached (x : GleanerState) (tk row kind : Nat) : Option CacheSlot :=
  x.cache.find? (fun c => c.table == tk && c.row == row && c.kind == kind)

/-- The gleaner that orders a row that `g` knows of: the peer once `g` forwards it (R244); where `g` is mapped out and holds the row no longer,
the one that took it over, its stack's reserve or the mirror (R309 to R311). -/
def State.ordererOf (s : State) (g tk row : Nat) : Nat :=
  match (s.gleaner g).mapOf tk row with
  | some d => if d.state = MoveState.forward then d.peer else g
  | none =>
    if !(s.gleaner g).status.getLsbD 5 then g
    else if (s.rowPlace g (tk / 4096) (tk % 4096) row).isSome then g else (s.holderOf (tk / 4096) (tk % 4096) row).getD g

/-- The current, or pinned, version of a row at the gleaner that orders it (R236, R275). -/
def State.orderedRow (s : State) (g p table row cls : Nat) (pin : Option Nat) (here : Bool) : Option RowFetch :=
  let tk := tableKey p table
  let x := s.gleaner g
  match s.rowPlace g p table row with
  | none => none
  | some (t, home, off) =>
    let slot := x.slotAt off t.slot
    match pin.bind (fun e => if (slotFlags slot).testBit 1 then x.pinnedCopy tk row e else none) with
    | some c => some (fetchOf tk row home .retained off cls c.slot (c.poisoned || t.checkFails c.slot))
    | none =>
      let bad := x.rangeBad off t.slot || t.checkFails slot
      if !here then some (fetchOf tk row home .moved off cls slot bad)
      else match (x.cached tk row 0).filter (fun c => !t.checkFails c.slot) with
        | some c => some (fetchOf tk row home .cache off cls c.slot false)
        | none => some (fetchOf tk row home .home off cls slot bad)

/-- A row found at a gleaner (R266): in the displaced-row map's peer, at home, in a replica (unpinned), in a hot-row
replica, or, at its stubble bay, to which the copies send lookups of a lost or held loft home, its stubble row (R312, R574). -/
def State.findPlain (s : State) (g p table row cls : Nat) (pin : Option Nat) : Option RowFetch :=
  let tk := tableKey p table
  let o := s.ordererOf g tk row
  match s.orderedRow o p table row cls pin (o == g) with
  | some f => some f
  | none =>
    let x := s.gleaner g
    let replica := match s.bayHere g p table row 1 with
      | some (t, n, b) =>
        let off := s.baySlot b t (row - b.firstRow)
        some (fetchOf tk row n .replica off cls (x.slotAt off t.slot) (x.rangeBad off t.slot || t.checkFails (x.slotAt off t.slot)))
      | none =>
        match x.cached tk row 1 with
        | some c => some (fetchOf tk row 0 .replica noAddr cls c.slot
            (match (s.planOf p).bind (fun pl => pl.tableOf table) with
             | some t => t.checkFails c.slot
             | none => false))
        | none => none
    match (if pin.isNone then replica else none) with
    | some f => some f
    | none =>
      match s.bayHere g p table row 2, s.rowHome p table row with
      | some (t, n, b), some (_, _, _, hb) =>
        if hb.tier ≠ 1 then none
        else
          let off := s.baySlot b t (row - b.firstRow)
          some (fetchOf tk row n .home off cls (x.slotAt off t.stubSlot) (x.rangeBad off t.stubSlot || t.stubCheckFails (x.slotAt off t.stubSlot)))
      | _, _ => none

/-- The row a lookup names (R223, R228, R266). -/
def State.findRow (s : State) (g p table row cls : Nat) (pin : Option Nat) : FoundRow :=
  match (s.planOf p).bind (fun pl => (pl.tableOf table).map (fun t => (pl, t))) with
  | none => .absent
  | some (pl, t) =>
    if t.kind = 2 then
      let pRows := ((pl.tableOf t.remainder).map (fun u => u.rows)).getD 1
      match s.findPlain g p t.quotient (row / pRows) cls pin with
      | none => .absent
      | some q =>
        match (s.findPlain g p t.remainder (row % pRows) cls pin).or (s.findPlain g p t.remainder (row % pRows) cls none) with
        | some r => .composed q r
        | none => .absent
    else
      match s.findPlain g p table row cls pin with
      | some f => .row f
      | none =>
        if t.kind = 0 ∧ t.rows ≤ row then .outside (fetchOf (tableKey p table) row 0 .default noAddr cls (pl.defaultOf table) false)
        else .absent

/-- Whether a row read is at a stubble bay that stands in for a loft home (R312, R574). -/
def State.isStandIn (s : State) (f : RowFetch) : Bool :=
  match s.rowHome (f.table / 4096) (f.table % 4096) f.row with
  | some (_, _, n, b) => b.tier == 1 && f.source == .home && f.bay != n
  | none => false

/-- Whether the bales a row read names let it pass (R260). -/
def State.fetchAdmits (s : State) (g c : Nat) (f : RowFetch) : Bool :=
  f.addr == noAddr || s.rangeAdmits (s.ordererOf g f.table f.row) f.addr (max 1 f.slot.length) c false

/-! ### Issuing a row read: counters, cache and deadline -/

/-- The bytes of a table's hot-row cache share in a channel (R54, R275). -/
def State.cacheShare (s : State) (g p table : Nat) : Nat :=
  let (tier, code) := s.channelCode g
  match s.planOf p with
  | none => 0
  | some pl => 65536 * sumNat ((pl.gleanerPlacement.filter (fun e =>
      e.kind == 1 && e.tier == tier && e.channel == code && e.slot == table)).map (fun e => e.value))

/-- A home row enters its share, displacing the least recently used home slot (R275). -/
def State.fillCache (s : State) (g : Nat) (f : RowFetch) : State :=
  let x := s.gleaner g
  let mine := x.cache.filter (fun c => c.table == f.table)
  let room := s.cacheShare g (f.table / 4096) (f.table % 4096) / max 1 f.slot.length
  let homes := mine.filter (fun c => c.kind == 0)
  let fixed := mine.length - homes.length
  let slot : CacheSlot := { table := f.table, row := f.row, kind := 0, slot := f.slot, recency := x.cacheClock + 1, markers := 0, withdrawing := false, hits := 0 }
  let used := mine.length + (if mine.any (fun c => c.kind == 2) then 0 else 1)
  if used < room then s.updGleaner g (fun x => { x with cache := x.cache ++ [slot], cacheClock := x.cacheClock + 1 })
  else match argMin (fun c : CacheSlot => c.recency) homes with
    | some old =>
      if fixed + 1 ≤ room then
        s.updGleaner g (fun x => { x with cache := x.cache.erase old ++ [slot], cacheClock := x.cacheClock + 1 })
      else s
    | none => s

/-- The home bay of a table in whose move slots a channel's byte lies (R225, R244). -/
def State.moveBay (s : State) (g tk off : Nat) : Option Nat :=
  match s.planOf (tk / 4096) with
  | none => none
  | some pl =>
    match pl.tableOf (tk % 4096) with
    | none => none
    | some t => ((pl.baysOf (tk % 4096)).find? (fun e => e.2.role == 0 && s.channelAt e.2.tier e.2.channel (off / 65536) == some g &&
        decide (s.baySlot e.2 t e.2.rows ≤ off) && decide (off < s.baySlot e.2 t (e.2.rows + e.2.spare)))).map Prod.fst

/-- The bay whose traffic a row read at the gleaner that orders the row is (R242): the one whose move slot holds it, else its home bay. -/
def State.loadBay (s : State) (o : Nat) (f : RowFetch) : Nat :=
  if (s.gleaner o).moved.contains (f.table, f.row, f.addr) then (s.moveBay o f.table f.addr).getD f.bay else f.bay

/-- What a lookup's row read leaves in the counters as it is issued (R242, R251, R283): the traffic of the bay in which the row lies, and a
cache slot's use. -/
def State.countLookup (s : State) (g : Nat) (f : RowFetch) : State :=
  let p := f.table / 4096
  let o := s.ordererOf g f.table f.row
  let hit := f.source == .cache || (f.source == .replica && f.addr == noAddr) || f.source == .default
  let dram := f.source == .home || f.source == .moved || f.source == .retained
  let s1 := s.updGleaner g (fun x => { x with rows := x.rows + 1, cacheHits := if hit then x.cacheHits + 1 else x.cacheHits })
  let s2 := if f.source = .default ∨ f.source = .replica then s1
    else s1.updGleaner o (fun x => x.countLoad p (s.loadBay o f) (fun l => { l with
      lookups := l.lookups + 1
      reads := if dram then l.reads + 1 else l.reads
      rows := Tbl.modify 0 l.rows f.row (· + 1) }))
  if hit then s2.updGleaner g (fun x => { x with
    cacheClock := x.cacheClock + 1
    cache := x.cache.map (fun c => if c.table = f.table ∧ c.row = f.row then
      { c with recency := x.cacheClock + 1, hits := if c.kind = 1 then c.hits + 1 else c.hits } else c) }) else s2

/-- A home row comes back from DRAM for a lookup: at the second time within a load window it enters the cache, as DRAM holds it now (R275,
R276). A row that has moved away meanwhile, or cannot be read now, does not. -/
def State.countDramRow (s : State) (g : Nat) (f : RowFetch) : State :=
  let p := f.table / 4096
  let bay := s.loadBay g f
  let s1 := s.updGleaner g (fun x => x.countLoad p bay (fun l => { l with dramRows := Tbl.modify 0 l.dramRows f.row (· + 1) }))
  let x := s1.gleaner g
  let seen := Tbl.get 0 (Tbl.get bayLoadZero x.load (bayKey p bay)).dramRows f.row
  let stays := (s1.rowPlace g p (f.table % 4096) f.row).map (fun e => e.2.2) == some f.addr && s1.ordererOf g f.table f.row == g
  if seen = 2 ∧ stays ∧ (x.cached f.table f.row 0).isNone ∧ !x.rangeBad f.addr (max 1 f.slot.length) then
    s1.fillCache g { f with slot := x.slotAt f.addr f.slot.length } else s1

/-- The units that a row read takes from its channel (R253, R450): none where a cache or the default row serves. -/
def State.chargeFetch (s : State) (g c : Nat) (f : RowFetch) : State :=
  if f.addr = noAddr ∨ f.source = .cache ∨ f.source = .default then s else s.chargeUnits g c f.addr f.slot.length

/-- FALLBACK and DEADLINE of a class (R57): 0 STUBBLE, 1 DEFAULT, 2 NONE. -/
def State.fallbackOf (s : State) (p cls : Nat) : Nat × Nat :=
  match (s.planOf p).bind (fun pl => pl.classOf cls) with
  | some c => (c.fallback, c.deadline)
  | none => (2, 0)

/-- The stubble bay's gleaner of a loft row (R225). -/
def State.stubbleGleaner (s : State) (p table row : Nat) : Option Nat :=
  match s.rowHome p table row with
  | none => none
  | some (pl, t, n, _) =>
    match (pl.copiesOf table 2 n).find? (fun e => e.2.covers row) with
    | some (_, b) => s.bayGleaner b t (row - b.firstRow)
    | none => none

/-! ### Resolving a row read -/

/-- A row read is resolved; a stubble row that waits, or is on its way, gives its buffer place back (R299, R300). -/
def State.settle (s : State) (g : Nat) (f : RowFetch) (got : List Byte × Bool × Bool) : State × RowFetch :=
  (if f.stubble = 1 ∨ f.stubble = 2 then s.updGleaner g (fun x => { x with stubbleUsed := x.stubbleUsed - 1 }) else s,
   { f with got := some got })

/-- A row read resolved with DEGRADED (R300, R306): counted for its class where its deadline has passed (R302, R316), and in GLN_DEGRADED where
the row could not be read (`unread`) or is lost (R314). -/
def State.settleDegraded (s : State) (g : Nat) (f : RowFetch) (unread : Bool) (got : List Byte × Bool) : State × RowFetch :=
  let s1 := if f.deadline && f.expired then
      { s with loft := { s.loft with classDegraded := Tbl.modify 0 s.loft.classDegraded (f.cls % 8) (· + 1) } } else s
  (if unread then s1.updGleaner g (fun x => { x with degraded := x.degraded + 1 }) else s1).settle g f (got.1, got.2, true)

/-- The default row of a row read's table. -/
def State.defaultFor (s : State) (f : RowFetch) : List Byte :=
  match s.planOf (f.table / 4096) with
  | some pl => pl.defaultOf (f.table % 4096)
  | none => []

/-- The stubble read of a row, to the gleaner of its stubble bay; it takes a place in the stubble buffer (R299). -/
def State.sendStubble (s : State) (g sg : Nat) (r : GReq) (f : RowFetch) : State :=
  (s.updGleaner g (fun x => { x with stubbleUsed := x.stubbleUsed + 1 })).send (.stubbleRead sg g f.table f.row r.ctx f.cls)

/-- A row read that misses the cache takes its request's deadline, and the stubble read is sent beside it where the class asks for one and the
stubble buffer has room (R297, R299). Where the deadline has passed, it falls back at once, or on its stubble row (R298, R300). -/
def State.armFetch (s : State) (g : Nat) (r : GReq) (f : RowFetch) : State × RowFetch :=
  let (fallback, deadline) := s.fallbackOf (f.table / 4096) f.cls
  if !(isLoft g && f.source == .home && deadline != 0 && decide (fallback < 2)) || s.isStandIn f then (s, f)
  else
    let f1 := { f with deadline := true }
    match (if fallback = 0 ∧ (s.gleaner g).stubbleUsed < 512 then s.stubbleGleaner (f.table / 4096) (f.table % 4096) f.row else none) with
    | some sg => (s.sendStubble g sg r f, { f1 with stubble := 1 })
    | none => if f.expired then s.settleDegraded g f1 false (s.defaultFor f, false) else (s, f1)

/-- A row read as it is issued, with its counters, charges and deadline (R242, R297, R450). -/
def State.issueFetch (s : State) (g : Nat) (r : GReq) (f : RowFetch) : State × RowFetch :=
  (if r.system then s.countLookup g f else (s.countLookup g f).chargeFetch g r.ctx f).armFetch g r f

/-- The gleaner whose channel a row read reads: the row's home for a replica read there, else the one that orders the row (R244, R277). -/
def State.fetchGleaner (s : State) (g : Nat) (f : RowFetch) : Nat :=
  if f.source = .remote then
    match s.holderOf (f.table / 4096) (f.table % 4096) f.row with
    | some h => s.ordererOf h f.table f.row
    | none => g
  else s.ordererOf g f.table f.row

/-- A row that its home and mirror cannot give (R306): its stubble row where there is one and the buffer has room, else the default row. -/
def State.fallStubble (s : State) (g : Nat) (r : GReq) (f : RowFetch) : State × RowFetch :=
  match f.stubble with
  | 1 => (s, f)
  | 2 => s.settleDegraded g f true (f.stubbleSlot, true)
  | 3 => s.settleDegraded g f true (s.defaultFor f, false)
  | _ =>
    let asks := (f.source == .home || f.source == .remote) && isLoft (s.fetchGleaner g f) && decide ((s.gleaner g).stubbleUsed < 512)
    match (if asks then s.stubbleGleaner (f.table / 4096) (f.table % 4096) f.row else none) with
    | some sg => (s.sendStubble g sg r f, { f with stubble := 1 })
    | none => s.settleDegraded g f true (s.defaultFor f, false)

/-- A row that cannot be read where it is ordered (R306): its mirror is read where it has one, else it falls back. -/
def State.fallMirror (s : State) (g : Nat) (r : GReq) (f : RowFetch) : State × RowFetch :=
  match s.mirrorOf (f.table / 4096) (f.table % 4096) f.bay f.row with
  | some (mg, _) => (s.send (.mirrorRead mg g f.table f.row), { f with arrived := true, bad := true, mirror := 1 })
  | none => s.fallStubble g r { f with arrived := true, bad := true, mirror := 2 }

/-- A replica that cannot be read (R277, R306): a cache slot is dropped and the reeve told, and the row is read at its home, by a request with
FORWARDED set. A row whose home is lost takes the default row. -/
def State.fallHome (s : State) (g : Nat) (f : RowFetch) : State × RowFetch :=
  let p := f.table / 4096
  let table := f.table % 4096
  let s1 := if f.addr ≠ noAddr then s
    else ((s.updGleaner g (fun x => { x with
        cache := x.cache.filter (fun c => !(c.table == f.table && c.row == f.row && c.kind == 1))
        status := x.status ||| 16 })).send (.replaceReplica g f.table f.row)).send
      (.fault { faultOf 0x0306 (gleanerUnit g).1 (gleanerUnit g).2 with detail := 1, table := table })
  match s1.holderOf p table f.row, s1.rowHome p table f.row with
  | some hg, some (_, _, n, _) =>
    (s1.send (.mirrorRead hg g f.table f.row), { f with source := .remote, bay := n, bad := false, arrived := false })
  | _, _ => s1.settleDegraded g { f with arrived := true } true (s1.defaultFor f, false)

/-- A row's bytes come back after it was resolved without them (R300): they are discarded and counted, and their errors with them (R303, R305). -/
def State.fetchLate (s : State) (g : Nat) (r : GReq) (f : RowFetch) (ecc : Ecc) : State :=
  let o := s.fetchGleaner g f
  let s1 := if f.bad || ecc == .uncorrectable then s.meetUnreadable o (some r) f.addr (max 1 f.slot.length) ecc
    else if ecc = .corrected then s.updGleaner o (fun x => x.countCorrected) else s
  { s1 with loft := { s1.loft with classLate := Tbl.modify 0 s1.loft.classLate (f.cls % 8) (· + 1) } }

/-- The home's row of a read that a replica could not serve comes back (R277, R306). -/
def State.remoteArrives (s : State) (g : Nat) (r : GReq) (f : RowFetch) (ecc : Ecc) : State × RowFetch :=
  let h := s.fetchGleaner g f
  let f1 := { f with arrived := true }
  match s.orderedRow h (f.table / 4096) (f.table % 4096) f.row f.cls none false with
  | none => s.settleDegraded g f1 true (s.defaultFor f, false)
  | some e =>
    if e.bad ∨ ecc = .uncorrectable then
      (s.meetUnreadable h (some r) e.addr (max 1 e.slot.length) ecc).fallMirror g r { f1 with addr := e.addr, slot := e.slot }
    else (if ecc = .corrected then s.updGleaner h (fun x => x.countCorrected) else s).settle g f1 (e.slot, false, false)

/-- The row's bytes come back from memory or cache (R269, R300, R306). -/
def State.fetchArrives (s : State) (g : Nat) (r : GReq) (f : RowFetch) (ecc : Ecc) : State × RowFetch :=
  let f1 := { f with arrived := true }
  if f.got.isSome then (if f.deadline then s.fetchLate g r f ecc else s, f1)
  else if f.source = .remote then s.remoteArrives g r f ecc
  else
    let inCache := f.source == .cache || f.source == .default || (f.source == .replica && f.addr == noAddr)
    let s1 := if ecc = .corrected then s.updGleaner (s.fetchGleaner g f) (fun x =>
        if inCache then { x with status := x.status ||| 8 } else x.countCorrected) else s
    let bad := f.bad || ecc == .uncorrectable
    if !bad then
      if s1.isStandIn f then s1.settleDegraded g f1 true (f.slot, true)
      else (if f.source = .home then s1.countDramRow g f else s1).settle g f1 (f.slot, false, f.source == .default)
    else
      match f.source with
      | .retained => s1.settleDegraded g f1 true (s1.defaultFor f, false)
      | .replica =>
        (if f.addr = noAddr then s1 else s1.meetUnreadable g (some r) f.addr (max 1 f.slot.length) ecc).fallHome g f
      | .default =>
        -- the recovery engine rewrites the slot from the plan and the read then goes on (R277)
        ((s1.updGleaner g (fun x => { x with status := x.status ||| 16 })).send
          (.fault { faultOf 0x0306 (gleanerUnit g).1 (gleanerUnit g).2 with detail := 2 })).settle g f1 (f.slot, false, true)
      | .cache =>
        -- a home slot is dropped and the read goes to DRAM (R277), with the request's deadline
        let s2 := (s1.updGleaner g (fun x => { x with
            cache := x.cache.filter (fun c => !(c.table == f.table && c.row == f.row && c.kind == 0)), status := x.status ||| 16 })).send
          (.fault { faultOf 0x0306 (gleanerUnit g).1 (gleanerUnit g).2 with detail := 0, table := f.table % 4096 })
        let x := s2.gleaner g
        let p := f.table / 4096
        let s3 := (if r.system then s2 else s2.chargeUnits g r.ctx f.addr f.slot.length).updGleaner g (fun x =>
          x.countLoad p (s2.loadBay g f) (fun l => { l with reads := l.reads + 1 }))
        s3.armFetch g r { f with source := .home, slot := x.slotAt f.addr f.slot.length, bad := x.rangeBad f.addr (max 1 f.slot.length) ||
          (match (s2.planOf p).bind (fun pl => pl.tableOf (f.table % 4096)) with
           | some t => t.checkFails (x.slotAt f.addr f.slot.length)
           | none => false) }
      | .home | .moved | .composed | .remote =>
        let s2 := s1.meetUnreadable (s1.ordererOf g f.table f.row) (some r) f.addr (max 1 f.slot.length) ecc
        if s1.isStandIn f then s2.settleDegraded g f1 true (s2.defaultFor f, false)
        else (if f.source = .home then s2.countDramRow g f else s2).fallMirror g r f

/-- The deadline of a row read's request (R300): a read that has not come back falls back on its stubble row or the default row, or waits for
the stubble row. -/
def State.fetchExpires (s : State) (g : Nat) (f : RowFetch) : State × RowFetch :=
  let f1 := { f with expired := true }
  if f.got.isSome then (s, f)
  else if !f.deadline || f.arrived then (s, f1)
  else
    match f.stubble with
    | 1 => (s, f1)
    | 2 => s.settleDegraded g f1 false (f.stubbleSlot, true)
    | _ => s.settleDegraded g f1 false (s.defaultFor f, false)

/-- A stubble read of a row comes back, `none` where it was refused or failed (R299, R300, R306). -/
def State.fetchStubble (s : State) (g : Nat) (f : RowFetch) (slot : Option (List Byte)) : State × RowFetch :=
  if f.stubble ≠ 1 ∨ f.got.isSome then (s, f)
  else
    match slot with
    | some b =>
      let f1 := { f with stubble := 2, stubbleSlot := b }
      if f.arrived || f.expired then s.settleDegraded g f1 f.arrived (b, true) else (s, f1)
    | none =>
      let s1 := s.updGleaner g (fun x => { x with stubbleUsed := x.stubbleUsed - 1 })
      let f1 := { f with stubble := 3 }
      if f.arrived then s1.settleDegraded g f1 true (s.defaultFor f, false) else (s1, f1)

/-- A mirror's row comes back, `none` where it is unreadable too (R306, R308): what could not be read is rewritten from it, unit by unit, unless
a newer write has replaced it. -/
def State.fetchMirror (s : State) (g : Nat) (r : GReq) (f : RowFetch) (slot : Option (List Byte)) : State × RowFetch :=
  if f.mirror ≠ 1 ∨ f.got.isSome then (s, f)
  else
    match slot with
    | some b =>
      let failed := match (s.planOf (f.table / 4096)).bind (fun pl => pl.tableOf (f.table % 4096)) with
        | some t => t.checkFails f.slot
        | none => false
      (s.mendRow (s.fetchGleaner g f) f.addr (if failed then some f.slot else none) b).settle g { f with mirror := 0 } (b, false, false)
    | none => s.fallStubble g r { f with mirror := 2 }

/-- What a resolved row read gives its reader (R219): a VACANT row is served with the default row and no further mark. The
components say whether the bytes are a stubble row and whether DEGRADED is raised. -/
def State.fetchGives (s : State) (f : RowFetch) (got : List Byte × Bool × Bool) : List Byte × Bool × Bool :=
  if slotVacant got.1 then (s.defaultFor f, false, got.2.2) else got

/-! ### Raw reads by context (R256, R260, R307) -/

/-- A raw read of a context at a gleaner (R260, R307): status and bytes; an unreadable unit is served from its mirror, or the read
is LOST. -/
def State.rawFetch (s : State) (g c tag off len : Nat) : State × Nat × List Byte :=
  let s0 := s.retireRaw g len
  if !s.rangeAdmits g off len c false then (s0.noteRefusal g c tag off, 1, [])
  else if !(s.gleaner g).rangeBad off len then (s0.chargeRaw g c off len, 0, (s.gleaner g).data.bytes off len)
  else
    let q : GReq := { kind := 0, ctx := c, cls := 0, pinned := false, system := false, forwarded := false, marker := false, table := 0
                      slot := 0, part := 0, tag := tag, epoch := 0, target := off, requester := 0, stride := 2, returnAddr := 0, payload := [] }
    match (s0.meetUncorrectable g (some q) off len 0).repairUnits g off len with
    | (s1, true) => (s1.chargeRaw g c off len, 0, (s1.gleaner g).data.bytes off len)
    | (s1, false) => (s1.send (.fault (s1.gleanerFault g 0x0207 c tag off 0)), 5, [])

/-- Where the mirror of bytes on a lost channel can be read (R312). -/
def State.lostMirror (s : State) (c addr n : Nat) : Option (Nat × Nat) :=
  (s.segPhys c (addr / 2 ^ 48) (addr % 2 ^ 48)).bind (fun a =>
    let (tier, code, off) := physParts a
    (s.mirrorPlace tier code off).filter (fun m => !(s.gleaner m.1).rangeBad m.2 n))

/-- Raw reads of a run of bytes at a context address: the worst status and the bytes (R307); a byte on a lost channel is LOST (R311, R312), unless
its placement has a mirror. -/
def State.ctxFetch (s : State) (c tag addr n : Nat) : State × Nat × List Byte :=
  (pieces (n / 65536 + 2) addr n).foldl (fun (acc : State × Nat × List Byte) q =>
    match acc.1.ctxAt c q.1 with
    | none =>
      match acc.1.lostMirror c q.1 q.2 with
      | some (g, off) => ((acc.1.retireRaw g q.2).chargeRaw g c off q.2, acc.2.1, acc.2.2 ++ (acc.1.gleaner g).data.bytes off q.2)
      | none => (acc.1.send (.fault { faultOf 0x0207 3 0 with ctx := some c, part := (acc.1.partOfCtx c).getD 0xFF, tag := tag }),
        max acc.2.1 5, acc.2.2 ++ zeroBytes q.2)
    | some (g, off) =>
      let r := acc.1.rawFetch g c tag off q.2
      (r.1, max acc.2.1 r.2.1, acc.2.2 ++ padTo q.2 r.2.2)) (s, 0, [])

end Sys2Proof.Machine
end

