-- ==== Sys2Proof/Machine/Gleaner.lean ====
section
/-!
DEFINITION. A gleaner's built-in requests (spec 09): admission, raw and row reads and writes, memory-side adds and
compare-and-swaps, their completion at the channel, context tags and aborts.
-/

namespace Sys2Proof.Machine

/-! ### Row operations at one point (R229, R272, R273) -/

/-- How a read-modify-write of a row ends: applied, with the old element bytes and the flags each result raised; waiting for reserve
space; its row lost; or named wrongly. -/
inductive RowOpEnd where
  | done (s : State) (old : List Byte) (flags : List NumFlags)
  | waits
  | lost
  | invalid

/-- The units that a replacement writes, at its home and at each mirror (R232, R450). -/
def State.chargeReplaced (s : State) (g p table row c : Nat) : State :=
  match s.rowPlace g p table row, s.planOf p with
  | some (t, home, off), some pl =>
    (pl.copiesOf table 3 home).foldl (fun s e => match s.bayGleaner e.2 t (row - e.2.firstRow) with
      | some mg => s.chargeUnits mg c (s.baySlot e.2 t (row - e.2.firstRow)) t.slot
      | none => s) (s.chargeUnits g c off t.slot)
  | _, _ => s

/-- A row added to enters the add buffer, which keeps the last 64 (R274). -/
def GleanerState.bufferAdd (x : GleanerState) (e : AddRow) : GleanerState :=
  { x with addBuffer := (e :: x.addBuffer.filter (fun b => !(b.table == e.table && b.row == e.row))).take 64 }

/-- Whether the add buffer holds a row (R274). -/
def GleanerState.adding (x : GleanerState) (tk row : Nat) : Bool := x.addBuffer.any (fun b => b.table == tk && b.row == row)

/-- A row as a read-modify-write reads it from DRAM (R305, R306): false where it cannot be read and has no readable mirror. -/
def State.readForWrite (s : State) (o p table row home off : Nat) (t : TableDesc) (ecc : Ecc) (req : Option GReq) : State × Bool :=
  let fails := (s.gleaner o).rangeBad off t.slot || t.checkFails ((s.gleaner o).slotAt off t.slot)
  if fails ∨ ecc = .uncorrectable then (s.meetUnreadable o req off t.slot ecc).repairRow o p table home row off
  else (if ecc = .corrected then s.updGleaner o (fun x => x.countCorrected) else s, true)

/-- A read-modify-write of the elements of a row at the gleaner that orders it (R272, R273, R306): `f` answers the new
elements, none where nothing is written. An unreadable row is rewritten from its mirror first, or is lost; an add to a row of the add buffer reads it
there (`adds`; R274). -/
def State.modifyRow (s : State) (g p table row : Nat) (ecc : Ecc) (adds : Bool) (req : Option GReq)
    (f : TableDesc → List Byte → Option (Option (List Byte) × List NumFlags)) : RowOpEnd :=
  let tk := tableKey p table
  let o := s.ordererOf g tk row
  match s.rowPlace o p table row with
  | none => .invalid
  | some (t, home, off) =>
    match f t (slotElements ((s.gleaner o).slotAt off t.slot) t.elementBytes) with
    | none => .invalid
    | some _ =>
      let s2 := if adds && (s.gleaner o).adding tk row then (s, true) else s.readForWrite o p table row home off t ecc req
      if !s2.2 then .lost
      else
        let slot := (s2.1.gleaner o).slotAt off t.slot
        let old := slotElements slot t.elementBytes
        match f t old with
        | none => .invalid
        | some (none, fl) => .done (s2.1.updGleaner o (fun x => { x with adds := x.adds + 1 })) old fl
        | some (some new, fl) =>
          match s2.1.replaceRow o p table row (slotScale slot) (slotFlags slot) new with
          | .applied s3 =>
            let s4 := match req with
              | some r => if r.system then s3 else (s3.chargeUnits o r.ctx off t.slot).chargeReplaced o p table row r.ctx
              | none => s3
            .done (s4.updGleaner o (fun x =>
              let y := fl.foldl (fun x f => x.countFlags f) { x with adds := x.adds + 1 }
              if adds then y.bufferAdd { table := tk, row := row, off := off, size := t.slot } else y)) old fl
          | .waits => .waits
          | .lost => .lost

/-- One element of a memory-side add by row format (R272): the new element bits and its flags. -/
def addElement (rowFmt : Nat) (old : Nat) (addend : Int) (addendBits : Nat) : Nat × NumFlags :=
  match rowFmt with
  | 2 =>
    let r := addValue .rne (decodeFloat .bf16 layoutBF16 old) (valueB32 addendBits)
    let e := encodeFloat .bf16 layoutBF16 .rne 0 r.1
    (e.1, if r.2 then flagNV else e.2)
  | 4 =>
    let r := addValue .rne (valueB32 old) (valueB32 addendBits)
    let e := encodeFloat .b32 layoutB32 .rne 0 r.1
    (e.1, if r.2 then flagNV else e.2)
  | 5 =>
    let i := signedOf 32 old + addend
    if 2 ^ 31 - 1 < i then (2 ^ 31 - 1, flagOF) else if i < -(2 ^ 31 - 1) then (2 ^ 31 + 1, flagOF) else (unsignedOf 32 i, flagNone)
  | _ =>
    let i := signedOf 64 old + addend
    if 2 ^ 63 - 1 < i then (2 ^ 63 - 1, flagOF) else if i < -(2 ^ 63 - 1) then (2 ^ 63 + 1, flagOF) else (unsignedOf 64 i, flagNone)

/-- Whether addends of a format code may be added to rows of a ROW_FORMAT (R272): codes 0 binary32, 2 INT32, 11 INT64. -/
def addFits (rowFmt fmt : Nat) : Bool :=
  match rowFmt with
  | 2 | 4 => fmt == 0
  | 5 => fmt == 2
  | 6 => fmt == 2 || fmt == 11
  | _ => false

/-- The bytes of an addend. -/
def addendBytes (fmt : Nat) : Nat := if fmt = 11 then 8 else 4

/-- A memory-side add of addends, given as bit patterns, to the elements of a row from `first` on (R272); none where the
format or the range does not fit. -/
def addToElements (fmt first : Nat) (addends : List Nat) (t : TableDesc) (old : List Byte) :
    Option (Option (List Byte) × List NumFlags) :=
  if !addFits t.rowFormat fmt || addends.isEmpty || decide (t.elements < first + addends.length) then none
  else
    let w := rowWidth t.rowFormat / 8
    let cells := addends.zipIdx.map (fun e =>
      addElement t.rowFormat (fieldLE old (w * (first + e.2)) w) (signedOf (8 * addendBytes fmt) e.1) e.1)
    some (some (old.take (w * first) ++ cells.flatMap (fun c => natLE w c.1) ++ old.drop (w * (first + addends.length))),
      cells.map Prod.snd)

/-- A compare-and-swap of 8 bytes of a row (R273); none where the offset is not 8-aligned within the elements. -/
def casElements (off expected new : Nat) (_t : TableDesc) (old : List Byte) : Option (Option (List Byte) × List NumFlags) :=
  if off % 8 ≠ 0 ∨ old.length < off + 8 then none
  else if fieldLE old off 8 = expected then some (some (old.take off ++ natLE 8 new ++ old.drop (off + 8)), [])
  else some (none, [])

/-! ### Serving built-in requests (R256) -/

/-- A built-in operation that has taken its point waits for the channel (R280). -/
def State.pushOp (s : State) (g : Nat) (o : ChannelOp) : State := s.updGleaner g (fun x => { x with ops := x.ops ++ [o] })

/-- An operation without data to return. -/
def plainOp (r : GReq) (status marks : Nat) : ChannelOp :=
  { req := r, fetch := none, data := [], bad := false, mirror := 0, status := status, marks := marks }

/-- RAW_READ at its point (R256, R260). -/
def State.serveRawRead (s : State) (g : Nat) (r : GReq) (checked : Bool) : State :=
  let len := leNat (r.payload.take 4)
  if r.target % 64 ≠ 0 ∨ r.payload.length ≠ 4 ∨ len % 64 ≠ 0 ∨ len = 0 ∨ 16384 < len ∨ channelBytes (isLoft g) < r.target + len then
    s.refuseInvalid g r
  else if !r.system && !checked && !s.rangeAdmits g r.target len r.ctx false then s.refuseTag g r r.target
  else
    (if r.system then s else s.chargeUnits g r.ctx r.target len).pushOp g { plainOp r 0 0 with
      data := (s.gleaner g).data.bytes r.target len, bad := (s.gleaner g).rangeBad r.target len }

/-- RAW_WRITE at its points (R231, R256, R305). -/
def State.serveRawWrite (s : State) (g : Nat) (r : GReq) (checked : Bool) : State :=
  let len := r.payload.length
  if r.target % 64 ≠ 0 ∨ len % 64 ≠ 0 ∨ len = 0 ∨ 16384 < len ∨ channelBytes (isLoft g) < r.target + len then s.refuseInvalid g r
  else if !r.system && !checked && !s.rangeAdmits g r.target len r.ctx true then s.refuseTag g r r.target
  else ((s.putRaw g r.ctx r.tag r.target r.payload r.system).noteFrame g r.target len).pushOp g (plainOp r 0 0)

/-- ROW_READ at its point (R223, R256, R266). -/
def State.serveRowRead (s : State) (g : Nat) (r : GReq) (checked : Bool) : State :=
  let p := s.reqPart r
  let push (f : RowFetch) : State :=
    if !r.system && !checked && !s.fetchAdmits g r.ctx f then s.refuseTag g r f.addr
    else
      let i := s.issueFetch g r f
      i.1.pushOp g { plainOp r 0 0 with fetch := some i.2 }
  match ((s.planOf p).bind (fun pl => pl.tableOf r.table)).map (fun t => t.kind) with
  | some 3 => s.refuseInvalid g r
  | _ =>
    match s.findRow g p r.table r.target r.cls (if r.pinned then some r.epoch else none) with
    | .row f => push f
    | .outside f => push f
    | .composed _ _ | .absent => s.refuseInvalid g r

/-- A replacement that must wait for reserve space waits behind earlier ones, counted once in its bay's load record (R237, R242). -/
def State.waitReplace (s : State) (g p home : Nat) (r : GReq) (again : Bool) : State :=
  s.updGleaner g (fun x =>
    let y := { x with waiting := x.waiting ++ [r] }
    if again then y else y.countLoad p home (fun l => { l with waits := l.waits + 1 }))

/-- Whether a waiting replacement is of a row (R237). -/
def State.waitsFor (s : State) (p table row : Nat) (q : GReq) : Bool := s.reqPart q == p && q.table == table && q.target == row
/-- Whether an earlier replacement of the same row waits (R237). -/
def State.rowWaits (s : State) (g p table row : Nat) : Bool := (s.gleaner g).waiting.any (s.waitsFor p table row)

/-- A row write to a lost loft row, applied to its stubble row (R312). -/
def State.writeStubble (s : State) (g p table row : Nat) (slot : List Byte) : Option State :=
  match s.rowHome p table row, s.bayHere g p table row 2 with
  | some (pl, t, _, _), some (_, _, sb) =>
    if !s.homeLost p table row then none
    else
      let e := (s.gleaner g).epochOf (tableKey p table) % 65536
      let full := makeSlot t.slot e (slotScale slot) (slotFlags slot) (slotElements slot t.elementBytes)
      some (s.updGleaner g (fun x => x.putSlot (s.baySlot sb t (row - sb.firstRow)) (stubbleOf pl t full)))
  | _, _ => none

/-- ROW_WRITE at its point (R220, R229, R260). -/
def State.serveRowWrite (s : State) (g : Nat) (r : GReq) (checked again : Bool) : State :=
  let p := s.reqPart r
  let bad (t : TableDesc) : Bool := r.payload.length != t.slot && r.payload.length != 8 + t.elementBytes
  let check := slotCheck r.payload
  let computed (t : TableDesc) : Nat := rowCheck (slotScale r.payload) (slotElements r.payload t.elementBytes)
  let discard (t : TableDesc) : State :=
    ((s.updGleaner g (fun x => x.noteEnd r 2)).reportGleaner g r 0x0205 0 (check + 65536 * computed t)).endRequest g r 2 0 0
  match s.rowPlace g p r.table r.target with
  | some (t, home, off) =>
    if bad t then s.refuseInvalid g r
    else if !r.system && !checked && !s.rangeAdmits g off t.slot r.ctx true then s.refuseTag g r off
    else if check ≠ 0 ∧ check ≠ computed t then discard t
    else if s.rowWaits g p r.table r.target then s.waitReplace g p home r again
    else
      match s.replaceRow g p r.table r.target (slotScale r.payload) (slotFlags r.payload) (slotElements r.payload t.elementBytes) with
      | .applied s1 => (if r.system then s1 else s1.chargeReplaced g p r.table r.target r.ctx).pushOp g (plainOp r 0 0)
      | .waits => s.waitReplace g p home r again
      | .lost => s.loseRequest g r off
  | none =>
    match (s.planOf p).bind (fun pl => pl.tableOf r.table), s.bayHere g p r.table r.target 2 with
    | some t, some (_, _, sb) =>
      let off := s.baySlot sb t (r.target - sb.firstRow)
      if bad t then s.refuseInvalid g r
      else if !r.system && !checked && !s.rangeAdmits g off t.stubSlot r.ctx true then s.refuseTag g r off
      else if check ≠ 0 ∧ check ≠ computed t then discard t
      else match s.writeStubble g p r.table r.target r.payload with
        | some s1 => s1.pushOp g (plainOp r 0 0)
        | none => s.refuseInvalid g r
    | some _, none => if s.homeLost p r.table r.target then s.loseRequest g r 0 else s.refuseInvalid g r
    | none, _ => s.refuseInvalid g r

/-- A ROW_ADD or ROW_CAS at its point: `f` is the row operation and `old` what is returned of the old value. To a row whose home is lost it
ends LOST (R311, R312). -/
def State.serveModify (s : State) (g : Nat) (r : GReq) (ecc : Ecc) (checked again adds : Bool)
    (f : TableDesc → List Byte → Option (Option (List Byte) × List NumFlags)) (old : List Byte → List Byte) : State :=
  let p := s.reqPart r
  match s.rowPlace g p r.table r.target with
  | none => if s.homeLost p r.table r.target then s.loseRequest g r 0 else s.refuseInvalid g r
  | some (t, home, off) =>
    if !r.system && !checked && !s.rangeAdmits g off t.slot r.ctx true then s.refuseTag g r off
    else if s.rowWaits g p r.table r.target then s.waitReplace g p home r again
    else
      match s.modifyRow g p r.table r.target ecc adds (some r) f with
      | .done s1 bytes fl => s1.pushOp g { plainOp r 0 (recordMarks (joinFlags fl)) with data := old bytes }
      | .waits => s.waitReplace g p home r again
      | .lost => s.loseRequest g r off
      | .invalid => s.refuseInvalid g r

/-- ROW_ADD (R272): the 8-byte header and its addends. -/
def State.serveRowAdd (s : State) (g : Nat) (r : GReq) (ecc : Ecc) (checked again : Bool) : State :=
  let h := leNat (r.payload.take 8)
  let fmt := h % 256
  let n := bitsOf h 47 32
  let w := addendBytes fmt
  if r.payload.length ≠ 8 + n * w ∨ n = 0 ∨ 4096 < n then s.refuseInvalid g r
  else s.serveModify g r ecc checked again true
    (addToElements fmt (bitsOf h 31 16) ((List.range n).map (fun i => fieldLE r.payload (8 + w * i) w))) (fun _ => [])

/-- ROW_CAS (R273): byte offset, expected value, new value. -/
def State.serveRowCas (s : State) (g : Nat) (r : GReq) (ecc : Ecc) (checked again : Bool) : State :=
  let off := fieldLE r.payload 0 8
  if r.payload.length ≠ 24 then s.refuseInvalid g r
  else s.serveModify g r ecc checked again false (casElements off (fieldLE r.payload 8 8) (fieldLE r.payload 16 8)) (fun b => (b.drop off).take 8)

/-- A built-in request taken by its KIND; a reserved kind ends INVALID (R256). `checked` says that its tags admitted it when it arrived (R261),
`again` that its wait for reserve space has been counted. -/
def State.serve (s : State) (g : Nat) (r : GReq) (ecc : Ecc) (checked again : Bool) : State :=
  match r.kind with
  | 0 => s.serveRawRead g r checked
  | 1 => s.serveRawWrite g r checked
  | 2 => s.serveRowRead g r checked
  | 3 => s.serveRowWrite g r checked again
  | 4 => s.serveRowAdd g r ecc checked again
  | 5 => s.serveRowCas g r ecc checked again
  | _ => s.refuseInvalid g r

/-! ### Admission (R237, R246, R254, R260, R261, R278, R294) -/

/-- The kind that marks a program's replacement among those that wait for reserve space: 16 and up names its gleaner and thread. -/
def progKind (g t : Nat) : Nat := 16 + 8 * g + t

/-- The bytes of its channel that a built-in request, or a program's waiting replacement, names, and whether it writes them (R260); none where it
names none here. -/
def State.namedRange (s : State) (g : Nat) (r : GReq) : Option (Nat × Nat × Bool) :=
  let p := s.reqPart r
  let coming : Option (Nat × Nat) := match (s.gleaner g).mapOf (tableKey p r.table) r.target, (s.planOf p).bind (fun pl => pl.tableOf r.table) with
    | some d, some t => if d.state = .taking then some (d.offset, t.slot) else none
    | _, _ => none
  let place : Option (Nat × Nat) := coming.or (((s.rowPlace g p r.table r.target).map (fun e => (e.2.2, e.1.slot))).or
    ((s.bayHere g p r.table r.target 2).map (fun e => (s.baySlot e.2.2 e.1 (r.target - e.2.2.firstRow), e.1.stubSlot))))
  match r.kind with
  | 0 => some (r.target, leNat (r.payload.take 4), false)
  | 1 => some (r.target, r.payload.length, true)
  | 2 =>
    match coming with
    | some e => some (e.1, e.2, false)
    | none =>
      match s.findRow g p r.table r.target r.cls (if r.pinned then some r.epoch else none) with
      | .row f => if f.addr = noAddr then none else some (f.addr, f.slot.length, false)
      | _ => none
  | k => if k ≤ 5 ∨ 16 ≤ k then place.map (fun e => (e.1, e.2, true)) else none

/-- The byte whose bale's tag refuses a request (R260). -/
def State.tagMisses (s : State) (g : Nat) (r : GReq) : Option Nat :=
  match s.namedRange g r with
  | some (off, len, write) => if r.system || len == 0 || s.rangeAdmits g off len r.ctx write then none else some off
  | none => none

/-- Where a request goes on arrival. -/
inductive Admission where
  | serve
  | forward (gleaner : Nat) (r : GReq)
  | hold
  | holdBale
  | wait

/-- Whether the gleaner does not accept a row write or add now (R237): 256 replacements wait there, one of them of its table, or it would be
another. -/
def State.stopsWrites (s : State) (g : Nat) (r : GReq) : Bool :=
  let p := s.reqPart r
  let ws := (s.gleaner g).waiting
  decide (3 ≤ r.kind) && decide (r.kind ≤ 5) && decide (256 ≤ ws.length) &&
    (ws.any (fun q => q.table == r.table && s.reqPart q == p) ||
      (match s.rowPlace g p r.table r.target with
       | some (t, _, _) => s.lacksRoom g p t r.target
       | none => false))

/-- Whether a row lies in a bale that has come to this gleaner and whose drain marker has not (R294, R309). -/
def State.rowComing (s : State) (g p table row : Nat) : Bool :=
  !(s.gleaner g).baleHold.isEmpty && (match s.rowPlace g p table row with
    | some (_, _, off) => (s.gleaner g).baleHold.contains (off / 65536)
    | none => false)

/-- What the displaced-row map, the bale stubs and a microcode load make of a request (R278, R294, R309, R574). -/
def State.admission (s : State) (g : Nat) (r : GReq) : Admission :=
  let x := s.gleaner g
  if x.holding then .wait
  else if r.kind ≤ 1 then
    match x.stubs.find? (fun b => b.bale == r.target / 65536) with
    | some b => .forward b.dest { r with target := b.destBale * 65536 + r.target % 65536, forwarded := true }
    | none => if !r.forwarded && x.baleHold.contains (r.target / 65536) then .holdBale else .serve
  else if r.kind ≤ 5 then
    let p := s.reqPart r
    let o := s.ordererOf g (tableKey p r.table) r.target
    match x.mapOf (tableKey p r.table) r.target with
    | none =>
      if o ≠ g then .forward o { r with forwarded := true }
      else if !r.forwarded && s.rowComing g p r.table r.target then .holdBale
      else if s.stopsWrites g r then .wait else .serve
    | some d =>
      match d.state with
      | .forward => .forward d.peer { r with forwarded := true }
      | .taking | .ordering =>
        if r.forwarded || d.marked.testBit r.requester then (if s.stopsWrites g r then .wait else .serve)
        else if 512 ≤ x.held.length then .wait else .hold
      | .copying | .dual => if s.stopsWrites g r then .wait else .serve
  else .serve

/-- The input port of a request (R254): at a loft gleaner, port 1 is that of its I/O die's front end and Igrum engine; all else comes by port 0. -/
def reqPort (g : Nat) (r : GReq) : Nat :=
  if isLoft g && (r.requester == 24 + (g - 384) / 32 || r.requester == 26 + (g - 384) / 32) then 1 else 0

/-- A built-in request takes its course by its admission; `none` where it stays in its queue. -/
def State.passIn (s : State) (g : Nat) (r : GReq) (ecc : Ecc) (checked : Bool) : Option State :=
  match s.admission g r with
  | .serve => some (s.serve g r ecc checked false)
  | .forward h q => some (s.send (.request h q))
  | .hold => some (s.updGleaner g (fun x => { x with held := x.held ++ [r] }))
  | .holdBale => some (s.updGleaner g (fun x => { x with heldBale := x.heldBale ++ [r] }))
  | .wait => none

/-- Whether an arriving request must queue (R254): the request queue is full, or a built-in request of its port waits in it. -/
def GleanerState.queueBlocks (x : GleanerState) (g : Nat) (r : GReq) : Bool :=
  decide (64 ≤ x.queue.length) || x.queue.any (fun q => q.kind != 6 && reqPort g q == reqPort g r)

/-- A request that is not taken stays in the forward queue, if a gleaner forwarded it, or in the request queue (R278). -/
def State.enqueue (s : State) (g : Nat) (r : GReq) : State :=
  s.updGleaner g (fun x => if r.forwarded then { x with forwardQueue := x.forwardQueue ++ [r] } else { x with queue := x.queue ++ [r] })

/-- The byte whose tag refuses a request as it arrives (R260, R261): one that would be served at once is checked as it is served, and one that is
forwarded at its destination. -/
def State.refusedOnArrival (s : State) (g : Nat) (r : GReq) (blocked : Bool) : Option Nat :=
  match s.admission g r with
  | .serve => if blocked then s.tagMisses g r else none
  | .forward _ _ => none
  | .hold | .holdBale | .wait => s.tagMisses g r

/-- A request arrives at a gleaner (R254, R278): an INVOKE queues for a thread; one that its tags refuse ends at once, and one that they admit but
that must wait is not checked again (R261). -/
def State.takeIn (s : State) (g : Nat) (r : GReq) (ecc : Ecc) : State :=
  if r.kind = 6 then s.enqueue g r
  else
    let x := s.gleaner g
    let blocked := if r.forwarded then !x.forwardQueue.isEmpty else x.queueBlocks g r
    match s.refusedOnArrival g r blocked with
    | some off => s.refuseTag g r off
    | none => (if blocked then none else s.passIn g r ecc false).getD (s.enqueue g r)

/-- Taking, in order, requests that were held and may now be applied (R246, R261, R294). -/
def State.takeHeld (s : State) (g : Nat) (rs : List GReq) : State :=
  rs.foldl (fun s r => (s.passIn g r .clean true).getD (s.enqueue g r)) s

/-- Built-in requests that wait in the queues are taken once nothing holds them back: the forward queue's first, then the request queue's in
arrival order within each port, as far as it reaches (R254, R278). -/
def State.drainQueue (s : State) (g : Nat) : State :=
  let f := (s.gleaner g).forwardQueue.foldl (fun (acc : State × List GReq) r =>
    match (if acc.2.isEmpty then acc.1.passIn g r .clean true else none) with
    | some t => (t, acc.2)
    | none => (acc.1, acc.2 ++ [r])) (s, [])
  let q := (s.gleaner g).queue.foldl (fun (acc : State × List GReq) r =>
    let stays := r.kind == 6 || decide (64 ≤ acc.2.length) || acc.2.any (fun e => e.kind != 6 && reqPort g e == reqPort g r)
    match (if stays then none else acc.1.passIn g r .clean true) with
    | some t => (t, acc.2)
    | none => (acc.1, acc.2 ++ [r])) (f.1, [])
  q.1.updGleaner g (fun x => { x with forwardQueue := f.2, queue := q.2 })

/-- Replacements that waited for reserve space are tried again in arrival order, a program's when it issues again (R238, R241). -/
def State.retryWaiting (s : State) (g : Nat) : State :=
  let rs := (s.gleaner g).waiting
  let s1 := rs.foldl (fun s r => if 16 ≤ r.kind then s.updGleaner g (fun x => { x with waiting := x.waiting ++ [r] }) else s.serve g r .clean true true)
    (s.updGleaner g (fun x => { x with waiting := [] }))
  if (s1.gleaner g).waiting.length < rs.length then s1.drainQueue g else s1

/-- RAW_READ. -/
def execRawRead (g : Nat) (r : GReq) (s : State) : Answer := onGleaner g s (fun s => .next (s.takeIn g { r with kind := 0 } .clean))
/-- RAW_WRITE. -/
def execRawWrite (g : Nat) (r : GReq) (s : State) : Answer := onGleaner g s (fun s => .next (s.takeIn g { r with kind := 1 } .clean))
/-- ROW_READ. -/
def execRowRead (g : Nat) (r : GReq) (s : State) : Answer := onGleaner g s (fun s => .next (s.takeIn g { r with kind := 2 } .clean))
/-- ROW_WRITE. -/
def execRowWrite (g : Nat) (r : GReq) (s : State) : Answer := onGleaner g s (fun s => .next (s.takeIn g { r with kind := 3 } .clean))
/-- ROW_ADD. -/
def execRowAdd (g : Nat) (r : GReq) (ecc : Ecc) (s : State) : Answer := onGleaner g s (fun s => .next (s.takeIn g { r with kind := 4 } ecc))
/-- ROW_CAS. -/
def execRowCas (g : Nat) (r : GReq) (ecc : Ecc) (s : State) : Answer := onGleaner g s (fun s => .next (s.takeIn g { r with kind := 5 } ecc))
/-- INVOKE waits in the request queue for a thread (R262). -/
def execInvoke (g : Nat) (r : GReq) (s : State) : Answer := onGleaner g s (fun s => .next (s.takeIn g { r with kind := 6 } .clean))
/-- A request of a kind 7 to 255 ends INVALID (R256). -/
def execReservedRequestKind (g : Nat) (r : GReq) (s : State) : Answer :=
  onGleaner g s (fun s => if r.kind < 7 then .next s else .next (s.takeIn g r .clean))

/-! ### Completion at the channel (R258, R280) -/

/-- A record on its way to a requester (R258). -/
def recordFor (r : GReq) (n marks count : Nat) (payload : List Byte) : RecordMsg :=
  { addr := r.returnAddr + n * r.stride * 8, tag := r.tag, record := n, part := r.part, marks := marks, count := count, payload := payload }

/-- The one record of a built-in request, and its END: a ROW_READ's record holds one row, the others combine none (R256, R258). -/
def State.answerOp (s : State) (g : Nat) (r : GReq) (marks : Nat) (payload : List Byte) : State :=
  (s.send (.record r.requester g (recordFor r 0 marks (if r.kind = 2 then 1 else 0) payload))).endRequest g r 0 1 marks

/-- Operation `n` leaves the channel. -/
def GleanerState.dropOp (x : GleanerState) (n : Nat) : GleanerState := { x with ops := x.ops.eraseIdx n }
/-- Operation `n` replaced. -/
def GleanerState.putOp (x : GleanerState) (n : Nat) (o : ChannelOp) : GleanerState := { x with ops := x.ops.set n o }

/-- A ROW_READ whose row is resolved returns its slot (R256, R608); a loft read still under way is then late (R300). -/
def State.finishRowRead (s : State) (g n : Nat) (o : ChannelOp) (f : RowFetch) : State :=
  match f.got with
  | none => s.updGleaner g (fun x => x.putOp n { o with fetch := some f })
  | some got =>
    let (bytes, stub, degraded) := s.fetchGives f got
    let payload := match (s.planOf (f.table / 4096)).bind (fun pl => (pl.tableOf (f.table % 4096)).map (fun t => (pl, t))) with
      | some (pl, t) => if stub then restoreStubble pl t bytes else bytes
      | none => bytes
    let s1 := s.updGleaner g (fun x =>
      { x.dropOp n with lateReads := if f.deadline && !f.arrived then x.lateReads ++ [(o.req, f)] else x.lateReads })
    s1.answerOp g o.req degraded.toNat payload

/-- A raw read that met an unreadable unit (R307): the mirror's units serve it, or it ends LOST. -/
def State.finishRawMirror (s : State) (g n : Nat) (o : ChannelOp) : State :=
  let len := leNat (o.req.payload.take 4)
  let s1 := s.updGleaner g (fun x => x.dropOp n)
  match s1.repairUnits g o.req.target len with
  | (s2, true) => s2.answerOp g o.req 0 ((s2.gleaner g).data.bytes o.req.target len)
  | (s2, false) => s2.loseRequest g o.req o.req.target

/-- Whether a package's interface retraining holds a loft channel's accesses (R316). -/
def State.retrains (s : State) (g : Nat) : Bool := isLoft g && s.loft.retraining.testBit ((g - 384) / 4)

/-- CHANNEL_ACCESS_COMPLETE: operation `n` of a gleaner returns from its channel (R280, R305 to R307). -/
def execChannelAccessComplete (g n : Nat) (ecc : Ecc) (s : State) : Answer :=
  onGleaner g s (fun s =>
    match (s.gleaner g).ops[n]? with
    | none => .next s
    | some o =>
      if s.retrains g && o.mirror == 0 then .next s
      else
        match o.fetch with
        | some f =>
          if f.arrived then .next s
          else
            let r := s.fetchArrives g o.req f ecc
            .next (r.1.finishRowRead g n o r.2)
        | none =>
          if o.req.kind = 0 then
            if o.mirror ≠ 0 then .next s
            else if o.bad ∨ ecc = .uncorrectable then
              let len := leNat (o.req.payload.take 4)
              let s1 := s.meetUncorrectable g (some o.req) o.req.target len 0
              match s1.mirrorAt g (64 * (((unitsOf o.req.target len).find? (fun u => (s1.gleaner g).unitBad u != 0)).getD 0)) with
              | some (mg, mo) =>
                .next ((s1.updGleaner g (fun x => x.putOp n { o with mirror := 1 })).send (.mirrorRead mg g (2 ^ 16) mo))
              | none => .next ((s1.updGleaner g (fun x => x.dropOp n)).loseRequest g o.req o.req.target)
            else
              let s1 := s.updGleaner g (fun x => if ecc = .corrected then (x.dropOp n).countCorrected else x.dropOp n)
              .next (s1.answerOp g o.req 0 o.data)
          else
            let s1 := s.updGleaner g (fun x => x.dropOp n)
            if o.req.kind = 5 then .next (s1.answerOp g o.req o.marks o.data)
            else .next (s1.endRequest g o.req o.status 0 o.marks))

/-! ### Context tags (R259, R261) -/

/-- A tag entry from its 16-bit word; POISON is the gleaner's own and a write leaves it (R305). -/
def tagOfWord (w : Nat) (poison : Bool) : BaleTag :=
  { owner := w % 256, valid := w.testBit 8, partition := w.testBit 9, read := w.testBit 10, write := w.testBit 11, poison := poison }

/-- Writing the tags of bales. -/
def GleanerState.writeTags (x : GleanerState) (bales : List Nat) (word : Nat) : GleanerState :=
  { x with tags := bales.foldl (fun t b => Tbl.set tagReset t b (tagOfWord word (Tbl.get tagReset t b).poison)) x.tags }

/-- The waiting requests of a gleaner that name one of some bales (R261). -/
def State.oldRequests (s : State) (g : Nat) (bales : List Nat) : List GReq :=
  (s.gleaner g).waitingReqs.filter (fun r => match s.namedRange g r with
    | some (off, len, _) => len != 0 && bales.any (fun b => decide (off / 65536 ≤ b) && decide (b ≤ (off + len - 1) / 65536))
    | none => false)

/-- TAG_WRITE: the word is written to `count` bales from `first`; the acknowledgement for `ctx` follows (R261). -/
def execTagWrite (g first count word ctx : Nat) (s : State) : Answer :=
  onGleaner g s (fun s =>
    let bales := (List.range count).map (fun i => first + i)
    let old := s.oldRequests g bales
    .next (s.updGleaner g (fun x => { x.writeTags bales word with tagChanges := x.tagChanges ++ [{ bales := bales, ctx := ctx, old := old }] })))

/-- The bales of a row read. -/
def RowFetch.bales (f : RowFetch) : List Nat := [f.addr / 65536, (f.addr + max 1 f.slot.length - 1) / 65536]

/-- The bales that operations on their way name: a raw request's range, a row's slot, and a composed row's two (R261). -/
def GleanerState.busyBales (x : GleanerState) : List Nat :=
  (x.ops.flatMap (fun o =>
    match o.fetch with
    | some f => f.bales
    | none => if o.req.kind ≤ 1 then
        [o.req.target / 65536, (o.req.target + max 1 (if o.req.kind = 0 then o.data.length else o.req.payload.length) - 1) / 65536] else [])) ++
  (x.threads.flatMap (fun e => match e.2 with
    | some t => t.pendingRows.flatMap (fun q => q.fetch.bales ++ ((q.second.map RowFetch.bales).getD []))
    | none => []))

/-- TAG_WRITE_DRAINED: the oldest tag write whose old operations have all been applied is acknowledged (R261). -/
def execTagWriteDrained (g : Nat) (s : State) : Answer :=
  onGleaner g s (fun s =>
    match (s.gleaner g).tagChanges with
    | [] => .next s
    | c :: rest =>
      if c.bales.any (fun b => (s.gleaner g).busyBales.contains b) || c.old.any (fun r => (s.gleaner g).waitingReqs.contains r) then .next s
      else .next ((s.updGleaner g (fun x => { x with tagChanges := rest })).send (.tagAck g c.ctx)))

/-! ### Abort (R281) -/

/-- Whether an ABORT names a request. -/
def abortMatches (ctx : Nat) (requester : Option Nat) (value mask : Nat) (r : GReq) : Bool :=
  r.ctx == ctx && (requester.isNone || requester == some r.requester) && (r.tag &&& mask) == (value &&& mask)

/-- A program's replacement waits for reserve space no longer, and what waited behind it may proceed (R237). -/
def State.dropProg (s : State) (g t : Nat) : State :=
  (s.gleaners.filter (fun e => e.2.waiting.any (fun r => r.kind == progKind g t))).foldl (fun s e =>
    (((s.updGleaner e.1 (fun x => { x with waiting := x.waiting.filter (fun r => r.kind != progKind g t) })).retryWaiting e.1).drainQueue e.1)) s

/-- Freeing a thread: its time is charged (R450), and the stubble buffer places of its open row reads, and a place among the waiting replacements, come
back. -/
def State.freeThread (s : State) (g t : Nat) : State :=
  let s0 := match Tbl.get none (s.gleaner g).threads t with
    | some th => if th.req.system then s else s.chargeGleaner th.req.ctx (s.devTime - th.began)
    | none => s
  (s0.dropProg g t).updGleaner g (fun x =>
    match Tbl.get none x.threads t with
    | none => x
    | some th =>
      { x with
        threads := Tbl.set none x.threads t none
        stubbleUsed := x.stubbleUsed - (th.pendingRows.filter (fun q => q.fetch.got.isNone && (q.fetch.stubble == 1 || q.fetch.stubble == 2))).length })

/-- The marks of a stopped thread's END: those of its records and those it still holds (R258, R323). -/
def Thread.endMarks (th : Thread) : Nat := th.allMarks ||| th.marks

/-- GLEANER_ABORT: matching requests that have not started and matching threads end ABORTED, and the gleaner acknowledges. -/
def execGleanerAbort (g ctx : Nat) (requester : Option Nat) (value mask cause : Nat) (s : State) : Answer :=
  onGleaner g s (fun s =>
    let hit := abortMatches ctx requester value mask
    let x := s.gleaner g
    let gone := x.waitingReqs.filter (fun r => hit r && decide (r.kind < 16))
    let keep (rs : List GReq) : List GReq := rs.filter (fun r => !hit r || decide (16 ≤ r.kind))
    let s1 := s.updGleaner g (fun x => { x with
      queue := keep x.queue, forwardQueue := keep x.forwardQueue, waiting := keep x.waiting, held := keep x.held, heldBale := keep x.heldBale })
    let s2 := gone.foldl (fun s r => s.endRequest g r 4 0 0) s1
    let s3 := x.threads.foldl (fun s e =>
      match e.2 with
      | some t => if hit t.req then (s.freeThread g e.1).endRequest g t.req 4 t.sent t.endMarks else s
      | none => s) s2
    .next ((s3.drainQueue g).send (.acknowledge (gleanerUnit g).1 (gleanerUnit g).2 cause)))

end Sys2Proof.Machine
end

