-- ==== Sys2Proof/Machine/SfuTables.lean ====
section
/-!
DEFINITION. The tables of the built-in special functions (R194, R196, R201). The spec does not list a table: it bounds what the functions give, and
gives the equalities and the signs that a table keeps. Here segment j is the quadratic through three values, at u = 0, 1/2 and 1, each the
exact one but for a free error of at most 2^−25 (RSQRT 2^−26): every such table meets R196, R200 and R201 (DESIGN CHOICE, log 20).
-/

namespace Sys2Proof.Machine

/-- The built-in functions (R191). -/
inductive SfuFn where
  | exp | log | rcp | rsqrt
  deriving DecidableEq, Repr

/-- The number of a built-in function (R191). -/
def SfuFn.num (f : SfuFn) : Nat :=
  match f with
  | .exp => 0
  | .log => 1
  | .rcp => 2
  | .rsqrt => 3

/-! ### The exact values, in units of 2^−66 -/

/-- 2^f at f = i/256, part 0. -/
def sfuExpPoints0 : List Int :=
  [73786976294838206464, 73987033082696283525, 74187632279531903841, 74388775355964995232, 74590463786602740636,
   74792699050050388653, 74995482628922093405, 75198816009851783778, 75402700683504062138, 75607138144585132597,
   75812129891853758903, 76017677428132252050, 76223782260317487665, 76430445899391953280, 76637669860434825544,
   76845455662633077481, 77053804829292615846, 77262718887849448698, 77472199369880883231, 77682247811116753983,
   77892865751450681474, 78104054734951361378, 78315816309873884301, 78528152028671086243, 78741063448004929851,
   78954552128757916508, 79168619636044529381, 79383267539222707486, 79598497411905350864, 79814310831971856951,
   80030709381579688224, 80247694647175971215]
/-- 2^f at f = i/256, part 1. -/
def sfuExpPoints1 : List Int :=
  [80465268219509126968, 80683431693640533032, 80902186668956217072, 81121534749178582187, 81341477542378164014,
   81562016660985419712, 81783153721802548908, 82004890346015346697, 82227228159205088769, 82450168791360448770,
   82673713876889447968, 82897865054631437323, 83122623967869112036, 83347992264340558681, 83573971596251334997,
   83800563620286582426, 84027769997623171504, 84255592393941880168, 84484032479439605089, 84713091928841606114,
   84942772421413783903, 85173075640974990854, 85404003275909375412, 85635557019178759834, 85867738568335051529,
   86100549625532688041, 86333991897541115768, 86568067095757302527, 86802776936218284034, 87038123139613744407,
   87274107431298630771, 87510731541305802072]
/-- 2^f at f = i/256, part 2. -/
def sfuExpPoints2 : List Int :=
  [87747997204358712186, 87985906159884127405, 88224460152024878414, 88463660929652646842, 88703510246380786471,
   88944009860577179219, 89185161535377125970, 89426967038696272359, 89669428143243569605, 89912546626534270474,
   90156324270902960490, 90400762863516624470, 90645864196387748487, 90891630066387457356, 91138062275258687744,
   91385162629629396986, 91632932941025807725, 91881375025885688453, 92130490705571670064, 92380281806384598511,
   92630750159576923665, 92881897601366124474, 93133725972948170524, 93386237120511020096, 93639432895248154821,
   93893315153372151027, 94147885756128287892, 94403146569808192479, 94659099465763521776, 94915746320419681831,
   95173089015289584075, 95431129436987438957]
/-- 2^f at f = i/256, part 3. -/
def sfuExpPoints3 : List Int :=
  [95689869477242586961, 95949311032913367134, 96209456006001023213, 96470306303663647451, 96731863838230162253,
   96994130527214339721, 97257108293328859205, 97520799064499402970, 97785204773878790083, 98050327359861148617,
   98316168766096126284, 98582730941503139589, 98850015840285661627, 99118025421945548614, 99386761651297405259,
   99656226498482989085, 99926421938985653810, 100197349953644831880, 100469012528670556273, 100741411655658021673,
   101014549331602185127, 101288427558912406283, 101563048345427127326, 101838413704428592715, 102114525654657608828,
   102391386220328343623, 102668997431143166428, 102947361322307527964, 103226479934544880714, 103506355314111639740,
   103786989512812184071, 104068384588013898754]
/-- 2^f at f = i/256, part 4. -/
def sfuExpPoints4 : List Int :=
  [104350542602662257699, 104633465625295947406, 104917155730062031710, 105201614996731157627, 105486845510712802440,
   105772849363070562119, 106059628650537481186, 106347185475531424157, 106635521946170488649, 106924640176288460277,
   107214542285450309463, 107505230398967730248, 107796706647914721244, 108088973169143208824, 108382032105298712679,
   108675885604836053834, 108970535822035105269, 109265984917016585236, 109562235055757893394, 109859288410108989886,
   110157147157808317463, 110455813482498766784, 110755289573743684995, 111055577627042927716, 111356679843848954548,
   111658598431582968220, 111961335603651097493, 112264893579460623942, 112569274584436252729, 112874480850036427497,
   113180514613769689493, 113487378119211081044]
/-- 2^f at f = i/256, part 5. -/
def sfuExpPoints5 : List Int :=
  [113795073616018593514, 114103603359949659851, 114412969612877691851, 114723174642808662255, 115034220723897731814,
   115346110136465921427, 115658845167016829482, 115972428108253394525, 116286861259094703380, 116602146924692844830,
   116918287416449809005, 117235285052034432582, 117553142155399389928, 117871861056798230315, 118191444092802461324,
   118511893606318678568, 118833211946605741855, 119155401469291997929, 119478464536392549897, 119802403516326573483,
   120127220783934680231, 120452918720496327782, 120779499713747277360, 121106966157897098584, 121435320453646721745,
   121764565008206037666, 122094702235311545291, 122425734555244047112, 122757664394846392571, 123090494187541269582,
   123424226373349044279, 123758863398905649135]
/-- 2^f at f = i/256, part 6. -/
def sfuExpPoints6 : List Int :=
  [124094407717480519586, 124430861788994579277, 124768228080038274081, 125106509063889655005, 125445707220532510128,
   125785825036674545698, 126126865005765616526, 126468829628016005801, 126811721410414754474, 127155542866748040334,
   127500296517617606915, 127845984890459242371, 128192610519561308447, 128540175946083319695, 128888683718074573058,
   129238136390492827963, 129588536525223037064, 129939886691096127771, 130292189463907834693, 130645447426437583151,
   130999663168467423880, 131354839286801019077, 131710978385282679915, 132068083074816455687, 132426155973385274689,
   132785199706070137015, 133145216905069359380, 133506210209717872119, 133868182266506568516, 134231135729101706582,
   134595073258364363448, 134959997522369942491]
/-- 2^f at f = i/256, part 7. -/
def sfuExpPoints7 : List Int :=
  [135325911196427733367, 135692816963100525055, 136060717512224272097, 136429615540927814149, 136799513753652648995,
   137170414862172759177, 137542321585614492378, 137915236650476495707, 138289162790649704026, 138664102747437382483,
   139040059269575223370, 139417035113251497483, 139795033042127260111, 140174055827356611808, 140554106247607014101,
   140935187089079660279, 141317301145529901412, 141700451218287727747, 142084640116278305644, 142469870656042570183,
   142856145661757873608, 143243467965258689758, 143631840406057374626, 144021265831364983209, 144411747096112142804,
   144803287062969982883, 145195888602371121733, 145589554592530709978, 145984287919467531172, 146380091477025159590,
   146776968166893175389, 147174920898628437290]
/-- 2^f at f = i/256, part 8. -/
def sfuExpPoints8 : List Int :=
  [147573952589676412928]
/-- 2^f at f = i/256: the values at the ends and the middles of the segments, in units of 2^−66. -/
def sfuExpPoints : List Int := sfuExpPoints0 ++ sfuExpPoints1 ++ sfuExpPoints2 ++ sfuExpPoints3 ++ sfuExpPoints4 ++ sfuExpPoints5 ++ sfuExpPoints6 ++ sfuExpPoints7 ++ sfuExpPoints8

/-- ln(m′)/(m′ − 1) at m′ = 1 + i/256, i to 128, part 0. -/
def sfuLogLowPoints0 : List Int :=
  [73786976294838206464, 73643235310644496705, 73500238377089310599, 73357979019140211932, 73216450841601145332,
   73075647527835571774, 72935562838514714332, 72796190610390328314, 72657524755091425695, 72519559257944399120,
   72382288176816005581, 72245705640978684296, 72109805849997697289, 71974583072639594709, 71840031645801520075,
   71706145973460883384, 71572920525644942384, 71440349837419844313, 71308428507898692061, 71177151199268209986,
   71046512635833595628, 70916507603081154157, 70787130946758322788, 70658377571970702375, 70530242442295723174,
   70402720578912581233, 70275807059748091025, 70149497018638108897, 70023785644504190575, 69898668180545154375,
   69774139923443229963, 69650196222584480479]
/-- ln(m′)/(m′ − 1) at m′ = 1 + i/256, i to 128, part 1. -/
def sfuLogLowPoints1 : List Int :=
  [69526832479293193533, 69404044146079944130, 69281826725903039855, 69160175771443065774, 69039086884390253374,
   68918555714744404612, 68798577960127108636, 68679149365105995110, 68560265720530774222, 68441922862880819479,
   68324116673624055213, 68206843078586916416, 68090098047335154028, 67973877592565264209, 67858177769506325321,
   67742994675332031478, 67628324448582716435, 67514163268597166451, 67400507354954025424, 67287352966922600195,
   67174696402922878341, 67062533999994575138, 66950862133275030571, 66839677215485781396, 66728975696427637257,
   66618754062484093749, 66509008836132919127, 66399736575465755072, 66290933873715575494, 66182597358791850909,
   66074723692823269309, 65967309571707867820]
/-- ln(m′)/(m′ − 1) at m′ = 1 + i/256, i to 128, part 2. -/
def sfuLogLowPoints2 : List Int :=
  [65860351724670432645, 65753846913827028012, 65647791933756517890, 65542183611078947269, 65437018804040652737,
   65332294402105974936, 65228007325555448279, 65124154525090346030, 65020732981443461499, 64917739704996008696,
   64815171735400528308, 64713026141209687332, 64611300019510863088, 64509990495566404701, 64409094722459467389,
   64308609880745317174, 64208533178108005766, 64108861849022317520, 64009593154420892436, 63910724381366431177,
   63812252842728890088, 63714175876867576099, 63616490847318053279, 63519195142483774671, 63422286175332354801,
   63325761383096400020, 63229618226978815557, 63133854191862509808, 63038466786024418045, 62943453540853769302,
   62848812010574521760, 62754539771971893468]
/-- ln(m′)/(m′ − 1) at m′ = 1 + i/256, i to 128, part 3. -/
def sfuLogLowPoints3 : List Int :=
  [62660634424122916738, 62567093588130945974, 62473914906864050147, 62381096044697222479, 62288634687258341285,
   62196528541177817222, 62104775333841863483, 62013372813149326776, 61922318747272018099, 61831610924418483598,
   61741247152601156915, 61651225259406835630, 61561543091770425506, 61472198515751897346, 61383189416316402374,
   61294513697117493069, 61206169280283397445, 61118154106206295761, 61030466133334549633, 60943103337967834481,
   60856063714055127206, 60769345272995501877, 60682946043441687161, 60596864071106340055, 60511097418570991399,
   60425644165097619450, 60340502406442808642, 60255670254674451474, 60171145837990952243, 60086927300542892128,
   60003012802257115873, 59919400518663201078]
/-- ln(m′)/(m′ − 1) at m′ = 1 + i/256, i to 128, part 4. -/
def sfuLogLowPoints4 : List Int :=
  [59836088640722271831]
/-- ln(m′)/(m′ − 1) at m′ = 1 + i/256, i to 128: the values at the ends and the middles of the segments, in units of 2^−66. -/
def sfuLogLowPoints : List Int := sfuLogLowPoints0 ++ sfuLogLowPoints1 ++ sfuLogLowPoints2 ++ sfuLogLowPoints3 ++ sfuLogLowPoints4

/-- ln(m′)/(m′ − 1) at m′ = (256 + i)/512, i from 128, the first by the seam of R201, part 0. -/
def sfuLogHighPoints0 : List Int :=
  [84908761041797946894, 84803674478057039884, 84698942702456231186, 84594563678734239681, 84490535387289411165,
   84386855825002213802, 84283523005060065901, 84180534956784459565, 84077889725460344436, 83975585372167736391,
   83873619973615516681, 83771991621977387636, 83670698424729951650, 83569738504492880772, 83469109998871144789,
   83368811060299266291, 83268839855887571734, 83169194567270408082, 83069873390456295160, 82970874535679984337,
   82872196227256394720, 82773836703436398509, 82675794216264427685, 82578067031437874665, 82480653428168260060,
   82383551699044141114, 82286760149895734871, 82190277099661230578, 82094100880254766240, 81998229836436044708,
   81902662325681565076, 81807396718057445602]
/-- ln(m′)/(m′ − 1) at m′ = (256 + i)/512, i from 128, the first by the seam of R201, part 1. -/
def sfuLogHighPoints1 : List Int :=
  [81712431396093814749, 81617764754660747367, 81523395200845723402, 81429321153832586917, 81335541044781983589,
   81242053316713255196, 81148856424387769991, 81055948834193668194, 80963329024032002209, 80870995483204251470,
   80778946712301192213, 80687181223093102735, 80595697538421285085, 80504494192090884395, 80413569728764987412,
   80322922703859982063, 80232551683442160205, 80142455244125545994, 80052631972970932603, 79963080467386110291,
   79873799335027269111, 79784787193701559811, 79696042671270796752, 79607564405556286928, 79519351044244769431,
   79431401244795449947, 79343713674348115137, 79256287009632311985, 79169119936877577424, 79082211151724703816,
   78995559359138026066, 78909163273318716379]
/-- ln(m′)/(m′ − 1) at m′ = (256 + i)/512, i from 128, the first by the seam of R201, part 2. -/
def sfuLogHighPoints2 : List Int :=
  [78823021617619072909, 78737133124457788738, 78651496535236187872, 78566110600255415109, 78480974078634566890,
   78396085738229750390, 78311444355554058369, 78227048715698447430, 78142897612253507585, 78058989847232111177,
   77975324230992929408, 77891899582164804908, 77808714727571968944, 77725768502160092058, 77643059748923157101,
   77560587318831143764, 77478350070758513925, 77396346871413487254, 77314576595268096696, 77233038124489013610,
   77151730348869132494, 77070652165759905378, 76989802480004416116, 76909180203871184971, 76828784256988693998,
   76748613566280623913, 76668667065901793244, 76588943697174790714, 76509442408527291941, 76430162155430051664,
   76351101900335562832, 76272260612617374059]
/-- ln(m′)/(m′ − 1) at m′ = (256 + i)/512, i from 128, the first by the seam of R201, part 3. -/
def sfuLogHighPoints3 : List Int :=
  [76193637268510057001, 76115230851049815423, 76037040350015727767, 75959064761871615209, 75881303089708527282,
   75803754343187837259, 75726417538484939627, 75649291698233542057, 75572375851470544431, 75495669033581497544,
   75419170286246634264, 75342878657387465984, 75266793201113937333, 75190912977672132217, 75115237053392524338,
   75039764500638765465, 74964494397757004806, 74889425829025732930, 74814557884606143799, 74739889660493008532,
   74665420258466054639, 74591148786041844539, 74517074356426147266, 74443196088466797358, 74369513106607035005,
   74296024540839321604, 74222729526659624985, 74149627205022168610, 74076716722294639155, 74003997230213846956,
   73931467885841833878, 73859127851522423234]
/-- ln(m′)/(m′ − 1) at m′ = (256 + i)/512, i from 128, the first by the seam of R201, part 4. -/
def sfuLogHighPoints4 : List Int :=
  [73786976294838206464]
/-- ln(m′)/(m′ − 1) at m′ = (256 + i)/512, i from 128, the first by the seam of R201: the values at the ends and the middles of the segments, in units of 2^−66. -/
def sfuLogHighPoints : List Int := sfuLogHighPoints0 ++ sfuLogHighPoints1 ++ sfuLogHighPoints2 ++ sfuLogHighPoints3 ++ sfuLogHighPoints4

/-- 1/√m at m = 1 + i/128 and then 2 + i/64, part 0. -/
def sfuRsqrtPoints0 : List Int :=
  [73786976294838206464, 73500423848067683720, 73217184166963783211, 72937193909381183095, 72660391415906522221,
   72386716652815884089, 72116111157377990630, 71848517985389952683, 71583881660838675738, 71322148127586882572,
   71063264702988215725, 70807180033341046974, 70553844051095471182, 70303207933732519084, 70055224064238907557,
   69809845993104674800, 69567028401774838466, 69326727067489782837, 69088898829452441091, 68853501556263504019,
   68620494114568869809, 68389836338866362244, 68161489002421397767, 67935413789243785372, 67711573267080206546,
   67489930861379154229, 67270450830187218164, 67053098239937596545, 66837838942093597718, 66624639550611677328,
   66413467420190241986, 66204290625272045943]
/-- 1/√m at m = 1 + i/128 and then 2 + i/64, part 1. -/
def sfuRsqrtPoints1 : List Int :=
  [65997077939769517741, 65791798817483784488, 65588423373189516857, 65386922364359002547, 65187267173500073980,
   64989429791083671092, 64793382799037916022, 64599099354786616512, 64406553175811102193, 64215718524715235507,
   64026570194774329705, 63839083495949552648, 63653234241350199584, 63468998734126982931, 63286353754780214497,
   63105276548867447671, 62925744815095805632, 62747736693784848583, 62571230755686429920, 62396205991148559782,
   62222641799610836105, 62050517979419519469, 61879814717950820069, 61710512582031434320, 61542592508645816026,
   61376035795920093945, 61210824094372954888, 61046939398424200296, 60884364038152055428, 60723080671290664781,
   60563072275459545918, 60404322140617097448]
/-- 1/√m at m = 1 + i/128 and then 2 + i/64, part 2. -/
def sfuRsqrtPoints2 : List Int :=
  [60246813861730566017, 60090531331655172721, 59935458734215381938, 59781580537481565771, 59628881487235575828,
   59477346600618981382, 59326961159957969658, 59177710706759130571, 59029581035870565171, 58882558189802964817,
   58736628453205507072, 58591778347491605000, 58447994625609729212, 58305264266954697162, 58163574472414992029,
   58022912659551834556, 57883266457905885560, 57744623704427604966, 57606972439027435309, 57470300900242114019,
   57334597521013549721, 57199850924576823416, 57066049920453996131, 56933183500550520460, 56801240835351164806,
   56670211270212466055, 56540084321748829232, 56410849674309491440, 56282497176543662423, 56155016838051245331,
   56028398826116629143, 55902633462523128634]
/-- 1/√m at m = 1 + i/128 and then 2 + i/64, part 3. -/
def sfuRsqrtPoints3 : List Int :=
  [55777711220445729044, 55653622721419870773, 55530358732384084681, 55407910162794360988, 55286268061808204468,
   55165423615536395778, 55045368144360543390, 54926093100314572859, 54807590064528360134, 54689850744731773417,
   54572866972817443735, 54456630702460638088, 54341134006794660749, 54226369076140258181, 54112328215787551108,
   53999003843829063700, 53886388489042464512, 53774474788821677026, 53663255487155059247, 53552723432649392015,
   53442871576598454446, 53333692971095002376, 53225180767185001794, 53117328213063004179, 53010128652307584309,
   52903575522155793693, 52797662351815614193, 52692382760815426780, 52587730457389539726, 52483699236898848868,
   52380282980285730010, 52277475652562290032]
/-- 1/√m at m = 1 + i/128 and then 2 + i/64, part 4. -/
def sfuRsqrtPoints4 : List Int :=
  [52175271301331128849, 51972648123054095016, 51772367423844411740, 51574384414041587041, 51378655493856309265,
   51185138213035297175, 50993791232184817361, 50804574285672857634, 50617448146034365672, 50432374589808108002,
   50249316364737594408, 50068237158272164546, 49889101567307763096, 49711875069110152282, 49536523993366339758,
   49363015495312848743, 49191317529892137643, 49021398826890999402, 48853228867017146653, 48686777858872426976,
   48522016716783222034, 48358917039450573259, 48197451089384452813, 48037591773088368760, 47879312621962164486,
   47722587773892450492, 47567391955501597531, 47413700465027629014, 47261489155808682674, 47110734420346971308,
   46961413174928364352, 46813502844774840177]
/-- 1/√m at m = 1 + i/128 and then 2 + i/64, part 5. -/
def sfuRsqrtPoints5 : List Int :=
  [46666981349708127079, 46521827090303862564, 46378018934516558977, 46235536204756571915, 46094358665401129129,
   45954466510722294407, 45815840353215515854, 45678461212313143407, 45542310503467998586, 45407370027592742439,
   45273621960841417465, 45141048844720137697, 45009633576514469990, 44879359400021590335, 44750209896575813457,
   44622168976356583235, 44495220869968477244, 44369350120283221930, 44244541574534137102, 44120780376653830360,
   43998051959846345160, 43876342039385331177, 43755636605630153542, 43635921917252189314, 43517184494663875917,
   43399411113643378098, 43282588799148028046, 43166704819309968161, 43051746679607688489, 42937702117207401462,
   42824559095468436013, 42712305798607061889]
/-- 1/√m at m = 1 + i/128 and then 2 + i/64, part 6. -/
def sfuRsqrtPoints6 : List Int :=
  [42600930626513373604, 42490422189716072444, 42380769304490184734, 42271960988102945673, 42163986454193260837,
   42056835108280332299, 41950496543397203755, 41844960535845139192, 41740217041064903080, 41636256189621156937,
   41533068283296327867, 41430643791290439437, 41328973346523524489, 41228047742037363291, 41127857927493409138,
   41028395005763877350, 40929650229613082801, 40831614998466215795, 40734280855262846649, 40637639483392545724,
   40541682703710098230, 40446402471627881979, 40351790874283061603, 40257840127777334689, 40164542574487044011,
   40071890680441545678, 39979877032767795688, 39888494337199187246, 39797735415646738358, 39707593203830793773,
   39618060748971467461, 39529131207536111507]
/-- 1/√m at m = 1 + i/128 and then 2 + i/64, part 7. -/
def sfuRsqrtPoints7 : List Int :=
  [39440797843042154795, 39353054023913710114, 39265893221390401525, 39179309007486915036, 39093295053001824941,
   39007845125574295615, 38922953087787304297, 38838612895316074395, 38754818595120451263, 38671564323679993276,
   38588844305270590373, 38506652850281460222, 38424984353571408712, 38343833292863276775, 38263194227175529512,
   38183061795289976435, 38103430714254643225, 38024295777920845972, 37945651855513548254, 37867493890234109870,
   37789816897894563443, 37712615965582581566, 37635886250356322758, 37559622977968369116, 37483821441617992431,
   37408477000731008505, 37333585079766501663, 37259141167049722924, 37185140813630486030, 37111579632166405609,
   37038453295830341125, 36965757537241428972]
/-- 1/√m at m = 1 + i/128 and then 2 + i/64, part 8. -/
def sfuRsqrtPoints8 : List Int :=
  [36893488147419103232]
/-- 1/√m at m = 1 + i/128 and then 2 + i/64: the values at the ends and the middles of the segments, in units of 2^−66. -/
def sfuRsqrtPoints : List Int := sfuRsqrtPoints0 ++ sfuRsqrtPoints1 ++ sfuRsqrtPoints2 ++ sfuRsqrtPoints3 ++ sfuRsqrtPoints4 ++ sfuRsqrtPoints5 ++ sfuRsqrtPoints6 ++ sfuRsqrtPoints7 ++ sfuRsqrtPoints8

/-- The exact value at half-segment `i`, 0 to 256: rounded to the unit; LOG's at 128 is the left one of the seam at m′ = 1.5 (R194). -/
def sfuExact (f : SfuFn) (i : Nat) : Int :=
  match f with
  | .exp => sfuExpPoints.getD i 0
  | .log => if i ≤ 128 then sfuLogLowPoints.getD i 0 else sfuLogHighPoints.getD (i - 128) 0
  | .rcp => ((2 ^ 75 / (256 + i) + 1) / 2 : Nat)
  | .rsqrt => sfuRsqrtPoints.getD i 0

/-! ### The table -/

/-- The largest error of a value of the table, in units of 2^−66 (log 20). -/
def sfuSlack (f : SfuFn) : Nat := if f = .rsqrt then 2 ^ 40 else 2 ^ 41

/-- The free error of a value: any integer that is not larger than the slack. -/
def sfuDeviation (f : SfuFn) (i : Nat) : Int :=
  let b : Int := sfuSlack f
  max (-b) (min b (Config.sfuError f.num i))

/-- The value at half-segment `i`: at the two ends of the table the exact one for EXP, RCP and RSQRT (R201). -/
def sfuPoint (f : SfuFn) (i : Nat) : Int :=
  if (i = 0 ∨ i = 256) ∧ f ≠ .log then sfuExact f i else sfuExact f i + sfuDeviation f i

/-- C0_j: the value at the left end of segment j, which is that at the right end of segment j − 1, but for LOG's seam at m′ = 1.5 (R201). -/
def sfuC0 (f : SfuFn) (j : Nat) : Int :=
  if f = .log ∧ j = 64 then 4 * (Config.lnTwo : Int) - 2 * sfuPoint f 128 else sfuPoint f (2 * j)

/-- C2_j of the quadratic through the three values of segment j. -/
def sfuC2 (f : SfuFn) (j : Nat) : Int := 2 * (sfuC0 f j - 2 * sfuPoint f (2 * j + 1) + sfuPoint f (2 * j + 2))

/-- C1_j of the quadratic through the three values of segment j. -/
def sfuC1 (f : SfuFn) (j : Nat) : Int := sfuPoint f (2 * j + 2) - sfuC0 f j - sfuC2 f j

end Sys2Proof.Machine
end

