-- ==== Sys2Proof/Machine/SfuMath.lean ====
section
/-!
DEFINITION. The special functions (spec 07): the four built-in functions with their reductions, polynomials,
reconstructions and special values (R194 to R201), and the steps of a plan's microprograms (R204, R205).
-/

namespace Sys2Proof.Machine

/-- p_j(u) for u = un / ud: the numerator over 2^66 × ud² (R194, R195). -/
def polyNum (c0 c1 c2 : Int) (un ud : Nat) : Int := c0 * (ud * ud : Nat) + c1 * (un * ud : Nat) + c2 * (un * un : Nat)

/-- p_j(u) of a built-in table as numerator and denominator. -/
def sfuPoly (f : SfuFn) (j un ud : Nat) : Int × Nat :=
  (polyNum (sfuC0 f j) (sfuC1 f j) (sfuC2 f j) un ud, 2 ^ 66 * (ud * ud))

/-- A value times 2^e, exactly. -/
def scaleTwo (i : Int) (d : Nat) (e : Int) : Value :=
  if 0 ≤ e then ofSigned (i * 2 ^ e.toNat) d false else ofSigned i (d * 2 ^ (-e).toNat) false

/-- x = 2^e × m with m in [1, 2) as a quotient: the exponent and m's numerator and denominator. -/
def binade (n d : Nat) : Int × Nat × Nat :=
  let e := exponentOf n d
  if 0 ≤ e then (e, n, d * 2 ^ e.toNat) else (e, n * 2 ^ (-e).toNat, d)

/-- x × k / 2^sh rounded to nearest at 2^−40, as an integer of that unit (R194, R204). -/
def roundAt40 (neg : Bool) (n d : Nat) (k : Int) (sh : Nat) : Int :=
  let kneg := k < 0
  let m := roundNat .rne false 0 (n * k.natAbs * 2 ^ 40) (d * 2 ^ sh)
  if neg != kneg then -(m : Int) else m

/-- EXP of a finite nonzero argument before rounding (R194). -/
def expExact (neg : Bool) (n d : Nat) : Value :=
  let y := roundAt40 neg n d Config.logTwoE 65
  let nn := y / 2 ^ 40
  let fr := (y % 2 ^ 40).toNat
  let p := sfuPoly .exp (fr / 2 ^ 33) (fr % 2 ^ 33) (2 ^ 33)
  scaleTwo p.1 p.2 nn

/-- LOG of a finite positive argument before rounding (R194). -/
def logExact (n d : Nat) : Value :=
  let (e, mn, md) := binade n d
  let x := (mn - md) * 128
  let p := sfuPoly .log (x / md) (x % md) md
  let low := 2 * mn < 3 * md
  let e' : Int := if low then e else e + 1
  -- m′ − 1 is (mn − md)/md below 1.5, and (mn − 2 md)/(2 md) from there on
  let tn : Int := if low then (mn : Int) - md else (mn : Int) - 2 * md
  let td : Nat := if low then md else 2 * md
  ofSigned (e' * (Config.lnTwo : Int) * (td * p.2 : Nat) + tn * p.1 * 2 ^ 66) (2 ^ 66 * (td * p.2)) false

/-- RCP of a finite nonzero argument before rounding (R194). -/
def rcpExact (neg : Bool) (n d : Nat) : Value :=
  let (e, mn, md) := binade n d
  let x := (mn - md) * 128
  let p := sfuPoly .rcp (x / md) (x % md) md
  let v := scaleTwo p.1 p.2 (-e)
  if neg then negValue v else v

/-- RSQRT of a finite positive argument before rounding (R194): e even, m in [1, 4). -/
def rsqrtExact (n d : Nat) : Value :=
  let (e, mn, md) := binade n d
  let odd := e % 2 != 0
  let e2 := if odd then e - 1 else e
  let x := if odd then (2 * mn - 2 * md) * 32 else (mn - md) * 64
  let base := if odd then 64 else 0
  let p := sfuPoly .rsqrt (base + x / md) (x % md) md
  scaleTwo p.1 p.2 (-(e2 / 2))

/-- Rounding to the result format G, binary32 or SF32 (R195, R198). -/
def sfuRound (g : Format) (x : Value) : Nat × NumFlags :=
  encodeFloat g (if g = .sf32 then layoutSF32 else layoutB32) .rne 0 x

/-- Whether a value lies below another; both are not NaN. -/
def belowConst (x : Value) (bits : Nat) : Bool := ltValue x (valueB32 bits)

/-- A built-in function of one lane: special values (R197), thresholds (R198), the computed result (R195). -/
def sfuBuiltin (f : SfuFn) (g : Format) (x : Value) : Nat × NumFlags :=
  let sg := if g = .sf32 then layoutSF32 else layoutB32
  let nan := (canonicalNaN g, flagNone)
  let invalid := (canonicalNaN g, flagNV)
  let zero (neg : Bool) := (signBits sg neg, flagNone)
  let inf (neg : Bool) := (signBits sg neg + infMagnitude sg, flagNone)
  match x with
  | .nan => nan
  | .inf neg =>
    match f with
    | .exp => if neg then zero false else inf false
    | .log => if neg then invalid else inf false
    | .rcp => zero neg
    | .rsqrt => if neg then invalid else zero false
  | .fin neg n d =>
    if n = 0 then
      match f with
      | .exp => sfuRound g (.fin false 1 1)
      | .log => inf true
      | .rcp | .rsqrt => inf neg
    else
      match f with
      | .exp =>
        if g = .sf32 then
          if belowConst x 0xC4310000 then (0, flagUF)
          else if ltValue (valueB32 0x44314000) x then (layoutSF32.maxFinite, flagRange)
          else sfuRound g (expExact neg n d)
        else if belowConst x 0xC2AE999A then (0, flagUF)
        else sfuRound g (expExact neg n d)
      | .log => if neg then invalid else sfuRound g (logExact n d)
      | .rcp => sfuRound g (rcpExact neg n d)
      | .rsqrt => if neg then invalid else sfuRound g (rsqrtExact n d)

/-- The working value of a microprogram: a 64-bit significand, rounded by RNE (R205). -/
def roundWork (x : Value) : Value :=
  match x with
  | .fin neg n d =>
    if n = 0 then x else
      let q := exponentOf n d - 63
      if 0 ≤ q then .fin neg (roundNat .rne neg 0 n (d * 2 ^ q.toNat) * 2 ^ q.toNat) 1
      else .fin neg (roundNat .rne neg 0 (n * 2 ^ (-q).toNat) d) (2 ^ (-q).toNat)
  | v => v

/-- The running state of a microprogram in one lane (R204): v in units of 2^−40, the exponent, S, the segment and u in
[0, 1] over 2^40, W, and whether SELECT has fixed W. -/
structure MicroState where
  v : Nat
  e : Int
  s : Bool
  j : Nat
  u : Nat
  ud : Nat
  w : Value
  fixed : Bool
  deriving DecidableEq, Repr

/-- CONST[i], or none for 0xFF (R204). -/
def microConst (p : SfuProgram) (i : Nat) : Option Value :=
  if i = 0xFF then none else some (valueB32 (p.consts.getD i 0))

/-- The state before the first step. `w0` is W before any step has written it; the exponent and S hold free values until
a REDUCE forms them (R204, log 20). -/
def microStart (p : SfuProgram) (w0 : Value) : MicroState :=
  { v := 0, e := Config.microExponent p.funcId, s := Config.microSign p.funcId, j := 0, u := 0, ud := 1, w := w0, fixed := false }

/-- The constant of a SELECT: CONST[i], or a free one where it names none (R204, log 20). -/
def selectConst (p : SfuProgram) (field i : Nat) : Value :=
  (microConst p i).getD (valueB32 (Config.microConst p.funcId field).toNat)

/-- The REDUCE step (R204); a constant that LINEAR does not name leaves its operation out (log 20). -/
def microReduce (p : SfuProgram) (st : SfuStep) (x : Value) (m : MicroState) : MicroState :=
  match x with
  | .fin neg n d =>
    match st.mode with
    | 0 =>
      let a := (microConst p st.a).getD (.fin false 0 1)
      let b := (microConst p st.b).getD (.fin false 1 1)
      let t := (mulValue (addValue .rne x (negValue a)).1 b).1
      let v := match t with
        | .fin true _ _ => 0
        | .fin false tn td => min (tn * 2 ^ 40 / td) (2 ^ 40 - 1)
        | .inf false => 2 ^ 40 - 1
        | _ => 0
      { m with v := v }
    | 1 =>
      let y := roundAt40 neg n d p.reduceK 62
      { m with v := (y % 2 ^ 40).toNat, e := y / 2 ^ 40 }
    | _ =>
      if n = 0 then { m with v := 0, e := -1100, s := neg } else
        let (e, mn, md) := binade n d
        { m with v := (mn - md) * 2 ^ 40 / md, e := e, s := neg }
  | _ => m

/-- The LOOKUP step (R204). -/
def microLookup (st : SfuStep) (m : MicroState) : MicroState :=
  match st.mode with
  | 0 => { m with j := m.v / 2 ^ 33, u := m.v % 2 ^ 33, ud := 2 ^ 33 }
  | _ =>
    let sh := 40 - st.a
    let j : Int := (m.e - signedOf 8 st.b) * (2 ^ st.a : Nat) + (m.v / 2 ^ sh : Nat)
    if j < 0 then { m with j := 0, u := 0, ud := 1 }
    else if 127 < j then { m with j := 127, u := 1, ud := 1 }
    else { m with j := j.toNat, u := m.v % 2 ^ sh, ud := 2 ^ sh }

/-- The POLY step: C0 in Q8.40, C1 and C2 in Q4.36, rounded once to the working format (R203, R205). -/
def microPoly (p : SfuProgram) (m : MicroState) : Value :=
  let g := p.segments.getD m.j { c0 := 0, c1 := 0, c2 := 0 }
  roundWork (ofSigned (polyNum g.c0 (g.c1 * 16) (g.c2 * 16) m.u m.ud) (2 ^ 40 * (m.ud * m.ud)) false)

/-- The exponent a SCALE step applies (R204): n or e, negated, halved toward −∞. -/
def microExponent (mode : Nat) (e : Int) : Int :=
  let a := if mode.testBit 1 then -e else e
  if mode.testBit 2 then a / 2 else a

/-- The SCALE step (R204, R205). -/
def microScale (p : SfuProgram) (st : SfuStep) (m : MicroState) : Value :=
  let w1 := if st.mode.testBit 0 then
      (match m.w with
       | .fin neg n d =>
         let e := microExponent st.mode m.e
         if 0 ≤ e then .fin neg (n * 2 ^ e.toNat) d else .fin neg n (d * 2 ^ (-e).toNat)
       | v => v)
    else m.w
  let w2 := match microConst p st.a with
    | some c => roundWork (mulValue w1 c).1
    | none => w1
  let w3 := match microConst p st.b with
    | some c => roundWork (addValue .rne w2 c).1
    | none => w2
  if st.mode.testBit 3 ∧ m.s then negValue w3 else w3

/-- Whether a SELECT step's condition holds (R204). -/
def microSelect (p : SfuProgram) (st : SfuStep) (x : Value) : Bool :=
  let c := selectConst p 0 st.a
  match st.mode with
  | 0 => ltValue x c
  | 1 => ltValue c x || eqValue x c
  | _ => eqValue x (.fin false 0 1)

/-- One step of a microprogram other than EMIT. -/
def microStep (p : SfuProgram) (x : Value) (m : MicroState) (st : SfuStep) : MicroState :=
  match st.op with
  | 1 => microReduce p st x m
  | 2 => microLookup st m
  | 3 => if m.fixed then m else { m with w := microPoly p m }
  | 4 => if m.fixed then m else { m with w := microScale p st m }
  | 5 =>
    if microSelect p st x && !m.fixed then { m with w := selectConst p 1 st.b, fixed := true } else m
  | _ => m

/-- The clamp to the domain (R205). -/
def microClamp (p : SfuProgram) (x : Value) : Value :=
  if ltValue x (valueB32 p.domainLo) then valueB32 p.domainLo
  else if ltValue (valueB32 p.domainHi) x then valueB32 p.domainHi
  else x

/-- A microprogram of one lane (R205). `w0` is W before any step has written it, which the spec leaves open. -/
def sfuMicro (p : SfuProgram) (g : Format) (w0 : Value) (x : Value) : Nat × NumFlags :=
  match x with
  | .nan => (canonicalNaN g, flagNone)
  | _ =>
    let xc := microClamp p x
    let m := p.steps.foldl (microStep p xc) (microStart p w0)
    sfuRound g m.w

end Sys2Proof.Machine
end

