-- ==== Sys2Proof/Machine/GleanerProg.lean ====
section
/-!
DEFINITION. Gleaner programs (spec 09): threads, the instruction set, rows gathered by GPOOL and the end of a request.
-/

namespace Sys2Proof.Machine

/-! ### Threads (R262) -/

/-- Thread `t` of a gleaner replaced. -/
def State.putThread (s : State) (g t : Nat) (th : Thread) : State :=
  s.updGleaner g (fun x => { x with threads := Tbl.set none x.threads t (some th) })

/-- The thread of a request as it starts (R262). -/
def threadOf (r : GReq) (now : Nat) : Thread :=
  let put (t : Tbl Word64) (i v : Nat) : Tbl Word64 := Tbl.set 0 t i (BitVec.ofNat 64 v)
  { req := r, phase := .running
    s := put (put (put (put (put [] 0 r.payload.length) 1 r.target) 2 r.table) 3 (if r.pinned then r.epoch else 0)) 4
      (r.ctx % 256 + 256 * (r.cls % 256) + 65536 * (r.part % 256))
    v := [], args := r.payload, isOpen := false, record := [], count := 0, marks := 0, sent := 0, allMarks := 0, loops := []
    pc := 0, issued := 0, pendingRows := [], began := now, replaced := false, late := false }

/-- THREAD_START: the oldest INVOKE of the request queue takes the lowest free thread of eight, and its place in the queue is free (R254, R262). -/
def execThreadStart (g : Nat) (s : State) : Answer :=
  onGleaner g s (fun s =>
    let x := s.gleaner g
    match (x.queue.take 64).find? (fun r => r.kind == 6), (List.range 8).find? (fun t => (Tbl.get none x.threads t).isNone) with
    | some r, some t =>
      if x.holding then .next s
      else .next (((s.updGleaner g (fun x => { x with queue := x.queue.erase r })).putThread g t (threadOf r s.devTime)).drainQueue g)
    | _, _ => .next s)

/-- A thread's scalar register. -/
def Thread.scalar (th : Thread) (i : BitVec 5) : Word64 := Tbl.get 0 th.s i.toNat
/-- Writing a scalar register. -/
def Thread.setScalar (th : Thread) (i : BitVec 5) (v : Word64) : Thread := { th with s := Tbl.set 0 th.s i.toNat v }
/-- A thread's vector register: the low 3 bits of the field (R263). -/
def Thread.wide (th : Thread) (i : Nat) : WideLanes := Tbl.get zeroWide th.v (i % 8)
/-- One lane of a vector register. -/
def Thread.lane (th : Thread) (i l : Nat) : Word64 := ((th.wide i)[l]?).getD 0
/-- Writing a vector register. -/
def Thread.setWide (th : Thread) (i : Nat) (f : Nat → Word64) : Thread := { th with v := Tbl.set zeroWide th.v (i % 8) (wideOf f) }
/-- Whether rows on their way will still change a vector register (R269). -/
def Thread.busy (th : Thread) (i : Nat) : Bool := th.pendingRows.any (fun q => q.vd == i % 8)

/-- Flags of results enter the open record's MARKS and the gleaner's counters (R264, R283). -/
def raiseG (s : State) (g : Nat) (th : Thread) (fs : List NumFlags) : State × Thread :=
  (s.updGleaner g (fun x => fs.foldl (fun x f => x.countFlags f) x),
   { th with marks := th.marks ||| recordMarks (joinFlags fs) })

/-! ### Issue (R269, R270) -/

/-- How an instruction ends: done, waiting at issue (`held` where the wait itself leaves something), or stopping its request with a status. -/
inductive GStep where
  | done (s : State) (th : Thread)
  | wait
  | held (s : State)
  | stop (s : State) (status off : Nat)

/-- The fault that a stopped request reports by status (R260, R270, R306). -/
def State.stopThread (s : State) (g t : Nat) (th : Thread) (status off : Nat) : State :=
  let s1 := s.putThread g t { th with phase := .stopped status }
  match status with
  | 1 => (s1.updGleaner g (fun x => x.noteEnd th.req 1)).reportGleaner g th.req 0x0202 off ((s.gleaner g).tag (off / 65536)).word
  | 2 => (s1.updGleaner g (fun x => x.noteEnd th.req 2)).reportGleaner g th.req 0x0203 off th.req.kind
  | 3 => (s1.updGleaner g (fun x => x.noteEnd th.req 3)).reportGleaner g th.req 0x0204 off th.issued
  | _ => s1.reportGleaner g th.req 0x0207 off 0

/-- The instructions a request may issue (R270). -/
def issueLimit : Nat := 2 ^ 20

/-- Issuing an instruction of thread `t`: nothing where it is not running, has used up its instructions, or must wait. The
body sees the thread with its pc advanced. -/
def issueG (g t : Nat) (counted : Nat) (body : State → Thread → GStep) (s : State) : Answer :=
  onGleaner g s (fun s =>
    match Tbl.get none (s.gleaner g).threads t with
    | none => .next s
    | some th =>
      if th.phase ≠ .running ∨ issueLimit < th.issued + counted then .next s
      else
        match body s { th with pc := th.pc + 1, issued := th.issued + counted } with
        | .done s1 th1 => .next (s1.putThread g t th1)
        | .wait => .next s
        | .held s1 => .next s1
        | .stop s1 st off => .next (s1.stopThread g t { th with issued := th.issued + counted } st off))

/-- An instruction that changes only the thread. -/
def issueThread (g t : Nat) (f : Thread → Thread) (s : State) : Answer := issueG g t 1 (fun s th => .done s (f th)) s

/-- A scalar operation of two registers. -/
def issueGScalar (g t : Nat) (w : GWord) (f : Word64 → Word64 → Word64) (s : State) : Answer :=
  issueThread g t (fun th => th.setScalar w.d (f (th.scalar w.a) (th.scalar w.b))) s

/-- NOP. -/
def execGlnNop (g t : Nat) (_w : GWord) (s : State) : Answer := issueThread g t (fun th => th) s
/-- SLI. -/
def execGlnSli (g t : Nat) (w : GWord) (s : State) : Answer := issueThread g t (fun th => th.setScalar w.d (w.imm.signExtend 64)) s
/-- SLUI. -/
def execGlnSlui (g t : Nat) (w : GWord) (s : State) : Answer :=
  issueThread g t (fun th => th.setScalar w.d ((th.scalar w.d <<< 32) ||| w.imm.zeroExtend 64)) s
/-- SADD. -/
def execGlnSadd (g t : Nat) (w : GWord) (s : State) : Answer := issueGScalar g t w (· + ·) s
/-- SSUB. -/
def execGlnSsub (g t : Nat) (w : GWord) (s : State) : Answer := issueGScalar g t w (· - ·) s
/-- SADDI. -/
def execGlnSaddi (g t : Nat) (w : GWord) (s : State) : Answer :=
  issueThread g t (fun th => th.setScalar w.d (th.scalar w.a + w.imm.signExtend 64)) s
/-- SMUL: the low 64 bits. -/
def execGlnSmul (g t : Nat) (w : GWord) (s : State) : Answer := issueGScalar g t w (· * ·) s
/-- SMULH: the high 64 bits of the unsigned product. -/
def execSmulh (g t : Nat) (w : GWord) (s : State) : Answer :=
  issueGScalar g t w (fun a b => BitVec.ofNat 64 (a.toNat * b.toNat / two64)) s
/-- SAND. -/
def execGlnSand (g t : Nat) (w : GWord) (s : State) : Answer := issueGScalar g t w (· &&& ·) s
/-- SOR. -/
def execGlnSor (g t : Nat) (w : GWord) (s : State) : Answer := issueGScalar g t w (· ||| ·) s
/-- SXOR. -/
def execGlnSxor (g t : Nat) (w : GWord) (s : State) : Answer := issueGScalar g t w (· ^^^ ·) s
/-- SSHL by IMM[5:0]. -/
def execGlnSshl (g t : Nat) (w : GWord) (s : State) : Answer := issueGScalar g t w (fun a _ => a <<< (w.imm.toNat % 64)) s
/-- SSHR by IMM[5:0], logical. -/
def execGlnSshr (g t : Nat) (w : GWord) (s : State) : Answer := issueGScalar g t w (fun a _ => a >>> (w.imm.toNat % 64)) s

/-- `n` bytes of the argument buffer; none past the payload (R270). -/
def Thread.arg (th : Thread) (off n : Nat) : Option (List Byte) :=
  if th.args.length < off + n then none else some ((th.args.drop off).take n)

/-- SARG: 8 bytes of the argument buffer at sA + IMM. -/
def execSarg (g t : Nat) (w : GWord) (s : State) : Answer :=
  issueG g t 1 (fun s th =>
    match th.arg (th.scalar w.a + w.imm.signExtend 64).toNat 8 with
    | some bs => .done s (th.setScalar w.d (BitVec.ofNat 64 (leNat bs)))
    | none => .stop s 2 0) s

/-- The instruction words of the program in a request's slot at a gleaner (R54). -/
def State.gleanerCode (s : State) (g : Nat) (r : GReq) : List Nat :=
  let (tier, code) := s.channelCode g
  match s.planOf (s.reqPart r) with
  | none => []
  | some pl =>
    match pl.gleanerPlacement.find? (fun e => e.kind == 0 && e.tier == tier && e.channel == code && e.slot == r.slot) with
    | some e => ((pl.gleanerPrograms.find? (fun q => q.program == e.value)).map (fun q => q.code)).getD []
    | none => []

/-- LOOP: the count is IMM, at most 65,535 (R252), or sA capped at 65,535 with MODE[0]; 0 skips the body. -/
def execGlnLoop (g t : Nat) (w : GWord) (s : State) : Answer :=
  issueG g t 1 (fun s th =>
    let n := min (if w.mode.getLsbD 0 then (th.scalar w.a).toNat else w.imm.toNat) 65535
    if n = 0 then .done s { th with pc := findLoopEnd (fun i => (s.gleanerCode g th.req).getD i 0 % 256) 512 th.pc 0 }
    else .done s { th with loops := { body := th.pc, remaining := n } :: th.loops }) s

/-- ENDLOOP: back to the body while runs remain; it takes no clock and is no issued instruction (R265). -/
def execGlnEndloop (g t : Nat) (_w : GWord) (s : State) : Answer :=
  issueG g t 0 (fun s th =>
    match th.loops with
    | [] => .done s th
    | f :: fs =>
      if 1 < f.remaining then .done s { th with loops := { f with remaining := f.remaining - 1 } :: fs, pc := f.body }
      else .done s { th with loops := fs }) s

/-- END: the request waits for its operations (R269). -/
def execGlnEnd (g t : Nat) (_w : GWord) (s : State) : Answer := issueThread g t (fun th => { th with phase := .atEnd }) s

/-- HASH: the family of MODE[1:0], reduced to a row of TABLE with MODE[2] (R224). -/
def execHash (g t : Nat) (w : GWord) (s : State) : Answer :=
  issueG g t 1 (fun s th =>
    let h := hashKey (th.scalar w.a).toNat (th.scalar w.b).toNat (w.mode.toNat % 4)
    if w.mode.getLsbD 2 then
      match (s.planOf (s.reqPart th.req)).bind (fun pl => pl.tableOf th.req.table) with
      | some tb => .done s (th.setScalar w.d (BitVec.ofNat 64 (hashRow h tb.rows)))
      | none => .stop s 2 0
    else .done s (th.setScalar w.d (BitVec.ofNat 64 h))) s

/-! ### Lanes (R264, R266) -/

/-- The exact value of a lane under a format code: 11 is INT64. -/
def wideValue (fmt : Nat) (x : Word64) : Value :=
  if fmt = 11 then intValue x.toInt else laneValue (formatOf fmt) (x.truncate 32)

/-- Whether a format code is an integer lane format. -/
def wideInt (fmt : Nat) : Bool := fmt == 2 || fmt == 11

/-- An integer saturated into an integer lane format (R86, R272). -/
def wideSat (fmt : Nat) (i : Int) : Word64 × NumFlags :=
  if fmt = 11 then
    if 2 ^ 63 - 1 < i then (BitVec.ofInt 64 (2 ^ 63 - 1), flagOF)
    else if i < -(2 ^ 63 - 1) then (BitVec.ofInt 64 (-(2 ^ 63 - 1)), flagOF)
    else (BitVec.ofInt 64 i, flagNone)
  else
    let r := saturate32 i
    (r.1.zeroExtend 64, r.2)

/-- A value rounded once into a floating-point lane format. -/
def wideRound (fmt : Nat) (v : Value × Bool) : Word64 × NumFlags :=
  let r := roundArith (formatOf fmt) .rne v
  (r.1.zeroExtend 64, r.2)

/-- The integer a value stands for. -/
def valueInt (v : Value) : Int :=
  match v with
  | .fin neg n d => signedNum neg (n / d)
  | _ => 0

/-- A value as a lane. -/
def wideOfValue (fmt : Nat) (v : Value) : Word64 × NumFlags := if wideInt fmt then wideSat fmt (valueInt v) else wideRound fmt (v, false)

/-- Addition of two values into a lane (R266, R272). -/
def wideSum (fmt : Nat) (a b : Value) : Word64 × NumFlags :=
  if wideInt fmt then wideSat fmt (valueInt a + valueInt b) else wideRound fmt (addValue .rne a b)

/-- Multiplication into a lane. -/
def wideProd (fmt : Nat) (a b : Value) : Word64 × NumFlags :=
  if wideInt fmt then wideSat fmt (valueInt a * valueInt b) else wideRound fmt (mulValue a b)

/-- VMAX of R174 in a lane. -/
def wideMax (fmt : Nat) (a b : Word64) : Word64 × NumFlags :=
  if fmt = 11 then (if a.toInt < b.toInt then b else a, flagNone)
  else
    let r := laneExtreme (formatOf fmt) true (a.truncate 32) (b.truncate 32)
    (r.1.zeroExtend 64, r.2)

/-- The combination of GPOOL (R266): 0 SUM, 1 MAX, 2 WSUM, 3 LOAD. An element enters SUM, MAX and LOAD as a lane of the format, and WSUM exactly. -/
def combineLane (fmt comb weight : Nat) (old : Word64) (x : Value) : Word64 × NumFlags :=
  match comb with
  | 0 => let l := wideOfValue fmt x; let m := wideSum fmt (wideValue fmt old) (wideValue fmt l.1); (m.1, l.2.join m.2)
  | 1 => let l := wideOfValue fmt x; let m := wideMax fmt old l.1; (m.1, l.2.join m.2)
  | 2 =>
    let p := mulValue (valueB32 weight) x
    let a := addValue .rne (wideValue fmt old) p.1
    wideRound fmt (a.1, p.2 || a.2)
  | _ => wideOfValue fmt x

/-- VOP: MODE 0 ADD, 1 MUL, 2 MAX, 3 ZERO, in lanes of FMT. -/
def execVop (g t : Nat) (w : GWord) (s : State) : Answer :=
  issueG g t 1 (fun s th =>
    let a := w.a.toNat
    let b := w.b.toNat
    let fmt := w.fmt.toNat
    if th.busy w.d.toNat || th.busy a || th.busy b then .wait
    else
      let f (i : Nat) : Word64 × NumFlags :=
        match w.mode.toNat % 4 with
        | 0 => wideSum fmt (wideValue fmt (th.lane a i)) (wideValue fmt (th.lane b i))
        | 1 => wideProd fmt (wideValue fmt (th.lane a i)) (wideValue fmt (th.lane b i))
        | 2 => wideMax fmt (th.lane a i) (th.lane b i)
        | _ => (0, flagNone)
      let r := raiseG s g (th.setWide w.d.toNat (fun i => (f i).1)) ((List.range 128).map (fun i => (f i).2))
      .done r.1 r.2) s

/-- DOT: exact products of vA's lanes with the query, summed by the tree of R175, written or added to sD (R267). An offset
that is no multiple of 4 is INVALID (DEDUCED, log 35). -/
def execDot (g t : Nat) (w : GWord) (s : State) : Answer :=
  issueG g t 1 (fun s th =>
    let a := w.a.toNat
    if th.busy a then .wait
    else
      match if w.imm.toNat % 4 = 0 then th.arg w.imm.toNat 512 else none with
      | none => .stop s 2 0
      | some q =>
        let prods := (List.range 128).map (fun i => mulValue (wideValue w.fmt.toNat (th.lane a i)) (valueB32 (fieldLE q (4 * i) 4)))
        let first : List LaneOut := (List.range 64).map (fun i =>
          let x := prods.getD i (.nan, false)
          let y := prods.getD (i + 64) (.nan, false)
          let z := addValue .rne x.1 y.1
          roundArith .b32 .rne (z.1, x.2 || y.2 || z.2))
        let sum := ([32, 16, 8, 4, 2, 1].foldl (fun ys h => reduceLevel (laneAdd .b32 .rne) h ys) first).getD 0 (0, flagNone)
        let total : LaneOut := if w.mode.getLsbD 0 then
            (let r := laneAdd .b32 .rne ((th.scalar w.d).truncate 32) sum.1; (r.1, sum.2.join r.2)) else sum
        let r := raiseG s g (th.setScalar w.d (total.1.zeroExtend 64)) [total.2]
        .done r.1 r.2) s

/-- EXPACC: e = EXP(sA) in SF32 added to sD, and with MODE[0] e × vB added to the accumulator v(MODE[3:1]) (R268). -/
def execExpacc (g t : Nat) (w : GWord) (s : State) : Answer :=
  issueG g t 1 (fun s th =>
    let acc := w.mode.toNat / 2
    if w.mode.getLsbD 0 && (th.busy acc || th.busy w.b.toNat) then .wait
    else
      let e := sfuBuiltin .exp .sf32 (valueB32 ((th.scalar w.a).toNat % 2 ^ 32))
      let ev := decodeFloat .sf32 layoutSF32 e.1
      let sum := wideSum 1 (wideValue 1 (th.scalar w.d)) ev
      let lane (i : Nat) : Word64 × NumFlags :=
        let p := mulValue ev (wideValue 0 (th.lane w.b.toNat i))
        let a := addValue .rne (wideValue 1 (th.lane acc i)) p.1
        wideRound 1 (a.1, p.2 || a.2)
      let th1 := th.setScalar w.d sum.1
      let th2 := if w.mode.getLsbD 0 then th1.setWide acc (fun i => (lane i).1) else th1
      let r := raiseG s g th2 ([e.2, sum.2] ++ (if w.mode.getLsbD 0 then (List.range 128).map (fun i => (lane i).2) else []))
      .done r.1 r.2) s

/-! ### Gathering rows (R266, R269) -/

/-- The elements a resolved row read gives, as exact values. -/
def State.rowValues (s : State) (f : RowFetch) (got : List Byte × Bool × Bool) : List (Value × NumFlags) :=
  match (s.planOf (f.table / 4096)).bind (fun pl => (pl.tableOf (f.table % 4096)).map (fun t => (pl, t))) with
  | none => []
  | some (pl, t) =>
    let (bytes, stub, _) := s.fetchGives f got
    let code := if stub then bg2Code else t.rowFormat
    let els := slotElements bytes (rowElementBytes code t.elements)
    (List.range t.elements).map (rowValue code (rowScaleInfo pl t stub (slotScale bytes)) els)

/-- How a composed table combines its components: PRODUCT or SUM (R228). -/
def State.composeProduct (s : State) (r : GReq) : Bool :=
  match (s.planOf (s.reqPart r)).bind (fun pl => pl.tableOf r.table) with
  | some t => t.combine == 1
  | none => false

/-- The values of the row a pending read brings; none until it, and its P row, are resolved. -/
def State.pendingValues (s : State) (r : GReq) (q : PendingRow) : Option (List (Value × NumFlags) × Bool) :=
  match q.fetch.got, q.second with
  | none, _ => none
  | some a, none => some (s.rowValues q.fetch a, a.2.2)
  | some a, some f2 =>
    match f2.got with
    | none => none
    | some b =>
      let xs := s.rowValues q.fetch a
      let ys := s.rowValues f2 b
      some (xs.zipIdx.map (fun e =>
        let y := ys.getD e.2 (.nan, flagNone)
        let v := if s.composeProduct r then mulValue e.1.1 y.1 else addValue .rne e.1.1 y.1
        let z := roundArith .b32 .rne v
        (valueB32 z.1.toNat, (e.1.2.join y.2).join z.2)), a.2.2 || b.2.2)

/-- One resolved row combined into its register (R266). -/
def State.combineRow (s : State) (g : Nat) (th : Thread) (q : PendingRow) (vals : List (Value × NumFlags)) (degraded : Bool) :
    State × Thread :=
  let f (i : Nat) : Word64 × NumFlags :=
    match vals[128 * q.block + i]? with
    | some x => let c := combineLane q.fmt q.comb q.weight (th.lane q.vd i) x.1; (c.1, x.2.join c.2)
    | none => (th.lane q.vd i, flagNone)
  let th1 := { th.setWide q.vd (fun i => (f i).1) with marks := th.marks ||| degraded.toNat }
  let r := raiseG s g th1 ((List.range 128).map (fun i => (f i).2))
  let late (x : Option RowFetch) : List (GReq × RowFetch) :=
    match x with
    | some f => if f.deadline && !f.arrived then [(th.req, f)] else []
    | none => []
  (r.1.updGleaner g (fun x => { x with lateReads := x.lateReads ++ late (some q.fetch) ++ late q.second }), r.2)

/-- Resolved rows combine in program order for each register (R269, R300). -/
def State.combineReady (s : State) (g : Nat) (th : Thread) : State × Thread :=
  let r := th.pendingRows.foldl (fun (acc : State × Thread × List PendingRow) q =>
    let (s, th, left) := acc
    if left.any (fun o => o.vd == q.vd) then (s, th, left ++ [q])
    else
      match s.pendingValues th.req q with
      | some (vals, degraded) =>
        let c := s.combineRow g th q vals degraded
        (c.1, c.2, left)
      | none => (s, th, left ++ [q])) (s, th, [])
  (r.1, { r.2.1 with pendingRows := r.2.2 })

/-- The index and weight a GPOOL reads (R266); none past the payload. -/
def Thread.poolEntry (th : Thread) (w : GWord) : Option (Nat × Nat) :=
  let comb := w.mode.toNat % 4
  if w.mode.getLsbD 3 then some ((th.scalar w.a).toNat, if comb = 2 then (th.scalar w.b).toNat % 2 ^ 32 else 0)
  else
    (th.arg (th.scalar w.a).toNat (if comb = 2 then 16 else 8)).map (fun bs => (fieldLE bs 0 8, if comb = 2 then fieldLE bs 8 4 else 0))

/-- The advance of sA (R266). -/
def poolStep (w : GWord) : Nat := if w.mode.getLsbD 3 then 1 else if w.mode.toNat % 4 = 2 then 16 else 8

/-- Whether a program's access to a row waits at the displaced-row map (R244, R246): the row is coming and not yet ordered here, or at the peer to
which the gleaner forwards it, or this requester's marker has not come; or the row's bale has come and its drain marker has not (R309). -/
def State.rowHeld (s : State) (g : Nat) (r : GReq) (table row : Nat) : Bool :=
  let tk := tableKey (s.reqPart r) table
  match (s.gleaner g).mapOf tk row with
  | none => !r.forwarded && s.rowComing g (s.reqPart r) table row
  | some d =>
    match d.state with
    | .copying | .dual => false
    | .forward => (((s.gleaner d.peer).mapOf tk row).map (fun e => e.state)) == some .taking
    | .taking => true
    | .ordering => !(r.forwarded || d.marked.testBit r.requester)

/-- The same of the rows that a GPOOL reads: a composed table's Q and P rows (R228). -/
def State.poolHeld (s : State) (g : Nat) (r : GReq) (row : Nat) : Bool :=
  match (s.planOf (s.reqPart r)).bind (fun pl => (pl.tableOf r.table).map (fun t => (pl, t))) with
  | none => false
  | some (pl, t) =>
    if t.kind = 2 then
      let pRows := ((pl.tableOf t.remainder).map (fun u => u.rows)).getD 1
      s.rowHeld g r t.quotient (row / pRows) || s.rowHeld g r t.remainder (row % pRows)
    else s.rowHeld g r r.table row

/-- GPOOL resolves one row and issues its read (R266), under the deadline that its request has left (R298). -/
def execGpool (g t : Nat) (w : GWord) (s : State) : Answer :=
  issueG g t 1 (fun s th =>
    let vd := w.d.toNat % 8
    let p := s.reqPart th.req
    if 32 ≤ (th.pendingRows.filter (fun q => q.vd == vd)).length then .wait
    else
      match th.poolEntry w, (s.planOf p).bind (fun pl => pl.tableOf th.req.table) with
      | some (row, weight), some tb =>
        if tb.kind = 3 ∨ (wideInt w.fmt.toNat ∧ tb.rowFormat < 5) ∨ (wideInt w.fmt.toNat ∧ w.mode.toNat % 4 = 2) then .stop s 2 0
        else if s.poolHeld g th.req row then .wait
        else
          let th1 := if w.mode.getLsbD 2 then th.setScalar w.a (th.scalar w.a + BitVec.ofNat 64 (poolStep w)) else th
          let queue (s : State) (f : RowFetch) (f2 : Option RowFetch) : GStep :=
            let c := s.combineReady g { th1 with
              count := th1.count + 1
              pendingRows := th1.pendingRows ++
                [{ fetch := f, second := f2, vd := vd, block := w.imm.toNat % 32, comb := w.mode.toNat % 4, fmt := w.fmt.toNat, weight := weight }] }
            .done c.1 c.2
          let issue (s : State) (f : RowFetch) : State × RowFetch := s.issueFetch g th.req { f with expired := th.late }
          let admits (f : RowFetch) : Bool := th.req.system || s.fetchAdmits g th.req.ctx f
          match s.findRow g p th.req.table row th.req.cls (if th.req.pinned then some th.req.epoch else none) with
          | .row f | .outside f =>
            if !admits f then .stop s 1 f.addr
            else let i := issue s f; queue i.1 i.2 none
          | .composed f f2 =>
            if !admits f then .stop s 1 f.addr
            else if !admits f2 then .stop s 1 f2.addr
            else
              let i := issue s f
              let j := issue i.1 f2
              queue j.1 i.2 (some j.2)
          | .absent => .stop s 2 0
      | _, _ => .stop s 2 0) s

/-- An event on the row reads of the `n`-th pending row of a thread, after which resolved rows combine. -/
def State.onPending (s : State) (g t n : Nat) (f : State → GReq → RowFetch → State × RowFetch) : State :=
  match Tbl.get none (s.gleaner g).threads t with
  | none => s
  | some th =>
    match th.pendingRows[n]? with
    | none => s
    | some q =>
      let a := f s th.req q.fetch
      let b := match q.second with
        | some f2 => let r := f a.1 th.req f2; (r.1, some r.2)
        | none => (a.1, none)
      let th1 := { th with pendingRows := th.pendingRows.set n { q with fetch := a.2, second := b.2 } }
      let c := b.1.combineReady g th1
      c.1.putThread g t c.2

/-- An event on the row read of built-in operation `n`. -/
def State.onOp (s : State) (g n : Nat) (f : State → GReq → RowFetch → State × RowFetch) : State :=
  match (s.gleaner g).ops[n]? with
  | none => s
  | some o =>
    match o.fetch with
    | none => s
    | some q =>
      let a := f s o.req q
      a.1.finishRowRead g n o a.2

/-- A late loft read arrives and is discarded (R300). -/
def State.lateArrives (s : State) (g n : Nat) (ecc : Ecc) : State :=
  match (s.gleaner g).lateReads[n]? with
  | none => s
  | some (r, f) => (s.updGleaner g (fun x => { x with lateReads := x.lateReads.eraseIdx n })).fetchLate g r f ecc

/-- GPOOL_ROW_ARRIVE: the `n`-th row on its way to thread `t` arrives; thread number 8 names the loft reads whose rows were
resolved without them (R269, R300, R306). -/
def execGpoolRowArrive (g t n : Nat) (ecc : Ecc) (s : State) : Answer :=
  onGleaner g s (fun s =>
    if 8 ≤ t then .next (if s.retrains g then s else s.lateArrives g n ecc)
    else .next (s.onPending g t n (fun s r f =>
      if f.arrived || (s.retrains g && (f.source == .home || f.source == .retained)) then (s, f) else s.fetchArrives g r f ecc)))

/-! ### Memory-side operations of programs (R255, R272, R273) -/

/-- Whether a program may write a row here (R260): its orderer's bale admits it. -/
def State.rowWritable (s : State) (g : Nat) (r : GReq) (row : Nat) : Option (Bool × Nat) :=
  let p := s.reqPart r
  let o := s.ordererOf g (tableKey p r.table) row
  match s.rowPlace o p r.table row with
  | none => none
  | some (t, _, off) => some (r.system || s.rangeAdmits o off t.slot r.ctx true, off)

/-- A program's replacement as it waits for reserve space (R237). -/
def progWaiter (g t : Nat) (r : GReq) (row : Nat) : GReq := { r with kind := progKind g t, target := row }

/-- A program's replacement waits at the gleaner that orders the row, in arrival order and counted once (R237, R242); where 256 wait it is not
accepted, and stays at issue. -/
def State.progWait (s : State) (g t : Nat) (r : GReq) (row : Nat) : GStep :=
  let p := s.reqPart r
  let o := s.ordererOf g (tableKey p r.table) row
  let ws := (s.gleaner o).waiting
  if ws.any (fun q => q.kind == progKind g t) ∨ 256 ≤ ws.length then .wait
  else .held (s.waitReplace o p (((s.rowPlace o p r.table row).map (fun e => e.2.1)).getD 0) (progWaiter g t r row) false)

/-- A program's replacement of a row at one point (R229, R255, R260): it waits while the row is on its way, and behind earlier replacements of the
row; `op` is the replacement, and `keep` takes the old value into the thread. A lost loft row ends the request LOST (R312). -/
def State.progReplace (s : State) (g t : Nat) (th : Thread) (row : Nat) (op : RowOpEnd) (keep : Thread → List Byte → Thread) : GStep :=
  let p := s.reqPart th.req
  let x := s.gleaner (s.ordererOf g (tableKey p th.req.table) row)
  let mine := x.waiting.any (fun q => q.kind == progKind g t)
  let s1 := if mine then s.dropProg g t else s
  if s.rowHeld g th.req th.req.table row then .wait
  else
    match s.rowWritable g th.req row with
    | none => .stop s1 (if s.homeLost p th.req.table row then 5 else 2) 0
    | some (admits, off) =>
      if !admits && !mine then .stop s1 1 off
      else if (x.waiting.takeWhile (fun q => q.kind != progKind g t)).any (s.waitsFor p th.req.table row) then s.progWait g t th.req row
      else if !mine && s.stopsWrites (s.ordererOf g (tableKey p th.req.table) row) { th.req with kind := 4, target := row } then .wait
      else
        match op with
        | .done s2 old fl =>
          .done (if mine then s2.dropProg g t else s2)
            { keep th old with allMarks := (keep th old).allMarks ||| recordMarks (joinFlags fl), replaced := true }
        | .waits => s.progWait g t th.req row
        | .lost => .stop s1 5 off
        | .invalid => .stop s1 2 0

/-- ADDM: lanes of vB added to block IMM of row sA (R272). -/
def execAddm (g t : Nat) (w : GWord) (ecc : Ecc) (s : State) : Answer :=
  issueG g t 1 (fun s th =>
    if th.busy w.b.toNat then .wait
    else
      match (s.planOf (s.reqPart th.req)).bind (fun pl => pl.tableOf th.req.table) with
      | none => .stop s 2 0
      | some tb =>
        let first := 128 * w.imm.toNat
        let n := min 128 (tb.elements - first)
        let bits (i : Nat) : Nat := if w.fmt.toNat = 11 then (th.lane w.b.toNat i).toNat else (th.lane w.b.toNat i).toNat % 2 ^ 32
        let row := (th.scalar w.a).toNat
        s.progReplace g t th row (s.modifyRow g (s.reqPart th.req) th.req.table row ecc true (some th.req)
          (addToElements w.fmt.toNat first ((List.range n).map bits))) (fun th _ => th)) s

/-- CASM: compare-and-swap at byte IMM of row sA; the old value goes into sD (R273). -/
def execCasm (g t : Nat) (w : GWord) (ecc : Ecc) (s : State) : Answer :=
  issueG g t 1 (fun s th =>
    let row := (th.scalar w.a).toNat
    s.progReplace g t th row (s.modifyRow g (s.reqPart th.req) th.req.table row ecc false (some th.req)
        (casElements w.imm.toNat (th.scalar w.b).toNat (th.scalar w.d).toNat))
      (fun th old => th.setScalar w.d (BitVec.ofNat 64 (fieldLE old w.imm.toNat 8)))) s

/-! ### Records (R258, R270) -/

/-- An append to the open record; none where it passes STRIDE, or would open a 4,097th record. -/
def Thread.append (th : Thread) (bs : List Byte) : Option Thread :=
  if th.req.stride * 8 - 8 < th.record.length + bs.length ∨ (!th.isOpen && decide (4096 ≤ th.sent)) then none
  else some { th with isOpen := true, record := th.record ++ bs }

/-- Closing the open record: it is sent to the requester, and its marks join the END record's. -/
def State.closeRecord (s : State) (g : Nat) (th : Thread) : State × Thread :=
  if !th.isOpen then (s, { th with allMarks := th.allMarks ||| th.marks, marks := 0, count := 0 })
  else
    (s.send (.record th.req.requester g (recordFor th.req th.sent th.marks th.count th.record)),
     { th with isOpen := false, record := [], marks := 0, count := 0, sent := th.sent + 1, allMarks := th.allMarks ||| th.marks })

/-- A scalar or lane in a record's format (R264, R265): 8 bytes for INT64, a rounded 2 bytes for BF16 and binary16, else its
low 32 bits as they stand. -/
def recordBytes (fmt : Nat) (x : Word64) : List Byte × NumFlags :=
  match fmt with
  | 11 => (natLE 8 x.toNat, flagNone)
  | 3 => let r := encodeFloat .bf16 layoutBF16 .rne 0 (valueB32 (x.toNat % 2 ^ 32)); (natLE 2 r.1, r.2)
  | 4 => let r := encodeFloat .b16 layoutB16 .rne 0 (valueB32 (x.toNat % 2 ^ 32)); (natLE 2 r.1, r.2)
  | _ => (natLE 4 x.toNat, flagNone)

/-- EMIT: lanes 0 to IMM − 1 of vA appended in FMT; MODE[0] clears vA, MODE[1] closes the record. An IMM outside 1 to 128 is INVALID (DEDUCED,
log 35). -/
def execEmit (g t : Nat) (w : GWord) (s : State) : Answer :=
  issueG g t 1 (fun s th =>
    let a := w.a.toNat
    if th.busy a then .wait
    else if w.imm.toNat = 0 ∨ 128 < w.imm.toNat then .stop s 2 0
    else
      let cells := (List.range w.imm.toNat).map (fun i => recordBytes w.fmt.toNat (th.lane a i))
      match th.append (cells.flatMap Prod.fst) with
      | none => .stop s 2 0
      | some th1 =>
        let r := raiseG s g th1 (cells.map Prod.snd)
        let th2 := if w.mode.getLsbD 0 then r.2.setWide a (fun _ => 0) else r.2
        let c := if w.mode.getLsbD 1 then r.1.closeRecord g th2 else (r.1, th2)
        .done c.1 c.2) s

/-- EMITS: sA appended in FMT. -/
def execEmits (g t : Nat) (w : GWord) (s : State) : Answer :=
  issueG g t 1 (fun s th =>
    let c := recordBytes w.fmt.toNat (th.scalar w.a)
    match th.append c.1 with
    | none => .stop s 2 0
    | some th1 => let r := raiseG s g th1 [c.2]; .done r.1 r.2) s

/-- WROW: the open record's payload becomes the elements of row sA, with SCALE from sB; the record is consumed. -/
def execWrow (g t : Nat) (w : GWord) (s : State) : Answer :=
  issueG g t 1 (fun s th =>
    let row := (th.scalar w.a).toNat
    let p := s.reqPart th.req
    let o := s.ordererOf g (tableKey p th.req.table) row
    match (s.planOf p).bind (fun pl => pl.tableOf th.req.table) with
    | some tb =>
      if th.record.length ≠ tb.elementBytes then .stop s 2 0
      else
        s.progReplace g t th row
          (match s.replaceRow o p th.req.table row ((th.scalar w.b).toNat % 65536) 0 th.record with
           | .applied s1 => .done (s1.chargeReplaced o p th.req.table row th.req.ctx) [] []
           | .waits => .waits
           | .lost => .lost)
          (fun th _ => { th with isOpen := false, record := [], marks := 0, count := 0, allMarks := th.allMarks ||| th.marks })
    | none => .stop s 2 0) s

/-! ### The end of a request (R269, R270) -/

/-- GLN_END_RETIRE: once the thread's operations are complete its last record and its END record leave, and the thread is
free; a stopped request ends with its status. -/
def execGlnEndRetire (g t : Nat) (s : State) : Answer :=
  onGleaner g s (fun s =>
    match Tbl.get none (s.gleaner g).threads t with
    | none => .next s
    | some th =>
      match th.phase with
      | .running => .next s
      | .atEnd =>
        if !th.pendingRows.isEmpty then .next s
        else
          let c := s.closeRecord g th
          .next ((c.1.freeThread g t).endRequest g th.req 0 c.2.sent c.2.allMarks)
      | .stopped st => .next ((s.freeThread g t).endRequest g th.req st th.sent th.endMarks))

/-- REQUEST_OVERRUN: a request that has issued all its instructions and would issue another ends OVERRUN (R270). -/
def execRequestOverrun (g t : Nat) (s : State) : Answer :=
  onGleaner g s (fun s =>
    match Tbl.get none (s.gleaner g).threads t with
    | none => .next s
    | some th => if th.phase = .running ∧ issueLimit ≤ th.issued then .next (s.stopThread g t th 3 0) else .next s)

end Sys2Proof.Machine
end

