-- ==== Sys2Proof/Machine/TableCmds.lean ====
section
/-!
DEFINITION. Tables in service (spec 08): epochs and pins, load windows, row migration and replication, and the routing of
rows by the bay map copies (R227, R233 to R251, R311, R312).
-/

namespace Sys2Proof.Machine

/-! ### Routing (R227, R244, R250, R311, R312) -/

/-- A bay map copy. -/
def State.copyMap (s : State) (k : Nat) : BayMapCopy := Tbl.get copyMapReset s.copyMaps k
/-- The state with a copy changed. -/
def State.updCopyMap (s : State) (k : Nat) (f : BayMapCopy → BayMapCopy) : State :=
  { s with copyMaps := Tbl.set copyMapReset s.copyMaps k (f (s.copyMap k)) }

/-- The bay map copies of a partition: its clusters, both GFE instances and both Igrum engines (R227). -/
def State.copiesOfPart (s : State) (p : Nat) : List Nat :=
  match (s.part p).desc with
  | some d => bitsSet d.clusters 24 ++ [24, 25, 26, 27]
  | none => []

/-- Where copy `k` sends a request for a row: a moved row's gleaner; for an unpinned lookup the copy's replica; the home; a lost
home's mirror; a lost loft row's stubble bay; none where the copy answers itself (R244, R250, R311, R312). -/
def State.routeRow (s : State) (k p table row : Nat) (lookup pinned : Bool) : Option Nat :=
  let tk := tableKey p table
  let m := s.copyMap k
  let replica := if lookup && !pinned then
      ((m.replicas.find? (fun r => r.table == tk && r.row == row)).bind (fun r => r.holders[k % max 1 r.holders.length]?)) else none
  match replica with
  | some g => some g
  | none =>
    match m.moves.find? (fun e => e.1 == tk && e.2.1 == row) with
    | some e => some e.2.2
    | none =>
      match s.rowHome p table row with
      | none => none
      | some (pl, t, n, b) =>
        match s.bayGleaner b t (row - b.firstRow) with
        | some g => some g
        | none =>
          match s.mirrorOf p table n row with
          | some (g, _) => some g
          | none =>
            if b.tier = 1 then
              match (pl.copiesOf table 2 n).find? (fun e => e.2.covers row) with
              | some (_, sb) => s.bayGleaner sb t (row - sb.firstRow)
              | none => none
            else none

/-- Where a lookup of a deadline class goes while the loft package that holds its row is held for a microcode load: the stubble bay's gleaner,
or none for the default row (R312, R574). -/
def State.standIn (s : State) (p table row : Nat) : Option Nat :=
  match s.rowHome p table row with
  | none => none
  | some (pl, t, n, _) =>
    match (pl.copiesOf table 2 n).find? (fun e => e.2.covers row) with
    | some (_, sb) => s.bayGleaner sb t (row - sb.firstRow)
    | none => none

/-! ### Epochs and pins (R233 to R239) -/

/-- A change of a partition's pins on a table, after which its gleaners are told if the pinned epochs changed (R234). -/
def State.changePins (s : State) (p table : Nat) (f : State → State) : State :=
  let s1 := f s
  if s1.pinnedEpochs p table = s.pinnedEpochs p table then s1 else s1.send (.pinSet p table (s1.pinnedEpochs p table))

/-- A table's board. -/
def State.board (s : State) (p table : Nat) : TableBoard := Tbl.get { epoch := 0, leases := [] } (s.part p).boards table

/-- The last acknowledgement of a new epoch (R233): every copy takes a lease on it and gives back those on earlier epochs on which
it has no pin, and the command completes with the epoch. -/
def State.finishEpoch (s : State) (a : EpochAdvance) : State :=
  let ks := s.copiesOfPart a.part
  let keeps (l : Nat × Nat) : Bool := l.1 < 24 && Tbl.get 0 (s.cluster l.1).pinCount (pinKey a.table l.2) != 0
  let s1 := ks.foldl (fun s k => if k < 24 then s.updCluster k (fun c => { c with leases := Tbl.set 0 c.leases a.table a.epoch }) else s) s
  let s2 := s1.updBoard a.part a.table (fun b => { b with leases := b.leases.filter keeps ++ ks.map (fun k => (k, a.epoch)) })
  let s3 := s2.updPart a.part (fun x => { x with advances := x.advances.filter (fun b => b.table != a.table) })
  match (s3.queue a.queue).cmd a.seq with
  | some c => s3.finishResult a.queue c (c.ref 0) (natLE 4 a.epoch)
  | none => s3

/-- EPOCH_ADVANCE (R233, R239): waits while 16 epochs carry pins, while the new epoch would lie 2^31 or more above the oldest
pinned one, or while an advance of the table is under way. -/
def execEpochAdvance (q seq : Nat) (s : State) : Answer :=
  onQueue q s (fun s =>
    match s.dispatched q seq 0x11 with
    | none => .next s
    | some c =>
      let p := (s.queue q).part
      let table := c.field 0 2
      match (s.planOf p).bind (fun pl => pl.tableOf table) with
      | none => .next (s.finishCmd q seq codeMismatch)
      | some _ =>
        let epoch := ((s.board p table).epoch + 1) % 2 ^ 32
        let pins := s.pinnedEpochs p table
        if 16 ≤ pins.length ∨ pins.any (fun e => decide (2 ^ 31 ≤ (epoch + 2 ^ 32 - e) % 2 ^ 32)) ∨
            (s.part p).advances.any (fun a => a.table == table) then .next s
        else
          let gs := s.tableGleaners p table
          let a : EpochAdvance := { part := p, table := table, epoch := epoch, waiting := gs, queue := q, seq := seq }
          let s1 := (s.updPart p (fun x => { x with
              boards := Tbl.modify { epoch := 0, leases := [] } x.boards table (fun b => { b with epoch := epoch })
              advances := x.advances ++ [a] })).updCmd q seq (fun c => { c with phase := .running })
          let s2 := s1.sendAll (gs.map (fun g => .epoch g p table epoch (s1.pinnedEpochs p table)))
          .next (if gs.isEmpty then s2.finishEpoch a else s2))

/-- A command of partition `p` at gleaner `g`. -/
def onGleanerPart (g p : Nat) (s : State) (f : State → Answer) : Answer := onGleaner g s (fun s => onPart p s f)

/-- EPOCH_DISTRIBUTE: a gleaner takes a new epoch and pin set in one step (R233). -/
def execEpochDistribute (g p table epoch : Nat) (pins : List Nat) (s : State) : Answer :=
  onGleanerPart g p s (fun s =>
    let s1 := s.updGleaner g (fun x => { x with
      epochs := Tbl.set 0 x.epochs (tableKey p table) epoch, pinned := Tbl.set [] x.pinned (tableKey p table) pins })
    .next ((s1.retryWaiting g).send (.epochAck g p table)))

/-- EPOCH_ACK: a gleaner's acknowledgement reaches the front end (R233). -/
def execEpochAck (g p table : Nat) (s : State) : Answer :=
  onGleanerPart g p s (fun s =>
    match (s.part p).advances.find? (fun a => a.table == table && a.waiting.contains g) with
    | none => .next s
    | some a =>
      let b := { a with waiting := a.waiting.erase g }
      if b.waiting.isEmpty then .next (s.finishEpoch b)
      else .next (s.updPart p (fun x => { x with advances := x.advances.map (fun c => if c = a then b else c) })))

/-- TABLE_PIN (R234): waits while the partition has 1,024 held pins; the lowest free handle is given. -/
def execTablePin (q seq : Nat) (s : State) : Answer :=
  onQueue q s (fun s =>
    match s.dispatched q seq 0x12 with
    | none => .next s
    | some c =>
      let p := (s.queue q).part
      let table := c.field 0 2
      match (s.planOf p).bind (fun pl => pl.tableOf table) with
      | none => .next (s.finishCmd q seq codeMismatch)
      | some t =>
        if !t.pinnable then .next (s.finishCmd q seq codeMismatch)
        else
          match (List.range 1024).find? (fun i => !(s.part p).heldPins.any (fun h => h.handle == i + 1)) with
          | none => .next s
          | some i =>
            let e := (s.board p table).epoch
            let pin : HeldPin := { handle := i + 1, table := table, epoch := e, ctx := (s.queue q).context, queue := q }
            let s1 := s.changePins p table (fun s => s.updPart p (fun x => { x with heldPins := x.heldPins ++ [pin] }))
            .next (s1.finishResult q c (c.ref 0) (natLE 4 (i + 1) ++ natLE 4 e)))

/-- Releasing held pins that satisfy a test (R234, R241). -/
def State.dropPins (s : State) (p : Nat) (gone : HeldPin → Bool) : State :=
  (((s.part p).heldPins.filter gone).map (fun h => h.table)).eraseDups.foldl
    (fun s table => s.changePins p table (fun s => s.updPart p (fun x =>
      { x with heldPins := x.heldPins.filter (fun h => !(gone h && h.table == table)) }))) s

/-- TABLE_UNPIN (R234, R419): a handle the queue's context does not hold, and no plan switch released, is BOUNDS. -/
def execTableUnpin (q seq : Nat) (s : State) : Answer :=
  onQueue q s (fun s =>
    match s.dispatched q seq 0x13 with
    | none => .next s
    | some c =>
      let p := (s.queue q).part
      let ctx := (s.queue q).context
      let n := c.field 0 2
      if (s.part p).heldPins.any (fun h => h.handle == n && h.ctx == ctx) then
        .next ((s.dropPins p (fun h => h.handle == n && h.ctx == ctx)).finishCmd q seq 0)
      else if (s.part p).lapsedPins.any (fun h => h.handle == n && h.ctx == ctx) then .next (s.finishCmd q seq 0)
      else .next (s.finishCmd q seq codeBounds))

/-- PIN_SET_UPDATE: a gleaner takes a changed set of pinned epochs; replacements that waited may proceed (R234, R238, R241). -/
def execPinSetUpdate (g p table : Nat) (epochs : List Nat) (s : State) : Answer :=
  onGleanerPart g p s (fun s =>
    .next ((s.updGleaner g (fun x => { x with pinned := Tbl.set [] x.pinned (tableKey p table) epochs })).retryWaiting g))

/-! ### TABLE_WRITE (R229, R419) -/

/-- A ROW_WRITE that the front end sends for a command (R424). -/
def rowWriteFor (ctx tag inst table row : Nat) (slot : List Byte) : GReq :=
  { kind := 3, ctx := ctx, cls := 0, pinned := false, system := false, forwarded := false, marker := false, table := table, slot := 0
    part := 0, tag := tag, epoch := 0, target := row, requester := 24 + inst, stride := 2, returnAddr := 0, payload := slot }

/-- TABLE_WRITE: rows staged in memory are sent as ROW_WRITEs in order through the instance's bay map copy; each END lowers the
command's live count. A row of a lost bay adds WEIGHT_LOST (R311, R426). -/
def execTableWrite (q seq : Nat) (s : State) : Answer :=
  onQueue q s (fun s =>
    match s.dispatched q seq 0x10 with
    | none => .next s
    | some c =>
      let x := s.queue q
      let table := c.field 0 2
      match (s.planOf x.part).bind (fun pl => pl.tableOf table) with
      | none => .next (s.finishCmd q seq codeMismatch)
      | some t =>
        let byKey := (c.field 2 1).testBit 0
        let n := c.field 8 4
        let unit := t.slot + (if byKey then 8 else 0)
        if (c.ref 0).form = 0 ∨ (c.ref 0).len < n * unit then .next (s.finishCmd q seq codeBounds)
        else
          let (s, st, bytes) := s.ctxFetch x.context (tagOf q seq) (c.ref 0).addr (n * unit)
          if st ≠ 0 then .next ((s.updCmd q seq (fun c => { c with marks := c.marks ||| markWeightLost })).finishCmd q seq 0)
          else
            let item (i : Nat) : Nat × List Byte :=
              let bs := (bytes.drop (i * unit)).take unit
              if byKey then (if t.hash = 0xFF then fieldLE bs 0 8 else hashRow (hashKey (fieldLE bs 0 8) t.seed t.hash) t.rows, bs.drop 8)
              else (c.field 3 5 + i, bs)
            let sent := (List.range n).map (fun i =>
              let e := item i
              (s.routeRow (24 + x.inst) x.part table e.1 false false).map (fun g =>
                Out.request g (rowWriteFor x.context (tagOf q seq) x.inst table e.1 e.2)))
            let outs := sent.filterMap (fun o => o)
            let s1 := (s.sendAll outs).updCmd q seq (fun c => { c with
              phase := .running, live := outs.length
              marks := if outs.length < n then c.marks ||| markWeightLost else c.marks })
            .next (if outs.isEmpty then s1.finishCmd q seq 0 else s1))

/-! ### Load windows (R242) -/

/-- The four most looked-up rows of a window, highest first, lower rows first among equals (R242). -/
def hotRows (rows : Tbl Nat) : List (Nat × Nat) :=
  (rows.mergeSort (fun a b => decide (b.2 < a.2) || (a.2 == b.2 && decide (a.1 ≤ b.1)))).take 4

/-- A load record (R242). -/
def loadRecord (window table channel bay : Nat) (l : BayLoad) : List Byte :=
  natLE 4 window ++ natLE 2 table ++ natLE 2 channel ++ natLE 4 bay ++ natLE 4 l.lookups ++ natLE 4 l.reads ++ natLE 4 l.replacements ++
    natLE 4 l.waits ++ zeroBytes 4 ++ padTo 32 ((hotRows l.rows).flatMap (fun e => natLE 5 e.1 ++ natLE 3 e.2))

/-- One bay's record goes to the reeve, to the table's ring, or nowhere (R242). -/
def State.emitLoad (s : State) (g key : Nat) (l : BayLoad) : State :=
  let p := key / 2 ^ 20
  let bay := key % 2 ^ 20
  match s.planOf p with
  | none => s
  | some pl =>
    match pl.bays[bay]? with
    | none => s
    | some b =>
      match pl.tableOf b.table with
      | none => s
      | some t =>
        let bytes := loadRecord (s.gleaner g).window b.table (s.channelCode g).2 bay l
        if t.balance = 1 ∨ t.replicate then s.send (.loadRecord g bytes)
        else if t.balance = 2 ∧ t.loadRingLength ≠ 0 then
          let i := Tbl.get 0 (s.part p).rings b.table
          let s1 := s.updPart p (fun x => { x with rings := Tbl.set 0 x.rings b.table ((i + 1) % t.loadRingLength) })
          (s1.ctxWrite (s.ctxBase p + t.loadContext) 0 (t.loadRing + 64 * i) bytes).1
        else s

/-! ### Row migration (R244 to R248) -/

/-- The rows of a partition that live away from home. -/
def State.movedRows (s : State) (p : Nat) : Nat :=
  sumNat (s.gleaners.map (fun e => (e.2.moved.filter (fun m => m.1 / 4096 == p)).length))

/-- What refuses a MIGRATE (R247, R419): 1 RETAINED, 2 REPLICATED, 3 MAP_FULL, 4 MOVE_TABLE_FULL, 6 NO_SLOT; else the source, its
offset, the destination, the destination's bay and offset. A row already in a move is MAP_FULL (DEDUCED, log 25). -/
def State.moveCheck (s : State) (p table row bay : Nat) : Nat ⊕ (Nat × Nat × Nat × Nat) :=
  let tk := tableKey p table
  match s.holderOf p table row, (s.planOf p).bind (fun pl => (pl.bays[bay]?).bind (fun b => (pl.tableOf table).map (fun t => (pl, b, t)))) with
  | some src, some (_, b, t) =>
    let x := s.gleaner src
    match s.rowPlace src p table row, s.bayGleaner b t 0 with
    | some (_, home, off), some dst =>
      let y := s.gleaner dst
      if x.retained.any (fun c => c.table == tk && c.row == row && !x.isDead c) then .inl 1
      else if x.replicas.any (fun r => r.table == tk && r.row == row) then .inl 2
      else if 256 ≤ x.map.length ∨ 256 ≤ y.map.length ∨ (x.mapOf tk row).isSome then .inl 3
      else if b.table ≠ table ∨ b.role ≠ 0 ∨ dst = src then .inl 6
      else
        let away := x.moved.any (fun m => m.1 == tk && m.2.1 == row)
        if bay = home then (if away then .inr (src, off, dst, s.baySlot b t (row - b.firstRow)) else .inl 6)
        else if !away && decide (16384 ≤ s.movedRows p) then .inl 4
        else
          match (Tbl.get [] y.freeSlots (bayKey p bay)).head? with
          | some o => .inr (src, off, dst, o)
          | none => .inl 6
    | _, _ => .inl 6
  | _, _ => .inl 6

/-- A migration begins (R244): both map entries, the copy read at one point and sent. -/
def State.startMove (s : State) (p table row bay src off dst dstOff tag : Nat) : State :=
  let tk := tableKey p table
  let size := match (s.planOf p).bind (fun pl => pl.tableOf table) with
    | some t => t.slot
    | none => 8
  let note (x : GleanerState) : GleanerState := { x with mapPeak := max x.mapPeak x.map.length }
  let s1 := s.updGleaner src (fun x => note { x with map := x.map ++
    [{ table := tk, row := row, state := .copying, peer := dst, count := 0, marked := 0, offset := off, bay := bay, tag := tag }] })
  let s2 := s1.updGleaner dst (fun x => note { x with
    map := x.map ++ [{ table := tk, row := row, state := .taking, peer := src, count := 0, marked := 0, offset := dstOff, bay := bay, tag := tag }]
    freeSlots := Tbl.modify [] x.freeSlots (bayKey p bay) (fun l => l.erase dstOff) })
  s2.send (.moveCopy dst src tk row ((s.gleaner src).slotAt off size) true)

/-- A move refused for a retained copy is counted at the gleaner that holds the row (R247). -/
def State.countRefusal (s : State) (p table row code : Nat) : State :=
  match (if code = 1 then s.holderOf p table row else none) with
  | some g => s.updGleaner g (fun x => { x with refusedMoves := x.refusedMoves + 1 })
  | none => s

/-- MIGRATE (R244, R247). -/
def execMigrate (q seq : Nat) (s : State) : Answer :=
  onQueue q s (fun s =>
    match s.dispatched q seq 0x14 with
    | none => .next s
    | some c =>
      let p := (s.queue q).part
      let table := c.field 0 2
      let row := c.field 2 5
      let bay := c.field 7 4
      match (s.planOf p).bind (fun pl => pl.tableOf table) with
      | none => .next (s.finishCmd q seq codeMismatch)
      | some _ =>
        match s.moveCheck p table row bay with
        | .inl code => .next ((s.countRefusal p table row code).finishResult q c (c.ref 0) (natLE 4 code))
        | .inr (src, off, dst, o) =>
          if s.rolls src || s.rolls dst then .next s
          else .next ((s.startMove p table row bay src off dst o (tagOf q seq)).updCmd q seq (fun c => { c with phase := .running })))

/-- A slot with FORWARD set or clear (R219, R244). -/
def slotForward (slot : List Byte) (on : Bool) : List Byte :=
  let fl := slotFlags slot
  slot.take 4 ++ natLE 2 (putBits fl 2 1 on.toNat) ++ slot.drop 6

/-- MIGRATION_COPY: the copy, or a replacement behind it, is written at the destination; the copy is acknowledged (R244). -/
def execMigrationCopy (g source tk row : Nat) (slot : List Byte) (first : Bool) (s : State) : Answer :=
  onGleaner g s (fun s =>
    match (s.gleaner g).mapOf tk row with
    | none => .next s
    | some d =>
      if d.state ≠ .taking then .next s
      else
        let s1 := s.updGleaner g (fun x => x.putSlot d.offset (slotForward slot false))
        .next (if first then s1.send (.moveAck source tk row) else s1))

/-- MIGRATION_COPY_ACK: the source goes to DUAL and on to FORWARD: FORWARD in its slot, FORWARD_START behind the last
mirrored replacement, a move update for every copy, and the count of markers to come (R244, R245). The row has left this gleaner's cache. -/
def execMigrationCopyAck (g tk row : Nat) (s : State) : Answer :=
  onGleaner g s (fun s =>
    match (s.gleaner g).mapOf tk row with
    | none => .next s
    | some d =>
      if d.state ≠ .copying then .next s
      else
        let p := tk / 4096
        let ks := s.copiesOfPart p
        let size := match (s.planOf p).bind (fun pl => pl.tableOf (tk % 4096)) with
          | some t => t.slot
          | none => 8
        let s1 := s.updGleaner g (fun x =>
          { x.forgetRow tk row with
            data := x.data.put d.offset (slotForward (x.slotAt d.offset size) true)
            map := x.map.map (fun e => if e = d then { e with state := .forward, count := ks.length } else e) })
        .next ((s1.send (.forwardStart d.peer tk row)).sendAll (ks.map (fun k => .moveUpdate k tk row d.peer g))))

/-- FORWARD_START: the destination orders the row from here on; a row back in loft has its stubble row written from the
returning copy (R244, R292). -/
def execForwardStart (g tk row : Nat) (s : State) : Answer :=
  onGleaner g s (fun s =>
    match (s.gleaner g).mapOf tk row with
    | none => .next s
    | some d =>
      if d.state ≠ .taking then .next s
      else
        let p := tk / 4096
        let s1 := s.updGleaner g (fun x => { x with map := x.map.map (fun e => if e = d then { e with state := .ordering } else e) })
        match s.rowHome p (tk % 4096) row with
        | none => .next s1
        | some (pl, t, home, _) =>
          if d.bay = home then
            let stub := if isLoft g ∧ t.stubble then
                (match s.stubbleGleaner p (tk % 4096) row with
                 | some sg => [Out.stubRefresh sg tk row (stubbleOf pl t ((s.gleaner g).slotAt d.offset t.slot))]
                 | none => []) else []
            .next (s1.sendAll stub)
          else .next (s1.updGleaner g (fun x => { x with moved := x.moved ++ [(tk, row, d.offset)] })))

/-- MOVE_UPDATE: a copy applies a move and sends its marker to the source channel (R245). -/
def execMoveUpdate (k tk row dest source : Nat) (s : State) : Answer :=
  if 28 ≤ k then .fault .noSuchUnit
  else
    let home := match s.rowHome (tk / 4096) (tk % 4096) row with
      | some (_, t, _, b) => s.bayGleaner b t (row - b.firstRow)
      | none => none
    .next ((s.updCopyMap k (fun m =>
      let rest := m.moves.filter (fun e => !(e.1 == tk && e.2.1 == row))
      { m with moves := if home = some dest then rest else rest ++ [(tk, row, dest)] })).send (.moveMarker source tk row k))

/-- MOVE_MARKER: a copy's marker reaches the source, which forwards it; at the last one the stub goes, its FORWARD bit
with it, and its slot is a free move slot unless it is the row's home slot (R219, R245). -/
def execMoveMarker (g tk row k : Nat) (s : State) : Answer :=
  onGleaner g s (fun s =>
    match (s.gleaner g).mapOf tk row with
    | none => .next s
    | some d =>
      if d.state ≠ .forward then .next s
      else
        let p := tk / 4096
        let s1 := s.send (.moveMarkerForward d.peer tk row k)
        if 1 < d.count then
          .next (s1.updGleaner g (fun x => { x with map := x.map.map (fun e => if e = d then { e with count := e.count - 1 } else e) }))
        else
          .next (s1.updGleaner g (fun x =>
            let y := { x.dropMap tk row with data := x.data.put d.offset (slotForward (x.slotAt d.offset 8) false) }
            if x.moved.contains (tk, row, d.offset) then
              { y with
                moved := y.moved.erase (tk, row, d.offset)
                freeSlots := match s.moveBay g tk d.offset with
                  | some bay => Tbl.modify [] y.freeSlots (bayKey p bay) (· ++ [d.offset])
                  | none => y.freeSlots }
            else y)))

/-- MOVE_MARKER_FORWARD: the copy's held requests are applied in arrival order; with the last marker the destination releases
its entry and the migration is complete (R246, R248). -/
def execMoveMarkerForward (g tk row k : Nat) (s : State) : Answer :=
  onGleaner g s (fun s =>
    match (s.gleaner g).mapOf tk row with
    | none => .next s
    | some d =>
      if d.state ≠ .ordering then .next s
      else
        let marked := d.marked ||| 2 ^ k
        let hit (r : GReq) : Bool := tableKey (s.reqPart r) r.table == tk && r.target == row && r.requester == k
        let mine := (s.gleaner g).held.filter hit
        let done := (s.copiesOfPart (tk / 4096)).all (fun c => marked.testBit c)
        let s1 := s.updGleaner g (fun x => { x with
          held := x.held.filter (fun r => !hit r)
          map := x.map.map (fun e => if e = d then { e with marked := marked } else e) })
        let s2 := (s1.takeHeld g mine).drainQueue g
        .next (if done then ((s2.updGleaner g (fun x => x.dropMap tk row)).finishMove d.tag 0) else s2))

/-! ### Hot-row replication (R249 to R251) -/

/-- Whether a gleaner's share has room for one more replica slot: default and replica slots are never displaced (R275). -/
def State.replicaRoom (s : State) (g p table slot : Nat) : Bool :=
  let fixed := ((s.gleaner g).cache.filter (fun c => c.table == tableKey p table && c.kind == 1)).length + 1
  (fixed + 1) * slot ≤ s.cacheShare g p table

/-- The gleaners that take a row's replicas: those of the table with room, other than its home, taken from the two dies in turn,
lowest numbers first (R249; DESIGN CHOICE, log 26). -/
def State.replicaPlaces (s : State) (home p table slot n : Nat) : List Nat :=
  let ok := ((s.tableGleaners p table).filter (fun g => g != home && s.replicaRoom g p table slot)).mergeSort (fun a b => decide (a ≤ b))
  let east (g : Nat) : Bool := if g < 384 then decide (192 ≤ g) else decide (416 ≤ g)
  let a := ok.filter (fun g => !east g)
  let b := ok.filter east
  ((List.range (max a.length b.length)).flatMap (fun i => (a[i]?).toList ++ (b[i]?).toList)).take n

/-- A new replica slot, which may displace the least recently used home slot (R249, R275). -/
def State.placeReplica (s : State) (g tk row : Nat) (slot : List Byte) : State :=
  s.updGleaner g (fun x =>
    let mine := x.cache.filter (fun c => c.table == tk)
    let room := s.cacheShare g (tk / 4096) (tk % 4096) / max 1 slot.length
    let c : CacheSlot := { table := tk, row := row, kind := 1, slot := slot, recency := x.cacheClock, markers := 0, withdrawing := false, hits := 0 }
    let rest := if mine.length + 2 ≤ room then x.cache else
      match argMin (fun c : CacheSlot => c.recency) (mine.filter (fun c => c.kind == 0)) with
      | some old => x.cache.erase old
      | none => x.cache
    { x with cache := rest ++ [c] })

/-- HOT in the home's slot (R219, R249). -/
def slotHot (slot : List Byte) (on : Bool) : List Byte :=
  slot.take 4 ++ natLE 2 (putBits (slotFlags slot) 3 1 on.toNat) ++ slot.drop 6

/-- Placing `count` replicas of a row (R249): the slots from the home, HOT and the replica directory there, then the replica tables of the copies;
none where the gleaners or the directory have no room. -/
def State.replicateRow (s : State) (home p : Nat) (t : TableDesc) (row off count : Nat) : Option State :=
  let tk := tableKey p t.table
  let places := s.replicaPlaces home p t.table t.slot count
  let used := sumNat (s.gleaners.map (fun e => (e.2.replicas.filter (fun r => r.table / 4096 == p)).length))
  if places.length < count ∨ 16384 ≤ used then none
  else
    let slot := (s.gleaner home).slotAt off t.slot
    let s1 := places.foldl (fun s g => s.placeReplica g tk row slot) s
    let e : ReplicaEntry := { table := tk, row := row, holders := places, quiet := 0 }
    let s2 := s1.updGleaner home (fun x => { x with data := x.data.put off (slotHot slot true), replicas := x.replicas ++ [e] })
    some ((s2.copiesOfPart p).foldl (fun s k => s.updCopyMap k (fun m => { m with replicas := m.replicas ++ [e] })) s2)

/-- Withdrawing a row's replicas (R251): out of the copies' tables, a marker from each copy to each replica, HOT cleared; the slots wait for the
markers. -/
def State.withdrawRow (s : State) (home p off size : Nat) (e : ReplicaEntry) : State :=
  let ks := s.copiesOfPart p
  let s1 := ks.foldl (fun s k => s.updCopyMap k (fun m => { m with
    replicas := m.replicas.filter (fun r => !(r.table == e.table && r.row == e.row)) })) s
  let s2 := s1.sendAll (e.holders.flatMap (fun g => ks.map (fun k => .withdrawMarker g e.table e.row k)))
  let s3 := s2.updGleaner home (fun x => { x with
    data := x.data.put off (slotHot (x.slotAt off size) false), replicas := x.replicas.erase e })
  e.holders.foldl (fun s g => s.updGleaner g (fun x => { x with
    cache := x.cache.map (fun c => if c.table = e.table ∧ c.row = e.row ∧ c.kind = 1 then { c with withdrawing := true } else c) })) s3

/-- REPLICATE: MODE 0 places COUNT replicas of a row, MODE 1 withdraws them (R249, R251); 0 DONE, 1 NO_SPACE, 2 NOT_REPLICATED. A row in a move
waits until the move is over (R247; DESIGN CHOICE, log 26). -/
def execReplicate (q seq : Nat) (s : State) : Answer :=
  onQueue q s (fun s =>
    match s.dispatched q seq 0x15 with
    | none => .next s
    | some c =>
      let p := (s.queue q).part
      let table := c.field 0 2
      let row := c.field 2 5
      let tk := tableKey p table
      let count := c.field 8 1
      let answer (s : State) (code : Nat) : Answer := .next (s.finishResult q c (c.ref 0) (natLE 4 code))
      match (s.planOf p).bind (fun pl => pl.tableOf table) with
      | none => .next (s.finishCmd q seq codeMismatch)
      | some t =>
        match s.holderOf p table row with
        | none => answer s 1
        | some home =>
          match s.rowPlace home p table row with
          | none => answer s 1
          | some (_, _, off) =>
            let x := s.gleaner home
            let entry := x.replicas.find? (fun r => r.table == tk && r.row == row)
            if c.field 7 1 = 0 then
              if entry.isSome then answer s 0
              else if (x.mapOf tk row).isSome then .next s
              else
                match s.replicateRow home p t row off count with
                | some s1 => answer s1 0
                | none => answer s 1
            else
              match entry with
              | none => answer s 2
              | some e => answer (s.withdrawRow home p off t.slot e) 0)

/-- REPLICA_REFRESH: a replacement reaches a replica, in a replica bay or in the cache (R232, R276). -/
def execReplicaRefresh (g tk row : Nat) (slot : List Byte) (s : State) : Answer :=
  onGleaner g s (fun s =>
    match s.bayHere g (tk / 4096) (tk % 4096) row 1 with
    | some (t, _, b) => .next (s.updGleaner g (fun x => x.putSlot (s.baySlot b t (row - b.firstRow)) slot))
    | none => .next (s.updGleaner g (fun x => { x with
        cache := x.cache.map (fun c => if c.table = tk ∧ c.row = row ∧ c.kind = 1 then { c with slot := slot } else c) })))

/-- STUBBLE_REFRESH: a stubble row is written into its granary bay (R232). -/
def execStubbleRefresh (g tk row : Nat) (slot : List Byte) (s : State) : Answer :=
  onGleaner g s (fun s =>
    match s.bayHere g (tk / 4096) (tk % 4096) row 2 with
    | some (t, _, b) => .next (s.updGleaner g (fun x => x.putSlot (s.baySlot b t (row - b.firstRow)) slot))
    | none => .next s)

/-- REPLICA_WITHDRAW_MARKER: with every copy's marker the replica's slot is freed (R251). -/
def execReplicaWithdrawMarker (g tk row k : Nat) (s : State) : Answer :=
  onGleaner g s (fun s =>
    match (s.gleaner g).cached tk row 1 with
    | none => .next s
    | some c =>
      let m := c.markers ||| 2 ^ k
      if !c.withdrawing then .next s
      else
        .next (s.updGleaner g (fun x => { x with
          cache := if (s.copiesOfPart (tk / 4096)).all (fun j => m.testBit j) then x.cache.erase c
            else x.cache.map (fun e => if e = c then { e with markers := m } else e) })))

/-! ### The end of a load window: the reeve's balancer and its replicas (R242, R243, R249, R251) -/

/-- The home bays of a table whose channels are present: gleaner and BAYS index. -/
def State.homeBays (s : State) (p table : Nat) : List (Nat × Nat) :=
  match (s.planOf p).bind (fun pl => (pl.tableOf table).map (fun t => (pl, t))) with
  | none => []
  | some (pl, t) => ((pl.baysOf table).filter (fun e => e.2.role == 0)).filterMap (fun e => (s.bayGleaner e.2 t 0).map (fun g => (g, e.1)))

/-- LOOKUPS of a table at a channel, over its bays' last 8 windows (R243). -/
def State.channelLookups (s : State) (p table g : Nat) : Nat :=
  sumNat (((s.homeBays p table).filter (fun e => e.1 == g)).map (fun e => sumNat (Tbl.get [] (s.gleaner g).history (bayKey p e.2))))

/-- Whether a table's bays at a channel are hot (R243): above HOT_FACTOR / 16 times the mean over the table's channels. -/
def State.channelHot (s : State) (p : Nat) (t : TableDesc) (g : Nat) : Bool :=
  let gs := ((s.homeBays p t.table).map Prod.fst).eraseDups
  decide ((if t.hotFactor = 0 then 24 else t.hotFactor) * sumNat (gs.map (s.channelLookups p t.table)) < 16 * gs.length * s.channelLookups p t.table g)

/-- The bay to which the balancer moves a row from gleaner `g` (R243): the coolest channel's that has a free move slot, or, where that is the row's
home, its home bay; the lowest BAYS index among equals. -/
def State.coolestBay (s : State) (p table row g : Nat) : Option Nat :=
  let home := ((s.planOf p).bind (fun pl => pl.homeBay table row)).map Prod.fst
  let ok := (s.homeBays p table).filter (fun e =>
    e.1 != g && (home == some e.2 || !(Tbl.get [] (s.gleaner e.1).freeSlots (bayKey p e.2)).isEmpty))
  (argMin (fun e : Nat × Nat => s.channelLookups p table e.1) ok).map Prod.snd

/-- The balancer moves one HOT row that gleaner `g` holds, where MIGRATE's rules allow it (R243, R247); the count of moves made. -/
def State.balanceRow (s : State) (g p table row : Nat) : State × Nat :=
  match (if s.holderOf p table row = some g then s.coolestBay p table row g else none) with
  | none => (s, 0)
  | some bay =>
    match s.moveCheck p table row bay with
    | .inl code => (s.countRefusal p table row code, 0)
    | .inr (src, off, dst, o) => if s.rolls src || s.rolls dst then (s, 0) else (s.startMove p table row bay src off dst o 0, 1)

/-- The table of a bay's load counters: its partition, its entry and its counters. -/
def State.windowTables (s : State) (g : Nat) : List (Nat × TableDesc × BayLoad) :=
  (s.gleaner g).load.filterMap (fun e =>
    ((s.planOf (e.1 / 2 ^ 20)).bind (fun pl => (pl.bays[e.1 % 2 ^ 20]?).bind (fun b => pl.tableOf b.table))).map (fun t => (e.1 / 2 ^ 20, t, e.2)))

/-- The balancer's moves out of a gleaner as a window ends, 64 at most: the HOT rows of each hot bay of a table whose BALANCE is 1 (R243). -/
def State.balance (s : State) (g : Nat) : State :=
  ((s.windowTables g).foldl (fun (acc : State × Nat) e =>
    let (p, t, l) := e
    if t.balance ≠ 1 ∨ !acc.1.channelHot p t g then acc
    else (hotRows l.rows).foldl (fun (acc : State × Nat) h =>
      if 64 ≤ acc.2 then acc else let r := acc.1.balanceRow g p t.table h.1; (r.1, acc.2 + r.2)) acc) (s, 0)).1

/-- The reeve replicates the HOT rows that a window's lookups carry above REPL_THRESHOLD (R249). -/
def State.replicateHot (s : State) (g : Nat) : State :=
  (s.windowTables g).foldl (fun s e =>
    let (p, t, l) := e
    let threshold := if t.replThreshold = 0 then 100000 else t.replThreshold
    if !t.replicate then s
    else (hotRows l.rows).foldl (fun s h =>
      let x := s.gleaner g
      let tk := tableKey p t.table
      if h.2 ≤ threshold ∨ x.replicas.any (fun r => r.table == tk && r.row == h.1) ∨ (x.mapOf tk h.1).isSome ∨ s.holderOf p t.table h.1 ≠ some g then s
      else
        match s.rowPlace g p t.table h.1 with
        | none => s
        | some (_, _, off) => (s.replicateRow g p t h.1 off (if t.replMax = 0 then 4 else t.replMax)).getD s) s) s

/-- The lookups of a replicated row in the window that ends at its home: those served there and at its replicas (R251). -/
def State.replicaLookups (s : State) (g : Nat) (e : ReplicaEntry) : Nat :=
  let home := (s.windowTables g).filter (fun w => tableKey w.1 w.2.1.table == e.table)
  sumNat (home.map (fun w => Tbl.get 0 w.2.2.rows e.row)) +
    sumNat (e.holders.map (fun h => (((s.gleaner h).cached e.table e.row 1).map (fun c => c.hits)).getD 0))

/-- A window's account of a gleaner's replicated rows (R251): a row whose lookups have stayed below REPL_THRESHOLD / 4 for 16 windows is
withdrawn. -/
def State.settleReplicas (s : State) (g : Nat) : State :=
  (s.gleaner g).replicas.foldl (fun s e =>
    let p := e.table / 4096
    match (s.planOf p).bind (fun pl => pl.tableOf (e.table % 4096)), s.rowPlace g p (e.table % 4096) e.row with
    | some t, some (_, _, off) =>
      let threshold := if t.replThreshold = 0 then 100000 else t.replThreshold
      let quiet := if 4 * s.replicaLookups g e < threshold then e.quiet + 1 else 0
      let s1 := e.holders.foldl (fun s h => s.updGleaner h (fun x => { x with
        cache := x.cache.map (fun c => if c.table = e.table ∧ c.row = e.row ∧ c.kind = 1 then { c with hits := 0 } else c) })) s
      if 16 ≤ quiet then s1.withdrawRow g p off t.slot e
      else s1.updGleaner g (fun x => { x with replicas := x.replicas.map (fun r => if r = e then { e with quiet := quiet } else r) })
    | _, _ => s) s

/-- The LOOKUPS of a window enter the history of each home bay of the gleaner that has one, or saw traffic (R243). -/
def GleanerState.recordWindow (x : GleanerState) : GleanerState :=
  let keys := (x.history.map Prod.fst ++ x.load.map Prod.fst).eraseDups
  { x with history := keys.foldl (fun h k =>
      let last := ((Tbl.get bayLoadZero x.load k).lookups :: Tbl.get [] x.history k).take 8
      Tbl.set [] h k (if last.all (fun n => n == 0) then [] else last)) x.history }

/-- LOAD_WINDOW: a 1 ms window ends at a gleaner: one record for each home bay that saw traffic (R242); then the reeve replicates, withdraws and
moves rows of it (R243, R249, R251). -/
def execLoadWindow (g : Nat) (s : State) : Answer :=
  onGleaner g s (fun s =>
    let s1 := (s.gleaner g).load.foldl (fun s e => s.emitLoad g e.1 e.2) s
    let s2 := (((s1.updGleaner g GleanerState.recordWindow).settleReplicas g).replicateHot g).balance g
    .next (s2.updGleaner g (fun x => { x with load := [], window := (x.window + 1) % 2 ^ 32 })))

end Sys2Proof.Machine
end

