-- ==== Sys2Proof/Machine/Dma.lean ====
section
/-!
DEFINITION. The cluster DMA engine (spec 12): descriptors and their checks, DMA queues and marks, and the parts of a LOOKUP.
-/

namespace Sys2Proof.Machine

/-! ### Descriptors (R339, R340, R345) -/

/-- The operation an OP code names; none where it is reserved. -/
def xferOpOf (code : Nat) : Option XferOp :=
  match code with
  | 0 => some .copy
  | 1 => some .request
  | 2 => some .lookup
  | 3 => some .promote
  | 4 => some .demote
  | _ => none

/-- A transfer descriptor from its 128 bytes (R339). -/
def parseXfer (op : XferOp) (bs : List Byte) : XferDesc :=
  { op := op, queue := fieldLE bs 1 1 % 16, srcRow := (fieldLE bs 2 1).testBit 0, dstRow := (fieldLE bs 2 1).testBit 1
    cls := fieldLE bs 3 1, table := fieldLE bs 4 2, kind := fieldLE bs 6 1, slot := fieldLE bs 7 1, tag := fieldLE bs 8 4
    returnAddr := fieldLE bs 12 4, target := fieldLE bs 16 8, stride := fieldLE bs 24 2, outFmt := fieldLE bs 26 1
    markOut := fieldLE bs 28 4, src := parseStream (bs.drop 32), dst := parseStream (bs.drop 80) }

/-- Whether any count of a stream is 0 (R342). -/
def StreamDesc.isEmpty (d : StreamDesc) : Bool := d.counts.any (fun c => c == 0)

/-- The streams an operation uses, to which R342 applies: both for COPY and LOOKUP, the source otherwise. An all-zero source of a
REQUEST is an empty payload (DEDUCED, log 27). -/
def xferIsEmpty (x : XferDesc) (bs : List Byte) : Bool :=
  match x.op with
  | .copy | .lookup => x.src.isEmpty || x.dst.isEmpty
  | .request => x.src.isEmpty && !allZero ((bs.drop 32).take 48)
  | .promote | .demote => x.src.isEmpty

/-- The element size of a stream: a row slot under a ROW flag (R340). -/
def StreamDesc.size (d : StreamDesc) (slot : Option Nat) : Nat := slot.getD (2 ^ d.esize)

/-- The addresses of a stream's elements, in enumeration order (R341). -/
def StreamDesc.elements (d : StreamDesc) (size : Nat) : List Nat :=
  (List.range d.total).map (fun n => ((d.addr : Int) + d.offset n * size).toNat)

/-- Element addresses joined into maximal runs: start and element count. -/
def runsOf (size : Nat) : List Nat → List (Nat × Nat)
  | [] => []
  | a :: as =>
    match runsOf size as with
    | (b, n) :: rest => if b = a + size then (a, n + 1) :: rest else (a, 1) :: (b, n) :: rest
    | [] => [(a, 1)]

/-- A device-memory destination whose runs start and end on 64 B boundaries (R345). -/
def StreamDesc.runsAligned (d : StreamDesc) (size : Nat) : Bool :=
  d.space != 1 || (runsOf size (d.elements size)).all (fun r => r.1 % 64 == 0 && r.2 * size % 64 == 0)

/-- OUT_FMT's format and element size exponent (R339). -/
def outFormat (code : Nat) : Format × Nat := if code = 0 then (.b32, 2) else if code = 1 then (.bf16, 1) else (.b16, 1)

/-- The size of a LOOKUP's keys (R349). -/
def XferDesc.keyBytes (x : XferDesc) : Nat := if x.kind = 3 then 16 else 8
/-- The groups of a LOOKUP (R349). -/
def XferDesc.groups (x : XferDesc) : Nat := x.src.count 1 * x.src.count 2 * x.src.count 3 * x.src.count 4

/-- Whether a descriptor holds a value that R345 refuses, for an operation and the partition's plan. -/
def descFault (pl : Option Plan) (x : XferDesc) (bs : List Byte) : Bool :=
  let table := pl.bind (fun p => p.tableOf x.table)
  let slot := table.map TableDesc.slot
  let bad := !streamReserved (bs.drop 32) || !streamReserved ((bs.drop 80).take 48) || fieldLE bs 1 1 != fieldLE bs 1 1 % 16 ||
    decide (4 ≤ fieldLE bs 2 1) || fieldLE bs 27 1 != 0 || (decide (7 < x.cls) && x.cls != 0xFF) || decide (2 < x.src.space) ||
    decide (2 < x.dst.space) || decide (7 ≤ x.src.esize) || decide (7 ≤ x.dst.esize) || x.src.highNibble || x.dst.highNibble ||
    x.src.space == 2
  let noDst := allZero ((bs.drop 80).take 48)
  let noRequest := x.kind == 0 && x.slot == 0 && x.tag == 0 && x.returnAddr == 0 && x.target == 0 && x.stride == 0
  let noLookup := x.outFmt == 0 && x.markOut == 0
  bad ||
  (match x.op with
   | .copy =>
     let row := x.srcRow || x.dstRow
     let size (d : StreamDesc) := d.size (if row then slot else none)
     !noRequest || !noLookup || (if row then (match table with
        | some t => t.kind == 2
        | none => true) else x.table != 0) ||
       x.src.total != x.dst.total || size x.src != size x.dst || (!x.dstRow && !x.dst.runsAligned (size x.dst))
   | .request =>
     x.srcRow || x.dstRow || !noLookup || !noDst || decide (6 < x.kind) || decide (x.stride < 2) || decide (2050 < x.stride) ||
       decide (4096 ≤ x.tag) || decide (16 ≤ x.slot) || (x.slot != 0 && x.kind != 6) || (decide (2 ≤ x.kind) && table.isNone) ||
       (!x.src.isEmpty && decide (16384 < x.src.total * 2 ^ x.src.esize))
   | .lookup =>
     let out := outFormat x.outFmt
     x.srcRow || x.dstRow || decide (3 < x.kind) || decide (16 ≤ x.slot) || x.tag != 0 || x.target != 0 || decide (x.stride < 2) ||
       decide (2050 < x.stride) || decide (2 < x.outFmt) || table.isNone || 2 ^ x.src.esize != x.keyBytes || x.dst.esize != out.2 ||
       x.dst.stride 0 != 1 || x.groups * x.dst.count 0 != x.dst.total || decide (65536 < x.groups) || !x.dst.runsAligned (2 ^ out.2)
   | .promote | .demote =>
     x.srcRow || x.dstRow || !noRequest || !noLookup || x.table != 0 || !noDst || x.src.space != 1 || x.src.addr % 65536 != 0 ||
       !((List.range 4).all (fun i => x.src.count (i + 1) == 1)))

/-! ### Extents (R343, R344) -/

/-- How a submission check ends. -/
inductive Extent where
  | ok | desc | bin (addr : Nat) | bounds (addr : Nat)
  deriving DecidableEq, Repr

/-- The check of one stream's extent at core `k` for a context (R343). Row indices past ROWS are a field out of range, except that
a direct table's reads past ROWS give the default row (R223). -/
def State.extentOf (s : State) (k ctx : Nat) (d : StreamDesc) (size : Nat) (row : Option TableDesc) (write : Bool) : Extent :=
  let low := d.low size
  let high := d.high size
  match row with
  | some t =>
    if (d.addr : Int) + d.lowOff < 0 ∨ ((write || t.kind != 0) && decide ((t.rows : Int) ≤ d.addr + d.highOff)) then .desc else .ok
  | none =>
    match d.space with
    | 0 =>
      if 0 ≤ low ∧ (s.binCheck k low.toNat (high - low + 1).toNat write false).isSome then .ok else .bin low.toNat
    | 1 => if s.extentOk (clusterOf k) ctx low high (if write then permWrite else permRead) then .ok else .bounds low.toNat
    | _ => if 0 ≤ low ∧ s.outboundOk ctx low.toNat (high - low + 1).toNat then .ok else .bounds low.toNat

/-- The first check that fails. -/
def Extent.andThen : Extent → Extent → Extent
  | .ok, e => e
  | e, _ => e

/-- A checked bin extent that an operation writes. -/
def State.binExtent (s : State) (k addr len : Nat) : Extent :=
  if len = 0 ∨ (s.binCheck k addr len true false).isSome then .ok else .bin addr

/-! ### Keys and the parts of a LOOKUP (R349) -/

/-- The row a key names, and the table whose row routes it: a composed table's key goes by its Q row (R223, R224, R228). -/
def Plan.keyRow (pl : Plan) (t : TableDesc) (key : Nat) : Nat × Nat :=
  let row := if t.hash = 0xFF then key else hashRow (hashKey key t.seed t.hash) t.rows
  if t.kind = 2 then (t.quotient, row / max 1 (((pl.tableOf t.remainder).map (fun u => u.rows)).getD 1)) else (t.table, row)

/-- One part of a LOOKUP under construction: its gleaner, directory (group and key count) and keys. -/
structure LookupPart where
  gleaner : Nat
  dir : List (Nat × Nat)
  keys : List Byte
  deriving DecidableEq, Repr

/-- The payload size of a part. -/
def LookupPart.size (p : LookupPart) : Nat := 8 + 4 * p.dir.length + p.keys.length
/-- The payload of a part (R349). -/
def LookupPart.payload (p : LookupPart) : List Byte :=
  natLE 4 p.dir.length ++ zeroBytes 4 ++ p.dir.flatMap (fun e => natLE 2 e.1 ++ natLE 2 e.2) ++ p.keys

/-- A key added to the last of a channel's parts, or to a new one where the payload would pass 16,384 B. -/
def addKey (g group : Nat) (key : List Byte) (ps : List LookupPart) : List LookupPart :=
  match ps.getLast? with
  | none => [{ gleaner := g, dir := [(group, 1)], keys := key }]
  | some p =>
    let same := (p.dir.getLast?.map (fun e => e.1 == group)).getD false
    let q : LookupPart := { p with
      dir := if same then p.dir.dropLast ++ [(group, ((p.dir.getLast?.map Prod.snd).getD 0) + 1)] else p.dir ++ [(group, 1)]
      keys := p.keys ++ key }
    if 16384 < q.size then ps ++ [{ gleaner := g, dir := [(group, 1)], keys := key }] else ps.dropLast ++ [q]

/-- The parts of a LOOKUP: keys as (gleaner, rank, group, bytes), by channel in ascending rank, source order within one (R349). -/
def lookupParts (keys : List (Nat × Nat × Nat × List Byte)) : List LookupPart :=
  let ranks := (keys.map (fun e => e.2.1)).eraseDups.mergeSort (fun a b => a ≤ b)
  ranks.flatMap (fun r => (keys.filter (fun e => e.2.1 == r)).foldl (fun ps e => addKey e.1 e.2.2.1 e.2.2.2 ps) [])

/-! ### Submission (R339 to R345, R354) -/

/-- The engine of a cluster. -/
def State.dma (s : State) (c : Nat) : DmaEngine := (s.cluster c).dma
/-- The state with an engine changed. -/
def State.updDma (s : State) (c : Nat) (f : DmaEngine → DmaEngine) : State := s.updCluster c (fun x => { x with dma := f x.dma })
/-- Setting a CLS_DMA_STATUS bit: 0 DESC_FAULT, 1 BOUNDS, 2 LOST, 3 REFUSED (R358). -/
def State.dmaStatus (s : State) (c bit : Nat) : State := s.updDma c (fun d => { d with status := d.status ||| BitVec.ofNat 4 (2 ^ bit) })

/-- A DESC_FAULT stops the issuing core (R345). -/
def State.descStop (s : State) (k : Nat) : State :=
  let r := s.coreFault k 0x0102 (s.core k).vec.pc
  ((s.updCore k (fun c => { c with phase := .stopped })).dmaStatus (clusterOf k) 0).send (.fault r)

/-- A stream rejected with BOUNDS (R344): the item ends without replay, its command with BOUNDS. -/
def State.boundsEnd (s : State) (k addr space : Nat) : State :=
  let r := s.coreFault k 0x0201 (addr / 2 ^ 48 % 16)
  let s1 := (s.dmaStatus (clusterOf k) 1).send (.fault { r with
    unitKind := 3, unit := clusterOf k, action := 1, addrKind := if space = 1 then 2 else 0, address := addr })
  (if space = 1 then s1.xltBounds else s1).endItem k codeBounds false

/-- The epoch a work item holds for a table (R234, R347). -/
def WorkItem.epochFor (i : WorkItem) (table : Nat) : Option Nat :=
  match i.pins.find? (fun e => e.1 == table) with
  | some e => some e.2
  | none => i.heldPin.bind (fun e => if e.1 = table then some e.2 else none)

/-- The deadline class of a transfer: its own, or that of its command's queue binding (R339). -/
def State.xferClass (s : State) (i : WorkItem) (cls : Nat) : Nat :=
  if cls ≠ 0xFF then cls
  else match (s.part i.part).desc, s.planOf i.part with
    | some d, some pl => ((pl.bindingOf (i.tag / 2 ^ 22 - d.queues.1)).map (fun b => b.cls)).getD 0
    | _, _ => 0

/-- A stream's bytes in enumeration order, read by core `k` for a context; the worst status of its memory reads. -/
def State.streamBytes (s : State) (k ctx : Nat) (d : StreamDesc) (size : Nat) : Nat × List (List Byte) :=
  (d.elements size).foldl (fun (acc : Nat × List (List Byte)) a =>
    if d.space = 0 then
      match binPlace a with
      | some pl => (acc.1, acc.2 ++ [s.binRead k pl size])
      | none => (acc.1, acc.2 ++ [zeroBytes size])
    else
      let r := (s.ctxFetch ctx 0 a size).2
      (max acc.1 r.1, acc.2 ++ [r.2])) (0, [])

/-- The requester's header fields of a gleaner request of a transfer (R257, R348). -/
def Xfer.request (x : Xfer) (c kind cls part : Nat) (target : Nat) (payload : List Byte) (returnAddr : Nat) : GReq :=
  { kind := kind, ctx := x.ctx, cls := cls, pinned := x.epoch.isSome && decide (2 ≤ kind), system := false, forwarded := false
    marker := false, table := x.desc.table, slot := x.desc.slot, part := part % 256, tag := x.serial * 4096 + part % 4096
    epoch := x.epoch.getD 0, target := target, requester := c, stride := x.desc.stride, returnAddr := returnAddr, payload := payload }

/-- The rank of a gleaner's channel in a LOOKUP's order (R349): granary channels by logical number, loft after them. -/
def State.channelRank (s : State) (g : Nat) : Nat :=
  let (tier, code) := s.channelCode g
  if tier = 0 then code else 384 + code

/-- The keys of a LOOKUP with their routes: those that a channel serves, and those that the requester answers with the default row (R311,
R574), as group and weight. -/
def State.lookupKeys (s : State) (c cls : Nat) (x : Xfer) (bytes : List (List Byte)) :
    List (Nat × Nat × Nat × List Byte) × List (Nat × Nat) :=
  match (s.planOf x.part).bind (fun pl => (pl.tableOf x.desc.table).map (fun t => (pl, t))) with
  | none => ([], [])
  | some (pl, t) =>
    let timed := ((pl.classOf cls).map (fun k => k.deadline)).getD 0 != 0
    bytes.zipIdx.foldl (fun (acc : List (Nat × Nat × Nat × List Byte) × List (Nat × Nat)) e =>
      let group := e.2 / max 1 (x.desc.src.count 0)
      let r := pl.keyRow t (fieldLE e.1 0 8)
      let row := if t.kind = 0 ∧ t.rows ≤ r.2 then 0 else r.2
      let route := match s.routeRow c x.part r.1 row true x.epoch.isSome with
        | some g => if isLoft g && s.rolls g && timed then s.standIn x.part r.1 row else some g
        | none => none
      match route with
      | some g => (acc.1 ++ [(g, s.channelRank g, group, e.1)], acc.2)
      | none => (acc.1, acc.2 ++ [(group, if x.desc.kind = 3 then fieldLE e.1 8 4 else 0x3F800000)])) ([], [])

/-- The requests and record slots of a LOOKUP (R349): record slots are assigned in order of part, then entry. -/
def Xfer.withParts (x : Xfer) (c cls : Nat) (ps : List LookupPart) : Xfer :=
  let r := ps.foldl (fun (acc : List (Nat × GReq) × List XferRecord) p =>
    let ret := x.desc.returnAddr + acc.2.length * x.desc.stride * 8
    (acc.1 ++ [(p.gleaner, x.request c 6 cls acc.1.length (x.desc.target) p.payload ret)],
     acc.2 ++ p.dir.map (fun e => { group := e.1, count := 0, marks := 0, length := 0, arrived := false }))) ([], [])
  { x with requests := r.1, records := r.2 }

/-- Whether the program of a slot at a gleaner holds an opcode (R519: ADDM 0x30, CASM 0x31; WROW 0x42). -/
def State.programHolds (s : State) (g : Nat) (r : GReq) (ops : List Nat) : Bool :=
  (s.gleanerCode g r).any (fun w => ops.contains (w % 256))

/-- What submitting a transfer makes of its item's ADDED and WROTE flags (R446, R519). -/
def State.noteEffects (s : State) (k c : Nat) (x : Xfer) : State :=
  let target (r : GReq) : Nat := (s.routeRow c x.part r.table r.target false r.pinned).getD 0
  let runs (ops : List Nat) : Bool :=
    match x.desc.op with
    | .lookup => x.requests.any (fun e => s.programHolds e.1 e.2 ops)
    | .request =>
      let r := x.request c 6 0 0 x.desc.target [] 0
      x.desc.kind == 6 && s.programHolds (target r) r ops
    | _ => false
  let adds := (x.desc.op == .request && (x.desc.kind == 4 || x.desc.kind == 5)) || runs [0x30, 0x31]
  let writes := adds || (x.desc.op == .request && (x.desc.kind == 1 || x.desc.kind == 3)) || runs [0x42] ||
    ((x.desc.op == .copy || x.desc.op == .lookup) && (x.desc.dst.space != 0 || x.desc.dstRow))
  s.updCore k (fun c => { c with item := c.item.map (fun i => { i with added := i.added || adds, wrote := i.wrote || writes }) })

/-- The extents that a transfer is checked on at submission (R343, R348, R349). RETURN of a REQUEST is checked for its first record,
where its kind returns one, and the bytes of a RAW_READ are those that its payload asks for as it is submitted (DEDUCED, log 27). -/
def State.xferExtents (s : State) (k ctx part : Nat) (d : XferDesc) (records : Nat) : Extent :=
  let t := (s.planOf part).bind (fun pl => pl.tableOf d.table)
  let slot := if d.srcRow || d.dstRow then t.map TableDesc.slot else none
  match d.op with
  | .copy =>
    (s.extentOf k ctx d.src (d.src.size slot) (if d.srcRow then t else none) false).andThen
      (s.extentOf k ctx d.dst (d.dst.size slot) (if d.dstRow then t else none) true)
  | .request =>
    ((if d.src.isEmpty then Extent.ok else s.extentOf k ctx d.src (2 ^ d.src.esize) none false).andThen
      (if d.kind ≤ 1 then
        (let len := max 64 (if d.kind = 0 then min 16384 (leNat ((s.streamBytes k ctx d.src (2 ^ d.src.esize)).2.flatten.take 4))
           else d.src.total * 2 ^ d.src.esize)
         if s.extentOk (clusterOf k) ctx d.target (d.target + len - 1 : Nat) (if d.kind = 0 then permRead else permWrite) then .ok
         else .bounds d.target) else .ok)).andThen
      (if d.kind = 1 ∨ d.kind = 3 ∨ d.kind = 4 then .ok else s.binExtent k d.returnAddr (d.stride * 8))
  | .lookup =>
    (((s.extentOf k ctx d.src d.keyBytes none false).andThen (s.extentOf k ctx d.dst (2 ^ d.dst.esize) none true)).andThen
      (s.binExtent k d.returnAddr (records * d.stride * 8))).andThen
      (if d.markOut = 0 then .ok else s.binExtent k d.markOut d.groups)
  | .promote | .demote =>
    s.extentOf k ctx { d.src with strides := [1, 0, 0, 0, 0] } 65536 none false

/-- A PROMOTE or DEMOTE names a TIERED segment (R351). -/
def State.isTiered (s : State) (ctx addr : Nat) : Bool :=
  match s.planSegment ctx (addr / 2 ^ 48 % 16) with
  | some g => g.policy == 2
  | none => false

/-- The transfer that a descriptor of core `k`'s item forms; a LOOKUP's keys are read, routed and grouped into parts at submission (R234,
R349, R354). -/
def State.formXfer (s : State) (k : Nat) (i : WorkItem) (d : XferDesc) : Xfer :=
  let c := clusterOf k
  let x0 : Xfer :=
    { desc := d, serial := ((s.dma c).serial + 1) % 2 ^ 20, core := k, ctx := i.ctx, part := i.part
      itemTag := match i.kind with
        | .share _ => some i.tag
        | .sheaf _ => none
      group := Tbl.get 0 (s.core k).dmaMarks d.queue, held := false, generation := (s.copyCtx c i.ctx).gen
      epoch := i.epochFor d.table, requests := [], records := [], defaults := [], parts := [], bales := [], rows := [], status := 0, marks := 0
      host := if d.dst.space = 2 then (s.handle (outAtt d.dst.addr) (outHandle d.dst.addr)).map (fun h => h.hostAddress) else none }
  let pre := if d.op = .lookup then s.extentOf k i.ctx d.src d.keyBytes none false else .ok
  let keys := if d.op = .lookup ∧ pre = .ok then s.lookupKeys c (s.xferClass i d.cls) x0 (s.streamBytes k i.ctx d.src d.keyBytes).2 else ([], [])
  { x0.withParts c (s.xferClass i d.cls) (lookupParts keys.1) with defaults := keys.2 }

/-- The reads of a LOOKUP's keys from memory at submission, and their worst status (R260, R307, R349). -/
def State.fetchKeys (s : State) (k : Nat) (i : WorkItem) (d : XferDesc) : State × Nat :=
  if d.op ≠ .lookup ∨ d.src.space = 0 ∨ s.extentOf k i.ctx d.src d.keyBytes none false ≠ .ok then (s, 0)
  else (d.src.elements d.keyBytes).foldl (fun (acc : State × Nat) a =>
    let r := acc.1.ctxFetch i.ctx (((s.dma (clusterOf k)).serial + 1) % 2 ^ 20 * 4096) a d.keyBytes
    (r.1, max acc.2 r.2.1)) (s, 0)

/-- DMAQ's submission of a descriptor by core `k` (R339 to R345, R349, R354). -/
def State.submitXfer (s : State) (k : Nat) (i : WorkItem) (bs : List Byte) : Issue :=
  let c := clusterOf k
  match xferOpOf (fieldLE bs 0 1) with
  | none => .ended (s.descStop k)
  | some op =>
    let d := parseXfer op bs
    if xferIsEmpty d bs then .done (s.updDma c (fun e => { e with done := e.done + 1 }))
    else if descFault (s.planOf i.part) d bs then .ended (s.descStop k)
    else if (op = .promote ∨ op = .demote) ∧ !s.isTiered i.ctx d.src.addr then .ended (s.descStop k)
    else
      let keys := s.fetchKeys k i d
      let s := keys.1
      let x := { s.formXfer k i d with status := keys.2 }
      if 4096 < x.requests.length then .ended (s.descStop k)
      else
        match s.xferExtents k i.ctx i.part d x.records.length with
        | .desc => .ended (s.descStop k)
        | .bin a => .ended (s.binFault k a)
        | .bounds a => .ended (s.boundsEnd k a (if d.src.space = 1 ∨ op ≠ .copy then 1 else if d.dst.space = 2 then 2 else 1))
        | .ok =>
          let s1 := s.updDma c (fun e => { e with serial := x.serial, queues := Tbl.modify [] e.queues d.queue (· ++ [.xfer x]) })
          .done (s1.noteEffects k c x)

/-- DMAQ submits the 128-byte descriptor at its address (R339). -/
def execDmaq (k : Nat) (w : VWord) (ecc : Ecc) (s : State) : Answer :=
  issueUnit k w (fun s c =>
    match c.item with
    | none => .done s
    | some i =>
      match s.coreLoad k (c.vec.address w) 128 true ecc with
      | (s1, none) => .ended s1
      | (s1, some bs) => s1.submitXfer k i bs) s

/-! ### Marks (R355) -/

/-- Whether every transfer that core `k` issued to a queue in groups below `n` has completed. -/
def DmaEngine.groupsDone (d : DmaEngine) (k q n : Nat) : Bool :=
  !(d.outstanding.any (fun x => x.core == k && x.desc.queue == q && decide (x.group < n))) &&
  !((Tbl.get [] d.queues q).any (fun e => match e with
    | .xfer x => x.core == k && decide (x.group < n)
    | .barrier _ => false))

/-- DMARK closes the core's group of transfers on a queue, as a barrier, a depth wait, or both (R355). A waiting core has posted
nothing yet; the mark is posted when the wait is over. -/
def execDmark (k : Nat) (w : VWord) (s : State) : Answer :=
  issueUnit k w (fun s c =>
    let q := w.imm.toNat % 16
    let d := w.imm.toNat / 32 % 8
    let n := Tbl.get 0 c.dmaMarks q + 1
    if d ≠ 0 ∧ !(s.dma (clusterOf k)).groupsDone k q (if n < d then n else n + 1 - d) then .wait s
    else
      let s1 := s.updCore k (fun c => { c with dmaMarks := Tbl.set 0 c.dmaMarks q n })
      .done (if w.imm.getLsbD 4 then s1.updDma (clusterOf k) (fun e => { e with queues := Tbl.modify [] e.queues q (· ++ [.barrier k]) })
        else s1)) s

end Sys2Proof.Machine
end

