-- ==== Sys2Proof/Machine/DmaRun.lean ====
section
/-!
DEFINITION. What admitted transfers do (spec 12): copies, requests, lookups and their merge, the completion of transfers,
aborts.
-/

namespace Sys2Proof.Machine

/-! ### Admission (R354, R355) -/

/-- The limit of a DMA queue (R359): 0 acts as 1, above 512 as 512. -/
def DmaEngine.limit (d : DmaEngine) (q : Nat) : Nat := max 1 (min 512 ((Tbl.get qlimitReset d.qlimit q).toNat % 1024))

/-- The transfer at the head of a queue with the barriers of its core that stand before it. Transfers held for a pre-empted item are
passed over (DEDUCED, log 28). -/
def headXfer : List DmaEntry → List Nat → Option (Xfer × Bool)
  | [], _ => none
  | .barrier k :: rest, ks => headXfer rest (k :: ks)
  | .xfer x :: rest, ks => if x.held then headXfer rest ks else some (x, ks.contains x.core)

/-- The transfer of a queue that may be admitted now (R354, R355). -/
def DmaEngine.admissible (d : DmaEngine) (q : Nat) : Option Xfer :=
  match headXfer (Tbl.get [] d.queues q) [] with
  | none => none
  | some (x, barred) =>
    let mine := d.outstanding.filter (fun y => y.desc.queue == q)
    if (barred && mine.any (fun y => y.core == x.core)) || decide (d.limit q ≤ mine.length) || decide (512 ≤ d.outstanding.length) then none
    else some x

/-- Removing a transfer from its queue, and the marks of its core that it has passed. -/
def passXfer (x : Xfer) : List DmaEntry → List DmaEntry
  | [] => []
  | .xfer y :: rest => if y.serial = x.serial then rest else .xfer y :: passXfer x rest
  | .barrier k :: rest => if k = x.core then passXfer x rest else .barrier k :: passXfer x rest

/-- Admission: the transfer leaves its queue and is outstanding (R354, R358). -/
def State.admitXfer (s : State) (c : Nat) (x : Xfer) : State :=
  s.updDma c (fun d =>
    let out := d.outstanding ++ [x]
    { d with queues := Tbl.modify [] d.queues x.desc.queue (passXfer x), outstanding := out
             peak := BitVec.ofNat 10 (max d.peak.toNat out.length) })

/-- The state with an outstanding transfer changed. -/
def State.updXfer (s : State) (c serial : Nat) (f : Xfer → Xfer) : State :=
  s.updDma c (fun d => { d with outstanding := d.outstanding.map (fun x => if x.serial = serial then f x else x) })
/-- An outstanding transfer by its serial number. -/
def State.xferOf (s : State) (c serial : Nat) : Option Xfer := (s.dma c).outstanding.find? (fun x => x.serial == serial)

/-- A command that runs the head of a queue: nothing where none may be admitted or it is of another operation. -/
def onAdmissible (c q : Nat) (op : XferOp) (s : State) (f : State → Xfer → State) : Answer :=
  onCluster c s (fun s =>
    match (s.dma c).admissible q with
    | some x => if x.desc.op = op then .next (f s x) else .next s
    | none => .next s)

/-! ### Completion (R307, R344, R352) -/

/-- The marks of records as a work item's mark word keeps them (R352, R426): DEGRADED and RANGE. -/
def itemMarks (m : Nat) : Nat := (m % 2) * markDegraded + (m / 2 % 2) * markRange

/-- Bytes that an engine moves into or out of bins for a context (R358, R450). -/
def State.movedBytes (s : State) (c ctx n : Nat) : State :=
  (s.updDma c (fun d => { d with bytes := d.bytes + BitVec.ofNat 64 n })).chargeBin ctx n

/-- A transfer completes with its status and marks (R352): LOST ends the item, its rows WEIGHT_LOST (R307); TAG_REFUSED, INVALID
and OVERRUN end it; neither is replayed. -/
def State.completeXfer (s : State) (c : Nat) (x : Xfer) (moved : Nat) : State :=
  let s0 := s.movedBytes c x.ctx moved
  let s1 := s0.updDma c (fun d => { d with outstanding := d.outstanding.filter (fun y => y.serial != x.serial), done := d.done + 1 })
  if x.core = 255 then s1
  else
    let s2 := s1.updCore x.core (fun k => { k with item := k.item.map (fun i => { i with marks := i.marks ||| itemMarks x.marks }) })
    match x.status with
    | 0 | 4 => s2
    | 5 => (s2.dmaStatus c 2).endItem x.core codeOk false
    | _ => (s2.dmaStatus c 3).endItem x.core codeOk false

/-! ### Reads and writes of memory (R307, R346, R347) -/

/-- Writing elements to bins in enumeration order, on behalf of core `k`. -/
def State.binElements (s : State) (k : Nat) (es : List (Nat × List Byte)) : State :=
  es.foldl (fun s e => match binPlace e.1 with
    | some pl => s.binWrite k pl e.2
    | none => s) s

/-- Elements joined into runs of consecutive bytes, in enumeration order. -/
def joinRuns : List (Nat × List Byte) → List (Nat × List Byte)
  | [] => []
  | (a, bs) :: rest =>
    match joinRuns rest with
    | (b, cs) :: more => if b = a + bs.length then (a, bs ++ cs) :: more else (a, bs) :: (b, cs) :: more
    | [] => [(a, bs)]

/-- Writing elements to memory as raw writes (R231, R346): the worst status. -/
def State.memElements (s : State) (c tag : Nat) (es : List (Nat × List Byte)) : State × Nat :=
  (joinRuns es).foldl (fun (acc : State × Nat) e =>
    let r := acc.1.ctxWrite c tag e.1 e.2
    (r.1, max acc.2 (if r.2 = 5 then 0 else r.2))) (s, 0)

/-- Writing a transfer's elements to outbound addresses, as translated at its submission (R344, R392). -/
def State.outElements (s : State) (x : Xfer) (es : List (Nat × List Byte)) : State :=
  let tags := match x.itemTag, (s.core x.core).item with
    | some t, _ => [t]
    | none, some i => i.rows.map (fun r => r.tag)
    | none, none => []
  (joinRuns es).foldl (fun s e =>
    (s.issueOut { addr := e.1, bytes := e.2, queue := none, vector := none, host := x.host.map (· + outOffset e.1), tags := tags }).chargeHost x.ctx e.2.length) s

/-- Whether a transfer's bin destination meets an input region that the sequencer still holds (R117). -/
def State.destHeld (s : State) (k : Nat) (es : List Nat) (size : Nat) : Bool :=
  es.any (fun a => match binPlace a with
    | some pl => s.heldInput k pl size
    | none => false)

/-- The deadline class of an outstanding transfer. -/
def State.classOfXfer (s : State) (x : Xfer) : Nat :=
  match (s.core x.core).item with
  | some i => s.xferClass i x.desc.cls
  | none => x.desc.cls % 8

/-- What the first source unit's ECC outcome makes of a bin source (R289): false where the core stops. -/
def State.sourceEcc (s : State) (x : Xfer) (a : Nat) (ecc : Ecc) : State × Bool :=
  if x.desc.srcRow then (s, true)
  else if x.desc.src.space = 0 then
    match binPlace a with
    | some pl => s.binEcc x.core pl ecc (((s.regionFor x.core pl 1).map (fun r => r.kind)).getD 0)
    | none => (s, true)
  else if ecc = .uncorrectable then
    match s.ctxAt x.ctx a with
    | some (g, off) => (s.updGleaner g (fun y => y.markUnits off 1 1), true)
    | none => (s, true)
  else if ecc = .corrected then
    match s.ctxAt x.ctx a with
    | some (g, _) => (s.updGleaner g (fun y => y.countCorrected), true)
    | none => (s, true)
  else (s, true)

/-- The serial tag of a transfer's own requests. -/
def Xfer.tag (x : Xfer) : Nat := x.serial * 4096

/-- The table of a COPY with a row flag. -/
def State.copyTable (s : State) (x : Xfer) : Option TableDesc := (s.planOf x.part).bind (fun pl => pl.tableOf x.desc.table)
/-- The element size of a COPY: a row slot where either stream has its row flag (R340). -/
def State.copySize (s : State) (x : Xfer) : Nat :=
  x.desc.src.size (if x.desc.srcRow || x.desc.dstRow then (s.copyTable x).map TableDesc.slot else none)
/-- The places of a COPY's destination elements. -/
def State.copyDests (s : State) (x : Xfer) : List Nat := if x.desc.dstRow then x.desc.dst.elements 1 else x.desc.dst.elements (s.copySize x)
/-- Whether a COPY's bin writes meet a held input region (R117). -/
def State.copyHeld (s : State) (x : Xfer) : Bool :=
  x.desc.dst.space == 0 && !x.desc.dstRow && s.destHeld x.core (s.copyDests x) (s.copySize x)

/-- A COPY whose source elements are in hand writes them in enumeration order (R346, R347): row writes are sent as ROW_WRITEs, and the transfer
waits for their ENDs; any other destination completes it. -/
def State.copyOut (s : State) (c : Nat) (x : Xfer) (elements : List (List Byte)) : State :=
  let dests := s.copyDests x
  let moved := s.copySize x * dests.length
  let binBytes := (if x.desc.src.space = 0 ∧ !x.desc.srcRow then moved else 0) + (if x.desc.dst.space = 0 ∧ !x.desc.dstRow then moved else 0)
  let es := dests.zip elements
  if x.desc.dstRow then
    let sent := es.zipIdx.map (fun e =>
      (s.routeRow c x.part x.desc.table e.1.1 false false).map (fun g => (g, x.request c 3 0 e.2 e.1.1 e.1.2 0)))
    let outs := sent.filterMap (fun o => o)
    let z := { x with rows := [], parts := outs.map (fun o => (o.2.tag % 4096, o.1)), status := if outs.length < sent.length then 5 else 0 }
    let s1 := (s.sendAll (outs.map (fun o => Out.request o.1 o.2))).updXfer c x.serial (fun _ => z)
    if outs.isEmpty then s1.completeXfer c z binBytes else s1.movedBytes c x.ctx binBytes
  else if x.desc.dst.space = 0 then (s.binElements x.core es).completeXfer c x binBytes
  else if x.desc.dst.space = 2 then (s.outElements x es).completeXfer c x binBytes
  else
    let r := s.memElements x.ctx x.tag es
    r.1.completeXfer c { x with status := r.2 } binBytes

/-- The default row with which the engine itself answers a row read that no gleaner can take (R223, R311); none for a component table, whose direct
reads are INVALID. -/
def State.ownRow (s : State) (x : Xfer) : Option (List Byte) :=
  match (s.planOf x.part).bind (fun pl => (pl.tableOf x.desc.table).map (fun t => (pl, t))) with
  | none => none
  | some (pl, t) => if 2 ≤ t.kind then none else some (pl.defaultOf x.desc.table)

/-- The row reads of a SRC_ROW copy (R347): a ROW_READ per source element, in enumeration order, to the gleaner to which the copy's bay map routes
it; a row that has none is the default row with DEGRADED (R311). With every row in hand at once, the copy goes on. -/
def State.sendRowReads (s : State) (c : Nat) (x : Xfer) : State :=
  let cls := s.classOfXfer x
  let asks := (x.desc.src.elements 1).zipIdx.map (fun e =>
    (s.routeRow c x.part x.desc.table e.1 true x.epoch.isSome).map (fun g => (g, x.request c 2 cls e.2 e.1 [] 0)))
  let outs := asks.filterMap (fun o => o)
  let lost := asks.any Option.isNone
  match (if lost then s.ownRow x else some []) with
  | none => s.completeXfer c { x with status := 2 } 0
  | some dflt =>
    let y := { x with
      parts := outs.map (fun o => (o.2.tag % 4096, o.1)), marks := if lost then 1 else 0
      rows := asks.map (fun o => if o.isSome then none else some (padTo (s.copySize x) dflt)) }
    let s1 := (s.sendAll (outs.map (fun o => Out.request o.1 o.2))).updXfer c x.serial (fun _ => y)
    if outs.isEmpty then s1.copyOut c y (y.rows.map (fun r => r.getD [])) else s1

/-- DMA_COPY: the admitted COPY at the head of a queue reads its source elements and writes them in enumeration order (R346, R347,
R356). Row reads are sent as ROW_READs, and their slots are written once all have come. `ecc` is the outcome of the first source unit. -/
def execDmaCopy (c q : Nat) (ecc : Ecc) (s : State) : Answer :=
  onAdmissible c q .copy s (fun s x =>
    if s.copyHeld x then s
    else
      let size := s.copySize x
      let s1 := s.admitXfer c x
      match s1.sourceEcc x ((x.desc.src.elements size).headD 0) ecc with
      | (s2, false) => s2
      | (s2, true) =>
        if x.desc.srcRow then s2.sendRowReads c x
        else
          let src : State × Nat × List (List Byte) :=
            if x.desc.src.space = 0 then (s2, 0, (s2.streamBytes x.core x.ctx x.desc.src size).2)
            else (x.desc.src.elements size).foldl (fun (acc : State × Nat × List (List Byte)) a =>
              let r := acc.1.ctxFetch x.ctx x.tag a size
              (r.1, max acc.2.1 r.2.1, acc.2.2 ++ [r.2.2])) (s2, 0, [])
          let y := { x with status := src.2.1, marks := 0 }
          if src.2.1 ≠ 0 then src.1.completeXfer c y 0
          else src.1.copyOut c y src.2.2)

/-- The payload and gleaner of a REQUEST (R348): RAW kinds go to their translated address, a RAW_READ of a lost channel to its mirror (R312), the
others by the bay map copy. PART holds the descriptor's TAG modulo 256, as a LOOKUP's parts do (DEDUCED, log 71). -/
def State.requestOf (s : State) (c : Nat) (x : Xfer) : Option (Nat × GReq) :=
  let payload := if x.desc.src.isEmpty then []
    else ((s.streamBytes x.core x.ctx x.desc.src (2 ^ x.desc.src.esize)).2).flatten
  let cls := s.classOfXfer x
  if x.desc.kind ≤ 1 then
    ((s.ctxAt x.ctx x.desc.target).or (if x.desc.kind = 0 then s.lostMirror x.ctx x.desc.target (leNat (payload.take 4)) else none)).map (fun e =>
      (e.1, x.request c x.desc.kind cls x.desc.tag e.2 payload x.desc.returnAddr))
  else
    (s.routeRow c x.part x.desc.table x.desc.target (x.desc.kind == 2 || x.desc.kind == 6) x.epoch.isSome).map (fun g =>
      (g, x.request c x.desc.kind cls x.desc.tag x.desc.target payload x.desc.returnAddr))

/-- Bin bytes that a source stream moves. -/
def XferDesc.binSource (d : XferDesc) : Nat := if d.src.space = 0 then d.src.total * 2 ^ d.src.esize else 0

/-- Whether a REQUEST that the default row would answer meets a held input region with it (R117, R311). -/
def State.defaultHeld (s : State) (c : Nat) (x : Xfer) : Bool :=
  x.desc.kind == 2 && (s.requestOf c x).isNone &&
    s.destHeld x.core [x.desc.returnAddr] (8 + (((s.planOf x.part).map (fun pl => pl.defaultOf x.desc.table)).getD []).length)

/-- DMA_REQUEST: the admitted REQUEST at the head of a queue sends its gleaner request (R348); with no gleaner to send it to, a
read of a lost bay is the default row with DEGRADED, a raw write is discarded and anything else ends LOST (R311). -/
def execDmaRequest (c q : Nat) (ecc : Ecc) (s : State) : Answer :=
  onAdmissible c q .request s (fun s x => if s.defaultHeld c x then s else
    let s1 := s.admitXfer c x
    match (if x.desc.src.isEmpty then (s1, true) else s1.sourceEcc x ((x.desc.src.elements (2 ^ x.desc.src.esize)).headD 0) ecc) with
    | (s2, false) => s2
    | (s2, true) =>
      let src := if x.desc.src.isEmpty ∨ x.desc.src.space = 0 then (s2, 0, ([] : List Byte))
        else (x.desc.src.elements (2 ^ x.desc.src.esize)).foldl (fun (acc : State × Nat × List Byte) a =>
          let r := acc.1.ctxFetch x.ctx x.tag a (2 ^ x.desc.src.esize)
          (r.1, max acc.2.1 r.2.1, acc.2.2 ++ r.2.2)) (s2, 0, [])
      if src.2.1 ≠ 0 then src.1.completeXfer c { x with status := src.2.1 } 0
      else
        match src.1.requestOf c x with
        | some (g, r) =>
          let s3 := src.1.updXfer c x.serial (fun y => { y with parts := [(x.desc.tag, g)] })
          (s3.movedBytes c x.ctx x.desc.binSource).send (.request g r)
        | none =>
          match x.desc.kind, src.1.ownRow x with
          | 2, some row =>
            let head := natLE 8 (0x01000000 + x.desc.tag % 256 * 2 ^ 16 + row.length * 2 ^ 48)
            (src.1.binElements x.core [(x.desc.returnAddr, head ++ row)]).completeXfer c { x with marks := 1 } (8 + row.length)
          | 2, none => src.1.completeXfer c { x with status := 2 } 0
          | 1, _ => src.1.completeXfer c x x.desc.binSource
          | _, _ => src.1.completeXfer c { x with status := 5 } 0)

/-! ### LOOKUP (R349, R350) -/

/-- An element of a plan table's own default row, as an exact value (R222). -/
def Plan.defaultValue (pl : Plan) (t : TableDesc) (i : Nat) : Value :=
  let row := pl.defaultOf t.table
  (rowValue t.rowFormat (rowScaleInfo pl t false (slotScale row)) (slotElements row t.elementBytes) i).1

/-- A lane of a table's default row: a composed table's is its components' default rows, combined with rne32 (R222, R228). -/
def Plan.defaultLane (pl : Plan) (t : TableDesc) (i : Nat) : Nat :=
  if t.kind = 2 then
    match pl.tableOf t.quotient, pl.tableOf t.remainder with
    | some a, some b =>
      let x := pl.defaultValue a i
      let y := pl.defaultValue b i
      rne32 (if t.combine = 1 then (mulValue x y).1 else (addValue .rne x y).1)
    | _, _ => 0
  else rne32 (pl.defaultValue t i)

/-- The lanes of a default row that a lost key brings to its group (R311). -/
def State.defaultLanes (s : State) (x : Xfer) (lanes : Nat) : List Nat :=
  match (s.planOf x.part).bind (fun pl => (pl.tableOf x.desc.table).map (fun t => (pl, t))) with
  | none => List.replicate lanes 0
  | some (pl, t) => (List.range lanes).map (pl.defaultLane t)

/-- Combining two lanes of a group: rne32 sums, or VMAX's rule for MAX (R350). -/
def mergeLane (kind a b : Nat) : Nat :=
  if kind = 2 then (laneExtreme .b32 true (BitVec.ofNat 32 a) (BitVec.ofNat 32 b)).1.toNat
  else rne32 (addValue .rne (valueB32 a) (valueB32 b)).1

/-- A binary32 lane divided by a count, correctly rounded; a count of 0 gives +0 (R350). -/
def meanLane (a count : Nat) : Nat :=
  if count = 0 then 0
  else match valueB32 a with
    | .fin neg n d => rne32 (.fin neg n (d * count))
    | v => rne32 v

/-- The records of a group as they lie in the RETURN slots, in ascending part: lanes and header fields. -/
def State.groupRecords (s : State) (x : Xfer) (group lanes : Nat) : List (List Nat × XferRecord) :=
  (x.records.zipIdx.filter (fun e => e.1.group == group)).map (fun e =>
    let bytes := match binPlace (x.desc.returnAddr + e.2 * x.desc.stride * 8 + 8) with
      | some pl => s.binRead x.core pl (4 * lanes)
      | none => zeroBytes (4 * lanes)
    ((List.range lanes).map (fun i => fieldLE bytes (4 * i) 4), e.1))

/-- One group merged (R350): its lanes in OUT_FMT and its mark byte. Keys of lost bays join after the parts (R311). -/
def State.mergeGroup (s : State) (x : Xfer) (group lanes : Nat) : List Nat × Nat :=
  let rs := s.groupRecords x group lanes
  let lost := (x.defaults.filter (fun e => e.1 == group)).map (fun e =>
    (s.defaultLanes x lanes).map (fun v =>
      if x.desc.kind = 3 then rne32 (mulValue (valueB32 v) (valueB32 e.2)).1 else v))
  let all := rs.map Prod.fst ++ lost
  let sum := match all with
    | [] => List.replicate lanes 0
    | v :: vs => vs.foldl (fun acc w => acc.zipWith (mergeLane x.desc.kind) w) v
  let count := sumNat (rs.map (fun e => e.2.count)) + lost.length
  let out := outFormat x.desc.outFmt
  let cells := sum.map (fun v =>
    encodeValue out.1 { codebook := [], scale := 0x3C00, zeroPoint := 0 } .rne 0 (valueB32 (if x.desc.kind = 1 then meanLane v count else v)))
  let marks := (rs.map (fun e => e.2.marks)).foldl (· ||| ·) (if lost.isEmpty then 0 else 1)
  (cells.map Prod.fst, marks ||| recordMarks (joinFlags (cells.map Prod.snd)))

/-- The groups of a LOOKUP are merged and written to its destination, and its mark bytes with them (R350). -/
def State.mergeLookup (s : State) (c : Nat) (x : Xfer) : State :=
  let lanes := x.desc.dst.count 0
  let size := 2 ^ x.desc.dst.esize
  let ms := (List.range x.desc.groups).map (fun g => s.mergeGroup x g lanes)
  let es := (x.desc.dst.elements size).zip (ms.flatMap (fun m => m.1.map (natLE size)))
  let bytes := ms.map (fun m => BitVec.ofNat 8 m.2)
  let s1 := if x.desc.markOut = 0 then s else s.binElements x.core [(x.desc.markOut, bytes)]
  let y := { x with marks := ms.foldl (fun a m => a ||| m.2) x.marks }
  let moved := size * es.length
  if x.desc.dst.space = 0 then (s1.binElements x.core es).completeXfer c y moved
  else if x.desc.dst.space = 2 then (s1.outElements x es).completeXfer c y 0
  else
    let r := s1.memElements x.ctx x.tag es
    r.1.completeXfer c { y with status := r.2 } 0

/-- Whether the bin writes of a LOOKUP's merge meet a held input region (R117, R350). -/
def State.mergeHeld (s : State) (x : Xfer) : Bool :=
  (x.desc.dst.space == 0 && s.destHeld x.core (x.desc.dst.elements (2 ^ x.desc.dst.esize)) (2 ^ x.desc.dst.esize)) ||
    (x.desc.markOut != 0 && s.destHeld x.core [x.desc.markOut] x.desc.groups)

/-- DMA_LOOKUP: the admitted LOOKUP at the head of a queue sends one INVOKE per part (R349); one whose keys could not be read completes with that
status (R352). -/
def execDmaLookup (c q : Nat) (s : State) : Answer :=
  onAdmissible c q .lookup s (fun s x => if x.status ≠ 0 then (s.admitXfer c x).completeXfer c x 0
    else if x.requests.isEmpty && s.mergeHeld x then s else
    let y := { x with parts := x.requests.map (fun e => (e.2.tag % 4096, e.1)) }
    let s1 := ((s.admitXfer c x).updXfer c x.serial (fun _ => y)).sendAll (x.requests.map (fun e => Out.request e.1 e.2))
    let s2 := s1.movedBytes c x.ctx (if x.desc.src.space = 0 then x.desc.src.total * x.desc.keyBytes else 0)
    if x.requests.isEmpty then s2.mergeLookup c y else s2)

/-- Every record that has arrived is as long as L lanes (R350). -/
def Xfer.lengthsOk (x : Xfer) : Bool := x.records.all (fun r => !r.arrived || r.length == 4 * x.desc.dst.count 0)

/-- A message waits at a cluster's engine for the end of a hold (R117). -/
def State.stallMsg (s : State) (c : Nat) (m : StalledMsg) : State := s.updDma c (fun d => { d with stalled := d.stalled ++ [m] })

/-- The transfer that a message belongs to. -/
def StalledMsg.serial (m : StalledMsg) : Nat :=
  match m with
  | .record r => r.tag / 4096
  | .ending _ e => e.tag / 4096

/-- A record arrives at a cluster's engine and is written at its slot: header, then payload (R258); a row that a SRC_ROW copy reads is kept for
its writes (R347). Records of work that has ended or
was aborted are discarded (R357); one whose slot lies in a held input region stalls (R117). -/
def State.takeRecord (s : State) (c : Nat) (m : RecordMsg) : State :=
  match s.xferOf c (m.tag / 4096) with
  | none => s
  | some x =>
    if x.core = 255 then s
    else if x.desc.op = .copy then
      match (List.range x.rows.length).find? (fun i => i % 4096 == m.tag % 4096 && x.rows[i]? == some none) with
      | some i => s.updXfer c x.serial (fun x => { x with marks := x.marks ||| m.marks, rows := x.rows.set i (some (padTo (s.copySize x) m.payload)) })
      | none => s
    else
      let bytes := natLE 8 (m.record % 4096 + m.part % 256 * 2 ^ 16 + m.marks % 256 * 2 ^ 24 + m.count % 65536 * 2 ^ 32 +
        m.payload.length % 65536 * 2 ^ 48) ++ m.payload
      match s.binCheck x.core m.addr bytes.length true false with
      | none => s.binFault x.core m.addr
      | some (pl, _) =>
        if s.heldInput x.core pl bytes.length then s.stallMsg c (.record m)
        else
          let i := (m.addr - x.desc.returnAddr) / (8 * max 1 x.desc.stride)
          let s1 := (s.binWrite x.core pl bytes).movedBytes c x.ctx bytes.length
          s1.updXfer c x.serial (fun x => { x with
            marks := x.marks ||| m.marks
            records := match x.records[i]? with
              | some r => x.records.set i { r with count := m.count, marks := m.marks, length := m.payload.length, arrived := true }
              | none => x.records })

/-- An END record arrives at a cluster's engine and completes its part of the transfer (R258, R348, R350, R352); the END whose merge would write
a held input region stalls (R117). -/
def State.takeEnd (s : State) (c g : Nat) (m : EndMsg) : State :=
  match s.xferOf c (m.tag / 4096) with
  | none => s
  | some x =>
    match (x.parts.find? (fun p => p == (m.tag % 4096, g))).or (x.parts.find? (fun p => p.1 == m.tag % 4096)) with
    | none => s
    | some p =>
      let y := { x with parts := x.parts.erase p, status := max x.status m.status, marks := x.marks ||| m.marks }
      let merges := y.parts.isEmpty && y.desc.op == .lookup && y.core != 255 && y.status == 0 && y.lengthsOk
      let copies := y.parts.isEmpty && y.desc.op == .copy && !y.rows.isEmpty && y.core != 255 && y.status == 0
      if (merges && s.mergeHeld y) || (copies && s.copyHeld y) then s.stallMsg c (.ending g m)
      else
        let s1 := s.updXfer c x.serial (fun _ => y)
        if !y.parts.isEmpty then s1
        else if merges then s1.mergeLookup c y
        else if copies then s1.copyOut c y (y.rows.map (fun r => r.getD []))
        else if y.desc.op = .lookup ∧ y.core ≠ 255 ∧ y.status = 0 then s1.completeXfer c { y with status := 2 } 0
        else s1.completeXfer c y 0

/-- A message is taken, behind any of its transfer that stalls. -/
def State.takeMsg (s : State) (c : Nat) (m : StalledMsg) : State :=
  if (s.dma c).stalled.any (fun n => n.serial == m.serial) then s.stallMsg c m
  else
    match m with
    | .record r => s.takeRecord c r
    | .ending g e => s.takeEnd c g e

/-- A record arrives at a cluster's engine (R258). -/
def State.recordAtDma (s : State) (c : Nat) (m : RecordMsg) : State := s.takeMsg c (.record m)
/-- An END record arrives at a cluster's engine (R258). -/
def State.endAtDma (s : State) (c g : Nat) (m : EndMsg) : State := s.takeMsg c (.ending g m)

/-- The stalled messages are tried again, oldest first, after a hold may have ended (R117). -/
def State.pumpStalled (s : State) (c : Nat) : State :=
  (s.dma c).stalled.foldl (fun s m => s.takeMsg c m) (s.updDma c (fun d => { d with stalled := [] }))

/-! ### Abort (R357) -/

/-- Whether an abort names a transfer: its context, and its command's tag where the mask asks for one. -/
def Xfer.aborted (x : Xfer) (ctx tag mask : Nat) : Bool :=
  x.ctx == ctx && (mask == 0 || (x.itemTag.map (fun t => (t &&& mask) == (tag &&& mask))).getD false)

/-- DMA_ABORT: unadmitted transfers are discarded, ABORTs go to the gleaners that hold requests, admitted transfers run on without
their work, and the engine acknowledges (R357). -/
def execDmaAbort (c ctx tag mask cause : Nat) (s : State) : Answer :=
  onCluster c s (fun s =>
    let hit (x : Xfer) : Bool := x.aborted ctx tag mask
    let sent := ((s.dma c).outstanding.filter hit).flatMap (fun x => (x.parts.map Prod.snd).eraseDups.map (fun g =>
      Out.abort (gleanerUnit g).1 (gleanerUnit g).2 ctx (some c) x.tag 0xFFFFF000 cause))
    let s1 := s.updDma c (fun d => { d with
      queues := d.queues.filterMap (fun q =>
        let rest := q.2.filter (fun e => match e with
          | .xfer x => !hit x
          | .barrier _ => true)
        if rest.isEmpty then none else some (q.1, rest))
      outstanding := d.outstanding.map (fun x => if hit x then { x with core := 255 } else x) })
    .next ((s1.sendAll sent).send (.acknowledge 3 c cause)))

end Sys2Proof.Machine
end

