-- ==== Sys2Proof/Machine/Captures.lean ====
section
/-!
DEFINITION. Captures (R502, R503): what the recovery engine saves before a reset, and the captures of resets that no fault opens.
-/

namespace Sys2Proof.Machine

/-- The state with fault handling changed. -/
def State.updFaults (s : State) (f : FaultState → FaultState) : State := { s with faults := f s.faults }
/-- The next capture slot, round-robin (R502). -/
def State.takeSlot (s : State) : State × Nat :=
  (s.updFaults (fun f => { f with captureHead := f.captureHead + 1 }), s.faults.captureHead.toNat)

/-- The gleaner of a unit (R490). -/
def unitGleaner (uk u : Nat) : Nat := if uk = 5 then 384 + u else u

/-- The contexts whose work a domain holds. -/
def State.domainContexts (s : State) (uk u : Nat) (ctx : Option Nat) : List Nat :=
  let listed (c : ClusterState) : List Nat :=
    (c.ready.flatMap Prod.snd ++ c.unlisted).map (fun i => i.ctx) ++ c.openSheaves.map (fun o => o.ctx) ++ c.dma.outstanding.map (fun x => x.ctx)
  let reqs (g : GleanerState) : List Nat := g.waitingReqs.map (fun r => r.ctx) ++
    g.threads.filterMap (fun e => e.2.map (fun t => t.req.ctx))
  let core (k : Nat) : List Nat := ((s.core k).item.map (fun i => i.ctx)).toList ++ ((s.core k).saved.map (fun v => v.item.ctx)).toList
  let cluster (c : Nat) : List Nat := listed (s.cluster c) ++ (List.range 8).flatMap (fun j => core (8 * c + j))
  (ctx.toList ++ (match uk with
    | 1 => core u
    | 2 => cluster u
    | 4 | 5 => reqs (s.gleaner (unitGleaner uk u))
    | 15 => (List.range 12).flatMap (fun i => cluster (12 * u + i)) ++
        (s.gleaners.filter (fun e => decide (e.1 < 384) && e.1 / 192 == u)).flatMap (fun e => reqs e.2)
    | 16 => (s.gfe.queues.filter (fun e => e.2.state != 0 && e.2.inst == u)).map (fun e => e.2.context) ++
        (s.gleaners.filter (fun e => decide (384 ≤ e.1) && (e.1 - 384) / 32 == u)).flatMap (fun e => reqs e.2)
    | _ => [])).eraseDups

/-- The sections that a capture wants, each with TYPE, COUNT and bytes: the queues and semaphores of its contexts and the engines that the
domain resets (R502, R503). -/
def State.captureSections (s : State) (device : Bool) (uk : Nat) (cs : List Nat) : List (Nat × Nat × Nat) :=
  let qs := s.gfe.queues.filter (fun e => e.2.state != 0 && cs.contains e.2.context)
  let sems := s.gfe.sems.filter (fun e => (e.2.holder.map cs.contains).getD false ||
    e.2.waiters.any (fun q => decide (q < 1024) && cs.contains (s.queue q).context))
  let core := (3, 1, 2 ^ 18)
  let cluster := [(4, 1, 2 ^ 20), (5, 1, 2 ^ 16)]
  let gleaner := (6, 1, 2 ^ 18)
  (if qs.isEmpty then [] else [(1, qs.length, 32 * qs.length)]) ++ (if sems.isEmpty then [] else [(2, sems.length, 16 * sems.length)]) ++
    (match uk with
     | 1 => [core]
     | 2 => cluster
     | 4 | 5 => [gleaner]
     | 15 => List.replicate 96 core ++ (List.replicate 12 cluster).flatten ++ List.replicate 192 gleaner
     | 16 => [(7, 1, 2 ^ 16), (8, 1, 2 ^ 15)] ++ List.replicate 32 gleaner
     | 0 => if device then [(7, 2, 2 ^ 17), (8, 2, 2 ^ 16)] ++ List.replicate 192 core ++ (List.replicate 24 cluster).flatten ++
         List.replicate 448 gleaner else []
     | _ => [])

/-- The sections that fit a slot of 2 MiB behind its header, each at 4 KiB alignment, and whether one was left out (R503). -/
def fitSections (want : List (Nat × Nat × Nat)) : List (Nat × Nat × Nat) × Bool :=
  let r := want.foldl (fun (acc : List (Nat × Nat × Nat) × Nat × Bool) e =>
    let size := (e.2.2 + 4095) / 4096 * 4096
    if acc.2.1 + size ≤ 2 ^ 21 then (acc.1 ++ [e], acc.2.1 + size, acc.2.2) else (acc.1, acc.2.1, true)) ([], 4096, false)
  (r.1, r.2.2)

/-- The capture of a reset that no fault's recovery opens, a port's or a function's, is written before it (R502, R505). The reset waits for it,
and it is part of the reset's own step (DESIGN CHOICE, log 52). -/
def State.captureFor (s : State) (domain : Nat) (cs : List Nat) : State :=
  let (s1, slot) := s.takeSlot
  let (sections, truncated) := fitSections (s.captureSections false 0 cs)
  s1.updFaults (fun f => { f with captures := Tbl.set none f.captures slot (some
    { serial := 0, fault := 0, time := s.devTime, domain := domain, complete := true, truncated := truncated, sections := sections }) })

/-- The contexts whose completions and doorbells pass through a function's attachment. -/
def State.fnContexts (s : State) (f : Nat) : List Nat :=
  match s.attOf f with
  | some a => ((s.gfe.queues.filter (fun e => e.2.state != 0 && e.2.attachment == a)).map (fun e => e.2.context)).eraseDups
  | none => []

end Sys2Proof.Machine
end

