-- ==== Sys2Proof/Machine/HostCmds.lean ====
section
/-!
DEFINITION. The host interface (spec 14): resets and links of the ports, window slots and the window, attachments, detach
and re-attachment, check reads, SLOT_MAP and HANDLE_SET.
-/

namespace Sys2Proof.Machine

/-! ### Slots (R385) -/

/-- Releasing a function's slots: their mappings are lost (R385). -/
def State.releaseSlots (s : State) (f : Nat) : State :=
  let b := (s.fn f).slotBase
  let n := (s.fn f).slotCount
  let s1 := { s with host := { s.host with slots := s.host.slots.filter (fun e => e.1 < b || decide (b + n ≤ e.1)) } }
  s1.updFn f (fun h => { h with slotBase := 0, slotCount := 0, short := false })

/-- The free runs of the pool: base and length, in rising order. -/
def freeRuns : List (Nat × Nat) → Nat → List (Nat × Nat)
  | [], at_ => if at_ < 32768 then [(at_, 32768 - at_)] else []
  | (b, n) :: rest, at_ => (if at_ < b then [(at_, b - at_)] else []) ++ freeRuns rest (b + n)

/-- The runs that functions hold, in rising order. -/
def State.heldRuns (s : State) : List (Nat × Nat) :=
  (((List.range 32).map (fun f => ((s.fn f).slotBase, (s.fn f).slotCount))).filter (fun r => r.2 != 0)).mergeSort (fun a b => a.1 ≤ b.1)

/-- Slots for a function whose Memory Space Enable is set: the lowest free run that fits, else the largest (R385). -/
def State.assignSlots (s : State) (f : Nat) : State :=
  if (s.fn f).slotCount ≠ 0 then s
  else
    let want := s.bar2Size f / 2 ^ 21
    let runs := freeRuns s.heldRuns 0
    match runs.find? (fun r => want ≤ r.2) with
    | some r => s.updFn f (fun h => { h with slotBase := r.1, slotCount := want, short := false })
    | none =>
      match argMin (fun r : Nat × Nat => 32768 - r.2) runs with
      | some r => s.updFn f (fun h => { h with slotBase := r.1, slotCount := r.2, short := true })
      | none => s.updFn f (fun h => { h with short := true })

/-- MEM_SPACE_ENABLE: Memory Space Enable of a function goes from 0 to 1 (R385); a function that still holds its run keeps it (DEDUCED,
log 37). -/
def execMemSpaceEnable (f : Nat) (s : State) : Answer :=
  onFn f s (fun s => .next ((s.updFn f (fun h => { h with memSpace := true })).assignSlots f))

/-- BAR2_RESIZE: a new BAR2 size releases the function's slots (R385); a size that R381 does not give is no size. -/
def execBar2Resize (f size : Nat) (s : State) : Answer :=
  onFn f s (fun s =>
    if (List.range 16).any (fun i => size == 2 ^ (21 + i)) then .next ((s.releaseSlots f).updFn f (fun h => { h with bar2 := size }))
    else .next s)

/-! ### Detach (R396, R397) -/

/-- An attachment is detached by a cause of R396; its function's slots are released or kept, disabled. -/
def State.detach (s : State) (a cause : Nat) (release : Bool) : State :=
  let x := s.att a
  if x.state ≠ 1 ∧ x.state ≠ 3 then s
  else
    let late := (s.host.checks.filter (fun c => c.att == a)).map (fun c => c.vector)
    let s1 := { s with host := { s.host with checks := s.host.checks.filter (fun c => c.att != a) } }
    let halted (w : OutWrite) : Bool := (w.queue.map s.cstop).getD true
    let s2 := s1.updAtt a (fun x =>
      let queued := x.withheld.filter (fun w => !halted w)
      let y := (late ++ queued.map (fun w => w.vector)).foldl (fun y v => y.pend v) x
      { y with state := 2, cause := BitVec.ofNat 3 cause, unacked := [], adoptHold := false, withheld := x.withheld.filter halted
               journal := x.unacked.map OutWrite.journaled ++ x.journal ++ queued.map OutWrite.journaled, journalSent := 0 })
    let s3 := s2.freeWrites a
    let s4 := s3.send (.fault { faultOf 0x0406 11 a with detail := cause })
    if release then s4.releaseSlots x.fn else s4.updFn x.fn (fun h => { h with disabled := true })

/-- A function's reset: its slots go, its registers return to their reset values (R383, R385). -/
def State.resetFn (s : State) (f : Nat) : State := (((s.releaseSlots f).updFn f (fun _ => fnReset))).setAdmin f none

/-- Detaching whatever a function holds. -/
def State.detachFn (s : State) (f cause : Nat) (release : Bool) : State :=
  match s.attOf f with
  | some a => s.detach a cause release
  | none => s

/-- The functions of a port. -/
def portFns (q : Nat) : List Nat := (List.range 16).map (fun i => 16 * q + i)

/-- A reset of a port's link and functions (R383): its attachments are detached with their slots released. -/
def State.resetPort (s : State) (q cause : Nat) : State :=
  let s1 := (portFns q).foldl (fun s f => (s.detachFn f cause true).resetFn f) s
  s1.updPort q (fun p => { p with up := false, retraining := false })

/-- The same by the port itself, behind its capture (R502, R505). -/
def State.takePortReset (s : State) (q cause : Nat) : State :=
  (s.captureFor 4 ((portFns q).flatMap s.fnContexts).eraseDups).resetPort q cause

/-- PERST_ASSERT (R383, R396). -/
def execPerstAssert (q : Nat) (s : State) : Answer :=
  onPort q s (fun s => .next ((s.takePortReset q 2).updPort q (fun p => { p with perst := true })))
/-- HOT_RESET (R383, R396). -/
def execHotReset (q : Nat) (s : State) : Answer := onPort q s (fun s => .next (s.takePortReset q 2))
/-- PCIE_LINK_DOWN: DL_Down (R383, R396). -/
def execPcieLinkDown (q : Nat) (s : State) : Answer := onPort q s (fun s => .next (s.takePortReset q 0))
/-- PERST_DEASSERT: CLKSEL is sampled and configuration space is brought up (R383, R560). -/
def execPerstDeassert (q : Nat) (clksel : Bool) (s : State) : Answer :=
  onPort q s (fun s => if (s.port q).perst then .next (s.updPort q (fun p => { p with perst := false, clksel := clksel })) else .next s)
/-- PCIE_LINK_RETRAIN: the link leaves L0; its attachments stay ATTACHED and their outbound writes wait (R396). -/
def execPcieLinkRetrain (q : Nat) (s : State) : Answer :=
  onPort q s (fun s => if (s.port q).up then .next (s.updPort q (fun p => { p with retraining := true })) else .next s)
/-- PCIE_LINK_L0: the link is in L0, first trained or back from retraining, and waiting writes go out in order (R396). -/
def execPcieLinkL0 (q : Nat) (s : State) : Answer :=
  onPort q s (fun s =>
    if (s.port q).perst then .next s
    else
      let s1 := s.updPort q (fun p => { p with up := true, retraining := false })
      .next ((List.range 32).foldl (fun s a =>
        if (s.att a).state = 1 ∧ (s.att a).fn / 16 = q then s.freeWrites a else s) s1))
/-- PCIE_RETRAIN_TIMEOUT: a link still retraining at the limit detaches its attachments, slots kept and disabled (R396). -/
def execPcieRetrainTimeout (q : Nat) (s : State) : Answer :=
  onPort q s (fun s =>
    if (s.port q).retraining then .next ((portFns q).foldl (fun s f => s.detachFn f 1 false) s) else .next s)
/-- FLR of a function, behind its capture (R383, R396, R502). -/
def execFlr (f : Nat) (s : State) : Answer := onFn f s (fun s => .next (((s.captureFor 5 (s.fnContexts f)).detachFn f 3 true).resetFn f))
/-- BUS_MASTER_DISABLE (R396). -/
def execBusMasterDisable (f : Nat) (s : State) : Answer :=
  onFn f s (fun s => .next ((s.detachFn f 4 false).updFn f (fun h => { h with busMaster := false })))
/-- D3HOT_ENTRY (R396). -/
def execD3hotEntry (f : Nat) (s : State) : Answer :=
  onFn f s (fun s => .next ((s.detachFn f 5 false).updFn f (fun h => { h with d3hot := true })))
/-- HEARTBEAT_TIMEOUT: an attachment with a timeout set has seen no beat within it (R396). -/
def execHeartbeatTimeout (a : Nat) (s : State) : Answer :=
  onAtt a s (fun s => if (s.att a).timeout = 0 then .next s else .next (s.detach a 6 false))
/-- A command of function `f` on the block of an attachment that it holds (R401). -/
def onHeld (f a : Nat) (s : State) (h : State → State) : Answer :=
  onAtt a s (fun s => onBar0 f s (fun s => if s.attOf f = some a then .next (h s) else .next s))
/-- HEARTBEAT_BEAT restarts the timeout (R396, R401). -/
def execHeartbeatBeat (f a : Nat) (s : State) : Answer := onHeld f a s (fun s => s.updAtt a (fun x => { x with beatAt := s.devTime }))
/-- HOST_DETACH: DETACH written by the holding function (R396). -/
def execHostDetach (f a : Nat) (s : State) : Answer := onHeld f a s (fun s => s.detach a 7 false)

/-- TLP_ACKNOWLEDGE: the link partner acknowledges the `n` oldest posted writes of an attachment; during replay they leave the journal, and
writes that waited for its space take their places (R397, R398, R400). -/
def execTlpAcknowledge (a n : Nat) (s : State) : Answer :=
  onAtt a s (fun s =>
    if (s.att a).state = 3 then
      .next ((s.updAtt a (fun x =>
        { x with journal := x.journal.drop (min n x.journalSent), journalSent := x.journalSent - min n x.journalSent })).freeWrites a)
    else .next (s.updAtt a (fun x => { x with unacked := x.unacked.drop n })))

/-! ### Attach, re-attach and replay (R395, R399, R400) -/

/-- RESULT of HOST_ATTACH_CTL (R401). -/
def State.attachResult (s : State) (f mode a : Nat) (result : BitVec 3) : State :=
  s.updFn f (fun h => { h with ctlAttachment := BitVec.ofNat 5 a, ctlMode := BitVec.ofNat 2 mode, ctlResult := result })

/-- A fresh credential, which can be read once (R395). -/
def State.newCredential (s : State) (a : Nat) : State :=
  (s.updAtt a (fun x => { x with credential := Config.freeCredential s.freeCtr, credRead := false })).tookFree

/-- ATTACH_NEW: GO in MODE NEW (R395): the function's own number where it is free, else the lowest free one. -/
def execAttachNew (f : Nat) (s : State) : Answer :=
  onBar0 f s (fun s =>
    let free (a : Nat) : Bool := (s.att a).state == 0
    if (s.attOf f).isSome then .next (s.attachResult f 0 (s.fn f).ctlAttachment.toNat 5)
    else
      match (if free f then some f else (List.range 32).find? free) with
      | none => .next (s.attachResult f 0 (s.fn f).ctlAttachment.toNat 2)
      | some a =>
        let s1 := (s.updAtt a (fun _ => { attReset with state := 1, fn := f, beatAt := s.devTime })).newCredential a
        .next ((s1.updFn f (fun h => { h with disabled := false })).attachResult f 0 (s.fn f).ctlAttachment.toNat 1))

/-- The FUNCTIONS bits of an attachment's old function move to the new one (R399). -/
def State.moveFunction (s : State) (old new : Nat) : State :=
  (List.range 8).foldl (fun s p => match (s.part p).desc with
    | some d =>
      if d.functions.testBit old ∧ old ≠ new then
        s.updPart p (fun x => { x with desc := some { d with functions := (d.functions - 2 ^ old) ||| 2 ^ new } })
      else s
    | none => s) s

/-- GO in MODE RESUME or ADOPT by a function that holds no attachment (R399). -/
def State.takeOver (s : State) (f a : Nat) (adopt : Bool) : State :=
  let mode := if adopt then 2 else 1
  let x := s.att a
  if (s.attOf f).isSome then s.attachResult f mode a 5
  else if x.locked then s.attachResult f mode a 3
  else if x.state ≠ 2 then s.attachResult f mode a 4
  else if x.credential ≠ (s.fn f).cred then
    (s.updAtt a (fun x => { x with refusals := x.refusals + 1, locked := decide (4 ≤ x.refusals + 1) })).attachResult f mode a 2
  else
    let s1 := (s.moveFunction x.fn f).updAtt a (fun x => { x with
      state := 3, fn := f, refusals := 0, adoptHold := adopt, beatAt := s.devTime
      handles := if adopt then x.handles.map (fun e => (e.1, e.2.map (fun h => { h with suspended := true }))) else x.handles })
    ((s1.updFn f (fun h => { h with disabled := false })).attachResult f mode a 1).pumpJournal a

/-- ATTACH_RESUME (R399). -/
def execAttachResume (f a : Nat) (s : State) : Answer := onAtt a s (fun s => onBar0 f s (fun s => .next (s.takeOver f a false)))
/-- ATTACH_ADOPT (R399). -/
def execAttachAdopt (f a : Nat) (s : State) : Answer := onAtt a s (fun s => onBar0 f s (fun s => .next (s.takeOver f a true)))
/-- ATTACH_REPLAY: REPLAY written by the function that adopted (R399). -/
def execAttachReplay (f : Nat) (s : State) : Answer :=
  onBar0 f s (fun s =>
    match s.attOf f with
    | some a => .next ((s.updAtt a (fun x => { x with adoptHold := false })).pumpJournal a)
    | none => .next s)
/-- ATTACH_LOCKOUT_EXPIRE: the refusal period of an attachment ends (R399). -/
def execAttachLockoutExpire (a : Nat) (s : State) : Answer :=
  onAtt a s (fun s => if (s.att a).locked then .next (s.updAtt a (fun x => { x with locked := false, refusals := 0 })) else .next s)

/-- JOURNAL_EMPTY: replay has drained the journal: ATTACHED, the pending vectors, a new credential, then the writes that waited
(R400). -/
def execJournalEmpty (a : Nat) (s : State) : Answer :=
  onAtt a s (fun s =>
    let x := s.att a
    if x.state ≠ 3 ∨ x.adoptHold ∨ !x.journal.isEmpty ∨ s.host.checks.any (fun c => c.att == a) then .next s
    else
      let s1 := s.updAtt a (fun x => { x with state := 1, pendingVectors := [] })
      let s2 := x.pendingVectors.foldl (fun s v => s.sendVector a v) s1
      .next ((s2.newCredential a).freeWrites a))

/-- CRED_READ: a read of HOST_ATT_CRED `word` of an attachment; after CRED3 all four read 0, as they do for any function that does not
hold it (R395, R401). -/
def execCredRead (f a word : Nat) (s : State) : Answer :=
  onFn f s (fun s => onAtt a s (fun s =>
    let x := s.att a
    let shown := s.served && s.attOf f == some a && !x.credRead
    let v := if shown then x.credential.toNat / 2 ^ (32 * (word % 4)) % 2 ^ 32 else 0
    let s1 := if shown ∧ word % 4 = 3 then s.updAtt a (fun x => { x with credRead := true }) else s
    .next (s1.send (.completion f (natLE 4 v)))))

/-! ### Check reads (R393, R394) -/

/-- The message address of a function's MSI-X vector. -/
def State.vectorAddr (s : State) (f v : Nat) : Nat := (s.fn f).msix.nat (16 * v) 8

/-- A check read of a queue has failed: the target stops, what the journal holds for it is withheld, the fault and the alarm follow
(R394). -/
def State.checkFailed (s : State) (q : Nat) (c : CheckRead) : State :=
  let x := s.att c.att
  let mine (w : OutWrite) : Bool := w.queue == some q
  let rest := x.journal.drop x.journalSent
  let s1 := { s with host := { s.host with
    checks := s.host.checks.filter (fun k => k.queue != q)
    status := s.host.status ||| 4 ||| (if s.vectorAddr x.fn x.alarm.toNat / 4096 = c.addr / 4096 then 8 else 0) } }
  let s2 := { s1 with gfe := { s1.gfe with queues := Tbl.modify queueReset s1.gfe.queues q (fun k => { k with cstop := true }) } }
  let s3 := s2.updAtt c.att (fun x => { x with
    withheld := x.withheld ++ (if x.state = 3 then rest.filter mine else [])
    journal := if x.state = 3 then x.journal.take x.journalSent ++ rest.filter (fun w => !mine w) else x.journal })
  ((s3.send (.fault { faultOf 0x0404 11 c.att with detail := q })).sendVector c.att x.alarm.toNat).pumpJournal c.att

/-- CHECK_READ_COMPLETE: on success the record has landed: its vector follows, then what waits behind it; on failure the target stops
(R393, R394). -/
def execCheckReadComplete (q : Nat) (ok : Bool) (s : State) : Answer :=
  onQueue q s (fun s =>
    match s.host.checks.find? (fun c => c.queue == q) with
    | none => .next s
    | some c =>
      if !ok then .next (s.checkFailed q c)
      else
        let s1 := { s with host := { s.host with checks := s.host.checks.filter (fun k => k.queue != q) } }
        let s2 := match c.vector with
          | some v => s1.sendVector c.att v
          | none => s1
        .next ((s2.drainWithheld c.att q).pumpJournal c.att))

/-- CHECK_READ_TIMEOUT: handled as a failure (R393). -/
def execCheckReadTimeout (q : Nat) (s : State) : Answer :=
  onQueue q s (fun s =>
    match s.host.checks.find? (fun c => c.queue == q) with
    | none => .next s
    | some c => .next (s.checkFailed q c))

/-- CSTOP_RESUME: 1 written to a queue's HOST_CSTOP bit by the function that holds its attachment (R394, R401). -/
def execCstopResume (f q : Nat) (s : State) : Answer :=
  onQueue q s (fun s => onBar0 f s (fun s =>
    let a := (s.queue q).attachment
    if s.attOf f ≠ some a ∨ !(s.queue q).cstop then .next s
    else .next ((s.updQueue q (fun x => { x with cstop := false })).drainWithheld a q)))

/-! ### The window (R387 to R389) -/

/-- How the check of one unit ends: the context address it lies at, or the number of the check that failed (R387, R401). -/
inductive WindowCheck where
  | ok (entry : SlotEntry) (addr : Nat)
  | failed (slot check : Nat)
  deriving DecidableEq, Repr

/-- The check of the unit at a BAR2 offset (R387, R388, R397). -/
def State.windowCheck (s : State) (f offset requester : Nat) (write : Bool) : WindowCheck :=
  let h := s.fn f
  let slot := offset / 2 ^ 21
  if h.slotCount ≤ slot then .failed (h.slotBase + slot) 3
  else
    match Tbl.get none s.host.slots (h.slotBase + slot) with
    | none => .failed (h.slotBase + slot) 0
    | some e =>
      if h.disabled ∨ !e.valid ∨ !(if write then e.write else e.read) then .failed (h.slotBase + slot) 0
      else if e.filter ∧ (requester &&& e.reqMask) ≠ (e.requester &&& e.reqMask) then .failed (h.slotBase + slot) 1
      else
        let addr : Nat := e.target + offset % 2 ^ 21
        let unit : Nat := addr / 64 * 64
        if s.extentOk (28 + f / 16) e.context unit ((unit + 63 : Nat) : Int) (permHost + (if write then permWrite else permRead)) then .ok e addr
        else .failed (h.slotBase + slot) 2

/-- A refused unit is counted (R387, R401). -/
def State.windowRefused (s : State) (slot check : Nat) : State :=
  { s with host := { s.host with
    status := s.host.status ||| 1
    winRefused := BitVec.ofNat 32 ((s.host.winRefused.toNat + 1) % 2 ^ 16 + slot % 2 ^ 14 * 2 ^ 16 + check * 2 ^ 30) } }

/-- The bytes of a unit merged under byte enables. -/
def mergeBytes (old : List Byte) (new : List (Option Byte)) : List Byte := old.zipWith (fun o n => n.getD o) new

/-- One unit's raw write by the host (R231, R305, R387): a partial unit is merged at its one point, repaired from its mirror first where it
cannot be read. -/
def State.hostUnit (s : State) (c addr : Nat) (bytes : List (Option Byte)) : State :=
  let unit := addr / 64 * 64
  match s.ctxAt c unit with
  | none => s
  | some (g, off) =>
    let all := List.replicate (addr % 64) none ++ bytes ++ List.replicate (64 - addr % 64 - bytes.length) none
    let tag := 0xFFFF * 2 ^ 22
    let s0 := s.noteDirty c unit 64
    if all.all Option.isSome then (s0.rawWrite g c tag off (all.map (fun b => b.getD 0)) false).1
    else
      let s1 := if (s0.gleaner g).unitBad (off / 64) = 0 ∨ !s0.rangeAdmits g off 64 c true then s0 else (s0.repairUnits g off 64).1
      if (s1.gleaner g).unitBad (off / 64) = 0 then
        (s1.rawWrite g c tag off (mergeBytes ((s1.gleaner g).data.bytes off 64) all) false).1
      else
        match all.findIdx? Option.isSome with
        | some i => (s1.rawWrite g c tag (off + i) [((all.getD i none).getD 0)] false).1
        | none => s1

/-- A BAR2 access cut at 64 B boundaries: offset and bytes of each unit. -/
def windowUnits {α : Type} : Nat → Nat → List α → List (Nat × List α)
  | 0, _, _ => []
  | fuel + 1, offset, bs =>
    match bs with
    | [] => []
    | _ =>
      let n := 64 - offset % 64
      (offset, bs.take n) :: windowUnits fuel (offset + n) (bs.drop n)

/-- BAR2_WRITE: the units of a memory write, in address order, each checked and written as a raw write (R387, R389). A byte that is not
enabled is `none`. -/
def execBar2Write (f offset requester : Nat) (bytes : List (Option Byte)) (s : State) : Answer :=
  onFn f s (fun s =>
    .next ((windowUnits (bytes.length / 64 + 2) offset bytes).foldl (fun s u =>
      match s.windowCheck f u.1 requester true with
      | .failed slot check => s.windowRefused slot check
      | .ok e addr =>
        let s1 := (s.hostUnit e.context addr u.2).chargeHost e.context (u.2.filter Option.isSome).length
        match (if e.landingEn then s.attOf f else none) with
        | some a => (s1.updAtt a (fun x => { x with landing := Tbl.modify 0 x.landing e.landing (· + 64) })).grantLanding a e.landing
        | none => s1) s))

/-- BAR2_READ: the units of a memory read, checked in the same way; one that fails reads as all ones (R388). A unit that cannot be read is served
from its mirror (R307). -/
def execBar2Read (f offset requester len : Nat) (s : State) : Answer :=
  onFn f s (fun s =>
    let r := (windowUnits (len / 64 + 2) offset (List.range len)).foldl (fun (acc : State × List Byte) u =>
      match acc.1.windowCheck f u.1 requester false with
      | .failed slot check => (acc.1.windowRefused slot check, acc.2 ++ List.replicate u.2.length 0xFF)
      | .ok e addr =>
        let d := acc.1.ctxFetch e.context 0 addr u.2.length
        (d.1, acc.2 ++ (if d.2.1 = 0 then d.2.2 else List.replicate u.2.length 0xFF))) (s, [])
    .next (r.1.send (.completion f r.2)))

/-! ### SLOT_MAP and HANDLE_SET (R386, R392) -/

/-- A slot entry from its 32 bytes; none where a reserved field is set or a field is out of range. -/
def parseSlotEntry (bs : List Byte) : Option SlotEntry :=
  let fl := fieldLE bs 2 1
  if 32 ≤ fl ∨ !allZero ((bs.drop 17).take 15) ∨ 64 ≤ fieldLE bs 16 1 ∨ fieldLE bs 8 8 % 2 ^ 21 ≠ 0 ∨ 2 ^ 52 ≤ fieldLE bs 8 8 then none
  else some { valid := fl.testBit 0, read := fl.testBit 1, write := fl.testBit 2, filter := fl.testBit 3, landingEn := fl.testBit 4
              context := fieldLE bs 3 1, requester := fieldLE bs 4 2, reqMask := fieldLE bs 6 2, target := fieldLE bs 8 8
              landing := fieldLE bs 16 1 }

/-- SLOT_MAP of function `f` (R386, R423). -/
def execSlotMap (f : Nat) (s : State) : Answer :=
  onAdmin f 0x88 0 s (fun s c =>
    let bs := c.inline.take 32
    let slot := fieldLE bs 0 2
    let h := s.fn f
    let owns := match s.partOfCtx (fieldLE bs 3 1) with
      | some p => s.ownsPart f p
      | none => false
    if h.slotCount ≤ slot ∨ !owns then s.answerAdmin f (c.field 0 8) (natLE 4 outNotOwner)
    else
      match parseSlotEntry bs with
      | none => s.answerAdmin f (c.field 0 8) (natLE 4 outBad)
      | some e =>
        let s1 := { s with host := { s.host with slots := Tbl.set none s.host.slots (h.slotBase + slot) (some e) } }
        s1.answerAdmin f (c.field 0 8) (natLE 4 outDone))

/-- A handle entry from its 32 bytes; none where a reserved field is set or a field is out of range. SUSPENDED is read only (R392). -/
def parseHandleEntry (bs : List Byte) : Option HandleEntry :=
  let fl := fieldLE bs 2 1
  let len := fieldLE bs 16 8
  if 8 ≤ fl ∨ !allZero ((bs.drop 4).take 4) ∨ !allZero ((bs.drop 24).take 8) ∨ 2048 ≤ fieldLE bs 0 2 ∨ fieldLE bs 8 8 % 64 ≠ 0 ∨
      len % 64 ≠ 0 ∨ len < 64 then none
  else some { valid := fl.testBit 0, anyContext := fl.testBit 1, suspended := false, context := fieldLE bs 3 1
              hostAddress := fieldLE bs 8 8, length := len }

/-- HANDLE_SET of function `f` (R392, R423). A function that holds no attachment has no RESULT to write and completes with BOUNDS (R411).
The RESULT is written through the handles as the command leaves them, so that it may name the handle it sets (DEDUCED, log 31); where it cannot be
written, nothing changes. -/
def execHandleSet (f : Nat) (s : State) : Answer :=
  onAdminRaw f 0x89 s (fun s c =>
    let bs := c.inline.take 32
    match s.attOf f with
    | none => s.finishAdmin f codeBounds
    | some a =>
      match parseHandleEntry bs with
      | none => if s.adminResultOk f (c.field 0 8) 4 then s.answerAdmin f (c.field 0 8) (natLE 4 outBad) else s.finishAdmin f codeBounds
      | some e =>
        let s1 := s.updAtt a (fun x => { x with handles := Tbl.set none x.handles (fieldLE bs 0 2) (some e) })
        if s1.adminResultOk f (c.field 0 8) 4 then s1.answerAdmin f (c.field 0 8) (natLE 4 outDone) else s.finishAdmin f codeBounds)

end Sys2Proof.Machine
end

