-- ==== Sys2Proof/Machine/LinkOps.lean ====
section
/-!
DEFINITION. The Igrum transport's shared operations (spec 17): entries, frames, streams, acknowledgements, completion entries, and the
failing of paths and peers.
-/

namespace Sys2Proof.Machine

/-! ### Entries and state -/

/-- Port `p`. -/
def State.eth (s : State) (p : Nat) : EthPort := Tbl.get ethReset s.links.ports p
/-- The state with a port changed. -/
def State.updEth (s : State) (p : Nat) (f : EthPort → EthPort) : State :=
  { s with links := { s.links with ports := Tbl.set ethReset s.links.ports p (f (s.eth p)) } }
/-- The state with the transport registers changed. -/
def State.updIgt (s : State) (f : IgtRegs → IgtRegs) : State := { s with links := { s.links with regs := f s.links.regs } }
/-- A port command on a port that exists. -/
def onEth (p : Nat) (s : State) (f : State → Answer) : Answer := if p < 8 then f s else .fault .noSuchUnit
/-- A command about a peer. -/
def onPeer (k : Nat) (s : State) (f : State → Answer) : Answer := if k < 128 then f s else .fault .noSuchUnit
/-- A command about a stream. -/
def onStream (k vc : Nat) (s : State) (f : State → Answer) : Answer := if k < 128 ∧ vc < 8 then f s else .fault .noSuchUnit
/-- Whether a port, or half b of it, has its link up. -/
def EthPort.up (e : EthPort) (half : Bool) : Bool := if half then e.linkB else e.linkA

/-- The entry table with an entry written; one of zeros is not listed. -/
def putEntry (t : Tbl (List Byte)) (n : Nat) (bs : List Byte) : Tbl (List Byte) := Tbl.set [] t n (if allZero bs then [] else bs)

/-- Path entry `n` (R460). -/
def State.pathEntry (s : State) (n : Nat) : List Byte := entryAt s.links.pathEntries n
/-- Ring entry `n` (R475). -/
def State.ringEntry (s : State) (n : Nat) : List Byte := entryAt s.links.ringEntries n

/-- VALID of an entry of any kind. -/
def entryValid (e : List Byte) : Bool := (fieldLE e 0 1).testBit 0
/-- CONTEXT of a peer or ring entry. -/
def entryCtx (e : List Byte) : Nat := fieldLE e 1 1
/-- The path entry of path `i` of a peer; none for 0xFF. -/
def peerPath (e : List Byte) (i : Nat) : Option Nat := let n := fieldLE e (0x0C + i) 1; if n = 0xFF then none else some n
/-- The paths of a peer in order of preference: index and path entry. -/
def peerPaths (e : List Byte) : List (Nat × Nat) := (List.range 4).filterMap (fun i => (peerPath e i).map (fun n => (i, n)))
/-- The VCs a peer uses. -/
def peerVcs (e : List Byte) : List Nat := bitsSet (fieldLE e 3 1) 8
/-- The port of a path entry. -/
def pathPort (e : List Byte) : Nat := fieldLE e 1 1 % 8
/-- Whether a path entry names half b. -/
def pathHalf (e : List Byte) : Bool := (fieldLE e 1 1).testBit 3
/-- The encapsulation of a path entry. -/
def pathEncap (e : List Byte) : Nat := fieldLE e 0 1 / 2 % 4

/-- The running state of peer `k`. -/
def State.peer (s : State) (k : Nat) : PeerState := Tbl.get peerReset s.links.peers k
/-- The state with it changed. -/
def State.updPeer (s : State) (k : Nat) (f : PeerState → PeerState) : State :=
  { s with links := { s.links with peers := Tbl.set peerReset s.links.peers k (f (s.peer k)) } }
/-- Stream `vc` of peer `k`. -/
def State.stream (s : State) (k vc : Nat) : Stream := Tbl.get streamReset s.links.streams (8 * k + vc)
/-- The state with a stream changed. -/
def State.updStream (s : State) (k vc : Nat) (f : Stream → Stream) : State :=
  { s with links := { s.links with streams := Tbl.set streamReset s.links.streams (8 * k + vc) (f (s.stream k vc)) } }
/-- Send ring `n` in service. -/
def State.ring (s : State) (n : Nat) : RingState := Tbl.get ringReset s.links.rings n
/-- The state with a ring changed. -/
def State.updRing (s : State) (n : Nat) (f : RingState → RingState) : State :=
  { s with links := { s.links with rings := Tbl.set ringReset s.links.rings n (f (s.ring n)) } }

/-- No path of the peer is UP (R483). -/
def PeerState.down (p : PeerState) : Bool := p.pathsUp == 0 && p.probing.isNone
/-- The cells of a packet (R465). -/
def packetCells (data : Nat) : Nat := (64 + data + 255) / 256
/-- The cells of a DATA packet whose body, operation header and data, is given. -/
def TxPacket.cells (p : TxPacket) : Nat := packetCells (p.body.length - 32)
/-- PSNs count modulo 2^24 (R471). -/
def psnNext (n : Nat) : Nat := (n + 1) % 2 ^ 24
/-- How far PSN `a` lies ahead of `b`. -/
def psnAhead (a b : Nat) : Nat := (a + 2 ^ 24 - b % 2 ^ 24) % 2 ^ 24
/-- Whether PSN `a` is below `b`. -/
def psnBelow (a b : Nat) : Bool := a != b && decide (psnAhead b a < 2 ^ 23)

/-- The cells that accepted requests of a stream still hold at the receiver (R465, R467). -/
def State.heldCells (s : State) (k vc : Nat) : Nat :=
  sumNat ((s.links.recv.filter (fun r => r.peer == k && r.vc == vc)).map (fun r => r.cells))
/-- CREDIT as a receiver grants it (R465). -/
def State.creditOf (s : State) (k vc : Nat) : Nat := fieldLE (s.peerEntry k) 0x0A 2 - s.heldCells k vc

/-! ### Frames (R468, R469) -/

/-- The one's complement sum of 16-bit words, as the Internet checksum folds it. -/
def onesSum (bs : List Byte) : Nat :=
  let padded := if bs.length % 2 = 0 then bs else bs ++ [0]
  let t := (List.range (padded.length / 2)).foldl (fun acc i => acc + beNat ((padded.drop (2 * i)).take 2)) 0
  let t1 := t % 65536 + t / 65536
  let t2 := t1 % 65536 + t1 / 65536
  t2 % 65536 + t2 / 65536
/-- The Internet checksum of bytes. -/
def inetChecksum (bs : List Byte) : Nat := 0xFFFF - onesSum bs
/-- The UDP checksum over the IPv6 pseudo header: 0 is sent as 0xFFFF. -/
def udp6Checksum (src dst udp : List Byte) : Nat :=
  let c := inetChecksum (src ++ dst ++ natBE 4 udp.length ++ natBE 4 17 ++ udp)
  if c = 0 then 0xFFFF else c

/-- The bytes of a MAC address, most significant first (R7). -/
def macBytes (m : BitVec 48) : List Byte := natBE 6 m.toNat

/-- The headers and payload of a frame on a path for a VC (R468). -/
def State.frameBytes (s : State) (k vc : Nat) (path payload : List Byte) : List Byte :=
  let r := s.links.regs
  let e := s.eth (pathPort path)
  let half := pathHalf path
  let map := (Tbl.get 0 r.vcMap vc).toNat
  let pcp := map % 8
  let dscp := map / 8 % 64
  let label := (Config.ipLabel (s.eth (pathPort path)).txFrames.toNat).toNat
  let tag := if (fieldLE path 0 1).testBit 3 then natBE 2 0x8100 ++ natBE 2 (pcp * 8192 + fieldLE path 2 2 % 4096) else []
  let l2 := (path.drop 4).take 6 ++ macBytes (if half then e.macB else e.macA) ++ tag
  let udpHead := natBE 2 (0xC000 + (Config.udpHash k vc).toNat) ++ natBE 2 r.udpPort.toNat ++ natBE 2 (8 + payload.length)
  match pathEncap path with
  | 0 => l2 ++ natBE 2 r.etherType.toNat ++ payload
  | 1 =>
    let src := natBE 4 (if half then e.ipv4B else e.ipv4A).toNat
    let dst := (path.drop 0x10).take 4
    let front := natBE 1 0x45 ++ natBE 1 (dscp * 4 + 2) ++ natBE 2 (28 + payload.length) ++ natBE 2 (label % 65536) ++ natBE 2 0x4000 ++
      natBE 1 r.ttl.toNat ++ natBE 1 17
    let sum := inetChecksum (front ++ natBE 2 0 ++ src ++ dst)
    l2 ++ natBE 2 0x0800 ++ front ++ natBE 2 sum ++ src ++ dst ++ udpHead ++ natBE 2 0 ++ payload
  | _ =>
    let src := natBE 16 (if half then e.ipv6B else e.ipv6A).toNat
    let dst := (path.drop 0x10).take 16
    let sum := udp6Checksum src dst (udpHead ++ natBE 2 0 ++ payload)
    l2 ++ natBE 2 0x86DD ++ natBE 4 (0x60000000 + (dscp * 4 + 2) * 2 ^ 20 + label) ++ natBE 2 (8 + payload.length) ++ natBE 1 17 ++
      natBE 1 r.ttl.toNat ++ src ++ dst ++ udpHead ++ natBE 2 sum ++ payload

/-- The frame that carries a payload: with its FCS it has at least 64 B (R457). -/
def State.frameOf (s : State) (k vc : Nat) (path payload : List Byte) : List Byte :=
  let f := s.frameBytes k vc path payload
  padTo (max 60 f.length) f

/-- A received frame's encapsulation: its code, source address, CE, and the Igrum packet; none where it matches none (R468). -/
def State.matchFrame (s : State) (f : List Byte) : Option (Nat × List Byte × Bool × List Byte) :=
  let r := s.links.regs
  let n := if beNat ((f.drop 12).take 2) = 0x8100 then 18 else 14
  let etype := beNat ((f.drop (n - 2)).take 2)
  let b := f.drop n
  if etype = r.etherType.toNat then some (0, (f.drop 6).take 6, false, b)
  else if etype = 0x0800 then
    if fieldLE b 0 1 = 0x45 ∧ onesSum (b.take 20) = 0xFFFF ∧ fieldLE b 9 1 = 17 ∧ beNat ((b.drop 22).take 2) = r.udpPort.toNat then
      some (1, (b.drop 12).take 4, fieldLE b 1 1 % 4 == 3, (b.drop 28).take (beNat ((b.drop 24).take 2) - 8))
    else none
  else if etype = 0x86DD then
    let udp := (b.drop 40).take (beNat ((b.drop 44).take 2))
    if fieldLE b 6 1 = 17 ∧ beNat ((b.drop 42).take 2) = r.udpPort.toNat ∧
        onesSum ((b.drop 8).take 32 ++ natBE 4 udp.length ++ natBE 4 17 ++ udp) = 0xFFFF then
      some (2, (b.drop 8).take 16, beNat (b.take 4) / 2 ^ 20 % 4 == 3, udp.drop 8)
    else none
  else none

/-- A transport header (R469). -/
def transportHeader (type vc dst src srcNode dstNode psn epoch ackPsn credit flags len : Nat) : List Byte :=
  natLE 1 (1 + 16 * type) ++ natLE 1 vc ++ natLE 1 dst ++ natLE 1 src ++ natLE 4 srcNode ++ natLE 4 dstNode ++
    natLE 4 (psn % 2 ^ 24 + epoch % 256 * 2 ^ 24) ++ natLE 4 ackPsn ++ natLE 2 credit ++ natLE 2 flags ++ natLE 2 len ++ zeroBytes 6

/-- Sending a packet of a type on path `i` of a peer: a frame leaves the port, where its link is up and IGT_NODE is not 0 (R459). -/
def State.sendPacket (s : State) (k vc i type psn epoch ackPsn credit flags : Nat) (body : List Byte) : State :=
  let pe := s.peerEntry k
  match peerPath pe i with
  | none => s
  | some n =>
    let path := s.pathEntry n
    let p := pathPort path
    if s.links.regs.node = 0 ∨ !(s.eth p).up (pathHalf path) then s
    else
      let h := transportHeader type vc (fieldLE pe 2 1) k s.links.regs.node.toNat (fieldLE pe 4 4) psn epoch ackPsn credit flags body.length
      (s.send (.frame p (pathHalf path) (s.frameOf k vc path (h ++ body)))).updEth p (fun e => { e with txFrames := e.txFrames + 1 })

/-- An ACK, NAK or PROBE_REPLY on path `i`: it carries ACK_PSN and CREDIT, and an owed ECN_ECHO (R465, R472). -/
def State.sendAck (s : State) (k vc i type : Nat) : State :=
  let st := s.stream k vc
  let s1 := s.sendPacket k vc i type 0 (s.peer k).epoch st.expected (s.creditOf k vc) (1 + if st.echo then 4 else 0) []
  s1.updStream k vc (fun x => { x with ackDue := false, echo := false })

/-- Sending one packet, or sending it again, on the peer's active path: `more` says that credit remains after it (R472). -/
def State.sendData (s : State) (k vc : Nat) (p : TxPacket) (more : Bool) : State :=
  s.sendPacket k vc (s.peer k).active 0 p.psn (s.peer k).epoch 0 0 ((if more then 0 else 2) + if p.response then 8 else 0) p.body

/-- Sending again every unacknowledged packet, oldest first (R473). -/
def State.resend (s : State) (k vc : Nat) : State :=
  (s.stream k vc).unacked.foldl (fun s p => s.sendData k vc p false) s

/-! ### Completion entries (R478) -/

/-- Writing the entries of a ring that are ready in slot order: each is written at COMPLETIONS, then its signal is applied. -/
def writeReady : Nat → State → Nat → State
  | 0, s, _ => s
  | fuel + 1, s, n =>
    let e := s.ringEntry n
    let r := s.ring n
    match r.ready.find? (fun d => d.index == r.written) with
    | none => s
    | some d =>
      let ctx := entryCtx e
      let at_ := fieldLE e 0x10 8 + 16 * (d.index % 2 ^ fieldLE e 2 1)
      let s1 := if s.extentOk (26 + entryHome e) ctx at_ (at_ + 15 : Nat) permWrite then (s.ctxWrite ctx 0 at_ d.entry).1 else s
      let p := (s.partOfCtx ctx).getD 8
      let sem := fieldLE e 4 2
      let s2 := if d.signal && decide (sem < s.semCount p) then (s1.updSem (s.semBase p + sem) (fun m => m.signal 1 1 ctx)).grantSem (s.semBase p + sem)
        else s1
      writeReady fuel (s2.updRing n (fun r => { r with written := r.written + 1, ready := r.ready.filter (fun x => x.index != d.index) })) n

/-- A slot's completion is ready: its entry is written once those before it have been (R478). -/
def State.ringComplete (s : State) (n index : Nat) (slot : List Byte) (status marks detail len : Nat) : State :=
  let entry := natLE 4 index ++ natLE 4 (fieldLE slot 0x0C 4) ++ natLE 1 status ++ natLE 1 marks ++ natLE 2 detail ++ natLE 4 len
  let s1 := s.updRing n (fun r => { r with ready := r.ready ++ [{ index := index, entry := entry, signal := (fieldLE slot 1 1).testBit 1 }] })
  writeReady ((s1.ring n).ready.length) s1 n

/-- An operation ends with a status of the sender's own, or ABORTED where its context was torn down (R480, R485). -/
def State.endOp (s : State) (k vc : Nat) (o : SendOp) (status : Nat) : State :=
  let s1 := s.updStream k vc (fun x => { x with ops := x.ops.filter (fun p => p.serial != o.serial) })
  s1.ringComplete o.ring o.index o.slot (if status ≠ 5 ∧ (o.aborted ∨ s.torn o.ctx) then 4 else status) 0 0 o.got

/-! ### Acknowledgements (R465, R471 to R474) -/

/-- Moving back to the preferred path that is UP once no stream has unacknowledged packets (R484). -/
def State.settlePath (s : State) (k : Nat) : State :=
  let p := s.peer k
  let e := s.peerEntry k
  if p.probing.isSome ∨ (peerVcs e).any (fun v => !(s.stream k v).unacked.isEmpty) then s
  else match (peerPaths e).find? (fun x => p.pathsUp.testBit x.1) with
    | some x => s.updPeer k (fun p => { p with active := x.1 })
    | none => s

/-- Applying ACK_PSN and CREDIT to a stream: the grant of the highest ACK_PSN is kept, of equal ones the latest; packets below it are
freed, and an advance clears the retry count; ECN_ECHO halves the rate (R465, R473, R474). -/
def State.applyAck (s : State) (k vc ackPsn credit : Nat) (echo : Bool) : State :=
  let s1 := s.updStream k vc (fun x =>
    let x1 := if psnBelow ackPsn x.ackPsn then x else
      { x with
        ackPsn := ackPsn, credit := credit, unacked := x.unacked.filter (fun p => !psnBelow p.psn ackPsn)
        retries := if ackPsn = x.ackPsn then x.retries else 0 }
    if echo then { x1 with rate := max (x1.rate / 2) (2 ^ 26) } else x1)
  s1.settlePath k

/-! ### Paths and peers (R482 to R484) -/

/-- The peer goes DOWN: every operation completes with PEER_DOWN, its cells are freed, and the responses of accepted operations are
discarded (R483). -/
def State.peerDown (s : State) (k : Nat) : State :=
  let s1 := (peerVcs (s.peerEntry k)).foldl (fun s v =>
    let s1 := (s.stream k v).ops.foldl (fun s o => s.endOp k v o 5) s
    s1.updStream k v (fun x => { x with unacked := [], ops := [] })) s
  let s2 := { s1 with links := { s1.links with recv := s1.links.recv.filterMap (fun (r : RecvOp) =>
    if r.peer ≠ k then some r else if r.waiting then some { r with drop := true } else none) } }
  let ctx := entryCtx (s.peerEntry k)
  (s2.updIgt (fun r => { r with status := r.status ||| 2 })).send (.fault { faultOf 0x0403 13 (entryHome (s.peerEntry k)) with
    ctx := some ctx, part := (s.partOfCtx ctx).getD 0xFF, detail := k })

/-- Sending a PROBE of a peer on path `i`: a DOWN peer proposes its EPOCH + 1 (R482, R484). -/
def State.sendProbe (s : State) (k i : Nat) : State :=
  let p := s.peer k
  let epoch := if p.down then (p.epoch + 1) % 256 else p.epoch
  match (peerVcs (s.peerEntry k)).head? with
  | some v => s.sendPacket k v i 3 0 epoch 0 0 0 []
  | none => s

/-- The next path that is UP is probed, its retries not yet counted, or the peer goes DOWN (R473, R482, R483). -/
def State.nextPath (s : State) (k : Nat) : State :=
  let p := s.peer k
  match (peerPaths (s.peerEntry k)).find? (fun x => p.pathsUp.testBit x.1) with
  | some x =>
    let s1 := (peerVcs (s.peerEntry k)).foldl (fun s v => s.updStream k v (fun y => { y with retries := 0 })) s
    (s1.updPeer k (fun p => { p with probing := some x.1 })).sendProbe k x.1
  | none => (s.updPeer k (fun p => { p with probing := none })).peerDown k

/-- Path `i` of a peer fails (R482). -/
def State.failPath (s : State) (k i : Nat) : State :=
  let p := s.peer k
  if !p.pathsUp.testBit i then s.updPeer k (fun p => { p with replies := Tbl.set 0 p.replies i 0, probed := p.probed &&& (15 ^^^ 2 ^ i) })
  else
    let s1 := (s.updPeer k (fun p => { p with
      pathsUp := p.pathsUp &&& (15 ^^^ 2 ^ i), replies := Tbl.set 0 p.replies i 0, probed := p.probed &&& (15 ^^^ 2 ^ i) })).updIgt
      (fun r => { r with status := r.status ||| 1 })
    if p.probing = some i then s1.nextPath k
    else if p.probing.isNone ∧ p.active = i then (s1.updPeer k (fun p => { p with failovers := p.failovers + 1 })).nextPath k
    else s1

/-- Every path that a test names fails, peer by peer. -/
def State.failPaths (s : State) (gone : Nat → Bool) : State :=
  ((List.range 128).filter (fun k => entryValid (s.peerEntry k))).foldl (fun s k =>
    (peerPaths (s.peerEntry k)).foldl (fun s x => if gone x.2 then s.failPath k x.1 else s) s) s

/-- Whether a path entry lies on a port, or its half b. -/
def State.pathOn (s : State) (p : Nat) (half : Bool) (n : Nat) : Bool :=
  let e := s.pathEntry n
  entryValid e && pathPort e == p && pathHalf e == half

/-- A port's links go down, on the halves a test names (R458, R482). -/
def State.linksDown (s : State) (p : Nat) (halves : List Bool) : State :=
  let e := s.eth p
  let lost := halves.any e.up
  let s1 := s.updEth p (fun e => { e with
    linkA := e.linkA && !halves.contains false, linkB := e.linkB && !halves.contains true, linkLost := e.linkLost || lost })
  s1.failPaths (fun n => halves.any (fun h => s.pathOn p h n))

/-- The later of two epoch proposals: 1 to 127 ahead wins; exactly 128 apart, that of the side with the higher node (R484). -/
def laterEpoch (mine theirs myNode theirNode : Nat) : Nat :=
  let d := (theirs + 256 - mine % 256) % 256
  if d = 0 then mine % 256 else if d < 128 then theirs % 256 else if d = 128 then (if myNode < theirNode then theirs % 256 else mine % 256) else mine % 256

/-- Every stream of a peer restarts at PSN 0 in an epoch (R484). -/
def State.restartPeer (s : State) (k epoch : Nat) : State :=
  let s1 := (peerVcs (s.peerEntry k)).foldl (fun s v =>
    s.updStream k v (fun x => { streamReset with reserved := x.reserved, rate := x.rate, ops := x.ops })) s
  s1.updPeer k (fun p => { p with epoch := epoch, proposal := none })

end Sys2Proof.Machine
end

