-- ==== Sys2Proof/Machine/Crypto.lean ====
section
/-!
DEFINITION. The signatures and digests of images, firmware and maintenance commands: SHA-384 and ECDSA P-384 (R18, R60, R77, R554, R557). The
spec names the standards, FIPS 180-4 and FIPS 186-5, and does not restate them; these functions are theirs (PRESUMED, log 21).
-/

namespace Sys2Proof.Machine

/-! ### SHA-384 (FIPS 180-4) -/

/-- The integer root of degree `k` of a number below 2^(k × 72), bit by bit. -/
def rootNat (k x : Nat) : Nat :=
  (List.range 72).foldr (fun i r => if (r + 2 ^ i) ^ k ≤ x then r + 2 ^ i else r) 0

/-- The first 80 primes. -/
def shaPrimes : List Nat := (List.range 410).filter (fun n => decide (2 ≤ n) && (List.range 21).all (fun d => decide (d < 2) || n == d || n % d != 0))

/-- The round constants: 64 bits of the fractions of the cube roots of the first 80 primes. -/
def shaConstants : List Nat := shaPrimes.map (fun p => rootNat 3 (p * 2 ^ 192) % 2 ^ 64)
/-- The initial hash value of SHA-384: 64 bits of the fractions of the square roots of the ninth to sixteenth primes. -/
def shaInitial : List Nat := ((shaPrimes.drop 8).take 8).map (fun p => rootNat 2 (p * 2 ^ 128) % 2 ^ 64)

/-- A 64-bit rotation to the right. -/
def rotateRight (x n : Nat) : Nat := x / 2 ^ n + x % 2 ^ n * 2 ^ (64 - n)

/-- A word of the message schedule from the sixteen before it, oldest first. -/
def shaExtend (w : List Nat) : Nat :=
  let a := w.getD 1 0
  let b := w.getD 14 0
  let s0 := rotateRight a 1 ^^^ rotateRight a 8 ^^^ a / 2 ^ 7
  let s1 := rotateRight b 19 ^^^ rotateRight b 61 ^^^ b / 2 ^ 6
  (w.getD 0 0 + s0 + w.getD 9 0 + s1) % 2 ^ 64

/-- One round, with its constant and schedule word. -/
def shaRound (h : List Nat) (k w : Nat) : List Nat :=
  let a := h.getD 0 0
  let e := h.getD 4 0
  let s1 := rotateRight e 14 ^^^ rotateRight e 18 ^^^ rotateRight e 41
  let ch := (e &&& h.getD 5 0) ^^^ ((2 ^ 64 - 1 - e) &&& h.getD 6 0)
  let t1 := (h.getD 7 0 + s1 + ch + k + w) % 2 ^ 64
  let s0 := rotateRight a 28 ^^^ rotateRight a 34 ^^^ rotateRight a 39
  let maj := (a &&& h.getD 1 0) ^^^ (a &&& h.getD 2 0) ^^^ (h.getD 1 0 &&& h.getD 2 0)
  [(t1 + s0 + maj) % 2 ^ 64, a, h.getD 1 0, h.getD 2 0, (h.getD 3 0 + t1) % 2 ^ 64, e, h.getD 5 0, h.getD 6 0]

/-- The compression of one block of sixteen words; the rounds carry the working variables and the next sixteen schedule words. -/
def shaBlock (h w : List Nat) : List Nat :=
  let r := shaConstants.foldl (fun (acc : List Nat × List Nat) k => (shaRound acc.1 k (acc.2.getD 0 0), acc.2.drop 1 ++ [shaExtend acc.2])) (h, w)
  (h.zip r.1).map (fun e => (e.1 + e.2) % 2 ^ 64)

/-- A message with its padding: 0x80, zeros, and its length in bits as 16 bytes, to a multiple of 128 bytes. -/
def shaPad (bs : List Byte) : List Byte :=
  bs ++ [(0x80 : Byte)] ++ zeroBytes ((239 - bs.length % 128) % 128) ++ natBE 16 (8 * bs.length)

/-- SHA-384 of a byte string, its 48 bytes read as one number, most significant byte first. -/
def sha384 (bs : List Byte) : Nat :=
  let m := shaPad bs
  let out := (List.range (m.length / 128)).foldl (fun h i =>
    shaBlock h ((List.range 16).map (fun j => beNat ((m.drop (128 * i + 8 * j)).take 8)))) shaInitial
  (out.take 6).foldl (fun n w => n * 2 ^ 64 + w) 0

/-! ### ECDSA over P-384 (FIPS 186-5) -/

/-- The field of P-384. -/
def p384 : Nat := 2 ^ 384 - 2 ^ 128 - 2 ^ 96 + 2 ^ 32 - 1
/-- The order of its base point. -/
def order384 : Nat := 0xffffffffffffffffffffffffffffffffffffffffffffffffc7634d81f4372ddf581a0db248b0a77aecec196accc52973
/-- Its coefficient b. -/
def coefficient384 : Nat := 0xb3312fa7e23ee7e4988e056be3f82d19181d9c6efe8141120314088f5013875ac656398d8a2ed19d2a85c8edd3ec2aef
/-- Its base point. -/
def base384 : Nat × Nat :=
  (0xaa87ca22be8b05378eb1c71ef320ad746e1d3b628ba79b9859f741e082542a385502f25dbf55296c3a545e3872760ab7,
   0x3617de4a96262c6f5d9e98bf9292dc29f8f41dbd289a147ce9da3113b5f0b8c00a60b1ce1d7e819d7a431d7c90ea0e5f)

/-- a − b modulo m, for residues. -/
def subMod (m a b : Nat) : Nat := (a + m - b) % m
/-- A power modulo m, of an exponent below 2^384. -/
def powMod (m a e : Nat) : Nat := (List.range 384).foldr (fun i r => let q := r * r % m; if e.testBit i then q * a % m else q) 1

/-- A point of the curve in Jacobian coordinates: (x, y, z) stands for (x / z², y / z³), and z = 0 for the point at infinity. -/
abbrev CurvePoint := Nat × Nat × Nat

/-- A point added to itself; a = −3. -/
def curveDouble (q : CurvePoint) : CurvePoint :=
  let (x, y, z) := q
  let p := p384
  let delta := z * z % p
  let gamma := y * y % p
  let beta := x * gamma % p
  let alpha := 3 * (subMod p x delta * (x + delta)) % p
  let x3 := subMod p (alpha * alpha % p) (8 * beta % p)
  (x3, subMod p (alpha * subMod p (4 * beta % p) x3 % p) (8 * (gamma * gamma) % p), 2 * (y * z) % p)

/-- The sum of two points. -/
def curveAdd (q r : CurvePoint) : CurvePoint :=
  let (x1, y1, z1) := q
  let (x2, y2, z2) := r
  let p := p384
  if z1 = 0 then r else if z2 = 0 then q
  else
    let a := z1 * z1 % p
    let b := z2 * z2 % p
    let u1 := x1 * b % p
    let u2 := x2 * a % p
    let s1 := y1 * (z2 * b) % p
    let s2 := y2 * (z1 * a) % p
    if u1 = u2 then (if s1 = s2 then curveDouble q else (1, 1, 0))
    else
      let h := subMod p u2 u1
      let d := subMod p s2 s1
      let hh := h * h % p
      let v := u1 * hh % p
      let x3 := subMod p (subMod p (d * d % p) (h * hh % p)) (2 * v % p)
      (x3, subMod p (d * subMod p v x3 % p) (s1 * (h * hh % p) % p), h * (z1 * z2) % p)

/-- A multiple of a point, for a factor below 2^384. -/
def curveMul (k : Nat) (q : CurvePoint) : CurvePoint :=
  (List.range 384).foldr (fun i r => let d := curveDouble r; if k.testBit i then curveAdd d q else d) (1, 1, 0)

/-- Whether coordinates name a point of the curve. -/
def onCurve (x y : Nat) : Bool :=
  decide (x < p384) && decide (y < p384) && y * y % p384 == (x * x % p384 * x + coefficient384 + (p384 - 3) * x) % p384

/-- Whether a signature (r, s) verifies over a 384-bit digest under a key, the 97 bytes of an uncompressed point read as one number (R60, R557). -/
def ecdsaVerifies (key r s digest : Nat) : Bool :=
  let x := key / 2 ^ 384 % 2 ^ 384
  let y := key % 2 ^ 384
  let w := powMod order384 s (order384 - 2)
  let t := curveAdd (curveMul (digest * w % order384) (base384.1, base384.2, 1)) (curveMul (r * w % order384) (x, y, 1))
  let z := powMod p384 t.2.2 (p384 - 2)
  key / 2 ^ 768 == 4 && onCurve x y && decide (1 ≤ r) && decide (r < order384) && decide (1 ≤ s) && decide (s < order384) && t.2.2 != 0 &&
    t.1 * (z * z % p384) % p384 % order384 == r

end Sys2Proof.Machine
end

