-- ==== Sys2Proof/Machine/Places.lean ====
section
/-!
DEFINITION. What a plan places in a partition's channels: the runs of bytes of its segments, bays, reserves, layers and save areas, and
the context tags that follow from them (R124, R363, R368).
-/

namespace Sys2Proof.Machine

/-- A run of bytes in one channel, within the partition's part of it. `chan` is stack × 32 + logical channel, or 384 + loft
channel (R74). -/
structure PlaceRun where
  chan : Nat
  off : Nat
  len : Nat
  deriving DecidableEq, Repr

/-- The number of a channel by tier (R74). -/
def chanOf (tier code : Nat) : Nat := if tier = 0 then code else 384 + code
/-- The bales of a channel below its partition's part (R39). -/
def State.chanBase (s : State) (chan : Nat) : Nat := if chan < 384 then s.sysArea * 16 else 0
/-- The MiB of the system area in every channel for a number of present logical granary channels (R39). -/
def sysAreaFor (present : Nat) : Nat := if 362 ≤ present then 8 else ceilDiv 2896 (max 1 present)
/-- The system area follows the channels present (R39). It keeps its size while a partition holds a granary channel, whose data lies above it
(DESIGN CHOICE, log 63). -/
def State.settleSysArea (s : State) : State :=
  if (List.range 8).any (fun p => match (s.part p).desc with
      | some d => d.granary.any (fun g => g.2 != 0)
      | none => false) then s
  else { s with sysArea := sysAreaFor (sumNat ((List.range 12).map (fun n => 31 - (bitsSet (s.stack n).absent 31).length))) }
/-- Whether two runs share a byte. -/
def PlaceRun.meets (a b : PlaceRun) : Bool := a.chan == b.chan && decide (a.off < b.off + b.len) && decide (b.off < a.off + a.len)

/-- The runs of a striped placement (R124): one in each channel of the stripe that holds a bale of it. -/
def Placement.runs (p : Placement) : List PlaceRun :=
  let n := ceilDiv p.length 65536
  (List.range (min p.stripe n)).map (fun j =>
    let count := ceilDiv (n - j) p.stripe
    { chan := chanOf p.tier (p.channelOf j), off := p.offset
      len := if (n - 1) % p.stripe = j then 65536 * (count - 1) + (p.length - 65536 * (n - 1)) else 65536 * count })

/-- The runs of a segment: its placement to a LIMIT, and its frames where it is TIERED (R290, R291). -/
def Segment.runs (g : Segment) (limit : Nat) : List PlaceRun :=
  if g.policy = 3 then []
  else
    Placement.runs { g.placement with length := min limit g.placement.length } ++
    (if g.policy = 2 ∧ limit ≠ 0 then g.framePlacement.runs else [])

/-- Every extent that a segment declares: its placement whole and, where it is TIERED, its frames (R291, R607). -/
def Segment.declared (g : Segment) : List PlaceRun :=
  if g.policy = 3 then [] else g.placement.runs ++ (if g.policy = 2 then g.framePlacement.runs else [])

/-- The run of a bay: its rows and its move slots (R225). -/
def Bay.run (b : Bay) (t : TableDesc) : PlaceRun :=
  { chan := chanOf b.tier b.channel, off := b.offset * 4096, len := (b.rows + b.spare) * b.slotOf t }
/-- The run of a reserve (R59). -/
def Reserve.run (r : Reserve) : PlaceRun := { chan := chanOf r.tier r.channel, off := r.offset * 4096, len := r.units * 4096 }
/-- The bytes of a save area (R51). -/
def SaveArea.bytes (a : SaveArea) : Nat := if a.kind = 0 then 2304 * 1024 else 8 * 2 ^ 20
/-- The run of a save area. -/
def SaveArea.run (a : SaveArea) : PlaceRun := { chan := a.channel, off := a.offset * 4096, len := a.bytes }
/-- The runs of a layer's weights, twin and mirrors (R123). -/
def Layer.runs (l : Layer) : List PlaceRun := l.weights.runs ++ l.wideTwin.runs ++ l.mirror.runs ++ l.wideMirror.runs

/-- The run of a plan's bay; none where its table is not in the plan. -/
def Plan.bayRun (pl : Plan) (b : Bay) : Option PlaceRun := (pl.tableOf b.table).map b.run

/-- What a plan places apart from segments: bays of every role, reserves, layer placements and save areas (R368). -/
def Plan.fixedRuns (pl : Plan) : List PlaceRun :=
  pl.bays.filterMap pl.bayRun ++ pl.reserves.map Reserve.run ++ pl.layers.flatMap Layer.runs ++ pl.saveMap.map SaveArea.run

/-! ### Tags (R368) -/

/-- The segments of a partition as they stand that cover a run: their context, device-wide, and their PERM. -/
def State.covering (s : State) (p : Nat) (pl : Plan) (r : PlaceRun) : List (Nat × Nat) :=
  pl.contexts.flatMap (fun c =>
    (bitsSet c.used 16).filterMap (fun n =>
      let cur := (s.ctx (c.context + s.ctxBase p)).segs.getD n segCurReset
      match c.segments[n]? with
      | some g => if cur.perm.testBit 5 && (g.runs cur.limit).any r.meets then some (c.context + s.ctxBase p, cur.perm) else none
      | none => none))

/-- The tag of a bale of a partition's channel, the bale counted from the channel's first (R368). -/
def State.tagFor (s : State) (p : Nat) (pl : Plan) (chan bale : Nat) : BaleTag :=
  let r : PlaceRun := { chan := chan, off := 65536 * (bale - s.chanBase chan), len := 65536 }
  let segs := if bale < s.chanBase chan then [] else s.covering p pl r
  let fixed := decide (s.chanBase chan ≤ bale) && pl.fixedRuns.any r.meets
  let any (b : Nat) : Bool := fixed || segs.any (fun x => x.2.testBit b)
  match segs, fixed with
  | [], false => tagReset
  | [(c, perm)], false =>
    if perm.testBit 4 then { owner := p, valid := true, partition := true, read := any 0, write := any 1, poison := false }
    else { owner := c, valid := true, partition := false, read := any 0, write := any 1, poison := false }
  | _, _ => { owner := p, valid := true, partition := true, read := any 0, write := any 1, poison := false }

/-- The bales of a run, counted from the channel's first. -/
def State.balesOf (s : State) (r : PlaceRun) : List Nat :=
  if r.len = 0 then [] else (List.range ((r.off + r.len - 1) / 65536 + 1 - r.off / 65536)).map (fun i => s.chanBase r.chan + r.off / 65536 + i)

/-- The gleaner that serves a bale of a channel. -/
def State.chanGleaner (s : State) (chan bale : Nat) : Option Nat := if chan < 384 then s.granaryAt chan bale else s.loftAt (chan - 384)

/-- The tags that the bales of some runs should bear, by gleaner and bale. -/
def State.tagsWanted (s : State) (p : Nat) (pl : Plan) (rs : List PlaceRun) : List (Nat × Nat × BaleTag) :=
  rs.flatMap (fun r => (s.balesOf r).filterMap (fun b =>
    match s.chanGleaner r.chan b with
    | some g => some (g, b, s.tagFor p pl r.chan b)
    | none => none))

/-- Whether a tag as it stands differs from what it should be; POISON is the gleaner's own (R305). -/
def State.tagDiffers (s : State) (e : Nat × Nat × BaleTag) : Bool :=
  let t := (s.gleaner e.1).tag e.2.1
  { t with poison := false } != e.2.2

/-- Runs of consecutive bales of one gleaner that take one tag: gleaner, first bale, count, tag. -/
def joinTags : List (Nat × Nat × BaleTag) → List (Nat × Nat × Nat × BaleTag)
  | [] => []
  | (g, b, t) :: rest =>
    match joinTags rest with
    | (g', b', n, t') :: more => if g' = g ∧ b' = b + 1 ∧ t' = t then (g, b, n + 1, t) :: more else (g, b, 1, t) :: (g', b', n, t') :: more
    | [] => [(g, b, 1, t)]

/-- The tag writes that bring some tags about, for a context. -/
def tagMessages (ctx : Nat) (es : List (Nat × Nat × BaleTag)) : List Out :=
  (joinTags es).map (fun (e : Nat × Nat × Nat × BaleTag) => Out.tagWrite e.1 e.2.1 e.2.2.1 e.2.2.2.word ctx)

/-- The gleaners that the requests of a context reach (R372): those whose channel holds a bale tagged for it. -/
def State.subscribers (s : State) (c : Nat) : List Nat :=
  (s.gleaners.filter (fun e => e.2.tags.any (fun t => t.2.valid &&
    (if t.2.partition then s.partOfCtx c == some t.2.owner else t.2.owner == c)))).map Prod.fst

end Sys2Proof.Machine
end

