-- ==== Sys2Proof/Machine/Image.lean ====
section
/-!
DEFINITION. The Gleush image: its header, directory and sections read into a plan (R42 to R59), with the mapping of R72, and the
refusal that a load ends with (R68, R74).
-/

namespace Sys2Proof.Machine

/-- Little-endian reads of an image: offset and bytes (R42). -/
abbrev Reader := Nat → Nat → Nat

/-- A refusal as the result record carries it (R68). -/
structure Refused where
  code : Nat
  sect : Nat
  entry : Nat
  unit : Nat
  requested : Nat
  available : Nat
  deriving DecidableEq, Repr

/-- A refusal that names nothing. -/
def refuse (code : Nat) : Refused := { code := code, sect := 0xFFFF, entry := 0xFFFFFFFF, unit := 0xFFFFFFFF, requested := 0, available := 0 }
/-- A refusal that names a section and an entry. -/
def refuseAt (code sect entry : Nat) : Refused := { refuse code with sect := sect, entry := entry }
/-- A refusal of a count (R64). -/
def refuseCount (code unit requested available : Nat) : Refused := { refuse code with unit := unit, requested := requested, available := available }

/-- A check: it passes, or refuses. -/
abbrev Check := Option Refused
/-- A condition that must hold. -/
def must (ok : Bool) (r : Refused) : Check := if ok then none else some r
/-- The first failure of checks taken in order (R65). -/
def firstOf (cs : List Check) : Check := cs.findSome? (fun c => c)

/-! ### Header and directory (R43, R44) -/

/-- The header's fields that the loader uses (R43). -/
structure Header where
  magic : Nat
  major : Nat
  minor : Nat
  target : Nat
  steppings : Nat
  length : Nat
  planId : Nat
  build : Nat
  security : Nat
  keySlot : Nat
  sections : Nat
  directory : Nat
  flags : Nat
  deriving DecidableEq, Repr

/-- The header of an image. -/
def readHeader (r : Reader) : Header :=
  { magic := r 0 4, major := r 4 2, minor := r 6 2, target := r 8 4, steppings := r 0xC 4, length := r 0x10 8, planId := r 0x18 16
    build := r 0x28 8, security := r 0x30 4, keySlot := r 0x34 2, sections := r 0x36 2, directory := r 0x38 8, flags := r 0x40 4 }

/-- A directory entry (R44), with its index. -/
structure DirEntry where
  index : Nat
  type : Nat
  flags : Nat
  count : Nat
  off : Nat
  len : Nat
  size : Nat
  reserved : Nat
  deriving DecidableEq, Repr

/-- Entry `i` of the directory. -/
def readDir (r : Reader) (d i : Nat) : DirEntry :=
  let o := d + 32 * i
  { index := i, type := r o 2, flags := r (o + 2) 2, count := r (o + 4) 4, off := r (o + 8) 8, len := r (o + 0x10) 8, size := r (o + 0x18) 4
    reserved := r (o + 0x1C) 4 }

/-- The directory. -/
def readDirs (r : Reader) (h : Header) : List DirEntry := (List.range h.sections).map (readDir r h.directory)
/-- The section of a type. -/
def sectionOf (ds : List DirEntry) (type : Nat) : Option DirEntry := ds.find? (fun d => d.type == type)
/-- The directory index of a section, 0xFFFF for none. -/
def sectionIndex (ds : List DirEntry) (type : Nat) : Nat :=
  match sectionOf ds type with
  | some d => d.index
  | none => 0xFFFF

/-- The entry offsets of a fixed-size section, with their indexes. -/
def fixedEntries (ds : List DirEntry) (type size : Nat) : List (Nat × Nat) :=
  match sectionOf ds type with
  | some d => (List.range d.count).map (fun i => (i, d.off + size * i))
  | none => []

/-- The bytes of a TABLES entry (R222); none where a field that sizes it is out of range. -/
def tableEntryBytes (r : Reader) (o : Nat) : Option Nat :=
  let kind := r (o + 2) 1
  let fmt := r (o + 3) 1
  let n := r (o + 4) 2
  if 3 < kind ∨ 6 < fmt ∨ n = 0 ∨ 4096 < n then none
  else some (128 + (if kind = 2 then 0 else ceilDiv (slotSize fmt n) 64 * 64))
/-- The bytes of a GLEANER_PROGRAMS entry (R54). -/
def programEntryBytes (r : Reader) (o : Nat) : Option Nat := some (16 + 8 * r (o + 2) 2)

/-- The entry offsets of a variable-size section. -/
def variableEntries (bytes : Nat → Option Nat) : Nat → Nat → Nat → List (Nat × Nat)
  | 0, _, _ => []
  | n + 1, i, o =>
    match bytes o with
    | some b => (i, o) :: variableEntries bytes n (i + 1) (o + b)
    | none => [(i, o)]
/-- The TABLES entries. -/
def tableEntries (r : Reader) (ds : List DirEntry) : List (Nat × Nat) :=
  match sectionOf ds 9 with
  | some d => variableEntries (tableEntryBytes r) d.count 0 d.off
  | none => []
/-- The GLEANER_PROGRAMS entries. -/
def programEntries (r : Reader) (ds : List DirEntry) : List (Nat × Nat) :=
  match sectionOf ds 0xE with
  | some d => variableEntries (programEntryBytes r) d.count 0 d.off
  | none => []

/-- Whether the entries of a variable-size section end exactly at its end (R44); an entry that cannot be sized ends the sum and is left
to its section's checks. -/
def variableExact (bytes : Nat → Option Nat) (head : Nat) : Nat → Nat → Nat → Bool
  | 0, o, stop => o == stop
  | n + 1, o, stop =>
    if stop < o + head then false
    else match bytes o with
      | some b => if stop < o + b then false else variableExact bytes head n (o + b) stop
      | none => true

/-! ### The mapping of R72 -/

/-- A cluster. -/
def mapCluster (mr : Bool) (c : Nat) : Nat := if mr && decide (c < 24) then (c + 12) % 24 else c
/-- A stack. -/
def mapStack (mr : Bool) (st : Nat) : Nat := if mr && decide (st < 12) then (st + 6) % 12 else st
/-- A channel of a tier. -/
def mapChannel (mr : Bool) (tier ch : Nat) : Nat :=
  if tier = 0 then mapStack mr (ch / 32) * 32 + ch % 32 else if mr && decide (ch < 64) then (ch + 32) % 64 else ch
/-- A route's endpoint code (R48). -/
def mapEndpoint (mr : Bool) (e : Nat) : Nat :=
  let i := e % 4096
  e / 4096 * 4096 + (match e / 4096 with
    | 0 => mapCluster mr i
    | 1 => mapStack mr i
    | _ => if mr && decide (i < 2) then 1 - i else i)
/-- A link of LINK_CREDITS (R58). -/
def mapLink (mr : Bool) (l : Nat) : Nat :=
  if !mr then l
  else if l = 1 then 2 else if l = 2 then 1
  else if 3 ≤ l ∧ l ≤ 14 then 3 + (l - 3 + 6) % 12
  else if 0x20 ≤ l ∧ l ≤ 0x2F then l / 8 * 8 + (l % 8 + 4) % 8
  else l

/-! ### Entries -/

/-- A placement record (R124). -/
def readPlacement (r : Reader) (mr : Bool) (o : Nat) : Placement :=
  { tier := r o 1, channel := mapChannel mr (r o 1) (r (o + 2) 2), stripe := r (o + 4) 2, length := r (o + 8) 4, offset := r (o + 12) 4 }

/-- A stage pool (R46). -/
def readPool (r : Reader) (mr : Bool) (o : Nat) : StagePool :=
  { stage := r o 1, fullPreempt := (r (o + 1) 1).testBit 0, sfuFirst := r (o + 2) 2, sfuCount := r (o + 4) 2, compat := r (o + 8) 8
    cores := (List.range 24).map (fun n => r (o + 0x10 + mapCluster mr n) 1), codeOffset := r (o + 0x28) 8, codeLength := r (o + 0x30) 4 }

/-- A route (R48). -/
def readRoute (r : Reader) (mr : Bool) (o : Nat) : Route :=
  { route := r o 2, source := mapEndpoint mr (r (o + 2) 2), dest := mapEndpoint mr (r (o + 4) 2), vc := r (o + 6) 1, hops := r (o + 7) 1
    path := (List.range 48).map (fun i => r (o + 8 + i / 2) 1 / 16 ^ (i % 2) % 16) }

/-- A BIN_MAP region (R287). -/
def readRegion (r : Reader) (mr : Bool) (o : Nat) : BinRegion :=
  { stage := r o 2, scope := r (o + 2) 1, kind := r (o + 3) 1, cluster := mapCluster mr (r (o + 4) 1), core := r (o + 5) 1
    offset := r (o + 8) 2, size := r (o + 10) 2 }

/-- A SAVE_MAP entry (R51). -/
def readSave (r : Reader) (mr : Bool) (o : Nat) : SaveArea :=
  { kind := r o 1, cluster := mapCluster mr (r (o + 1) 1), core := r (o + 2) 1, channel := mapChannel mr 0 (r (o + 4) 2), offset := r (o + 8) 4 }

/-- A segment entry (R366). -/
def readSegment (r : Reader) (mr : Bool) (o : Nat) : Segment :=
  { limit := r o 8, policy := r (o + 8) 1, perm := r (o + 9) 1, frames := r (o + 12) 4
    placement := readPlacement r mr (o + 0x10), framePlacement := readPlacement r mr (o + 0x20) }

/-- A context record (R366). -/
def readContext (r : Reader) (mr : Bool) (o : Nat) : ContextRecord :=
  { context := r o 1, used := r (o + 2) 2, segments := (List.range 16).map (fun n => readSegment r mr (o + 32 + 48 * n)) }

/-- A queue binding (R56). -/
def readBinding (r : Reader) (o : Nat) : QueueBinding :=
  { queue := r o 2, stage := r (o + 2) 1, context := r (o + 3) 1, priority := r (o + 4) 1, cls := r (o + 5) 1, check := (r (o + 6) 2).testBit 0 }

/-- A deadline class (R57). -/
def readClass (r : Reader) (o : Nat) : DeadlineClass := { cls := r o 1, fallback := r (o + 1) 1, sheafWait := r (o + 2) 2, deadline := r (o + 4) 4 }

/-- A table entry with its default row (R222). -/
def readTable (r : Reader) (o : Nat) : TableDesc :=
  { table := r o 2, kind := r (o + 2) 1, rowFormat := r (o + 3) 1, elements := r (o + 4) 2, hash := r (o + 6) 1, combine := r (o + 7) 1
    rows := r (o + 8) 8, seed := r (o + 0x10) 8, tableId := r (o + 0x18) 16, flags := r (o + 0x28) 4, codebook := r (o + 0x2C) 2
    stubCodebook := r (o + 0x2E) 2, quotient := r (o + 0x30) 2, remainder := r (o + 0x32) 2, bayFirst := r (o + 0x34) 4
    bayCount := r (o + 0x38) 4, pinnedStages := r (o + 0x40) 8, hotFactor := r (o + 0x48) 2, replMax := r (o + 0x4A) 2
    replThreshold := r (o + 0x4C) 4, loadRing := r (o + 0x50) 8, loadRingLength := r (o + 0x58) 4, loadContext := r (o + 0x5C) 1
    defaultRow := if r (o + 2) 1 = 2 then [] else natLE (slotSize (r (o + 3) 1) (r (o + 4) 2)) (r (o + 128) (slotSize (r (o + 3) 1) (r (o + 4) 2))) }

/-- A bay entry (R225). -/
def readBay (r : Reader) (mr : Bool) (o : Nat) : Bay :=
  { table := r o 2, tier := r (o + 2) 1, role := r (o + 3) 1, channel := mapChannel mr (r (o + 2) 1) (r (o + 4) 2), spare := r (o + 6) 2
    firstRow := r (o + 8) 8, rows := r (o + 0x10) 4, offset := r (o + 0x14) 4, ref := r (o + 0x18) 4 }

/-- The 32 bytes of a bay entry, its channel mapped (R72, R225). -/
def bayBytes (r : Reader) (mr : Bool) (o : Nat) : List Byte :=
  natLE 4 (r o 4) ++ natLE 2 (mapChannel mr (r (o + 2) 1) (r (o + 4) 2)) ++ natLE 26 (r (o + 6) 26)

/-- A layer entry (R123). -/
def readLayer (r : Reader) (mr : Bool) (o : Nat) : Layer :=
  { layer := r o 2, stage := r (o + 2) 1, rotate := (r (o + 3) 1).testBit 0, perChannel := (r (o + 3) 1).testBit 1
    twinResident := (r (o + 3) 1).testBit 2, actFormat := r (o + 4) 1, weightFormat := r (o + 5) 1, wideFormat := r (o + 6) 1
    round := r (o + 7) 1, k := r (o + 8) 2, n := r (o + 0xA) 2, threshold := r (o + 0xC) 2, signFirst := r (o + 0xE) 2
    wCodebook := r (o + 0x10) 2, aCodebook := r (o + 0x12) 2, ceiling := r (o + 0x14) 4, aq8Scale := r (o + 0x18) 4
    aq8Zero := r (o + 0x1C) 1, weights := readPlacement r mr (o + 0x20), wideTwin := readPlacement r mr (o + 0x30)
    mirror := readPlacement r mr (o + 0x40), wideMirror := readPlacement r mr (o + 0x50), seed := r (o + 0x60) 4 }

/-- A codebook entry (R91). -/
def readCodebook (r : Reader) (o : Nat) : Codebook :=
  { ident := r o 2, kind := r (o + 2) 1
    values := (List.range (if r (o + 2) 1 = 1 then 4 else 16)).map (fun c => signedOf 16 (r (o + 8 + 2 * c) 2)) }

/-- A gleaner program (R54). -/
def readProgram (r : Reader) (o : Nat) : GleanerProgram :=
  { program := r o 2, code := (List.range (r (o + 2) 2)).map (fun i => r (o + 16 + 8 * i) 8) }

/-- A gleaner placement (R54). -/
def readGleanerPlacement (r : Reader) (mr : Bool) (o : Nat) : GleanerPlacement :=
  { kind := r o 1, tier := r (o + 1) 1, channel := mapChannel mr (r (o + 1) 1) (r (o + 2) 2), slot := r (o + 4) 2, value := r (o + 6) 2 }

/-- A microprogram (R202 to R204). -/
def readSfuProgram (r : Reader) (o : Nat) : SfuProgram :=
  { funcId := r o 2, monotone := r (o + 2) 1, domainLo := r (o + 4) 4, domainHi := r (o + 8) 4, reduceK := signedOf 64 (r (o + 0x10) 8)
    steps := (List.range (r (o + 3) 1)).map (fun i =>
      let w := r (o + 0x40 + 4 * i) 4
      { op := w % 16, mode := w / 16 % 16, a := w / 256 % 256, b := w / 65536 % 256 })
    consts := (List.range 8).map (fun i => r (o + 0x20 + 4 * i) 4)
    segments := (List.range 128).map (fun j =>
      { c0 := signedOf 48 (r (o + 0x80 + 16 * j) 6), c1 := signedOf 40 (r (o + 0x80 + 16 * j + 6) 5)
        c2 := signedOf 40 (r (o + 0x80 + 16 * j + 11) 5) }) }

/-- A link credit entry (R58); the two directions of the CD0–CD1 link change places under R72. -/
def readCredit (r : Reader) (mr : Bool) (o : Nat) : LinkCredit :=
  let swap := mr && r (o + 2) 1 == 0
  { context := r o 2, link := mapLink mr (r (o + 2) 1), vc := r (o + 3) 1
    credits0 := if swap then r (o + 8) 4 else r (o + 4) 4, credits1 := if swap then r (o + 4) 4 else r (o + 8) 4 }

/-- A reserve (R59). -/
def readReserve (r : Reader) (mr : Bool) (o : Nat) : Reserve :=
  { table := r o 2, tier := r (o + 2) 1, channel := mapChannel mr (r (o + 2) 1) (r (o + 4) 2), offset := r (o + 8) 4, units := r (o + 12) 4 }

/-- A window mapping (R377). -/
def readMapping (r : Reader) (o : Nat) : WindowMapping :=
  { window := r o 2, context := r (o + 2) 1, perm := r (o + 3) 1, key := r (o + 4) 2, peer := r (o + 8) 4, winOffset := r (o + 0x10) 8
    length := r (o + 0x18) 8, target := r (o + 0x20) 8 }

/-- The plan that an image holds, its units mapped where `mr` is set (R45, R72). -/
def readPlan (r : Reader) (mr : Bool) : Plan :=
  let h := readHeader r
  let ds := readDirs r h
  let entries (type size : Nat) := (fixedEntries ds type size).map Prod.snd
  { planId := h.planId, build := h.build, mirrored := mr
    pools := (entries 1 64).map (readPool r mr)
    stageCode := match sectionOf ds 2 with
      | some d => natLE d.len (r d.off d.len)
      | none => []
    routes := (entries 3 32).map (readRoute r mr), binMap := (entries 4 16).map (readRegion r mr)
    saveMap := (entries 5 16).map (readSave r mr), contexts := (entries 6 800).map (readContext r mr)
    bindings := (entries 7 16).map (readBinding r), classes := (entries 8 16).map (readClass r)
    tables := (tableEntries r ds).map (fun e => readTable r e.2), bays := (entries 0xA 32).map (readBay r mr)
    layers := (entries 0xB 128).map (readLayer r mr), codebooks := (entries 0xC 64).map (readCodebook r)
    signVectors := (entries 0xD 16).map (fun o => r o 16), gleanerPrograms := (programEntries r ds).map (fun e => readProgram r e.2)
    gleanerPlacement := (entries 0xF 16).map (readGleanerPlacement r mr), sfuPrograms := (entries 0x10 2176).map (readSfuProgram r)
    linkCredits := (entries 0x11 16).map (readCredit r mr), reserves := (entries 0x12 16).map (readReserve r mr)
    windows := (entries 0x13 48).map (readMapping r) }

/-! ### Structure (R42, R44, R45) -/

/-- The section types of R45. -/
def knownType (t : Nat) : Bool := (decide (1 ≤ t) && decide (t ≤ 0x13)) || t == 0x100

/-- Whether two byte ranges share a byte. -/
def overlaps (a b : Nat × Nat) : Bool := decide (0 < a.2) && decide (0 < b.2) && decide (a.1 < b.1 + b.2) && decide (b.1 < a.1 + a.2)

/-- The checks of one directory entry against the entries before it (R44, R45). The spec lays out no entries for STAGE_CODE and DEBUG_INFO: a size of 0
and a count are not checked there (DESIGN CHOICE, log 63). -/
def dirCheck (r : Reader) (h : Header) (ds : List DirEntry) (d : DirEntry) : Check :=
  let earlier := ds.take d.index
  let bad := refuseAt 0x0205 d.index 0xFFFFFFFF
  firstOf
    [ must (d.reserved == 0 && d.flags / 2 == 0) (refuse 0x0201),
      must (d.off % 64 == 0 && decide (d.off + d.len ≤ h.length)) bad,
      must (d.size == 0 || d.len == d.count * d.size) bad,
      must (d.size != 0 || (if d.type = 9 then variableExact (tableEntryBytes r) 128 d.count d.off (d.off + d.len)
        else if d.type = 0xE then variableExact (programEntryBytes r) 16 d.count d.off (d.off + d.len) else true)) bad,
      must (!earlier.any (fun e => e.type == d.type)) bad,
      must (!([(0, 256), (h.directory, 32 * h.sections), (h.length - 128, 128)] ++ earlier.map (fun e => (e.off, e.len))).any
        (overlaps (d.off, d.len))) bad,
      must (knownType d.type || !d.flags.testBit 0) (refuseAt 0x0207 d.index 0xFFFFFFFF) ]

/-- The bytes of an image that nothing holds are 0 (R42). -/
def gapsZero (r : Reader) (h : Header) (ds : List DirEntry) : Bool :=
  let held := [(0, 256), (h.directory, 32 * h.sections), (h.length - 128, 128)] ++ ds.map (fun e => (e.off, e.len))
  (List.range h.length).all (fun o => held.any (fun x => decide (x.1 ≤ o) && decide (o < x.1 + x.2)) || r o 1 == 0)

/-- Steps 9 to 11 of R65: the directory, the required types, the gaps. -/
def structureCheck (r : Reader) : Check :=
  let h := readHeader r
  let ds := readDirs r h
  firstOf (ds.map (dirCheck r h ds) ++
    (List.range 8).map (fun i => must ((sectionOf ds (i + 1)).isSome) { refuse 0x0206 with unit := i + 1 }) ++
    [must (gapsZero r h ds) (refuse 0x0201)])

end Sys2Proof.Machine
end

