-- ==== Sys2Proof/Machine/PlanChecks.lean ====
section
/-!
DEFINITION. The loader's section checks, types 1 to 8: stage pools, stage code, routes, bin map, save map, segments, queue bindings and
deadline classes (R46 to R57, R170, R192, R288, R367, R436, R444, R606). Each list of checks is taken in the order of R65.
-/

namespace Sys2Proof.Machine

/-- What the section checks look at: the image as read, the plan in it, and the partition as it stands. -/
structure LoadEnv where
  r : Reader
  mr : Bool
  ds : List DirEntry
  pl : Plan
  d : PartitionDesc
  s : State
  p : Nat

/-- Whether the partition holds a cluster (R37). -/
def PartitionDesc.holdsCluster (d : PartitionDesc) (c : Nat) : Bool := decide (c < 24) && d.clusters.testBit c
/-- Whether it holds a channel of a tier (R37, R38). -/
def PartitionDesc.holdsChannel (d : PartitionDesc) (tier ch : Nat) : Bool :=
  if tier = 0 then
    let g := d.granary.getD (ch / 32) (0, 0)
    decide (ch < 384) && decide (ch % 32 < 31) && decide (g.1 ≤ ch % 32) && decide (ch % 32 < g.1 + g.2)
  else decide (ch < 64) && d.loft.testBit ch
/-- Whether it has a share on a die-to-die link, in either direction (R37). -/
def PartitionDesc.holdsLink (d : PartitionDesc) (l : Nat) : Bool := d.d2dCredits.getD l (0, 0) != (0, 0)
/-- Whether an endpoint of a route belongs to it (R37, R48). -/
def PartitionDesc.holdsEndpoint (d : PartitionDesc) (e : Nat) : Bool :=
  let i := e % 4096
  match e / 4096 with
  | 0 => d.holdsCluster i
  | 1 => decide (i < 12) && (d.granary.getD i (0, 0)).2 != 0
  | 2 => decide (i < 2) && d.holdsLink 0
  | 3 => decide (i < 2) && d.holdsLink (1 + i)
  | _ => false

/-- Whether runs of bytes at `o` are all 0. -/
def LoadEnv.zeroAt (e : LoadEnv) (o : Nat) (rs : List (Nat × Nat)) : Bool := rs.all (fun x => e.r (o + x.1) x.2 == 0)
/-- The directory index of a section type. -/
def LoadEnv.sect (e : LoadEnv) (type : Nat) : Nat := sectionIndex e.ds type
/-- The entry size of a fixed-size section is the one its rule lays out (R44). -/
def LoadEnv.sizeCheck (e : LoadEnv) (type size : Nat) : Check :=
  match sectionOf e.ds type with
  | some d => must (d.size == size) (refuseAt 0x0205 d.index 0xFFFFFFFF)
  | none => none
/-- The checks of a fixed-size section: its entry size, then entry by entry. -/
def LoadEnv.fixed (e : LoadEnv) (type size : Nat) (check : Nat → Nat → List Check) : Check :=
  firstOf (e.sizeCheck type size :: (fixedEntries e.ds type size).flatMap (fun x => check x.1 x.2))

/-! ### Stage pools (R46, R47, R49, R436, R444) -/

/-- The clusters in which a pool has cores. -/
def StagePool.clusters (p : StagePool) : List Nat := (List.range 24).filter (fun c => p.coresIn c != 0)
/-- Whether the plan declares a route between two clusters. -/
def Plan.hasRoute (pl : Plan) (a b : Nat) : Bool := pl.routes.any (fun x => x.source == a && x.dest == b)
/-- The cluster whose former takes what cluster `c` releases for a pool (R185). -/
def formerCluster (d : PartitionDesc) (p : StagePool) (c : Nat) : Option Nat :=
  let on := p.clusters.filter d.holdsCluster
  if on.contains c then some c
  else match argMin (fun n => meshHops c n * 32 + n) (on.filter (fun n => n / 12 == c / 12)) with
    | some n => some n
    | none => on.head?
/-- The instruction words of a pool's program. -/
def Plan.programOf (pl : Plan) (p : StagePool) : List Nat :=
  (List.range (p.codeLength / 8)).map (fun i => fieldLE pl.stageCode (p.codeOffset + 8 * i) 8)
/-- The stages that a program's rows and flushes may go to: any stage where it holds a ROWPUT, else those of its SFLUSHes (R185). -/
def Plan.releasesTo (pl : Plan) (p : StagePool) : List StagePool :=
  let ws := pl.programOf p
  if ws.any (fun w => w % 256 == 0x65) then pl.pools
  else pl.pools.filter (fun q => ws.any (fun w => w % 256 == 0x66 && w / 2 ^ 44 % 64 == q.stage))
/-- The size of a pool's STAGING slot in a cluster, if its region is declared (R288, R444). -/
def Plan.stagingSlot (pl : Plan) (p : StagePool) (c : Nat) : Option Nat :=
  (pl.binMap.find? (fun r => r.scope == 1 && r.kind == 3 && r.cluster == c && r.stage == p.stage)).map
    (fun r => r.size * 4096 / p.coresIn c / 64 * 64)

/-- Every core of a FULL_PREEMPT pool, and every cluster that holds one, has its save area; a missing cluster area is reported by the pool's
first core there, a number that the spec leaves open (R51, R74; DESIGN CHOICE, log 63). -/
def LoadEnv.saveCheck (e : LoadEnv) (p : StagePool) : Check :=
  if !p.fullPreempt then none
  else firstOf (p.clusters.flatMap (fun c => (List.range (p.coresIn c)).map (fun j =>
    let core := firstLogical e.pl.pools c p.stage + j
    must (e.pl.saveMap.any (fun x => x.kind == 0 && x.cluster == c && x.core == core) &&
      e.pl.saveMap.any (fun x => x.kind == 1 && x.cluster == c)) { refuse 0x0304 with unit := c * 8 + core })))

/-- The checks of a stage pool. -/
def LoadEnv.poolChecks (e : LoadEnv) (i o : Nat) : List Check :=
  let sec := e.sect 1
  let p := readPool e.r e.mr o
  let bad (j : Nat) := refuseAt 0x0301 sec j
  let marked := e.pl.pools.zipIdx.filter (fun q => p.compat.testBit q.1.stage)
  [ must (e.r (o + 1) 1 / 2 == 0 && e.zeroAt o [(6, 2), (0x34, 12)]) (refuse 0x0201),
    must (decide (p.stage < 64) && !(e.pl.pools.take i).any (fun q => q.stage == p.stage)) (bad i),
    must ((bitsSet p.compat 64).all (fun b => e.pl.pools.any (fun q => q.stage == b && q.compat.testBit p.stage))) (bad i),
    must (p.clusters.all e.d.holdsCluster) (bad i),
    must (if (sectionOf e.ds 0x10).isSome then decide (p.sfuFirst + p.sfuCount ≤ e.pl.sfuPrograms.length) else p.sfuCount == 0) (bad i),
    must ((e.pl.releasesTo p).all (fun q => p.clusters.all (fun a =>
      match formerCluster e.d q a with
      | some b => a == b || e.pl.hasRoute a b
      | none => true))) (refuseAt 0x0303 sec i),
    e.saveCheck p ] ++
  marked.map (fun q => must (q.1.codeOffset == p.codeOffset && q.1.codeLength == p.codeLength && q.1.sfuFirst == p.sfuFirst &&
    q.1.sfuCount == p.sfuCount) (bad (if p.stage < q.1.stage then i else q.2))) ++
  [ must (p.clusters.all (fun a => p.clusters.all (fun b => a == b || a / 12 != b / 12 || e.pl.hasRoute a b))) (refuseAt 0x0303 sec i),
    must (!p.fullPreempt || p.clusters.all (fun c => match e.pl.stagingSlot p c with
      | some n => decide (n ≤ 2 ^ 20)
      | none => true)) (bad i) ]

/-! ### Stage code (R170, R192, R355) -/

/-- What an operand field of an instruction names. -/
inductive OpKind where
  | none | vec | mask | scalar
  deriving DecidableEq, Repr

/-- The kinds of the D, A, B and C fields of an opcode, and whether F and G are lane formats, F being one wherever a vector register is an
operand (R170, R171); none where it is reserved. -/
def opShape (op : Nat) : Option (OpKind × OpKind × OpKind × OpKind × Bool × Bool) :=
  let n := OpKind.none
  let v := OpKind.vec
  let m := OpKind.mask
  let x := OpKind.scalar
  if op = 0x00 ∨ op = 0x10 ∨ op = 0x11 ∨ op = 0x12 ∨ op = 0x13 ∨ op = 0x51 ∨ op = 0x61 ∨ op = 0x63 ∨ op = 0x66 ∨ op = 0x68 then
    some (n, n, n, n, false, false)
  else if op = 0x01 ∨ op = 0x02 then some (x, n, n, n, false, false)
  else if op = 0x03 ∨ op = 0x04 ∨ (6 ≤ op ∧ op ≤ 9) then some (x, x, x, n, false, false)
  else if op = 0x05 ∨ (0x0A ≤ op ∧ op ≤ 0x0D) then some (x, x, n, n, false, false)
  else if op = 0x0E ∨ op = 0x14 then some (n, x, x, n, false, false)
  else if op = 0x15 then some (m, x, n, n, false, false)
  else if (0x20 ≤ op ∧ op ≤ 0x22) ∨ op = 0x24 ∨ op = 0x25 then some (v, v, v, n, true, false)
  else if op = 0x23 then some (v, v, v, v, true, false)
  else if op = 0x26 ∨ op = 0x27 then some (v, v, n, n, true, false)
  else if (0x28 ≤ op ∧ op ≤ 0x2E) ∨ op = 0x3E then some (v, v, v, n, true, false)
  else if op = 0x2F then some (v, v, n, n, true, true)
  else if op = 0x30 then some (v, x, n, n, true, false)
  else if op = 0x31 then some (v, n, n, n, true, false)
  else if op = 0x32 then some (x, v, n, n, true, false)
  else if op = 0x34 then some (m, v, v, n, true, false)
  else if 0x38 ≤ op ∧ op ≤ 0x3A then some (x, v, n, n, true, false)
  else if op = 0x3C ∨ op = 0x3D ∨ op = 0x40 then some (v, v, n, n, true, false)
  else if op = 0x3F then some (m, v, n, n, true, false)
  else if 0x48 ≤ op ∧ op ≤ 0x4B then some (m, m, m, n, false, false)
  else if op = 0x4C then some (m, m, n, n, false, false)
  else if op = 0x4D ∨ op = 0x50 then some (m, n, n, n, false, false)
  else if op = 0x4E ∨ op = 0x4F then some (x, m, n, n, false, false)
  else if op = 0x58 then some (v, x, x, n, true, false)
  else if op = 0x59 then some (n, x, x, v, true, false)
  else if op = 0x5A then some (v, x, v, n, true, false)
  else if op = 0x60 ∨ op = 0x62 ∨ op = 0x65 ∨ op = 0x67 then some (n, x, n, n, false, false)
  else if op = 0x64 then some (v, v, n, n, true, true)
  else none

/-- Whether a register index fits its kind (R167, R170). -/
def indexFits (k : OpKind) (i : Nat) : Bool :=
  match k with
  | .mask => decide (i < 8)
  | .scalar => decide (i < 16)
  | _ => true

/-- Whether an instruction word is well formed in a pool's program (R170, R192, R355). -/
def wordOk (w sfuCount : Nat) : Bool :=
  let op := w % 256
  let f := bitsOf w 39 36
  let g := bitsOf w 43 40
  let imm := w / 2 ^ 44
  match opShape op with
  | none => false
  | some (kd, ka, kb, kc, lf, lg) =>
    decide (f ≤ 10) && decide (g ≤ 10) && decide (bitsOf w 35 33 ≤ 5) && (!lf || decide (f ≤ 2)) && (!lg || decide (g ≤ 2)) &&
    indexFits kd (bitsOf w 12 8) && indexFits ka (bitsOf w 17 13) && indexFits kb (bitsOf w 22 18) && indexFits kc (bitsOf w 27 23) &&
    !(kd == .scalar && decide (12 ≤ bitsOf w 12 8)) && (op != 0x68 || decide (imm < 256)) &&
    (op != 0x64 || ((decide (imm % 128 < 4) || (decide (64 ≤ imm % 128) && decide (imm % 128 < 64 + sfuCount))) && decide (f ≤ 1) && decide (g ≤ 1)))

/-- The loop faults of a program by instruction index (R170): a LOOP nested past four, an ENDLOOP with no LOOP, LOOPs not closed. -/
def loopFaults : List (Nat × Nat) → List Nat → List Nat
  | [], opened => opened
  | (i, w) :: ws, opened =>
    if w % 256 = 0x10 then (if 4 ≤ opened.length then [i] else []) ++ loopFaults ws (i :: opened)
    else if w % 256 = 0x11 then
      match opened with
      | [] => i :: loopFaults ws []
      | _ :: rest => loopFaults ws rest
    else loopFaults ws opened

/-- The instruction words that a pool's program refuses, counted from the start of STAGE_CODE (R164, R170). -/
def LoadEnv.programFaults (e : LoadEnv) (p : StagePool) : List Nat :=
  let first := p.codeOffset / 8
  let n := p.codeLength / 8
  if p.codeOffset % 8 ≠ 0 ∨ p.codeLength % 8 ≠ 0 ∨ n = 0 ∨ 262144 < n ∨ e.pl.stageCode.length < p.codeOffset + p.codeLength then [first]
  else
    let ws := (e.pl.programOf p).zipIdx.map (fun x => (first + x.2, x.1))
    (ws.filter (fun x => !wordOk x.2 p.sfuCount)).map Prod.fst ++ loopFaults ws [] ++
      (match ws.getLast? with
       | some x => if x.2 % 256 = 0x12 then [] else [x.1]
       | none => [])

/-- Every instruction of STAGE_CODE is decoded; the first that fails is named (R170). -/
def LoadEnv.codeCheck (e : LoadEnv) : Check :=
  let all := (List.range (e.pl.stageCode.length / 8)).filter (fun i => !wordOk (fieldLE e.pl.stageCode (8 * i) 8) 64)
  match argMin (fun i => i) (all ++ e.pl.pools.flatMap e.programFaults) with
  | some i => some (refuseAt 0x0308 (e.sect 2) i)
  | none => none

/-! ### Routes (R48, R49, R606) -/

/-- Where a route stands between hops: the die, row and column of a router, whether it has moved north or south on this die, and
the station it has entered as an endpoint code. -/
structure RoutePos where
  die : Nat
  row : Int
  col : Int
  vertical : Bool
  station : Option Nat
  deriving DecidableEq, Repr

/-- Where a route's first router is, and whether a hop led onto it (R21, R606). -/
def routeStart (source hop : Nat) : Option (RoutePos × Bool) :=
  let i := source % 4096
  let at_ (die : Nat) (row col : Int) : RoutePos := { die := die, row := row, col := col, vertical := false, station := none }
  match source / 4096 with
  | 0 => some (at_ (i / 12) (i % 12 / 4 : Nat) (i % 4 : Nat), false)
  | 1 =>
    let row : Int := if i % 6 < 3 then 0 else 2
    if hop = 7 then some (at_ (i / 6) row (i % 3 : Nat), true)
    else if hop = 9 then some (at_ (i / 6) row (i % 3 + 1 : Nat), true) else none
  | 2 => if 10 ≤ hop ∧ hop ≤ 12 then some (at_ i (hop - 10 : Nat) 3, true) else none
  | 3 => if 10 ≤ hop ∧ hop ≤ 12 then some (at_ i (hop - 10 : Nat) 0, true) else none
  | _ => none

/-- One hop of a route before its last (R606); `ejects` says that hop 8 follows. -/
def routeHop (d : PartitionDesc) (dest : Nat) (x : RoutePos) (hop : Nat) (ejects : Bool) : Option RoutePos :=
  if x.station.isSome then none
  else match hop with
    | 0 => if x.vertical ∨ 3 ≤ x.col then none else some { x with col := x.col + 1 }
    | 1 => if x.vertical ∨ x.col ≤ 0 then none else some { x with col := x.col - 1 }
    | 2 => if x.row ≤ 0 then none else some { x with row := x.row - 1, vertical := true }
    | 3 => if 2 ≤ x.row then none else some { x with row := x.row + 1, vertical := true }
    | 4 =>
      if x.col ≠ 3 ∨ !d.holdsLink 0 then none
      else if ejects then some { x with station := some (0x2000 + x.die) }
      else some { x with die := 1 - x.die, vertical := false }
    | 5 => if x.col ≠ 0 ∨ !ejects then none else some { x with station := some (0x3000 + x.die) }
    | 6 =>
      let i := dest % 4096
      let row : Int := if i % 6 < 3 then 0 else 2
      if dest / 4096 = 1 ∧ i / 6 = x.die ∧ x.row = row ∧ (x.col = (i % 3 : Nat) ∨ x.col = (i % 3 + 1 : Nat)) ∧ ejects
      then some { x with station := some dest } else none
    | _ => none

/-- The hops of a route to its eject (R606). -/
def routeHops (d : PartitionDesc) (dest : Nat) : RoutePos → List Nat → Bool
  | _, [] => false
  | x, [h] =>
    h == 8 && (match x.station with
      | some st => st == dest
      | none => decide (dest < 4096) && dest / 12 == x.die && x.row == ((dest % 12 / 4 : Nat) : Int) && x.col == ((dest % 4 : Nat) : Int))
  | x, h :: g :: rest =>
    match routeHop d dest x h (g == 8 && rest.isEmpty) with
    | some y => routeHops d dest y (g :: rest)
    | none => false

/-- Whether an endpoint code has a kind of 0 to 3 and an index in range (R48). -/
def endpointOk (e : Nat) : Bool :=
  match e / 4096 with
  | 0 => decide (e % 4096 < 24)
  | 1 => decide (e % 4096 < 12)
  | 2 | 3 => decide (e % 4096 < 2)
  | _ => false

/-- Whether a route is legal in a partition (R49, R606). -/
def Route.legal (d : PartitionDesc) (x : Route) : Bool :=
  let hops := x.path.take x.hops
  endpointOk x.source && endpointOk x.dest && decide (x.vc ≤ 3) && decide (1 ≤ x.hops) && decide (x.hops ≤ 48) &&
    d.holdsEndpoint x.source && d.holdsEndpoint x.dest && (x.path.drop x.hops).all (fun h => h == 0) &&
    (match routeStart x.source (hops.headD 0) with
     | some (pos, used) => routeHops d x.dest pos (if used then hops.drop 1 else hops)
     | none => false)

/-- The checks of a route. -/
def LoadEnv.routeChecks (e : LoadEnv) (i o : Nat) : List Check :=
  let x := readRoute e.r e.mr o
  [must (!(e.pl.routes.take i).any (fun y => y.route == x.route) && x.legal e.d) (refuseAt 0x0302 (e.sect 3) i)]

/-! ### The bin map (R285, R287, R288) -/

/-- The logical cores of a region's cluster whose core bins hold it (R46, R287). -/
def Plan.regionCores (pl : Plan) (r : BinRegion) : List Nat :=
  match pl.pool r.stage with
  | some p =>
    let first := firstLogical pl.pools r.cluster r.stage
    ((List.range (p.coresIn r.cluster)).filter (fun j => r.core == 0xFF || r.core == j)).map (fun j => first + j)
  | none => []
/-- Whether two regions lie in one bin and share a unit. -/
def Plan.regionsMeet (pl : Plan) (a b : BinRegion) : Bool :=
  a.scope == b.scope && a.cluster == b.cluster && decide (a.offset < b.offset + b.size) && decide (b.offset < a.offset + a.size) &&
    (a.scope == 1 || (pl.regionCores a).any (fun j => (pl.regionCores b).contains j))
/-- The regions of a core bin. -/
def Plan.coreRegions (pl : Plan) (c j : Nat) : List BinRegion :=
  pl.binMap.filter (fun r => r.scope == 0 && r.cluster == c && (pl.regionCores r).contains j)

/-- The checks of a region (R42, R285, R287, R288): no rule of the section names a code for its reserved fields and values. A second CODE region
of a core, one too small and one in a cluster bin are refused when the entry is reached (DEDUCED, log 33). -/
def LoadEnv.regionChecks (e : LoadEnv) (i o : Nat) : List Check :=
  let x := readRegion e.r e.mr o
  let cores := e.pl.regionCores x
  let earlier := e.pl.binMap.take i
  let sameBin (j : Nat) : List BinRegion := earlier.filter (fun y => y.scope == 0 && y.cluster == x.cluster && (e.pl.regionCores y).contains j)
  let placed := if x.scope = 0 then
      (decide (x.core ≤ 6) || x.core == 0xFF) && !cores.isEmpty && decide (x.offset + x.size ≤ 512) &&
        cores.all (fun j => decide ((sameBin j).length < 16))
    else (x.stage == 0xFFFF || (e.pl.pool x.stage).isSome) && decide (x.offset + x.size ≤ 2048) &&
      decide ((earlier.filter (fun y => y.scope == 1 && y.cluster == x.cluster)).length < 64)
  let codeOk := x.kind != 0 || (x.scope == 0 && cores.all (fun j => (sameBin j).all (fun y => y.kind != 0)) &&
    (match e.pl.pool x.stage with
      | some p => decide (p.codeLength ≤ x.size * 4096)
      | none => false))
  [ must (e.zeroAt o [(6, 2), (12, 4)] && decide (x.scope ≤ 1) && decide (x.kind ≤ 4)) (refuse 0x0201),
    must (e.d.holdsCluster x.cluster && placed && decide (1 ≤ x.size) && !earlier.any (e.pl.regionsMeet x) && codeOk) (refuseAt 0x0205 (e.sect 4) i) ]

/-- What the bin map must declare: one CODE region for every pool core, and a STAGING region for every pool of a cluster (R288). -/
def LoadEnv.binMapWhole (e : LoadEnv) : Check :=
  must (e.pl.pools.all (fun p => p.clusters.all (fun c =>
      (List.range (p.coresIn c)).all (fun j =>
        match (e.pl.coreRegions c (firstLogical e.pl.pools c p.stage + j)).filter (fun r => r.kind == 0) with
        | [r] => decide (p.codeLength ≤ r.size * 4096)
        | _ => false) &&
      (e.pl.stagingSlot p c).isSome)))
    (refuseAt 0x0205 (e.sect 4) 0xFFFFFFFF)

/-! ### The save map (R51) -/

/-- The checks of a save area. -/
def LoadEnv.saveChecks (e : LoadEnv) (i o : Nat) : List Check :=
  let x := readSave e.r e.mr o
  let earlier := e.pl.saveMap.take i
  [ must (e.zeroAt o [(3, 1), (6, 2), (12, 4)] && decide (x.kind ≤ 1) && decide (x.cluster < 24) &&
      (if x.kind = 0 then decide (x.core ≤ 6) else x.core == 0xFF)) (refuseAt 0x0205 (e.sect 5) i),
    must (e.d.holdsChannel 0 x.channel && x.channel / 32 / 6 == x.cluster / 12 &&
      !earlier.any (fun y => y.kind == x.kind && y.cluster == x.cluster && y.core == x.core) && !earlier.any (fun y => y.run.meets x.run))
      (refuseAt 0x030D (e.sect 5) i) ]

/-! ### Segments (R292, R366, R367) -/

/-- Whether a placement's channels are held. -/
def LoadEnv.placementHeld (e : LoadEnv) (p : Placement) : Bool :=
  (List.range (min p.stripe (ceilDiv p.length 65536))).all (fun j => e.d.holdsChannel p.tier (p.channelOf j))
/-- Whether a placement record at an offset is well formed for a tier: reserved bytes, STRIPE, OFFSET, CHANNEL (R124). -/
def LoadEnv.placementOk (e : LoadEnv) (o : Nat) (p : Placement) : Bool :=
  e.zeroAt o [(1, 1), (6, 2)] && decide (p.tier ≤ 1) && decide (1 ≤ p.stripe) && decide (p.stripe ≤ if p.tier = 0 then 372 else 64) &&
    p.offset % 4096 == 0 && (if p.tier = 0 then decide (p.channel < 384) && decide (p.channel % 32 < 31) else decide (p.channel < 64))
/-- The segments of the plan: context entry, segment number, entry. -/
def Plan.segmentsOf (pl : Plan) : List (Nat × Nat × Segment) :=
  pl.contexts.zipIdx.flatMap (fun c => (bitsSet c.1.used 16).filterMap (fun n => (c.1.segments[n]?).map (fun g => (c.2, n, g))))

/-- The checks of one segment entry as SECTION_BAD (R366, R367). A placement with LENGTH 0 is absent (R124), so that only its reserved fields are
looked at. -/
def LoadEnv.segmentOk (e : LoadEnv) (used : Bool) (o : Nat) (g : Segment) : Bool :=
  let absent (p : Placement) (at_ : Nat) : Bool := p.length == 0 && e.zeroAt at_ [(0, 16)]
  if !used then e.r o 16 == 0 && e.zeroAt o [(16, 16), (32, 16)]
  else
    e.zeroAt o [(10, 2)] && decide (g.policy ≤ 3) && decide (g.perm < 64) && g.limit % 65536 == 0 &&
    decide (g.limit ≤ if g.policy = 3 then 2 ^ 48 - 65536 else 2 ^ 32 - 65536) &&
    (if g.policy = 3 then absent g.placement (o + 0x10) && absent g.framePlacement (o + 0x20) && g.frames == 0
     else
       (if g.placement.length = 0 then e.zeroAt (o + 0x10) [(1, 1), (6, 2)]
        else e.placementOk (o + 0x10) g.placement && g.placement.tier == (if g.policy = 0 then 0 else 1)) &&
       decide (g.limit ≤ g.placement.length) &&
       (if g.policy = 2 then
          decide (1 ≤ g.frames) && decide (g.frames ≤ 65536) && e.placementOk (o + 0x20) g.framePlacement && g.framePlacement.tier == 0 &&
            g.framePlacement.length == g.frames * 65536
        else g.frames == 0 && absent g.framePlacement (o + 0x20)))

/-- The checks of a context record. -/
def LoadEnv.contextChecks (e : LoadEnv) (i o : Nat) : List Check :=
  let x := readContext e.r e.mr o
  let bad := refuseAt 0x0205 (e.sect 6) i
  let lay := refuseAt 0x030D (e.sect 6) i
  let all := e.pl.segmentsOf
  let fixed := e.pl.fixedRuns
  let mine := all.filter (fun y => y.1 == i)
  let full (g : Segment) : List PlaceRun := g.runs g.limit
  [ must (e.zeroAt o [(1, 1), (4, 28)] && !(e.pl.contexts.take i).any (fun y => y.context == x.context) &&
      (List.range 16).all (fun n => e.segmentOk (x.used.testBit n) (o + 32 + 48 * n) (x.segments.getD n (readSegment e.r e.mr o)))) bad,
    must (mine.all (fun y => e.placementHeld y.2.2.placement && e.placementHeld y.2.2.framePlacement)) lay,
    must (decide (((all.filter (fun y => y.1 ≤ i && y.2.2.policy == 2))).length ≤ 64)) lay,
    must (mine.all (fun y => all.all (fun z =>
      (z.1 == y.1 && z.2.1 == y.2.1) || (y.2.2.perm.testBit 4 && z.2.2.perm.testBit 4) ||
        !(full y.2.2).any (fun a => (full z.2.2).any (fun b => baleMeets a b))))) lay,
    must (mine.all (fun y => y.2.2.perm.testBit 4 || !(full y.2.2).any (fun a => fixed.any (fun b => baleMeets a b)))) lay,
    must (mine.all (fun y => y.2.2.policy != 2 || !(full y.2.2).any (fun a => fixed.any (fun b => baleMeets a b)))) lay ]
where
  /-- Whether two runs share a bale. -/
  baleMeets (a b : PlaceRun) : Bool :=
    a.chan == b.chan && a.len != 0 && b.len != 0 && decide (a.off / 65536 ≤ (b.off + b.len - 1) / 65536) &&
      decide (b.off / 65536 ≤ (a.off + a.len - 1) / 65536)

/-! ### Bindings and classes (R56, R57) -/

/-- The checks of a queue binding. -/
def LoadEnv.bindingChecks (e : LoadEnv) (i o : Nat) : List Check :=
  let x := readBinding e.r o
  [must ((e.pl.pool x.stage).isSome && decide (x.queue < e.d.queues.2) && e.pl.contexts.any (fun c => c.context == x.context) &&
      decide (x.priority ≤ 7) && decide (x.cls ≤ 7) && decide (e.r (o + 6) 2 < 2) && e.zeroAt o [(8, 8)] &&
      !(e.pl.bindings.take i).any (fun y => y.queue == x.queue)) (refuseAt 0x030A (e.sect 7) i)]

/-- The checks of a deadline class. -/
def LoadEnv.classChecks (e : LoadEnv) (i o : Nat) : List Check :=
  let x := readClass e.r o
  let bad := refuseAt 0x030B (e.sect 8) i
  [ must (e.zeroAt o [(8, 8)]) (refuse 0x0201),
    must (decide (x.cls ≤ 7) && !(e.pl.classes.take i).any (fun y => y.cls == x.cls) && decide (x.fallback ≤ 2) &&
      decide (x.deadline ≤ 10000000) && (x.deadline != 0 || x.fallback == 2)) bad ]

/-- One entry for each class (R57). -/
def LoadEnv.classesWhole (e : LoadEnv) : Check :=
  must ((List.range 8).all (fun c => e.pl.classes.any (fun y => y.cls == c)) && e.pl.classes.length == 8)
    (refuseAt 0x030B (e.sect 8) 0xFFFFFFFF)

/-- The section checks of types 1 to 8, in order (R65). -/
def LoadEnv.checksLow (e : LoadEnv) : Check :=
  firstOf
    [ e.fixed 1 64 e.poolChecks, e.codeCheck, e.fixed 3 32 e.routeChecks, e.fixed 4 16 e.regionChecks, e.binMapWhole,
      e.fixed 5 16 e.saveChecks, e.fixed 6 800 e.contextChecks, e.fixed 7 16 e.bindingChecks, e.fixed 8 16 e.classChecks,
      e.classesWhole ]

end Sys2Proof.Machine
end

