-- ==== Sys2Proof/Machine/PlanTables.lean ====
section
/-!
DEFINITION. The loader's section checks, types 9 to 0x13: tables, bays, layers, codebooks, gleaner programs and placement, SFU
microprograms, link credits, reserves and windows (R52 to R59, R77, R91, R125, R146, R206, R207, R222, R226, R228, R271, R307, R377).
-/

namespace Sys2Proof.Machine

/-- LAYOUT_BAD at an entry of a section. -/
def LoadEnv.layoutBad (e : LoadEnv) (type i : Nat) : Refused := refuseAt 0x030D (e.sect type) i

/-! ### Tables (R59, R77, R91, R217, R222 to R228) -/

/-- The layout digest of a table entry (R222), over the image as R72 maps it: the first 16 bytes of a SHA-384 digest. -/
def LoadEnv.digest (e : LoadEnv) (o : Nat) : Nat :=
  let t := readTable e.r o
  let bays := match sectionOf e.ds 0xA with
    | some d => (List.range t.bayCount).flatMap (fun i => bayBytes e.r e.mr (d.off + 32 * (t.bayFirst + i)))
    | none => []
  sha384 (natLE 0x28 (e.r o 0x28) ++ bays) / 2 ^ 256

/-- The bays of a table's range. -/
def Plan.rangeBays (pl : Plan) (t : TableDesc) : List Bay := (pl.bays.drop t.bayFirst).take t.bayCount
/-- Its home bays. -/
def Plan.homeBays (pl : Plan) (t : TableDesc) : List Bay := (pl.rangeBays t).filter (fun b => b.table == t.table && b.role == 0)
/-- Whether home bays cover [from, ROWS) with no gap and no overlap (R226). -/
def coversRows : Nat → List Bay → Nat → Nat → Bool
  | 0, _, at_, rows => at_ == rows
  | n + 1, bs, at_, rows =>
    if bs.isEmpty then at_ == rows
    else match bs.find? (fun b => b.firstRow == at_) with
      | some b => coversRows n (bs.erase b) (at_ + b.rows) rows
      | none => false
/-- Whether a codebook identifier names the default or one of its kind that the plan holds (R91). One that names an entry of the other KIND counts as
absent, and a field that the entry's formats do not use is not looked at: R91 settles neither (DESIGN CHOICE, log 65). -/
def Plan.hasCodebook (pl : Plan) (ident kind : Nat) : Bool := ident == 0 || pl.codebooks.any (fun c => c.ident == ident && c.kind == kind)
/-- The channels of a table's home bays that have no reserve of a unit or more (R59). -/
def Plan.unreserved (pl : Plan) (t : TableDesc) : List Nat :=
  ((pl.homeBays t).filter (fun b => !pl.reserves.any (fun r => r.table == t.table && r.tier == b.tier && r.channel == b.channel && r.units != 0))).map
    (fun b => chanOf b.tier b.channel)

/-- A composed table's components (R228). -/
def Plan.composedOk (pl : Plan) (t : TableDesc) : Bool :=
  match pl.tableOf t.quotient, pl.tableOf t.remainder with
  | some q, some p =>
    q.kind == 3 && p.kind == 3 && q.rowFormat == t.rowFormat && p.rowFormat == t.rowFormat && q.elements == t.elements &&
      p.elements == t.elements && t.rows == q.rows * p.rows && t.bayCount == 0 &&
      (pl.homeBays q).all (fun b => (pl.rangeBays p).any (fun x => x.table == p.table && x.role == 1 && x.tier == b.tier &&
        x.channel == b.channel && x.firstRow == 0 && x.rows == p.rows))
  | _, _ => false

/-- The checks of a table entry. The spec names no path that a table needs beyond those of stage pools, so that no table draws ROUTE_MISSING
(R49; DESIGN CHOICE, log 63). -/
def LoadEnv.tableChecks (e : LoadEnv) (i o : Nat) : List Check :=
  let t := readTable e.r o
  let lay := e.layoutBad 9 i
  let sec := e.sect 9
  let slot := t.slot
  let pinned := t.pinnable || t.pinnedStages != 0
  let range := e.pl.rangeBays t
  let entry := (e.s.part e.p).registry.find? (fun x => x.tableId == t.tableId)
  [ must (e.zeroAt o [(0x3C, 4), (0x5D, 35)] && decide (t.flags < 128) && t.balance != 3 && decide (t.kind ≤ 3) && decide (t.rowFormat ≤ 6) &&
        (t.kind != 2 || decide (t.combine ≤ 1))) (refuse 0x0201),
    (if pinned then
      match argMin (fun c => c) (e.pl.unreserved t) with
      | some c => some { refuseAt 0x030C sec i with unit := c }
      | none => none
     else none),
    must (!t.retain || (match entry with
      | some x => x.digest == e.digest o
      | none => false)) (refuseAt 0x0508 sec i),
    must ((t.rowFormat != 0 || e.pl.hasCodebook t.codebook 0) && (!t.stubble || e.pl.hasCodebook t.stubCodebook 1)) (refuseAt 0x0307 sec i),
    must (decide (t.table < 4096) && decide (1 ≤ t.elements) && decide (t.elements ≤ 4096) && (t.rowFormat != 0 || t.elements % 2 == 0) &&
      decide (slot ≤ 16392) && decide (1 ≤ t.rows) && decide (t.rows ≤ 2 ^ 40) && decide (t.bayCount ≤ 65536)) lay,
    must (!(e.pl.tables.take i).any (fun x => x.table == t.table) &&
      (t.replMax == 0 || (decide (2 ≤ t.replMax) && decide (t.replMax ≤ 8)))) lay,
    must (t.kind == 2 || e.zeroAt o [(128 + slot, ceilDiv slot 64 * 64 - slot)]) (refuse 0x0201),
    must ((decide (t.hash ≤ 3) || t.hash == 0xFF) && (t.kind != 1 || t.hash != 0xFF)) lay,
    must (range.length == t.bayCount && range.all (fun b => b.table == t.table) &&
      (t.kind == 2 || coversRows t.bayCount (e.pl.homeBays t) 0 t.rows) && (t.kind != 2 || t.bayCount == 0) &&
      t.stubble == range.any (fun b => b.role == 2) && (!t.stubble || (e.pl.homeBays t).any (fun b => b.tier == 1)) &&
      !(t.replicate && t.balance != 0)) lay,
    must (t.kind != 2 || e.pl.composedOk t) lay ]

/-! ### Bays and the mirror directory (R226, R307) -/

/-- The bytes of a channel that its partition may hold (R39, R64); 0 where it is absent or mapped out. -/
def State.channelShare (s : State) (chan : Nat) : Nat :=
  if chan < 384 then (if chan % 32 < 31 ∧ !(s.stack (chan / 32)).absent.testBit (chan % 32) then (1536 - s.sysArea) * 2 ^ 20 else 0)
  else if s.loft.out.testBit (chan - 384) then 0 else 14336 * 2 ^ 20

/-- The bales that a mirror bay's home mirrors: channel, channel of the mirror, bale (R307). -/
def Plan.bayMirrors (pl : Plan) (b : Bay) : List (Nat × Nat × Nat) :=
  match pl.bays[b.ref]?, pl.tableOf b.table with
  | some h, some t =>
    let from_ := h.offset * 4096 + (b.firstRow - h.firstRow) * t.slot
    let n := b.rows * t.slot
    if b.role ≠ 3 ∨ n = 0 then []
    else (List.range ((from_ + n - 1) / 65536 + 1 - from_ / 65536)).map
      (fun i => (chanOf h.tier h.channel, chanOf b.tier b.channel, from_ / 65536 + i))
  | _, _ => []
/-- The bales of a placement and where its mirror has them. -/
def placementMirrors (p m : Placement) : List (Nat × Nat × Nat) :=
  if m.length = 0 then []
  else (List.range (ceilDiv p.length 65536)).map
    (fun i => (chanOf p.tier (p.channelOf i), chanOf m.tier (m.channelOf i), p.offset / 65536 + i / p.stripe))
/-- The bales that a layer's mirrors cover. -/
def Layer.mirrors (l : Layer) : List (Nat × Nat × Nat) := placementMirrors l.weights l.mirror ++ placementMirrors l.wideTwin l.wideMirror
/-- The extents of a channel's mirror directory: maximal runs of bales with one mirror channel (R307). -/
def directoryExtents (ms : List (Nat × Nat × Nat)) (chan : Nat) : Nat :=
  let mine := (ms.filter (fun m => m.1 == chan)).eraseDups
  (mine.filter (fun m => !(decide (0 < m.2.2) && mine.contains (m.1, m.2.1, m.2.2 - 1)))).length
/-- The first channel whose directory passes its limit (R285, R307). -/
def directoryFull (ms : List (Nat × Nat × Nat)) : Option Nat :=
  argMin (fun c => c) ((ms.map (fun m => m.1)).eraseDups.filter (fun c => 4096 < directoryExtents ms c))

/-- The checks of a bay entry. -/
def LoadEnv.bayChecks (e : LoadEnv) (i o : Nat) : List Check :=
  let b := readBay e.r e.mr o
  let lay := e.layoutBad 0xA i
  let home := if b.role = 0 then none else e.pl.bays[b.ref]?
  let homeOk (f : Bay → Bool) : Bool := match home with
    | some h => f h
    | none => false
  let chan := chanOf b.tier b.channel
  let share := e.s.channelShare chan
  match e.pl.tableOf b.table with
  | none => [some lay]
  | some t =>
    [ must (e.zeroAt o [(0x1C, 4)] && decide (b.tier ≤ 1) && decide (b.role ≤ 3) && e.d.holdsChannel b.tier b.channel &&
        decide (t.bayFirst ≤ i) && decide (i < t.bayFirst + t.bayCount) && decide (i < 131072) &&
        (b.role == 0 || homeOk (fun h => h.role == 0 && h.table == b.table)) &&
        (share == 0 || decide ((b.run t).off + (b.run t).len ≤ share)) &&
        (b.role != 2 || (b.tier == 0 && homeOk (fun h => h.tier == 1 && h.firstRow == b.firstRow && h.rows == b.rows))) &&
        (b.role != 3 || homeOk (fun h => chanOf h.tier h.channel != chan && !(h.tier == 1 && b.tier == 1 && h.channel / 4 == b.channel / 4))))
        lay,
      (match directoryFull ((e.pl.bays.take (i + 1)).flatMap e.pl.bayMirrors) with
       | some c => some { lay with unit := c }
       | none => none) ]

/-! ### Layers (R52, R113, R125, R146) -/

/-- Whether every loft bale of a placement has its mirror bale in another LPDDR5X package (R52, R125). -/
def mirroredApart (p m : Placement) : Bool :=
  p.length == 0 || p.tier != 1 ||
    (m.tier == 1 && decide (p.length ≤ m.length) && (List.range (ceilDiv p.length 65536)).all
      (fun i => p.channelOf i / 4 != m.channelOf i / 4))
/-- The pairings of R125, as weight and activation format codes. -/
def pairingOk (w a : Nat) : Bool := (w == 0 && decide (a ≤ 2)) || (w == 1 && a == 2) || (w == 2 && a == 3) || (w == 3 && a == 4)
/-- Whether the activation entries of every row block share one scale, as the WEIGHTS extent holds them (R146). -/
def LoadEnv.scalesShared (e : LoadEnv) (l : Layer) : Bool :=
  let scale (k : Nat) : List Byte := e.s.placeBytes l.weights (l.actEntry k) 4
  (List.range l.k).all (fun k => scale k == scale (k / 128 * 128))
/-- The activation codebook of a layer holds 0 (R113). -/
def Plan.bookHasZero (pl : Plan) (ident : Nat) : Bool :=
  (if ident = 0 then defaultBG4 else ((pl.codebooks.find? (fun c => c.ident == ident && c.kind == 0)).map (fun c => c.values)).getD []).contains 0

/-- The checks of a layer entry (R52, R125). A CEILING of −0 is refused as negative: its sign bit is set (DESIGN CHOICE, log 65). -/
def LoadEnv.layerChecks (e : LoadEnv) (i o : Nat) : List Check :=
  let l := readLayer e.r e.mr o
  let sec := e.sect 0xB
  let bad := refuseAt 0x0205 sec i
  let twin := refuseAt 0x0305 sec i
  let mir := refuseAt 0x0306 sec i
  let book := refuseAt 0x0307 sec i
  let wideOk := l.threshold == 0 || (l.wideFormat != 0 && l.wideTwin.length != 0)
  let place (at_ : Nat) (p : Placement) : Bool := p.length == 0 || e.placementOk at_ p
  [ must (l.threshold == 0 || l.wideTwin.length != 0) twin,
    must (mirroredApart l.weights l.mirror) mir,
    must (pairingOk l.weightFormat l.actFormat) bad,
    must (l.threshold == 0 || decide (l.actFormat ≤ 2)) bad,
    must wideOk twin,
    must (mirroredApart l.weights l.mirror && mirroredApart l.wideTwin l.wideMirror) mir,
    must ((l.weightFormat != 0 || e.pl.hasCodebook l.wCodebook 0) && (l.actFormat != 1 || e.pl.hasCodebook l.aCodebook 0)) book,
    must (l.actFormat != 1 || l.rotate || l.k % 128 == 0 || e.pl.bookHasZero l.aCodebook) book,
    must (!(e.pl.layers.take i).any (fun x => x.layer == l.layer) && decide (l.layer < 4096) && decide (e.r (o + 3) 1 < 8) &&
      decide (l.wideFormat ≤ 2) && decide (l.round ≤ 5) && decide (1 ≤ l.k) && decide (l.k ≤ 16384) && decide (1 ≤ l.n) &&
      decide (l.n ≤ 16384) && decide (l.threshold ≤ 4096) && decide (l.ceiling < 0x7F800000) &&
      (!l.rotate || decide (l.signFirst + ceilDiv l.k 128 ≤ e.pl.signVectors.length)) && e.zeroAt o [(0x1D, 3), (0x64, 28)] &&
      place (o + 0x20) l.weights && place (o + 0x30) l.wideTwin && place (o + 0x40) l.mirror && place (o + 0x50) l.wideMirror &&
      decide (0 < l.weights.length)) bad,
    must (!l.perChannel || e.scalesShared l) bad,
    (match directoryFull (e.pl.bays.flatMap e.pl.bayMirrors ++ (e.pl.layers.take (i + 1)).flatMap Layer.mirrors) with
     | some c => some { refuseAt 0x030D sec i with unit := c }
     | none => none) ]

/-- The checks of a sign vector: a plan has at most 65,535 (R105). The code, and that the entry past the limit is named, are the model's
choice (log 63). -/
def LoadEnv.signChecks (e : LoadEnv) (i _o : Nat) : List Check := [must (decide (i < 65535)) (refuseAt 0x0205 (e.sect 0xD) i)]

/-! ### Codebooks (R53, R91) -/

/-- Whether values strictly rise. -/
def rising : List Int → Bool
  | x :: y :: rest => decide (x < y) && rising (y :: rest)
  | _ => true

/-- The checks of a codebook entry. -/
def LoadEnv.codebookChecks (e : LoadEnv) (i o : Nat) : List Check :=
  let c := readCodebook e.r o
  [must (decide (c.kind ≤ 1) && decide (1 ≤ c.ident) && decide (c.ident ≤ 1023) && decide (i < 1023) && e.zeroAt o [(3, 5), (0x28, 24)] &&
      c.values.all (fun v => decide (-512 ≤ v) && decide (v ≤ 511)) && rising c.values && (c.kind == 0 || e.zeroAt o [(0x10, 24)]) &&
      !(e.pl.codebooks.take i).any (fun x => x.ident == c.ident)) (refuseAt 0x0307 (e.sect 0xC) i)]

/-! ### Gleaner programs and placement (R54, R263 to R271) -/

/-- What a gleaner opcode uses: its MODE bits, the FMT codes it may bear, its D, A, B and IMM fields, and which of D, A, B are vectors
(R265, R271); none where it is reserved. -/
def gleanerShape (op mode : Nat) : Option (Nat × List Nat × (Bool × Bool × Bool × Bool) × (Bool × Bool × Bool)) :=
  let no := (false, false, false)
  let lane := [0, 1, 2, 11]
  let app := [0, 1, 2, 3, 4, 11]
  if op = 0x00 ∨ op = 0x11 ∨ op = 0x12 then some (0, [0], (false, false, false, false), no)
  else if op = 0x01 ∨ op = 0x02 then some (0, [0], (true, false, false, true), no)
  else if op = 0x03 ∨ op = 0x04 ∨ (0x06 ≤ op ∧ op ≤ 0x0A) then some (0, [0], (true, true, true, false), no)
  else if op = 0x05 ∨ (0x0B ≤ op ∧ op ≤ 0x0D) then some (0, [0], (true, true, false, true), no)
  else if op = 0x10 then some (1, [0], (false, mode.testBit 0, false, !mode.testBit 0), no)
  else if op = 0x18 then some (7, [0], (true, true, true, false), no)
  else if op = 0x20 then some (15, lane, (true, true, mode.testBit 3 && mode % 4 == 2, true), (true, false, false))
  else if op = 0x21 then some (1, lane, (true, true, false, true), (false, true, false))
  else if op = 0x22 then some (15, lane, (true, true, true, false), (false, false, true))
  else if op = 0x23 then some (3, lane, (true, mode != 3, mode != 3, false), (true, true, true))
  else if op = 0x30 then some (0, lane, (false, true, true, true), (false, false, true))
  else if op = 0x31 then some (0, [0], (true, true, true, true), no)
  else if op = 0x40 then some (3, app, (false, true, false, true), (false, true, false))
  else if op = 0x41 then some (0, app, (false, true, false, false), no)
  else if op = 0x42 then some (0, [0], (false, true, true, false), no)
  else none

/-- Whether a gleaner instruction word is well formed (R271). -/
def gleanerWordOk (w : Nat) : Bool :=
  let mode := bitsOf w 26 23
  let d := bitsOf w 12 8
  let a := bitsOf w 17 13
  let b := bitsOf w 22 18
  match gleanerShape (w % 256) mode with
  | none => false
  | some (mask, fmts, use, vec) =>
    (mode &&& mask) == mode && fmts.contains (bitsOf w 30 27) && !w.testBit 31 && (use.1 || d == 0) && (use.2.1 || a == 0) &&
      (use.2.2.1 || b == 0) && (use.2.2.2 || w / 2 ^ 32 == 0) && (!vec.1 || decide (d < 8)) && (!vec.2.1 || decide (a < 8)) &&
      (!vec.2.2 || decide (b < 8)) && (w % 256 != 0x10 || mode.testBit 0 || decide (w / 2 ^ 32 < 65536))

/-- Whether a gleaner program's loops close and nest no deeper than four, and its END stands last alone (R271). -/
def gleanerShapeOk (ws : List Nat) : Bool :=
  (loopFaults ((ws.zipIdx).map (fun x => (x.2, x.1))) []).isEmpty &&
    ws.countP (fun w => w % 256 == 0x10) == ws.countP (fun w => w % 256 == 0x11) &&
    ws.countP (fun w => w % 256 == 0x12) == 1 && (match ws.getLast? with
      | some w => w % 256 == 0x12
      | none => false)

/-- The checks of a gleaner program. -/
def LoadEnv.programChecks (e : LoadEnv) (i o : Nat) : List Check :=
  let p := readProgram e.r o
  let bad := refuseAt 0x0308 (e.sect 0xE) i
  [ must (e.zeroAt o [(4, 12)]) (refuse 0x0201),
    must (decide (1 ≤ p.code.length) && decide (p.code.length ≤ 512) && !(e.pl.gleanerPrograms.take i).any (fun x => x.program == p.program)) bad,
    must (p.code.all gleanerWordOk && gleanerShapeOk p.code) bad ]

/-- The checks of a gleaner placement. -/
def LoadEnv.gleanerPlacementChecks (e : LoadEnv) (i o : Nat) : List Check :=
  let x := readGleanerPlacement e.r e.mr o
  [must (decide (x.kind ≤ 1) && decide (x.tier ≤ 1) && e.zeroAt o [(8, 8)] && e.d.holdsChannel x.tier x.channel &&
      (if x.kind = 0 then decide (x.slot ≤ 15) && e.pl.gleanerPrograms.any (fun p => p.program == x.value) &&
          !(e.pl.gleanerPlacement.take i).any (fun y => y.kind == 0 && y.tier == x.tier && y.channel == x.channel && y.slot == x.slot)
       else (e.pl.tableOf x.slot).isSome && decide (1 ≤ x.value))) (refuseAt 0x0205 (e.sect 0xF) i)]

/-! ### Microprograms (R55, R206, R207) -/

/-- Whether a step's OP, MODE and CONST indexes are listed (R204). -/
def sfuStepOk (st : SfuStep) : Bool :=
  let const (i : Nat) : Bool := decide (i ≤ 7) || i == 0xFF
  match st.op with
  | 1 => decide (st.mode ≤ 2) && (st.mode != 0 || (const st.a && const st.b))
  | 2 => decide (st.mode ≤ 1) && (st.mode != 1 || decide (st.a ≤ 7))
  | 3 => st.mode == 0
  | 4 => const st.a && const st.b
  | 5 => decide (st.mode ≤ 2) && const st.a && const st.b
  | 6 => st.mode == 0
  | _ => false

/-- Whether the steps of a microprogram stand in a permitted order (R206). -/
def sfuOrderOk (ss : List SfuStep) : Bool :=
  decide (2 ≤ ss.length) && decide (ss.length ≤ 16) && (ss.headD { op := 0, mode := 0, a := 0, b := 0 }).op == 1 &&
    ss.countP (fun x => x.op == 1) == 1 && (ss.getLast?.map (fun x => x.op)) == some 6 && ss.countP (fun x => x.op == 6) == 1 &&
    decide (ss.countP (fun x => x.op == 3) ≤ 1) &&
    (!ss.any (fun x => x.op == 3) || (ss.takeWhile (fun x => x.op != 3)).any (fun x => x.op == 2)) &&
    (!ss.any (fun x => x.op == 2 && x.mode == 1) || (ss.headD { op := 0, mode := 0, a := 0, b := 0 }).mode == 2)

/-- A binary32 encoding is finite. -/
def finiteB32 (x : Nat) : Bool := decide (x / 2 ^ 23 % 256 ≠ 255)
/-- The position of a finite binary32 in ascending order, both zeros at 0. -/
def orderKey (x : Nat) : Int := if x < 2 ^ 31 then (x : Int) else -((x - 2 ^ 31 : Nat) : Int)
/-- The binary32 at a position. -/
def floatAtKey (k : Int) : Nat := if 0 ≤ k then k.toNat else 2 ^ 31 + (-k).toNat

/-- The path an argument takes: the state after the steps before EMIT, without W, and the SELECT conditions that hold (R207). -/
def microPath (p : SfuProgram) (k : Int) : Nat × Int × Bool × List Bool :=
  let x := microClamp p (valueB32 (floatAtKey k))
  let m := p.steps.foldl (microStep p x) (microStart p (.fin false 0 1))
  (m.j, m.e, m.s, (p.steps.filter (fun st => st.op == 5)).map (fun st => microSelect p st x))
/-- Whether an argument's path reaches POLY with W not fixed by a SELECT. -/
def microReaches (p : SfuProgram) (k : Int) : Bool :=
  let x := microClamp p (valueB32 (floatAtKey k))
  p.steps.any (fun st => st.op == 3) && !((p.steps.takeWhile (fun st => st.op != 3)).any (fun st => st.op == 5 && microSelect p st x))
/-- The sign of the product of the SCALE multipliers (R207). -/
def scaleSign (p : SfuProgram) : Bool :=
  (p.steps.filter (fun st => st.op == 4)).foldl (fun neg st =>
    match microConst p st.a with
    | some (.fin true _ _) => !neg
    | _ => neg) false
/-- Whether a coefficient has the required sign: not below 0 where `up`, not above 0 otherwise. -/
def signOk (up : Bool) (c : Int) : Bool := if up then decide (0 ≤ c) else decide (c ≤ 0)
/-- The coefficient condition of R207 at a segment. -/
def segmentSignOk (p : SfuProgram) (j : Nat) : Bool :=
  let g := p.segments.getD j { c0 := 0, c1 := 0, c2 := 0 }
  let up := (p.monotone == 1) != scaleSign p
  signOk up g.c1 && signOk up (g.c1 + 2 * g.c2)
/-- Whether two results of a format stand in the claimed order. -/
def resultsOrdered (p : SfuProgram) (f : Format) (l : FloatLayout) (a b : Nat) : Bool :=
  let x := decodeFloat f l a
  let y := decodeFloat f l b
  if p.monotone = 1 then ltValue x y || eqValue x y else ltValue y x || eqValue x y
/-- Whether the results at two arguments stand in the claimed order, in both lane formats. -/
def microOrdered (p : SfuProgram) (a b : Int) : Bool :=
  let run (f : Format) (k : Int) : Nat := (sfuMicro p f (.fin false 0 1) (valueB32 (floatAtKey k))).1
  resultsOrdered p .b32 layoutB32 (run .b32 a) (run .b32 b) && resultsOrdered p .sf32 layoutSF32 (run .sf32 a) (run .sf32 b)
/-- Whether the loader evaluates at an argument: the ends of the domain, and the two arguments on each side of every change of path. -/
def evaluated (p : SfuProgram) (lo hi k : Int) : Bool :=
  k == lo || k == hi || [k - 2, k - 1, k, k + 1].any (fun j => decide (lo ≤ j) && decide (j + 1 ≤ hi) && microPath p j != microPath p (j + 1))

/-- The first failure of a monotonicity claim, scanning from an argument upward: the lower argument's bits (R207). -/
def monotoneFault (p : SfuProgram) (lo hi : Int) : Nat → Int → Option Int → Option Nat
  | 0, _, _ => none
  | n + 1, k, prev =>
    if hi < k then none
    else
      let ev := evaluated p lo hi k
      let broken := match prev with
        | some q => if ev && !microOrdered p q k then some (floatAtKey q) else none
        | none => none
      match broken with
      | some x => some x
      | none =>
        if microReaches p k && !segmentSignOk p (microPath p k).1 then some (floatAtKey k)
        else monotoneFault p lo hi n (k + 1) (if ev then some k else prev)

/-- The checks of a microprogram. -/
def LoadEnv.sfuChecks (e : LoadEnv) (i o : Nat) : List Check :=
  let p := readSfuProgram e.r o
  let n := e.r (o + 3) 1
  let bad := refuseAt 0x0308 (e.sect 0x10) i
  let lo := orderKey p.domainLo
  let hi := orderKey p.domainHi
  [ must (decide (2 ≤ n) && decide (n ≤ 16) && sfuOrderOk p.steps && p.steps.all sfuStepOk && decide (p.monotone ≤ 2) &&
      e.zeroAt o [(0xC, 4), (0x18, 8)] && (List.range 16).all (fun k => e.r (o + 0x40 + 4 * k + 3) 1 == 0 && (decide (k < n) || e.zeroAt o [(0x40 + 4 * k, 4)])) &&
      finiteB32 p.domainLo && finiteB32 p.domainHi && decide (lo ≤ hi) &&
      (List.range 127).all (fun j =>
        let a := p.segments.getD j { c0 := 0, c1 := 0, c2 := 0 }
        let b := p.segments.getD (j + 1) { c0 := 0, c1 := 0, c2 := 0 }
        b.c0 == a.c0 + 16 * (a.c1 + a.c2))) bad,
    (if p.monotone = 0 then none
     else match monotoneFault p lo hi ((hi - lo).toNat + 1) lo none with
       | some x => some { refuseAt 0x0309 (e.sect 0x10) i with requested := x }
       | none => none) ]

/-! ### Link credits, reserves and windows (R58, R59, R377) -/

/-- The checks of a link credit entry. -/
def LoadEnv.creditChecks (e : LoadEnv) (i o : Nat) : List Check :=
  let x := readCredit e.r e.mr o
  let igrum := decide (0x20 ≤ x.link) && decide (x.link ≤ 0x2F)
  [must ((decide (x.link ≤ 14) || igrum) && (if igrum then decide (x.vc ≤ 7) else x.vc == 0) &&
      e.pl.contexts.any (fun c => c.context == x.context) && e.zeroAt o [(12, 4)]) (refuseAt 0x0205 (e.sect 0x11) i)]

/-- The checks of a reserve. -/
def LoadEnv.reserveChecks (e : LoadEnv) (i o : Nat) : List Check :=
  let x := readReserve e.r e.mr o
  [ must (decide (x.tier ≤ 1) && e.zeroAt o [(3, 1), (6, 2)] && (e.pl.tableOf x.table).isSome &&
      !(e.pl.reserves.take i).any (fun y => y.table == x.table && y.tier == x.tier && y.channel == x.channel)) (refuseAt 0x0205 (e.sect 0x12) i),
    must (e.d.holdsChannel x.tier x.channel) (e.layoutBad 0x12 i) ]

/-- The checks of a window mapping. -/
def LoadEnv.windowChecks (e : LoadEnv) (i o : Nat) : List Check :=
  let x := readMapping e.r o
  let same := (e.pl.windows.take i).filter (fun y => y.window == x.window)
  let seg := x.target / 2 ^ 48
  let inside := match e.pl.contexts.find? (fun c => c.context == x.context) with
    | some c => c.used.testBit seg && (match c.segments[seg]? with
      | some g => decide (x.target % 2 ^ 48 + x.length ≤ g.limit) && g.perm.testBit 3
      | none => false)
    | none => false
  [must (decide (x.perm < 16) && e.zeroAt o [(6, 2), (12, 4), (0x28, 8)] && x.winOffset % 65536 == 0 && decide (x.winOffset < 2 ^ 48) &&
      x.length % 65536 == 0 && decide (65536 ≤ x.length) && decide (x.winOffset + x.length ≤ 2 ^ 48) && x.target % 65536 == 0 &&
      decide (x.target < 2 ^ 52) && inside && decide (same.length < 64) &&
      same.all (fun y => y.context == x.context && y.peer == x.peer && y.key == x.key &&
        (decide (y.winOffset + y.length ≤ x.winOffset) || decide (x.winOffset + x.length ≤ y.winOffset)))) (refuseAt 0x0205 (e.sect 0x13) i)]

/-- A variable-size section's entry size is 0 (R54, R222). -/
def LoadEnv.variable (e : LoadEnv) (type : Nat) (entries : List (Nat × Nat)) (check : Nat → Nat → List Check) : Check :=
  firstOf (e.sizeCheck type 0 :: entries.flatMap (fun x => check x.1 x.2))

/-- The section checks of types 9 to 0x13, in order (R65). -/
def LoadEnv.checksHigh (e : LoadEnv) : Check :=
  firstOf
    [ e.variable 9 (tableEntries e.r e.ds) e.tableChecks, e.fixed 0xA 32 e.bayChecks, e.fixed 0xB 128 e.layerChecks,
      e.fixed 0xC 64 e.codebookChecks, e.fixed 0xD 16 e.signChecks, e.variable 0xE (programEntries e.r e.ds) e.programChecks,
      e.fixed 0xF 16 e.gleanerPlacementChecks, e.fixed 0x10 2176 e.sfuChecks, e.fixed 0x11 16 e.creditChecks,
      e.fixed 0x12 16 e.reserveChecks, e.fixed 0x13 48 e.windowChecks ]

end Sys2Proof.Machine
end

