-- ==== Sys2Proof/Machine/LoadCounts.lean ====
section
/-!
DEFINITION. The loader's resource counts, in their order (R64, R448, R463, R607).
-/

namespace Sys2Proof.Machine

/-! ### Cores and bins: orders 1 to 3 -/

/-- The cores active in a cluster (R64). -/
def State.coresActive (s : State) (c : Nat) : Nat := (bitsSet (s.mapOf c).present 7).length

/-- Order 1. -/
def LoadEnv.countCores (e : LoadEnv) : List Check :=
  (List.range 24).map (fun c =>
    let want := sumNat (e.pl.pools.map (fun p => p.coresIn c))
    must (decide (want ≤ e.s.coresActive c)) (refuseCount 0x0401 c want (e.s.coresActive c)))

/-- Order 2: the regions in the bin of each logical core, in KiB. -/
def LoadEnv.countCoreBins (e : LoadEnv) : List Check :=
  let pools := poolsSorted e.pl
  (List.range 24).flatMap (fun c => (List.range 7).map (fun j =>
    match poolOfLogical pools c j with
    | none => none
    | some (p, idx) =>
      let mine := e.pl.binMap.filter (fun r => r.scope == 0 && r.cluster == c && r.stage == p.stage && (r.core == idx || r.core == 0xFF))
      let want := sumNat (mine.map (fun r => 4 * r.size))
      must (decide (want ≤ 2048)) (refuseCount 0x0402 (8 * c + j) want 2048)))

/-- Order 3: the regions of each cluster bin, in KiB. -/
def LoadEnv.countClusterBins (e : LoadEnv) : List Check :=
  (List.range 24).map (fun c =>
    let want := sumNat ((e.pl.binMap.filter (fun r => r.scope == 1 && r.cluster == c)).map (fun r => 4 * r.size))
    must (decide (want ≤ 8192)) (refuseCount 0x0402 c want 8192))

/-! ### Channels: orders 4 and 5 (R607) -/

/-- Every extent that a plan declares: what it places apart from segments, and its declared segments whole. -/
def Plan.extents (pl : Plan) : List PlaceRun :=
  pl.fixedRuns ++ pl.contexts.flatMap (fun c => (bitsSet c.used 16).flatMap (fun n => match c.segments[n]? with
    | some g => g.declared
    | none => []))

/-- The bytes that extents in ascending order of start cover beyond `seen`. -/
def unionBytes : List PlaceRun → Nat → Nat
  | [], _ => 0
  | r :: rest, seen => (r.off + r.len - max seen r.off) + unionBytes rest (max seen (r.off + r.len))

/-- The declared use of a channel: the union of its extents, or the highest end among them (R607). -/
def Plan.channelUse (pl : Plan) (chan : Nat) : Nat × Nat :=
  let rs := ((pl.extents.filter (fun r => r.chan == chan && decide (0 < r.len))).mergeSort (fun a b => a.off ≤ b.off))
  (unionBytes rs 0, rs.foldl (fun m r => max m (r.off + r.len)) 0)

/-- Orders 4 and 5, channel by channel. -/
def LoadEnv.countChannels (e : LoadEnv) (first n code : Nat) : List Check :=
  (List.range n).map (fun i =>
    let use := e.pl.channelUse (first + i)
    let room := e.s.channelShare (first + i)
    must (decide (use.1 ≤ room) && decide (use.2 ≤ room)) (refuseCount code (first + i) (max use.1 use.2) room))

/-! ### Gleaners: orders 6 and 7 (R54, R227) -/

/-- The placements on a gleaner, in the numbering of R74. -/
def Plan.placedOn (pl : Plan) (chan kind : Nat) : List GleanerPlacement :=
  pl.gleanerPlacement.filter (fun x => x.kind == kind && chanOf x.tier x.channel == chan)

/-- Order 6: slots, then instructions. -/
def LoadEnv.countPrograms (e : LoadEnv) (chan : Nat) : List Check :=
  let placed := e.pl.placedOn chan 0
  let words := sumNat (placed.map (fun x => match e.pl.gleanerPrograms.find? (fun p => p.program == x.value) with
    | some p => p.code.length
    | none => 0))
  [ must (decide (placed.length ≤ 16)) (refuseCount 0x0405 chan placed.length 16),
    must (decide (words ≤ 4096)) (refuseCount 0x0405 chan words 4096) ]

/-- The bytes of a table's share of a gleaner's cache. -/
def Plan.shareBytes (pl : Plan) (chan table : Nat) : Nat :=
  sumNat (((pl.placedOn chan 1).filter (fun x => x.slot == table)).map (fun x => 65536 * x.value))

/-- Order 7: the shares, then the default slot of every table with a bay there (R227). -/
def LoadEnv.countCache (e : LoadEnv) (chan : Nat) : List Check :=
  let size := if chan < 384 then 2 * 2 ^ 20 else 2 ^ 20
  let total := sumNat ((e.pl.placedOn chan 1).map (fun x => 65536 * x.value))
  let tables := ((e.pl.bays.filter (fun b => chanOf b.tier b.channel == chan)).map (fun b => b.table)).eraseDups.mergeSort (fun a b => a ≤ b)
  must (decide (total ≤ size)) (refuseCount 0x0406 chan total size) ::
    tables.map (fun t =>
      let slot := match e.pl.tableOf t with
        | some d => d.slot
        | none => 0
      must (decide (slot ≤ e.pl.shareBytes chan t)) (refuseCount 0x0406 chan slot (e.pl.shareBytes chan t)))

/-! ### SFU slots, numbering, credits: orders 8 to 11 -/

/-- Order 8, core by core. -/
def LoadEnv.countSfu (e : LoadEnv) : List Check :=
  let pools := poolsSorted e.pl
  (List.range 24).flatMap (fun c => (List.range 7).map (fun j =>
    match poolOfLogical pools c j with
    | none => none
    | some (p, _) => must (decide (p.sfuCount ≤ 64)) (refuseCount 0x0407 (8 * c + j) p.sfuCount 64)))

/-- The highest number used, plus 1. -/
def highest (ns : List Nat) : Nat := ns.foldl (fun m n => max m (n + 1)) 0

/-- Order 9: queues, semaphores (which no section uses), contexts, windows. -/
def LoadEnv.countNumbers (e : LoadEnv) : List Check :=
  let used := [ highest (e.pl.bindings.map (fun b => b.queue)), 0, highest (e.pl.contexts.map (fun c => c.context)),
                highest (e.pl.windows.map (fun w => w.window)) ]
  let held := [e.d.queues.2, e.d.semaphores.2 * 256, e.d.contexts.2, e.d.windows.2]
  (List.range 4).map (fun u => must (decide (used.getD u 0 ≤ held.getD u 0)) (refuseCount 0x0408 u (used.getD u 0) (held.getD u 0)))

/-- The credits of an entry in a direction. -/
def LinkCredit.dir (c : LinkCredit) (d : Nat) : Nat := if d = 0 then c.credits0 else c.credits1

/-- The die-to-die links that a route crosses (R448). -/
def Route.links (r : Route) : List Nat :=
  let hop (h : Nat) : Bool := (r.path.take r.hops).contains h
  let ends (k : Nat) : List Nat := [r.source, r.dest].filterMap (fun e => if e / 4096 = k then some (e % 4096) else none)
  (List.range 15).filter (fun l =>
    if l = 0 then hop 4 || !(ends 2).isEmpty else if l ≤ 2 then (ends 3).contains (l - 1) else (ends 1).contains (l - 3))

/-- Order 10's sums, link by link and direction by direction. -/
def LoadEnv.countLinks (e : LoadEnv) : List Check :=
  (List.range 30).map (fun u =>
    let want := sumNat ((e.pl.linkCredits.filter (fun c => c.link == u / 2)).map (fun c => c.dir (u % 2)))
    let share := e.d.d2dCredits.getD (u / 2) (0, 0)
    let room := if u % 2 = 0 then share.1 else share.2
    must (decide (want ≤ room)) (refuseCount 0x0409 u want room))

/-- The link and direction numbers on which a context needs a credit and holds none, in ascending order (R448). -/
def Plan.missingCredits (pl : Plan) (ctx : Nat) : List Nat :=
  let stages := (pl.bindings.filter (fun b => b.context == ctx)).map (fun b => b.stage)
  let clusters := (pl.pools.filter (fun p => stages.contains p.stage)).flatMap StagePool.clusters
  let links := (pl.routes.filter (fun r => clusters.contains r.source || clusters.contains r.dest)).flatMap Route.links
  (List.range 30).filter (fun u => links.contains (u / 2) &&
    !pl.linkCredits.any (fun c => c.context == ctx && c.link == u / 2 && c.dir (u % 2) != 0))

/-- Order 10's check of R448, context by context. -/
def LoadEnv.countContextCredits (e : LoadEnv) : List Check :=
  let ctxs := (e.pl.bindings.map (fun b => b.context)).eraseDups.mergeSort (fun a b => a ≤ b)
  ctxs.map (fun c => match (e.pl.missingCredits c).head? with
    | some u => some (refuseCount 0x0409 u 1 0)
    | none => none)

/-- Order 11: per port or half, VC and direction; half b of a port in MODE 2 adds 64 to UNIT (R463, R464). A half that the partition
does not hold, and half b of a port not in MODE 2, has no share. -/
def LoadEnv.countIgrum (e : LoadEnv) : List Check :=
  (List.range 128).map (fun u =>
    let half := decide (64 ≤ u)
    let p := u % 64 / 8
    let vc := u % 8
    let link := (if half then 0x28 else 0x20) + p
    let mine := e.pl.linkCredits.filter (fun c => c.link == link && c.vc == vc)
    let want := max (sumNat (mine.map (fun c => c.credits0))) (sumNat (mine.map (fun c => c.credits1)))
    let two := (e.s.eth p).mode == 2
    let held := e.d.ports.testBit (2 * p + half.toNat) && (!half || two)
    let room := if held then 2 * e.d.igrumCredits.getD (8 * p + vc) 0 else 0
    must (decide (want ≤ room)) (refuseCount 0x040A u want room))

/-- The resource counts in order (R64). -/
def LoadEnv.counts (e : LoadEnv) : Check :=
  let chans := List.range 448
  firstOf (e.countCores ++ e.countCoreBins ++ e.countClusterBins ++ e.countChannels 0 384 0x0403 ++ e.countChannels 384 64 0x0404 ++
    chans.flatMap e.countPrograms ++ chans.flatMap e.countCache ++ e.countSfu ++ e.countNumbers ++ e.countLinks ++
    e.countContextCredits ++ e.countIgrum)

end Sys2Proof.Machine
end

