-- ==== Sys2Proof/Machine/FrontCmds.lean ====
section
/-!
DEFINITION. The global front end (spec 15): doorbells, fetching and parsing, dispatch, RUN, semaphores, completion, and the
creation and destruction of queues.
-/

namespace Sys2Proof.Machine

/-! ### Rings, seals and doorbells (R405 to R411) -/

/-- Whether 32-bit free-running value `a` is ahead of `b` by serial arithmetic (R409). -/
def ahead (a b : Nat) : Bool := a % 2 ^ 32 != b % 2 ^ 32 && decide ((a + 2 ^ 32 - b % 2 ^ 32) % 2 ^ 32 < 2 ^ 31)
/-- How far `a` lies ahead of `b`. -/
def aheadBy (a b : Nat) : Nat := (a + 2 ^ 32 - b % 2 ^ 32) % 2 ^ 32

/-- Whether a record with a sequence number must wait for room in its completion ring: it lies beyond CQ_HEAD + RECORDS (R406, R409). -/
def QueueState.ringFull (x : QueueState) (seq : Nat) : Bool := ahead seq (x.cqHead + 2 ^ x.recordsLog2)
/-- Whether a queue waits on a full completion ring (R406). -/
def QueueState.cqFull (x : QueueState) : Bool :=
  match x.cmds.head? with
  | some c => c.phase == CmdPhase.complete && x.ringFull c.seq
  | none => false

/-- The seal of slot `i` of a ring of `slots` slots: 0xC3 in an even lap, 0x3C in an odd one (R407). -/
def sealOf (slots i : Nat) : Nat := if i / slots % 2 = 0 then 0xC3 else 0x3C

/-- The device physical address of byte `n` of a queue's ring (R405). -/
def QueueState.ringByte (q : QueueState) (n : Nat) : Nat := q.ring.getD ((q.ringOffset + n) / 65536) 0 + (q.ringOffset + n) % 65536

/-- The 64 bytes of slot `i` of a queue's ring. -/
def State.ringSlot (s : State) (q i : Nat) : List Byte :=
  let x := s.queue q
  s.physBytes ((List.range 64).map (fun b => x.ringByte (64 * (i % 2 ^ x.slotsLog2) + b)))

/-- Whether a slot's bytes are sealed for slot `i`'s lap. -/
def slotSealed (slots i : Nat) (bs : List Byte) : Bool := fieldLE bs 63 1 == sealOf slots i

/-- DOORBELL: function `f` writes the doorbell of queue `q`; `tail` and `cqHead` are the halves written (R384, R397, R409). -/
def execDoorbell (f q : Nat) (tail cqHead : Option Nat) (s : State) : Answer :=
  onQueue q s (fun s => onBar0 f s (fun s =>
    let x := s.queue q
    let mine := match s.partOfQueue q with
      | some p => s.ownsPart f p
      | none => false
    let detached := (s.attOf f).isNone && (List.range 32).any (fun a => (s.att a).state == 2 && (s.att a).fn == f)
    if !mine ∨ detached then .next { s with host := { s.host with status := s.host.status ||| 2 } }
    else if x.state ≠ 1 ∨ tail.any (fun t => ahead t x.head && decide (2 ^ x.slotsLog2 < aheadBy t x.head)) then
      .next (s.gfeStatus 2)
    else .next (s.updQueue q (fun x => { x with
      tail := match tail with
        | some t => if ahead t x.tail then t % 2 ^ 32 else x.tail
        | none => x.tail
      cqHead := match cqHead with
        | some h => if ahead h x.cqHead then h % 2 ^ 32 else x.cqHead
        | none => x.cqHead }))))

/-- ADMIN_DOORBELL: TAIL of function `f`'s administrative ring (R411). -/
def execAdminDoorbell (f tail : Nat) (s : State) : Answer :=
  onBar0 f s (fun s => .next (s.updFn f (fun h => { h with adminTail := BitVec.ofNat 32 tail })))

/-! ### Parsing (R412, R414, R419 to R421, R423) -/

/-- The inline payload of a command: the head slot's INLINE_TAIL gives byte 63 of each extension slot's part (R414). -/
def inlineOf (head : List Byte) (exts : List (List Byte)) : List Byte :=
  exts.zipIdx.flatMap (fun e => e.1.take 63 ++ [head.getD (0x3B + e.2) 0])

/-- The operand bytes an opcode uses, and the EXT it requires; none for a reserved opcode. RUN's EXT follows INLINE_LEN (R419, R421). -/
def workShape (op : Nat) (operands : List Byte) : Option (Nat × Nat) :=
  match op with
  | 0x00 => some (0, 0)
  | 0x01 => some (27, (fieldLE operands 0 2 % 512 + 63) / 64)
  | 0x10 => some (24, 0)
  | 0x11 => some (11, 0)
  | 0x12 => some (11, 0)
  | 0x13 => some (2, 0)
  | 0x14 => some (20, 0)
  | 0x15 => some (18, 0)
  | 0x20 => some (10, 0)
  | _ => none

/-- The same for administrative opcodes (R423). -/
def adminShape (op : Nat) : Option (Nat × Nat) :=
  match op with
  | 0x80 => some (8, 4)
  | 0x81 => some (23, 0)
  | 0x82 => some (10, 0)
  | 0x83 => some (24, 1)
  | 0x84 => some (10, 0)
  | 0x85 | 0x86 => some (19, 0)
  | 0x87 => some (27, 0)
  | 0x88 | 0x89 => some (8, 1)
  | _ => none

/-- Whether a header holds a reserved value: FLAGS, byte 0x0B, WAIT_KIND and a landing counter past 63 (R414). -/
def headerBad (head : List Byte) : Bool :=
  let flags := fieldLE head 2 2
  decide (64 ≤ flags) || decide (1 < bitsOf flags 5 4) || fieldLE head 0x0B 1 != 0 || decide (2 < fieldLE head 0x0A 1) ||
    (fieldLE head 0x0A 1 == 2 && decide (64 ≤ fieldLE head 6 2))

/-- Whether a work command's operands hold a reserved value. -/
def operandsBad (op : Nat) (b : List Byte) : Bool :=
  match op with
  | 0x01 =>
    let layout := fieldLE b 0 2
    let work := fieldLE b 2 3
    decide (256 < layout % 512) || layout.testBit 15 || decide (2 ^ 22 ≤ work) || (decide (7 < bitsOf work 10 7) && bitsOf work 10 7 != 15)
  | 0x10 => decide (1 < fieldLE b 2 1) || decide (3 < fieldLE b 12 1)
  | 0x11 | 0x12 => decide (3 < fieldLE b 2 1)
  | 0x14 => decide (3 < fieldLE b 11 1)
  | 0x15 => decide (1 < fieldLE b 7 1) || (fieldLE b 7 1 == 0 && (decide (fieldLE b 8 1 < 2) || decide (8 < fieldLE b 8 1))) ||
      decide (3 < fieldLE b 9 1)
  | _ => false

/-- The references of a work command, as FORM, value, length in bytes and whether they are written (R419, R421). -/
def workRefs (op : Nat) (b : List Byte) : List (Nat × Nat × Nat × Bool) :=
  match op with
  | 0x01 =>
    let layout := fieldLE b 0 2
    [(bitsOf layout 10 9, fieldLE b 5 8, 64 * fieldLE b 13 3, layout.testBit 13),
     (bitsOf layout 12 11, fieldLE b 16 8, 64 * fieldLE b 24 3, layout.testBit 14)]
  | 0x10 => [(fieldLE b 12 1, fieldLE b 13 8, 64 * fieldLE b 21 3, false)]
  | 0x11 => [(fieldLE b 2 1, fieldLE b 3 8, 4, true)]
  | 0x12 => [(fieldLE b 2 1, fieldLE b 3 8, 8, true)]
  | 0x14 => [(fieldLE b 11 1, fieldLE b 12 8, 4, true)]
  | 0x15 => [(fieldLE b 9 1, fieldLE b 10 8, 4, true)]
  | _ => []

/-- A reference relocated and checked (R420); none where a check fails. A reference of no bytes is checked for nothing but its slot and
handle. -/
def State.relocate (s : State) (q : Nat) (r : Nat × Nat × Nat × Bool) : Option Ref :=
  let x := s.queue q
  let (form, value, len, write) := r
  let ok (a : Nat) : Bool :=
    len == 0 || s.extentOk (gfeCopy x.inst) x.context a ((a + len - 1 : Nat) : Int) (if write then permWrite else permRead)
  match form with
  | 0 => some { form := 0, addr := 0, len := 0 }
  | 1 => if ok value then some { form := 1, addr := value, len := len } else none
  | 2 =>
    let h := s.fn (s.att x.attachment).fn
    let slot := value / 2 ^ 21
    match (if slot < h.slotCount then Tbl.get none s.host.slots (h.slotBase + slot) else none) with
    | some e =>
      let a := e.target + value % 2 ^ 21
      if e.valid && e.context == x.context && decide (value % 2 ^ 21 + len ≤ 2 ^ 21) && ok a then some { form := 1, addr := a, len := len }
      else none
    | none => none
  | _ =>
    if outAtt value == x.attachment && s.outboundOk x.context value len then some { form := 3, addr := value, len := len } else none

/-- All references of a command; none where one fails. -/
def State.relocateAll (s : State) (q : Nat) (rs : List (Nat × Nat × Nat × Bool)) : Option (List Ref) :=
  rs.foldr (fun r acc => acc.bind (fun l => (s.relocate q r).map (fun x => x :: l))) (some [])

/-- The context a queue's commands run in: that of its binding in the loaded plan, if it binds the queue (R56, R73). -/
def State.boundContext (s : State) (q : Nat) : Option Nat :=
  let p := (s.queue q).part
  match (s.part p).desc, s.planOf p with
  | some d, some pl => (pl.bindingOf (q - d.queues.1)).map (fun b => d.contexts.1 + b.context)
  | _, _ => none

/-- A held pin that a RUN names (R421): the pin itself, or whether a plan switch released it (R79). -/
def State.pinOf (s : State) (p ctx handle : Nat) : Option HeldPin := (s.part p).heldPins.find? (fun h => h.handle == handle && h.ctx == ctx)

/-- What parsing makes of a work command (R73, R79, R412, R420, R426): the code it completes with at once, if any, and its references. -/
def State.parseWork (s : State) (q : Nat) (head : List Byte) : Option Nat × List Ref :=
  let x := s.queue q
  let op := fieldLE head 0 1
  let b := (head.drop 0x20).take 27
  let tag := fieldLE head 4 2
  let bad := headerBad head || operandsBad op b || (match workShape op b with
    | some (n, ext) => !allZero (b.drop n) || fieldLE head 1 1 != ext
    | none => true)
  let pin := if op = 0x01 then bitsOf (fieldLE b 2 3) 21 11 else 0
  if s.torn x.context then (some codeTornDown, [])
  else if bad then (some codeBounds, [])
  else if (s.planOf x.part).isNone ∨ (s.boundContext q).isNone ∨ (tag ≠ 0 ∧ tag ≠ (s.part x.part).tag.toNat) then (some codeMismatch, [])
  else if pin ≠ 0 ∧ (s.pinOf x.part x.context pin).isNone then
    (some (if (s.part x.part).lapsedPins.any (fun h => h.handle == pin && h.ctx == x.context) then codeMismatch else codeBounds), [])
  else
    match s.relocateAll q (workRefs op b) with
    | some rs => (none, rs)
    | none => (some codeBounds, [])

/-- Whether a work command is malformed (R412). -/
def workMalformed (head : List Byte) : Bool :=
  let op := fieldLE head 0 1
  let b := (head.drop 0x20).take 27
  headerBad head || operandsBad op b || (match workShape op b with
    | some (n, ext) => !allZero (b.drop n) || fieldLE head 1 1 != ext
    | none => true)

/-- A work command consumed from its ring: it takes its sequence number, is parsed and relocated, and waits for dispatch, or completes at
once with the code that parsing found (R408, R415, R424). -/
def State.takeWork (s : State) (q : Nat) (head : List Byte) (exts : List (List Byte)) : State :=
  let s0 := match s.boundContext q with
    | some c => s.updQueue q (fun x => { x with context := c })
    | none => s
  let x := s0.queue q
  let r := s0.parseWork q head
  let cmd : Cmd :=
    { seq := x.nextSeq, op := fieldLE head 0 1, flags := fieldLE head 2 2, waitObj := fieldLE head 6 2, signalSem := fieldLE head 8 2
      waitKind := fieldLE head 0x0A 1, userTag := fieldLE head 0x0C 4, waitValue := fieldLE head 0x10 8
      signalValue := fieldLE head 0x18 8, operands := (head.drop 0x20).take 27, inline := inlineOf head exts, refs := r.2
      phase := if r.1.isSome then .complete else .parsed, code := r.1.getD 0, marks := 0, live := 0, stopped := false, progress := 0
      granted := false }
  let s1 := s0.updQueue q (fun x => { x with
    head := (x.head + 1 + exts.length) % 2 ^ 32, nextSeq := x.nextSeq + 1, waitSeal := none, cmds := x.cmds ++ [cmd] })
  let s2 := if workMalformed head then s1.gfeStatus 1 else s1
  if r.1 = some codeBounds ∧ !workMalformed head then
    s2.xltBounds.send (.fault { faultOf 0x0201 9 x.inst with
      ctx := some x.context, part := x.part, queue := q, tag := tagOf q x.nextSeq, action := 1 })
  else s2

/-- Why fetching on a queue stops: it is not ACTIVE, has no slot below TAIL, has 4,096 commands in flight, waits on a full completion ring
(R406), on a full journal (R398), or its partition's plan is being taken away or replaced (R75, R78). -/
def State.fetchStops (s : State) (q : Nat) : Bool :=
  let x := s.queue q
  x.state != 1 || (s.part x.part).halted || !ahead x.tail x.head || decide (4096 ≤ x.cmds.length) || x.cqFull || (s.att x.attachment).journalFull

/-- How many extension slots a head slot announces. An EXT above 4 is malformed, and the command is its head slot alone. -/
def extCount (head : List Byte) : Nat := if 4 < fieldLE head 1 1 then 0 else fieldLE head 1 1

/-- What the front end finds at the head of a ring of `slots` slots (R408, R410): the first of the command's slots that lies below TAIL and is
not sealed; else the whole command, or nothing while a slot of it lies at TAIL. -/
def readHead (slots head tail : Nat) (slot : Nat → List Byte) : Option Nat × Option (List Byte × List (List Byte)) :=
  let first := slot head
  let n := 1 + extCount first
  let below := min n (aheadBy tail head)
  match (List.range below).find? (fun k => !slotSealed slots (head + k) (slot (head + k))) with
  | some k => (some (head + k), none)
  | none => if below = n then (none, some (first, (List.range (n - 1)).map (fun k => slot (head + 1 + k)))) else (none, none)

/-- The command at a queue's head, or the unsealed slot that it waits on. -/
def State.headCommand (s : State) (q : Nat) : Option Nat × Option (List Byte × List (List Byte)) :=
  let x := s.queue q
  readHead (2 ^ x.slotsLog2) x.head x.tail (fun i => s.ringSlot q i)

/-- A DOORBELL_EARLY event (R410, R429). -/
def State.countEarly (s : State) : State := { s with gfe := { s.gfe with early := s.gfe.early + 1, status := s.gfe.status ||| 4 } }

/-- Fetch at a queue's head (R408, R410): a sealed command is consumed; a slot newly found unsealed is counted and waited on. -/
def State.fetchHead (s : State) (q : Nat) : State :=
  match s.headCommand q with
  | (_, some c) => s.takeWork q c.1 c.2
  | (some i, none) => if (s.queue q).waitSeal = some i then s else s.countEarly.updQueue q (fun x => { x with waitSeal := some i })
  | (none, none) => s.updQueue q (fun x => { x with waitSeal := none })

/-! ### Administrative commands (R411, R412) -/

/-- The 64 bytes of administrative slot `i` of a function. -/
def HostFn.adminSlot (h : HostFn) (i : Nat) : List Byte := h.adminSlots.bytes (64 * (i % 16)) 64

/-- The next administrative command of a function is consumed once its slots are sealed and none is running; a malformed one completes
with BOUNDS (R411, R412). -/
def State.fetchAdmin (s : State) (f : Nat) : State :=
  let h := s.fn f
  if (s.admin f).isSome ∨ !ahead h.adminTail.toNat h.adminHead then s
  else match readHead 16 h.adminHead h.adminTail.toNat h.adminSlot with
  | (some i, none) => if h.adminSeal = some i then s else s.countEarly.updFn f (fun h => { h with adminSeal := some i })
  | (_, none) => s.updFn f (fun h => { h with adminSeal := none })
  | (_, some (head, exts)) =>
    let op := fieldLE head 0 1
    let b := (head.drop 0x20).take 27
    let inline := inlineOf head exts
    let bad := headerBad head || (match adminShape op with
      | some (n, e) => !allZero (b.drop n) || fieldLE head 1 1 != e || (op == 0x83 && !allZero ((inline.drop 8).take 55)) ||
          (op == 0x81 && decide (4 ≤ fieldLE b 1 1)) || (op == 0x82 && decide (2 ≤ fieldLE b 1 1))
      | none => true)
    let cmd : AdminCmd :=
      { seq := h.adminSeq + 1, op := op, flags := fieldLE head 2 2, userTag := fieldLE head 0x0C 4, operands := b, inline := inline
        waitKind := fieldLE head 0x0A 1, waitObj := fieldLE head 6 2, waitValue := fieldLE head 0x10 8, signalSem := fieldLE head 8 2
        signalValue := fieldLE head 0x18 8, malformed := bad, planTag := fieldLE head 4 2, fetched := s.devTime, begun := false
        granted := false }
    let s1 := (s.updFn f (fun h => { h with
      adminHead := (h.adminHead + 1 + exts.length) % 2 ^ 32, adminSeal := none, adminSeq := h.adminSeq + 1 })).setAdmin f (some cmd)
    if bad then (s1.gfeStatus 1).finishAdmin f codeBounds else s1

/-- Whether a queue of an instance has a sealed command to fetch (R408, R449). -/
def State.fetchReady (s : State) (inst q : Nat) : Bool :=
  (s.queue q).inst == inst && !s.fetchStops q && (s.queue q).waitSeal.isNone && (s.headCommand q).2.isSome

/-- The queue that an instance fetches from next (R449): of the partitions with sealed slots the one whose turn it is; in it the queue of highest
effective priority; among equals the one whose turn it is. -/
def State.fetchTurn (s : State) (inst : Nat) : Option Nat :=
  let ready := (s.gfe.queues.map Prod.fst).filter (s.fetchReady inst)
  let after (start n size : Nat) : Nat := (n + size - start) % size
  match argMin (fun q => after (Tbl.get 0 s.gfe.turns inst) (s.queue q).part 8) ready with
  | none => none
  | some q0 =>
    let p := (s.queue q0).part
    let mine := ready.filter (fun q => (s.queue q).part == p)
    let top := mine.foldl (fun m q => max m (s.queuePrio s.inheritance q)) 0
    argMin (fun q => after (Tbl.get 0 s.gfe.equals (inst * 8 + p)) q 1024) (mine.filter (fun q => s.queuePrio s.inheritance q == top))

/-- A queue has had its turn (R449). A turn is one command (DESIGN CHOICE, log 75). -/
def State.passTurn (s : State) (q : Nat) : State :=
  let x := s.queue q
  { s with gfe := { s.gfe with
      turns := Tbl.set 0 s.gfe.turns x.inst ((x.part + 1) % 8)
      equals := Tbl.set 0 s.gfe.equals (x.inst * 8 + x.part) ((q + 1) % 1024) } }

/-- COMMAND_FETCH: the front end reaches the next slot of a queue, or of the administrative ring of function `q − 1,024`; it consumes a
sealed command in the queue's turn, or counts an early doorbell and waits on the seal (R408, R410, R449). -/
def execCommandFetch (q : Nat) (s : State) : Answer :=
  if 1024 ≤ q then onFn (q - 1024) s (fun s => .next (if s.served then s.fetchAdmin (q - 1024) else s))
  else
    onQueue q s (fun s =>
      .next (if !s.served ∨ s.fetchStops q ∨ (s.queue q).waitSeal.isSome then s
        else if (s.headCommand q).2.isNone then s.fetchHead q
        else if s.fetchTurn (s.queue q).inst = some q then (s.fetchHead q).passTurn q else s))

/-- SEAL_RECHECK: the slot that fetch waits on is read again (R410). -/
def execSealRecheck (q : Nat) (s : State) : Answer :=
  onQueue q s (fun s => .next (if (s.queue q).waitSeal.isNone ∨ s.fetchStops q then s else s.fetchHead q))

/-! ### Dispatch (R415 to R418) -/

/-- The wait of a work command of a queue (R416, R418). -/
def State.workWait (s : State) (q : Nat) (c : Cmd) : WaitEnd :=
  let x := s.queue q
  if !c.flags.testBit 2 || c.granted then .go s
  else if c.waitKind = 2 then
    if c.waitValue ≤ (Tbl.get 0 (s.att x.attachment).landing c.waitObj).toNat then .go s else .waits
  else if s.semCount x.part ≤ c.waitObj then .waits
  else s.semWait q (s.semBase x.part + c.waitObj) c.waitKind c.waitValue

/-- A command begins to wait: WAIT_EVENT, and its queue joins the semaphore's waiters once (R416, R429). -/
def State.beginWait (s : State) (q : Nat) (c : Cmd) : State :=
  let s1 := s.updQueue q (fun x => { x with waitEvent := true })
  if c.flags.testBit 2 ∧ c.waitKind ≤ 1 ∧ c.waitObj < s.semCount (s.queue q).part then
    s1.joinWaiters (s.semBase (s.queue q).part + c.waitObj) q
  else s1

/-- The clusters that hold cores of a stage, in ascending order (R422). -/
def State.stageClusters (s : State) (pl : Plan) (stage : Nat) : List Nat :=
  (List.range 24).filter (fun n => !(s.cluster n).retired && (match pl.pool stage with
    | some pool => 0 < pool.coresIn n
    | none => false))

/-- Whether a RUN of a queue is held back: a ready list of its entry stage is full in a cluster that its shares go to (R437), or one in any
cluster holds an item of a higher effective priority (R438). -/
def State.runHeld (s : State) (q : Nat) (c : Cmd) : Bool :=
  let x := s.queue q
  match (s.part x.part).desc, s.planOf x.part with
  | some d, some pl =>
    (match pl.bindingOf (q - d.queues.1) with
     | none => false
     | some b =>
       let cs := s.stageClusters pl b.stage
       let prio := s.queuePrio s.inheritance q
       (cs.take (c.field 2 3 % 128 + 1)).any (fun n => decide (256 ≤ ((s.cluster n).listOf b.stage).length)) ||
         cs.any (fun n => ((s.cluster n).listOf b.stage).any (fun i => decide (prio < s.effPrio i))))
  | _, _ => false

/-- COMMAND_DISPATCH: the next parsed command of a queue whose wait is satisfied, and, with ORDERED, whose earlier commands have all
completed, is dispatched, unless it is a RUN that is held back; a revoked wait abandons it (R415, R418, R437, R438). -/
def execCommandDispatch (q : Nat) (s : State) : Answer :=
  onQueue q s (fun s =>
    match (s.queue q).nextParsed with
    | none => .next s
    | some c =>
      let x := s.queue q
      if x.state ≠ 1 then .next s
      else if x.holds c then
        .next (s.updQueue q (fun x => { x with waitEvent := true }))
      else
        match s.workWait q c with
        | .waits => .next (s.beginWait q c)
        | .abandoned =>
          .next (((s.stopWaiting (s.semBase x.part + c.waitObj) q).updQueue q (fun x => { x with waitEvent := false })).finishCmd q c.seq codeAbandoned)
        | .go s1 =>
          let held := c.op = 0x01 ∧ s1.runHeld q c
          let s2 := (s1.updQueue q (fun x => { x with waitEvent := false })).updCmd q c.seq (fun c => { c with
            granted := true, phase := if held then .parsed else .dispatched })
          .next (if held then s2 else { s2 with gfe := { s2.gfe with dispatched := s2.gfe.dispatched + 1 } }))

/-- CMD_NOP: waits and signals only (R419). -/
def execCmdNop (q seq : Nat) (s : State) : Answer :=
  onQueue q s (fun s =>
    match s.dispatched q seq 0x00 with
    | none => .next s
    | some _ => .next (s.finishCmd q seq 0))

/-- SEM_SET (R419): a semaphore outside the partition's blocks is BOUNDS. -/
def execSemSet (q seq : Nat) (s : State) : Answer :=
  onQueue q s (fun s =>
    match s.dispatched q seq 0x20 with
    | none => .next s
    | some c =>
      let p := (s.queue q).part
      if s.semCount p ≤ c.field 0 2 then .next (s.finishCmd q seq codeBounds)
      else .next (((s.updSem (s.semBase p + c.field 0 2) (fun m =>
        { m with value := c.field 2 8, holder := none, revoked := false })).grantSem (s.semBase p + c.field 0 2)).finishCmd q seq 0))

/-- SEM_SELECT: GFE_SEM_SELECT captures a semaphore's state and value in one step; one of a partition the function does not own reads 0
(R429). -/
def execSemSelect (f n : Nat) (s : State) : Answer :=
  onBar0 f s (fun s =>
    let k := n % 65536
    let owner := (List.range 8).any (fun p => s.ownsPart f p && decide (s.semBase p ≤ k) && decide (k < s.semBase p + s.semCount p))
    let m := if owner then s.sem k else semReset
    let word := (m.holder.getD 0) % 256 + 256 * m.holder.isSome.toNat + 512 * m.revoked.toNat + 65536 * (m.waiters.length % 2048)
    .next { s with gfe := { s.gfe with
      semSelect := BitVec.ofNat 16 k, semState := BitVec.ofNat 32 word, semValue := BitVec.ofNat 64 m.value } })

/-! ### RUN (R421, R422) -/

/-- The work record of share `i` (R422). -/
def shareRecord (q i shares cls epoch : Nat) (c : Cmd) : List Byte :=
  let operand (r : Ref) : List Byte := natLE 8 r.addr ++ natLE 4 r.len ++ natLE 1 r.form ++ zeroBytes 3
  let len := c.field 0 2 % 512
  natLE 2 q ++ natLE 1 i ++ natLE 1 shares ++ natLE 4 (tagOf q c.seq) ++ natLE 4 c.userTag ++ natLE 2 len ++ natLE 1 cls ++ zeroBytes 1 ++
    operand (c.ref 0) ++ operand (c.ref 1) ++ natLE 4 epoch ++ zeroBytes 12 ++ padTo 256 (c.inline.take len)

/-- RUN: the bound stage's shares go to the sequencers of the clusters that hold cores of the entry stage, in ascending order, modulo their
number (R421, R422). -/
def execRun (q seq : Nat) (s : State) : Answer :=
  onQueue q s (fun s =>
    match s.dispatched q seq 0x01 with
    | none => .next s
    | some c =>
      let x := s.queue q
      match (s.part x.part).desc, s.planOf x.part with
      | some d, some pl =>
        match pl.bindingOf (q - d.queues.1) with
        | none => .next (s.finishCmd q seq codeMismatch)
        | some b =>
          let work := c.field 2 3
          let shares := work % 128 + 1
          let cls := if bitsOf work 10 7 = 15 then b.cls else bitsOf work 10 7
          let pin := s.pinOf x.part x.context (bitsOf work 21 11)
          let cs := s.stageClusters pl b.stage
          if cs.isEmpty then .next (s.finishCmd q seq codeMismatch)
          else
            let s1 := s.updCmd q seq (fun c => { c with phase := .running, live := shares })
            .next ((List.range shares).foldl (fun s i =>
              let n := cs.getD (i % cs.length) 0
              let item : WorkItem :=
                { kind := .share (shareRecord q i shares cls ((pin.map (fun h => h.epoch)).getD 0) c), part := x.part, ctx := x.context
                  relCtx := x.context - d.contexts.1, stage := b.stage, tag := tagOf q seq, rows := [], marks := 0, priority := b.priority
                  cls := cls, entered := s.devTime, order := s.gfe.clock, started := 0, pins := []
                  heldPin := pin.map (fun h => (h.table, h.epoch)), added := false, wrote := false, preempted := false, units := 0
                  staged := 0, failedCores := [], homeCluster := n, forced := false }
              ({ s with gfe := { s.gfe with clock := s.gfe.clock + 1 } }).enlist n item) s1)
      | _, _ => .next (s.finishCmd q seq codeMismatch))

/-! ### Completion (R425 to R427) -/

/-- WORK_END_NOTICE: items ended, rows consumed and rows released change a command's count; at 0 the command is complete (R425, R426). -/
def execWorkEndNotice (tag marks code ended released : Nat) (s : State) : Answer :=
  match s.cmdOfTag tag with
  | none => .next s
  | some (q, c) =>
    if c.phase ≠ CmdPhase.running then .next s
    else
      let live := c.live + released - ended
      let s1 := s.updCmd q c.seq (fun c => { c with live := live, marks := c.marks ||| marks, code := max c.code code })
      .next (if live = 0 ∧ !c.stopped then s1.finishCmd q c.seq 0 else s1)

/-- The outbound write of a completion record (R406, R427). -/
def State.recordWrite (s : State) (q : Nat) (seq status userTag : Nat) (vector : Option Nat) : OutWrite :=
  let x := s.queue q
  { addr := x.cq + 16 * ((seq - 1) % 2 ^ x.recordsLog2), bytes := completionRecord seq status q userTag, queue := some q, vector := vector }

/-- COMPLETION_RECORD_ISSUE: the record of a queue's oldest command, once complete, is issued when its ring has room, and on a CHECK queue
when no check read of the queue, nor 64 of its port, are on their way (R381, R393, R406, R425, R427). -/
def execCompletionRecordIssue (q : Nat) (s : State) : Answer :=
  onQueue q s (fun s =>
    let x := s.queue q
    match x.cmds with
    | [] => .next s
    | c :: rest =>
      let port := (s.att x.attachment).fn / 16
      let status := statusWord c.code c.marks false
      let w := s.recordWrite q c.seq status c.userTag (if c.flags.testBit 1 then some x.vector else none)
      if x.state ≠ 1 ∨ c.phase ≠ CmdPhase.complete ∨ x.ringFull c.seq then .next s
      else if s.queueChecked q ∧ (s.checking q ∨ 64 ≤ (s.host.checks.filter (fun k => k.fn / 16 == port)).length) then .next s
      else if (s.cstop q ∨ (s.att x.attachment).withheld.any (fun k => k.queue == some q)) ∧ !(s.att x.attachment).journalFits w then .next s
      else
        let s1 := s.updQueue q (fun x => { x with cmds := rest })
        let s2 := { s1 with host := { s1.host with cmirror := Tbl.set 0 s1.host.cmirror q c.seq } }
        .next (s2.issueCompletion q w))

/-! ### Creating and destroying queues (R403 to R406, R428) -/

/-- The instance of a function's port (R403). -/
def fnInst (f : Nat) : Nat := f / 16

/-- The ring of a queue-to-be (R405): the physical addresses of its 64 KiB pieces, where the extent lies in one GRANARY or LOFT segment
that permits READ, WRITE and HOST. -/
def State.ringPieces (s : State) (inst ctx addr slots : Nat) : Option (List Nat) :=
  let bytes := 64 * slots
  let seg := addr / 2 ^ 48
  let policyOk := s.isLoadSeg ctx seg || (match s.planSegment ctx seg with
    | some g => decide (g.policy ≤ 1)
    | none => false)
  if addr % 64 ≠ 0 ∨ !policyOk ∨ !s.extentOk (gfeCopy inst) ctx addr ((addr + bytes - 1 : Nat) : Int) (permRead + permWrite + permHost) then none
  else some ((List.range (((addr % 65536) + bytes + 65535) / 65536)).filterMap (fun i =>
    s.segPhys ctx seg ((addr % 2 ^ 48) / 65536 * 65536 + 65536 * i)))

/-- Clearing the seal bytes of a new ring (R405). -/
def State.clearSeals (s : State) (q : Nat) : State :=
  let x := s.queue q
  (List.range (2 ^ x.slotsLog2)).foldl (fun s i =>
    match s.physAt (x.ringByte (64 * i + 63)) with
    | some (g, off) => (s.rawWrite g 0 0 off [0] true).1
    | none => s) s

/-- QUEUE_CREATE of function `f` (R403 to R406, R423). -/
def execQueueCreate (f : Nat) (s : State) : Answer :=
  onAdmin f 0x83 16 s (fun s c =>
    let q := c.field 0 2
    let answer (s : State) (code : Nat) : State := s.answerAdmin f (c.field 16 8) (natLE 4 code)
    match s.partOfQueue q, s.attOf f with
    | some p, some a =>
      match (s.part p).desc with
      | none => answer s outNotOwner
      | some d =>
        let home := d.queues.1
        let inst := if q = home then (s.part p).home else if c.field 2 1 = 2 then fnInst f else c.field 2 1
        let ctx := d.contexts.1 + c.field 3 1
        let slots := c.field 12 1
        let records := c.field 13 1
        let cq := fieldLE c.inline 0 8
        if !s.ownsPart f p then answer s outNotOwner
        else if (s.queue q).state ≠ 0 then answer s outBusy
        else if q ≠ home ∧ (s.queue home).state ≠ 1 then answer s outHome
        else if c.field 2 1 > 2 ∨ d.contexts.2 ≤ c.field 3 1 ∨ slots < 6 ∨ 16 < slots ∨ records < 4 ∨ 16 < records ∨ 2048 ≤ c.field 14 2 ∨
            outAtt cq ≠ a ∨ !s.adminResultOk f cq (16 * 2 ^ records) then answer s outRing
        else
          match s.ringPieces inst ctx (c.field 4 8) (2 ^ slots) with
          | none => answer s outRing
          | some ring =>
            let s1 := s.updQueue q (fun _ => { queueReset with
              state := 1, inst := inst, attachment := a, part := p, context := ctx, ring := ring, ringOffset := c.field 4 8 % 65536
              slotsLog2 := slots, recordsLog2 := records, cq := cq, vector := c.field 14 2 })
            let s2 := { s1 with host := { s1.host with cmirror := Tbl.set 0 s1.host.cmirror q 0 } }
            answer (s2.clearSeals q) outDone
    | _, _ => answer s outNotOwner)

/-- The aborts of a queue's work: to the sequencers and DMA engines of its partition's clusters, the cores that run a share of it, and the
gleaners that hold the front end's own requests for it (R428). -/
def State.queueAborts (s : State) (q : Nat) : List Out :=
  let x := s.queue q
  let cs := match (s.part x.part).desc with
    | some d => bitsSet d.clusters 24
    | none => []
  let tag := q * 2 ^ 22
  let mask := 0xFFC00000
  let runs (k : Nat) : Bool := match (s.core k).item with
    | some i => shareOfQueue q i
    | none => false
  let own := s.gleaners.filterMap (fun e =>
    if e.2.waitingReqs.any (fun r => r.requester == 24 + x.inst && r.tag / 2 ^ 22 == q) then some e.1 else none)
  cs.map (fun c => Out.abort 2 c x.context none tag mask q) ++
    (cs.flatMap (fun c => ((List.range 8).map (fun j => 8 * c + j)).filter runs)).map (fun k => Out.abort 1 k x.context none tag mask q) ++
    cs.map (fun c => Out.abort 3 c x.context none tag mask q) ++
    own.map (fun g => Out.abort (gleanerUnit g).1 (gleanerUnit g).2 x.context (some (24 + x.inst)) tag mask q)

/-- QUEUE_DESTROY of function `f`: the stop point (R404, R428). -/
def execQueueDestroy (f : Nat) (s : State) : Answer :=
  onAdmin f 0x84 2 s (fun s c =>
    let q := c.field 0 2
    let answer (code : Nat) : State := s.answerAdmin f (c.field 2 8) (natLE 4 code)
    match s.partOfQueue q with
    | none => answer outNotOwner
    | some p =>
      let home := match (s.part p).desc with
        | some d => d.queues.1
        | none => 0
      let others := s.gfe.queues.any (fun e => e.1 != q && e.2.part == p && e.2.state != 0)
      if !s.ownsPart f p ∨ (s.queue q).state = 0 then answer outNotOwner
      else if (s.queue q).state = 2 then answer outBusy
      else if q = home ∧ others then answer outHome
      else
        let s1 := s.updQueue q (fun x => { x with
          state := 2, destroyer := some f, waitSeal := none, waitEvent := false
          cmds := x.cmds.map (fun c => { c with
            stopped := true, code := if c.stopped then c.code else codeAborted
            phase := if c.phase = CmdPhase.parsed then .complete else c.phase }) })
        let sems := Tbl.mapWhere semReset s1.gfe.sems (fun _ (m : Semaphore) => m.waiters.contains q)
          (fun m => { m with waiters := m.waiters.filter (fun w => w != q) })
        let s2 := { s1 with gfe := { s1.gfe with sems := sems } }
        let s3 := s2.dropPins p (fun h => h.queue == q)
        (s3.sendAll (s3.queueAborts q)).beginAdmin f)

/-- Whether an engine still holds work of a queue: a share listed, running or saved, a row in an open sheaf or in a closed one, a transfer, or
a request that the front end sent for it (R428). -/
def State.queueBusy (s : State) (q : Nat) : Bool :=
  let mine (i : WorkItem) : Bool := shareOfQueue q i || i.rows.any (fun r => tagQueue r.tag == q)
  s.gleaners.any (fun e => e.2.waitingReqs.any (fun r => decide (24 ≤ r.requester) && tagQueue r.tag == q)) ||
  s.clusters.any (fun e => e.2.dma.transfers.any (fun x => (x.itemTag.map (fun t => tagQueue t == q)).getD false) ||
    e.2.openSheaves.any (fun o => o.rows.any (fun r => tagQueue r.tag == q)) || (e.2.ready.flatMap Prod.snd ++ e.2.unlisted).any mine) ||
  s.cores.any (fun e => (e.2.item.map mine).getD false || (e.2.saved.map (fun v => mine v.item)).getD false ||
    (e.2.incoming.map (fun v => mine v.1)).getD false)

/-- QUEUE_DESTROY_FINAL: every engine has acknowledged and no closed sheaf holds a row of the queue: the stopped commands complete ABORTED
in sequence order, the FINAL record follows, and the queue number is free (R428). -/
def execQueueDestroyFinal (q : Nat) (s : State) : Answer :=
  onQueue q s (fun s =>
    let x := s.queue q
    if x.state ≠ 2 ∨ s.queueBusy q then .next s
    else
      let s1 := x.cmds.foldl (fun s c =>
        s.issueCompletion q (s.recordWrite q c.seq (statusWord c.code c.marks false) c.userTag (if c.flags.testBit 1 then some x.vector else none))) s
      let s2 := s1.issueCompletion q (s1.recordWrite q x.nextSeq (statusWord codeAborted 0 true) (2 ^ 32 - 1) none)
      let s3 := { s2 with host := { s2.host with cmirror := Tbl.set 0 s2.host.cmirror q x.nextSeq } }
      let s4 := { s3 with gfe := { s3.gfe with queues := Tbl.set queueReset s3.gfe.queues q queueReset } }
      match x.destroyer with
      | none => .next s4
      | some f =>
        match s4.admin f with
        | some c => .next (s4.answerAdmin f (c.field 2 8) (natLE 4 outDone))
        | none => .next s4)

end Sys2Proof.Machine
end

