-- ==== Sys2Proof/Machine/LinkRecv.lean ====
section
/-!
DEFINITION. Igrum packets at the receiving engine (spec 17): acceptance, delivery, the checks of R378, remote operations and their
responses, acknowledgements, probes.
-/

namespace Sys2Proof.Machine

/-! ### Acceptance (R457, R468, R470) -/

/-- What becomes of a received frame: discarded, with the state that counts it, or accepted for path `i` of peer `k`. -/
inductive Accepted where
  | dropped (s : State)
  | packet (s : State) (k i : Nat) (ce : Bool) (pkt : List Byte)

/-- A frame discarded under R470. -/
def State.dropFrame (s : State) (reason : Nat) : State :=
  s.updIgt (fun r => { r with drops := r.drops + 1, dropReason := BitVec.ofNat 3 reason, status := r.status ||| 8 })

/-- Version, type and reserved fields are correct (R469, R470). -/
def packetFormatOk (pkt : List Byte) : Bool :=
  let type := fieldLE pkt 0 1
  let len := fieldLE pkt 0x18 2
  let body := pkt.drop 32
  decide (32 ≤ pkt.length) && type % 16 == 1 && decide (type / 16 ≤ 4) && decide (fieldLE pkt 1 1 < 8) && decide (fieldLE pkt 0x16 2 < 16) &&
    decide (fieldLE pkt 0x10 4 < 2 ^ 24) && fieldLE pkt 0x1A 6 == 0 && decide (len ≤ body.length) &&
    (len == 0 || (decide (32 ≤ len) && decide (len ≤ 4128))) &&
    (type / 16 != 0 || (decide (32 ≤ len) && (decide (fieldLE body 0 1 ≤ 6) || fieldLE body 0 1 == 0x80) && decide (fieldLE body 1 1 < 4) &&
      fieldLE body 0x1F 1 == 0))

/-- The address a path's frames come from (R468). -/
def pathSource (e : List Byte) : List Byte :=
  match pathEncap e with
  | 0 => (e.drop 4).take 6
  | 1 => (e.drop 0x10).take 4
  | _ => (e.drop 0x10).take 16

/-- The MAC accepts frames of 64 to 9,216 B, their FCS of 4 B among them (R457). -/
def frameLengthOk (frame : List Byte) : Bool := decide (64 ≤ frame.length + 4) && decide (frame.length + 4 ≤ 9216)

/-- Acceptance of a frame that a port, or its half b, receives (R457, R470). -/
def State.acceptFrame (s : State) (p : Nat) (half : Bool) (frame : List Byte) : Accepted :=
  if !(s.eth p).up half then .dropped s
  else
    if !frameLengthOk frame then .dropped s
    else match s.matchFrame frame with
    | none => .dropped (s.updEth p (fun e => { e with rxDropped := e.rxDropped + 1 }))
    | some (encap, src, ce, pkt) =>
      let k := fieldLE pkt 2 1
      let pe := s.peerEntry k
      if s.links.regs.node = 0 ∨ (32 ≤ pkt.length ∧ fieldLE pkt 8 4 ≠ s.links.regs.node.toNat) then .dropped (s.dropFrame 0)
      else if pkt.length < 32 then .dropped (s.dropFrame 4)
      else if 128 ≤ k ∨ !entryValid pe ∨ fieldLE pe 4 4 ≠ fieldLE pkt 4 4 then .dropped (s.dropFrame 1)
      else
        let onPort := (peerPaths pe).filter (fun x => s.pathOn p half x.2)
        match onPort.find? (fun x => pathEncap (s.pathEntry x.2) == encap && pathSource (s.pathEntry x.2) == src) with
        | none => .dropped (s.dropFrame (if onPort.isEmpty then 3 else 2))
        | some (i, _) =>
          let type := fieldLE pkt 0 1 / 16
          if !packetFormatOk pkt ∨ !(peerVcs pe).contains (fieldLE pkt 1 1) then .dropped (s.dropFrame 4)
          else if type ≠ 3 ∧ type ≠ 4 ∧ (fieldLE pkt 0x0F 1 ≠ (s.peer k).epoch ∨ (s.peer k).down) then .dropped (s.dropFrame 5)
          else .packet (s.updEth p (fun e => { e with rxFrames := e.rxFrames + 1 })) k i ce ((pkt.take 32) ++ (pkt.drop 32).take (fieldLE pkt 0x18 2))

/-- ACK_PSN and CREDIT of a packet that carries them, applied to the reverse stream (R465, R469). -/
def State.takeAck (s : State) (k : Nat) (pkt : List Byte) : State :=
  let flags := fieldLE pkt 0x16 2
  if flags.testBit 0 then s.applyAck k (fieldLE pkt 1 1) (fieldLE pkt 0x10 3) (fieldLE pkt 0x14 2) (flags.testBit 2)
  else if flags.testBit 2 then s.updStream k (fieldLE pkt 1 1) (fun x => { x with rate := max (x.rate / 2) (2 ^ 26) })
  else s

/-- A command that brings a frame of packet type `type`, and for DATA of operation `op`: a frame that is no such packet, though it could
be another, is another command's. -/
def onFrame (p : Nat) (half : Bool) (frame : List Byte) (type op : Nat) (s : State) (f : State → Nat → Nat → Bool → List Byte → State) : Answer :=
  onEth p s (fun s =>
    let other := match s.matchFrame frame with
      | some (_, _, _, pkt) => packetFormatOk pkt && (fieldLE pkt 0 1 / 16 != type || (type == 0 && fieldLE pkt 32 1 != op))
      | none => true
    if other then .next s
    else match s.acceptFrame p half frame with
      | .dropped s1 => .next s1
      | .packet s1 k i ce pkt => .next (f (s1.takeAck k pkt) k i ce pkt))

/-! ### Delivery (R465, R471, R472) -/

/-- The number of a port half in a stream's reservations. -/
def halfUnit (p : Nat) (half : Bool) : Nat := 2 * p + half.toNat

/-- A DATA packet in its stream: the packet of the expected PSN with room is taken by `f`; a lower one is acknowledged, a higher one
draws a NAK, at most one in 1 µs; one without room is discarded (R465, R471, R472). -/
def State.deliver (s : State) (k i : Nat) (ce : Bool) (pkt : List Byte) (f : State → State) : State :=
  let vc := fieldLE pkt 1 1
  let psn := fieldLE pkt 0x0C 3
  let flags := fieldLE pkt 0x16 2
  let st := s.stream k vc
  let cells := packetCells (pkt.length - 64)
  let path := s.pathEntry ((peerPath (s.peerEntry k) i).getD 0)
  if psn = st.expected then
    if !flags.testBit 3 ∧ fieldLE (s.peerEntry k) 0x0A 2 < s.heldCells k vc + cells then
      s.updIgt (fun r => { r with status := r.status ||| 4 })
    else
      let s1 := s.updStream k vc (fun x => { x with
        expected := psnNext psn, ackDue := true, ackPath := i, echo := x.echo || ce
        reserved := Tbl.set false x.reserved (halfUnit (pathPort path) (pathHalf path)) true })
      let s2 := f s1
      if flags.testBit 1 then s2.sendAck k vc i 1 else s2
  else if psnBelow psn st.expected then
    let s1 := s.updStream k vc (fun x => { x with ackDue := true, ackPath := i, echo := x.echo || ce })
    if flags.testBit 1 then s1.sendAck k vc i 1 else s1
  else if (st.lastNak.map (fun t => decide (s.devTime < t + 1000))).getD false then s
  else (s.updStream k vc (fun x => { x with lastNak := some s.devTime, echo := x.echo || ce })).sendAck k vc i 2

/-! ### The checks of R378 -/

/-- The partition whose window range holds a device-wide window. -/
def State.partOfWindow (s : State) (w : Nat) : Option Nat :=
  (List.range 8).find? (fun p => match (s.part p).desc with
    | some d => d.windows.1 ≤ w && decide (w < d.windows.1 + d.windows.2)
    | none => false)
/-- Whether a partition holds a port, or its half b (R37, R40). -/
def State.holdsPort (s : State) (q p : Nat) (half : Bool) : Bool :=
  match (s.part q).desc with
  | some d => d.ports.testBit (2 * p + half.toNat)
  | none => false

/-- Steps 1 to 5 of R378 for an operation: the step that fails, or the mapping. `perm` is the PERM bit that admits it (R481); steps 4
and 6 are for WRITE and READ, and a row operation needs a mapping of its window with the bit (R479). The mappings of a window that admit the
sender and its KEY decide, since WINDOW_WRITE may change either in one of them (R379; DEDUCED, log 42). -/
def State.remoteMapping (s : State) (p : Nat) (half : Bool) (node : Nat) (oh : List Byte) (perm len : Nat) (ranged : Bool) : Nat ⊕ MappingCur :=
  let w := fieldLE oh 2 2
  match s.partOfWindow w with
  | none => .inl 1
  | some q =>
    let open_ := (Tbl.get [] s.xlt.windows w).filter (fun m => !m.cleared)
    let ms := open_.filter (fun m => (m.peer == 0xFFFFFFFF || m.peer == node) && m.key == fieldLE oh 4 2)
    if !s.holdsPort q p half then .inl 1
    else if open_.isEmpty then .inl 2
    else if ms.isEmpty then .inl 3
    else if ranged then
          let off := fieldLE oh 0x10 8
          match ms.find? (fun m => decide (m.winOffset ≤ off) && decide (off + len ≤ m.winOffset + m.length)) with
          | none => .inl 4
          | some m => if m.perm.testBit perm then .inr m else .inl 5
    else match ms.find? (fun m => m.perm.testBit perm) with
      | some m => .inr m
      | none => .inl 5

/-- An operation refused is counted with its window and step (R378, R380). -/
def State.countRefused (s : State) (w step : Nat) : State :=
  { s with xlt := { s.xlt with
    status := s.xlt.status ||| 4
    winRefused := BitVec.ofNat 27 ((s.xlt.winRefused.toNat + 1) % 2 ^ 16 + w % 256 * 2 ^ 16 + step * 2 ^ 24) } }

/-! ### Responses (R480) -/

/-- Appending a DATA packet to a stream and sending it: it takes the next PSN and stays until acknowledged (R471, R473). -/
def State.pushData (s : State) (k vc : Nat) (response more : Bool) (body : List Byte) : State :=
  let st := s.stream k vc
  let p : TxPacket := { psn := st.nextPsn, response := response, body := body }
  let s1 := s.updStream k vc (fun x => { x with nextPsn := psnNext x.nextPsn, unacked := x.unacked ++ [p] })
  s1.sendData k vc p more

/-- The operation header of packet `j` of a response. -/
def respHeader (r : RecvOp) (data : List Byte) (j : Nat) : List Byte :=
  let count := max 1 (ceilDiv data.length 4096)
  natLE 1 0x80 ++ natLE 1 ((if j = 0 then 1 else 0) + if j + 1 = count then 2 else 0) ++ zeroBytes 6 ++ natLE 4 (fieldLE r.header 8 4) ++
    natLE 4 data.length ++ zeroBytes 8 ++ natLE 1 j ++ zeroBytes 3 ++ natLE 1 r.status ++ natLE 1 r.detail ++ natLE 1 r.marks ++ zeroBytes 1

/-- An operation's one response; it is discarded where the peer went DOWN meanwhile. Its cells are freed (R467, R480, R483). -/
def State.respond (s : State) (r : RecvOp) (data : List Byte) : State :=
  let s1 := { s with links := { s.links with recv := s.links.recv.filter (fun x => x.serial != r.serial) } }
  if r.drop then s1
  else (List.range (max 1 (ceilDiv data.length 4096))).foldl (fun s j =>
    s.pushData r.peer r.vc true true (respHeader r data j ++ (data.drop (4096 * j)).take 4096)) (s1.chargeLink r.ctx data.length)

/-- An operation refused at a step of R378: it is counted, and answered REFUSED. -/
def RecvOp.refuse (r : RecvOp) (step : Nat) : RecvOp := { r with status := 1, detail := step }

/-! ### Operations (R479) -/

/-- The operation of a stream whose packets are arriving. -/
def State.assembling (s : State) (k vc : Nat) : Option RecvOp := s.links.recv.find? (fun r => r.peer == k && r.vc == vc && !r.waiting)
/-- The state with an operation replaced, or added. -/
def State.putRecv (s : State) (r : RecvOp) : State :=
  if s.links.recv.any (fun x => x.serial == r.serial) then
    { s with links := { s.links with recv := s.links.recv.map (fun x => if x.serial = r.serial then r else x) } }
  else { s with links := { s.links with recv := s.links.recv ++ [r] } }
/-- The operation that a packet belongs to: a new one at FIRST, which an unfinished one before it gives way to. -/
def State.startRecv (s : State) (k vc : Nat) (oh : List Byte) : Option (State × RecvOp) :=
  if (fieldLE oh 1 1).testBit 0 then
    let gone := s.assembling k vc
    let s1 := { s with links := { s.links with
      recv := s.links.recv.filter (fun x => gone.all (fun g => g.serial != x.serial)), serial := s.links.serial + 1 } }
    some (s1, { serial := s.links.serial, peer := k, vc := vc, header := oh, ctx := 0, base := none, data := [], cells := 0, status := 0, detail := 0
                marks := 0, waiting := false, drop := false })
  else (s.assembling k vc).map (fun r => (s, r))

/-- The context address of window offset `off` under a mapping. -/
def MappingCur.addr (m : MappingCur) (off : Nat) : Nat := m.target + (off - m.winOffset)

/-- A WRITE at its first packet: the checks of R378 over its whole extent, and where it writes. Units that are not whole are INVALID, as a
raw request of them is (R256, R479). -/
def State.admitWrite (s : State) (p : Nat) (half : Bool) (k node : Nat) (oh : List Byte) (r : RecvOp) : State × RecvOp :=
  let len := fieldLE oh 0x0C 4
  match s.remoteMapping p half node oh 1 len true with
  | .inl n => (s.countRefused (fieldLE oh 2 2) n, r.refuse n)
  | .inr m =>
    let a := m.addr (fieldLE oh 0x10 8)
    if !s.extentOk (26 + entryHome (s.peerEntry k)) m.context a (a + len - 1 : Nat) (permWrite ||| permRemote) then
      (s.countRefused (fieldLE oh 2 2) 6, r.refuse 6)
    else if a % 64 ≠ 0 ∨ len % 64 ≠ 0 then (s, { r with status := 2, detail := 2 })
    else (s, { r with ctx := m.context, base := some a })

/-- The bytes of one packet of an admitted WRITE, written as raw units; bytes beyond the WRITE's LENGTH, or no whole units, are INVALID
(R378, R479; DEDUCED, log 42). -/
def State.writePacket (s : State) (oh data : List Byte) (r : RecvOp) : State × RecvOp :=
  match r.base with
  | none => (s, r)
  | some a =>
    let off := 4096 * fieldLE oh 0x18 1
    if fieldLE r.header 0x0C 4 < off + data.length ∨ data.length % 64 ≠ 0 then (s, { r with base := none, status := 2, detail := 2 })
    else
      match s.ctxWrite r.ctx 0 (a + off) data with
      | (t, 1) => (t.countRefused (fieldLE oh 2 2) 7, { r.refuse 7 with base := none })
      | (t, _) => (t.chargeLink r.ctx data.length, r)

/-- A packet of a WRITE: its first is checked for the whole, and each writes its bytes; the response follows LAST (R378, R479). -/
def State.remoteWrite (s : State) (p : Nat) (half : Bool) (k vc node : Nat) (body : List Byte) : State :=
  let oh := body.take 32
  match s.startRecv k vc oh with
  | none => s
  | some (s0, r0) =>
    let (s1, r1) := if (fieldLE oh 1 1).testBit 0 then s0.admitWrite p half k node oh r0 else (s0, r0)
    let (s2, r2) := s1.writePacket oh (body.drop 32) r1
    if (fieldLE oh 1 1).testBit 1 then (s2.putRecv r2).respond r2 [] else s2.putRecv r2

/-- A READ: RESULT_LEN bytes are read and returned (R378, R479). -/
def State.remoteRead (s : State) (p : Nat) (half : Bool) (k vc node : Nat) (body : List Byte) : State :=
  let oh := body.take 32
  let n := fieldLE oh 0x19 3
  match s.startRecv k vc oh with
  | none => s
  | some (s0, r) =>
    let refuse (t : State) (step : Nat) : State := (t.countRefused (fieldLE oh 2 2) step).respond (r.refuse step) []
    match s0.remoteMapping p half node oh 0 n true with
    | .inl step => refuse s0 step
    | .inr m =>
      let a := m.addr (fieldLE oh 0x10 8)
      if !s0.extentOk (26 + entryHome (s.peerEntry k)) m.context a (a + n - 1 : Nat) (permRead ||| permRemote) then refuse s0 6
      else if a % 64 ≠ 0 ∨ n % 64 ≠ 0 then s0.respond { r with status := 2, detail := 2 } []
      else
        match s0.ctxFetch m.context 0 a n with
        | (t, 0, bs) => t.respond { r with ctx := m.context } bs
        | (t, 1, _) => refuse t 7
        | (t, _, _) => t.respond { r with status := 3 } []

/-- The PERM bit that admits a row operation or INVOKE (R481). -/
def permOfOp (op : Nat) : Nat :=
  match op with
  | 2 => 0
  | 3 => 1
  | 4 | 5 => 3
  | _ => 2

/-- A packet of a row operation or INVOKE: from the assembled cells of its LAST packet, the request of the same name goes where the
engine's bay map copy routes the row (R479). The copy answers a read of a row past a direct table, or of a lost bay, with the default row (R223, R311). -/
def State.remoteRowOp (s : State) (p : Nat) (half : Bool) (k vc node : Nat) (body : List Byte) : State :=
  let oh := body.take 32
  let data := body.drop 32
  let op := fieldLE oh 0 1
  match s.startRecv k vc oh with
  | none => s
  | some (s0, r0) =>
    let r1 := { r0 with data := r0.data ++ data, cells := r0.cells + packetCells data.length }
    if !(fieldLE oh 1 1).testBit 1 then s0.putRecv r1
    else
      let h := r1.header
      match s0.remoteMapping p half node h (permOfOp op) 0 false with
      | .inl step => (s0.countRefused (fieldLE h 2 2) step).respond (r1.refuse step) []
      | .inr m =>
        let engine := entryHome (s.peerEntry k)
        let q := (s0.partOfCtx m.context).getD 8
        let table := fieldLE h 6 2
        let row := fieldLE h 0x10 8
        let lookup := op == 2 || op == 6
        match (s0.planOf q).bind (fun pl => (pl.tableOf table).map (fun t => (pl, t))) with
        | none => s0.respond { r1 with status := 2, detail := 2 } []
        | some (pl, t) =>
          match s0.routeRow (26 + engine) q table row lookup false with
          | none =>
            let lost := s0.homeLost q table row && decide (t.kind < 2)
            if op = 2 ∧ (lost ∨ (t.kind = 0 ∧ t.rows ≤ row)) then
              s0.respond { r1 with ctx := m.context, marks := r1.marks ||| 1 } ((pl.defaultOf table).take (fieldLE h 0x19 3))
            else s0.respond (if lost then { r1 with status := 3 } else { r1 with status := 2, detail := 2 }) []
          | some g =>
            let kind := if op = 2 then 2 else if op = 3 then 3 else if op = 4 then 4 else if op = 5 then 5 else 6
            let req : GReq :=
              { kind := kind, ctx := m.context, cls := fieldLE h 0x1D 1, pinned := false, system := false, forwarded := false, marker := false
                table := table, slot := fieldLE h 0x1C 1, part := 0, tag := r1.serial % 2 ^ 32, epoch := 0, target := row
                requester := 26 + engine, stride := 2050, returnAddr := 0, payload := r1.data }
            ((s0.chargeLink m.context r1.data.length).putRecv { r1 with ctx := m.context, waiting := true, data := [] }).send (.request g req)

/-- A record of a gleaner request that an engine sent: its payload joins the response, packed at 8 bytes (R258, R479). -/
def State.recordAtIgrum (s : State) (m : RecordMsg) : State :=
  { s with links := { s.links with recv := s.links.recv.map (fun r =>
    if r.waiting ∧ r.serial % 2 ^ 32 = m.tag then { r with data := r.data ++ padTo (ceilDiv m.payload.length 8 * 8) m.payload, marks := r.marks ||| m.marks }
    else r) } }

/-- The END of a gleaner request that an engine sent: the operation is answered, with at most RESULT_LEN bytes (R258, R480). -/
def State.endAtIgrum (s : State) (m : EndMsg) : State :=
  match s.links.recv.find? (fun r => r.waiting && r.serial % 2 ^ 32 == m.tag) with
  | none => s
  | some r =>
    let r1 := { r with marks := (r.marks ||| m.marks) &&& 3 }
    let data := r.data.take (fieldLE r.header 0x19 3)
    match m.status with
    | 0 => s.respond r1 data
    | 1 => (s.countRefused (fieldLE r.header 2 2) 7).respond (r1.refuse 7) []
    | 4 => s.respond { r1 with status := 4 } []
    | 5 => s.respond { r1 with status := 3 } []
    | st => s.respond { r1 with status := 2, detail := st } []

/-- A DATA packet of a request, delivered to `f` with its port, half, VC, sender and body. -/
def onRequest (p : Nat) (half : Bool) (frame : List Byte) (op : Nat) (s : State)
    (f : State → Nat → Bool → Nat → Nat → Nat → List Byte → State) : Answer :=
  onFrame p half frame 0 op s (fun s k i ce pkt =>
    s.deliver k i ce pkt (fun s => f s p half k (fieldLE pkt 1 1) (fieldLE pkt 4 4) (pkt.drop 32)))

/-- REMOTE_WRITE (R479). -/
def execRemoteWrite (p : Nat) (half : Bool) (frame : List Byte) (s : State) : Answer := onRequest p half frame 0 s State.remoteWrite
/-- REMOTE_READ (R479). -/
def execRemoteRead (p : Nat) (half : Bool) (frame : List Byte) (s : State) : Answer := onRequest p half frame 1 s State.remoteRead
/-- REMOTE_ROW_READ (R479). -/
def execRemoteRowRead (p : Nat) (half : Bool) (frame : List Byte) (s : State) : Answer := onRequest p half frame 2 s State.remoteRowOp
/-- REMOTE_ROW_WRITE (R479). -/
def execRemoteRowWrite (p : Nat) (half : Bool) (frame : List Byte) (s : State) : Answer := onRequest p half frame 3 s State.remoteRowOp
/-- REMOTE_ROW_ADD (R479). -/
def execRemoteRowAdd (p : Nat) (half : Bool) (frame : List Byte) (s : State) : Answer := onRequest p half frame 4 s State.remoteRowOp
/-- REMOTE_ROW_CAS (R479). -/
def execRemoteRowCas (p : Nat) (half : Bool) (frame : List Byte) (s : State) : Answer := onRequest p half frame 5 s State.remoteRowOp
/-- REMOTE_INVOKE (R479). -/
def execRemoteInvoke (p : Nat) (half : Bool) (frame : List Byte) (s : State) : Answer := onRequest p half frame 6 s State.remoteRowOp

/-! ### Responses at the requester (R466, R480) -/

/-- A packet of a response: its bytes, up to RESULT_LEN, go to RESULT as translated at its slot (R477), and with LAST the operation's completion entry follows; that of a context torn down
meanwhile ends ABORTED (R480, R485). -/
def State.takeResponse (s : State) (k vc : Nat) (body : List Byte) : State :=
  let oh := body.take 32
  match (s.stream k vc).ops.find? (fun o => o.tag == fieldLE oh 8 4) with
  | none => s
  | some o =>
    let off := 4096 * fieldLE oh 0x18 1
    let data := (body.drop 32).take (fieldLE o.slot 0x24 4 - off)
    let a := fieldLE o.slot 0x28 8 + off
    let torn := o.aborted || s.torn o.ctx
    let (s1, st) :=
      if data.isEmpty ∨ torn then (s, o.status)
      else
        let w := s.ctxWrite o.ctx 0 a data
        (w.1, if w.2 = 1 then max o.status 6 else o.status)
    let s1 := s1.chargeLink o.ctx data.length
    let o1 := { o with got := if torn then o.got else o.got + data.length, status := st }
    if (fieldLE oh 1 1).testBit 1 then
      let s2 := s1.updStream k vc (fun x => { x with ops := x.ops.filter (fun p => p.serial != o.serial) })
      if torn then s2.ringComplete o.ring o.index o.slot 4 0 0 o1.got
      else s2.ringComplete o.ring o.index o.slot (if st = 0 then fieldLE oh 0x1C 1 else st) (fieldLE oh 0x1E 1) (fieldLE oh 0x1D 1) o1.got
    else s1.updStream k vc (fun x => { x with ops := x.ops.map (fun p => if p.serial = o.serial then o1 else p) })

/-- REMOTE_RESP (R480). -/
def execRemoteResp (p : Nat) (half : Bool) (frame : List Byte) (s : State) : Answer :=
  onRequest p half frame 0x80 s (fun s _ _ k vc _ body => s.takeResponse k vc body)

/-! ### Acknowledgements and probes -/

/-- IGRUM_ACK: the acknowledgement frees packets and brings a grant (R465); `takeAck` has applied it. -/
def execIgrumAck (p : Nat) (half : Bool) (frame : List Byte) (s : State) : Answer := onFrame p half frame 1 0 s (fun s _ _ _ _ => s)

/-- IGRUM_NAK: after its acknowledgement, every unacknowledged packet is sent again at once, without a retry (R473, R485). -/
def execIgrumNak (p : Nat) (half : Bool) (frame : List Byte) (s : State) : Answer :=
  onFrame p half frame 2 0 s (fun s k _ _ pkt => s.resend k (fieldLE pkt 1 1))

/-- The replies to a PROBE that came in on path `i`: one for each VC, in an epoch (R482; DEDUCED, log 40). -/
def State.sendReplies (s : State) (k i epoch : Nat) : State :=
  (peerVcs (s.peerEntry k)).foldl (fun s v =>
    s.sendPacket k v i 4 0 epoch (s.stream k v).expected (s.creditOf k v) 1 []) s

/-- IGRUM_PROBE: the receiver reserves RX_CELLS on the port and replies. A DOWN peer notes the proposal and replies with its own; a
proposal later than the epoch in force restarts the connection (R482, R484). -/
def execIgrumProbe (p : Nat) (half : Bool) (frame : List Byte) (s : State) : Answer :=
  onFrame p half frame 3 0 s (fun s k i _ pkt =>
    let e := fieldLE pkt 0x0F 1
    let s1 := (peerVcs (s.peerEntry k)).foldl (fun s v => s.updStream k v (fun x => { x with
      reserved := Tbl.set false x.reserved (halfUnit p half) true })) s
    let st := s1.peer k
    if st.down then (s1.updPeer k (fun q => { q with proposal := some e })).sendReplies k i ((st.epoch + 1) % 256)
    else if e ≠ st.epoch ∧ (e + 256 - st.epoch) % 256 < 128 then
      let own := (st.epoch + 1) % 256
      let s2 := (s1.peerDown k).restartPeer k (laterEpoch own e s.links.regs.node.toNat (fieldLE (s.peerEntry k) 4 4))
      s2.sendReplies k i (s2.peer k).epoch
    else s1.sendReplies k i st.epoch)

/-- IGRUM_PROBE_REPLY: on the path that a failover probes, the peer moves there, acknowledged cells are freed and the rest is sent again; on
a failed path, the third reply in a row brings it UP, and a DOWN peer's connection back with it (R482, R484). -/
def execIgrumProbeReply (p : Nat) (half : Bool) (frame : List Byte) (s : State) : Answer :=
  onEth p s (fun s =>
    let before := s
    onFrame p half frame 4 0 s (fun s1 k i _ pkt =>
      let vc := fieldLE pkt 1 1
      let st := before.peer k
      let epoch := fieldLE pkt 0x0F 1
      if st.probing = some i then (s1.updPeer k (fun q => { q with probing := none, active := i })).resend k vc
      else if st.pathsUp.testBit i then (if st.active = i ∧ epoch = st.epoch then s1.resend k vc else s1)
      else
        let t := s1.updStream k vc (fun _ => before.stream k vc)
        if (peerVcs (s.peerEntry k)).head? ≠ some vc ∨ !st.probed.testBit i then t
        else
          let n := Tbl.get 0 st.replies i + 1
          let t1 := t.updPeer k (fun q => { q with replies := Tbl.set 0 q.replies i n, probed := q.probed &&& (15 ^^^ 2 ^ i) })
          if n < 3 then t1
          else
            let t2 := t1.updPeer k (fun q => { q with pathsUp := q.pathsUp ||| 2 ^ i, replies := Tbl.set 0 q.replies i 0 })
            if st.down then
              let own := (st.epoch + 1) % 256
              let t3 := (t2.restartPeer k (laterEpoch own (st.proposal.getD epoch) s.links.regs.node.toNat (fieldLE (s.peerEntry k) 4 4))).updPeer k
                (fun q => { q with active := i })
              t3.takeAck k pkt
            else t2.settlePath k))

end Sys2Proof.Machine
end

