-- ==== Sys2Proof/Machine/XltCmds.lean ====
section
/-!
DEFINITION. Segment and window changes at run time: their checks, the two forms of invalidation, the acknowledgements, and the capture
of a segment entry (R369 to R380).
-/

namespace Sys2Proof.Machine

/-- The state with the changes in progress replaced. -/
def State.setChanges (s : State) (cs : List SegChange) : State := { s with xlt := { s.xlt with changes := cs } }
/-- The change of a context, if one is in progress. -/
def State.change (s : State) (c : Nat) : Option SegChange := s.xlt.changes.find? (fun x => x.ctx == c)
/-- The state with a context's change replaced. -/
def State.putChange (s : State) (ch : SegChange) : State := s.setChanges (s.xlt.changes.map (fun x => if x.ctx = ch.ctx then ch else x))
/-- The entry of a segment as it stands. -/
def State.segCur (s : State) (c seg : Nat) : SegCur := (s.ctx c).segs.getD seg segCurReset
/-- Sixteen entries with one replaced. -/
def putSeg (xs : List SegCur) (seg : Nat) (e : SegCur) : List SegCur :=
  (List.range 16).map (fun i => if i = seg then e else xs.getD i segCurReset)
/-- The state with a segment's entry replaced. -/
def State.setSegCur (s : State) (c seg : Nat) (e : SegCur) : State := s.setCtx c { s.ctx c with segs := putSeg (s.ctx c).segs seg e }

/-- The 16-byte result record of a change (R369). -/
def changeRecord (outcome form version elapsed : Nat) : List Byte := natLE 1 outcome ++ natLE 1 form ++ zeroBytes 2 ++ natLE 4 version ++ natLE 8 elapsed

/-- The administrative command of a function completes with a change's outcome (R369). -/
def State.answerChange (s : State) (f outcome form version : Nat) : State :=
  match s.admin f with
  | none => s
  | some c =>
    let at_ := if c.op = 0x87 then 19 else 11
    s.answerAdmin f (c.field at_ 8) (changeRecord outcome form version (s.devTime - c.fetched))

/-! ### The parts of a change (R371) -/

/-- What a change grants: VALID, READ, WRITE, HOST or REMOTE set, or LIMIT raised. -/
def grants (cur new : SegCur) : Bool := ((new.perm &&& 0x2F) ||| (cur.perm &&& 0x2F)) != (cur.perm &&& 0x2F) || decide (cur.limit < new.limit)
/-- The entry with the revoking part alone. -/
def revoked (cur new : SegCur) : SegCur := { limit := min cur.limit new.limit, perm := (cur.perm &&& new.perm &&& 0x2F) ||| (new.perm &&& 0x10) }

/-- Whether a stream in memory touches bytes [low, high) of a segment. -/
def StreamDesc.touches (d : StreamDesc) (row : Bool) (seg low high : Nat) : Bool :=
  let size := 2 ^ d.esize
  !row && d.space == 1 && d.addr / 2 ^ 48 == seg &&
    decide (((d.addr % 2 ^ 48 : Nat) : Int) + d.lowOff * size < high) &&
    decide ((low : Int) < ((d.addr % 2 ^ 48 : Nat) : Int) + d.highOff * size + size)

/-- Whether a transfer reaches the changed range: the whole segment where a permission changes, else the bytes between the limits. -/
def SegChange.reachedBy (ch : SegChange) (cur : SegCur) (x : Xfer) : Bool :=
  let low := if cur.perm = ch.between.perm then ch.between.limit else 0
  let promoted := x.desc.op == .promote || x.desc.op == .demote
  if promoted then x.desc.src.addr / 2 ^ 48 == ch.seg
  else x.desc.src.touches x.desc.srcRow ch.seg low (2 ^ 48) || x.desc.dst.touches x.desc.dstRow ch.seg low (2 ^ 48)

/-- Whether a transfer's serial number is at or before another, modulo 2^20 (R348). -/
def serialUpTo (x mark : Nat) : Bool := decide ((mark + 2 ^ 20 - x % 2 ^ 20) % 2 ^ 20 < 2 ^ 19)

/-- The transfers whose completion copy `n` awaits before it acknowledges a revoking part (R373, R374). -/
def State.oldTransfers (s : State) (ch : SegChange) (n : Nat) : List Xfer :=
  if n < 24 then
    (s.dma n).transfers.filter (fun x => x.ctx == ch.ctx && serialUpTo x.serial (Tbl.get 0 ch.marks n) &&
      (ch.drain || ch.reachedBy (s.segCur ch.ctx ch.seg) x))
  else []

/-- Whether an extent of an Igrum operation reaches the changed range (R373). -/
def SegChange.touches (ch : SegChange) (cur : SegCur) (a n : Nat) : Bool :=
  let low := if cur.perm = ch.between.perm then ch.between.limit else 0
  n != 0 && a / 2 ^ 48 == ch.seg && decide (low < a % 2 ^ 48 + n)
/-- Whether an operation that Igrum engine `n` sends, or has accepted, keeps its copy from acknowledging a revoking part: in drain form any of the
context, in range form one that it translated into the changed range, before the copy took the entry (R373, R374). -/
def State.oldIgrum (s : State) (ch : SegChange) (n : Nat) : Bool :=
  let cur := s.segCur ch.ctx ch.seg
  let old (peer serial ctx : Nat) : Bool := ctx == ch.ctx && decide (serial < Tbl.get 0 ch.marks n) && 26 + entryHome (s.peerEntry peer) == n
  let sends (o : SendOp) : Bool := ch.drain || ch.touches cur (fieldLE o.slot 0x18 8) (fieldLE o.slot 0x20 4) ||
    ch.touches cur (fieldLE o.slot 0x28 8) (fieldLE o.slot 0x24 4)
  let takes (r : RecvOp) : Bool := r.inFlight && (ch.drain || (match r.base with
    | some a => ch.touches cur a (fieldLE r.header 0x0C 4)
    | none => false))
  s.links.recv.any (fun r => old r.peer r.serial r.ctx && takes r) ||
    s.links.streams.any (fun e => e.2.ops.any (fun o => old (e.1 / 8) o.serial o.ctx && sends o))
/-- Whether what copy `n` translated under the old entry, and awaits, has completed (R373, R374). -/
def State.copySettled (s : State) (ch : SegChange) (n : Nat) : Bool :=
  (s.oldTransfers ch n).isEmpty && !(decide (26 ≤ n ∧ n < 28) && s.oldIgrum ch n)

/-- Whether a transfer of a generation before a given one is outstanding (R374). -/
def State.generationBefore (s : State) (c gen : Nat) : Bool :=
  s.clusters.any (fun e => e.2.dma.transfers.any (fun x => x.ctx == c && decide (x.generation < gen)))

/-! ### Starting a change (R369, R370, R379) -/

/-- The partition whose change an administrative command of a function asks for, and its plan (R370). -/
def State.changePart (s : State) (f : Nat) : Nat := (s.ownPart f).getD 8
/-- The device-wide context that a waiting change command names. -/
def State.changeCtx (s : State) (f : Nat) : Option Nat :=
  match s.admin f with
  | none => none
  | some c =>
    let p := s.changePart f
    if c.op = 0x87 then
      match (s.part p).desc with
      | some d => if c.field 0 2 < d.windows.2 then (Tbl.get [] s.xlt.windows (d.windows.1 + c.field 0 2))[c.field 2 1]?.map (fun m => m.context) else none
      | none => none
    else match (s.part p).desc with
      | some d => if c.field 0 1 < d.contexts.2 then some (d.contexts.1 + c.field 0 1) else none
      | none => none

/-- Whether a context has a change in progress. -/
def State.changing (s : State) (c : Nat) : Bool := s.xlt.changes.any (fun x => x.ctx == c) || s.xlt.windowChanges.any (fun x => x.ctx == c)
/-- The changes in progress at the front end instance that carries out a partition's (R360, R370). -/
def State.changesAt (s : State) (inst : Nat) : Nat :=
  let here (c : Nat) : Bool := match s.partOfCtx c with
    | some p => (s.part p).home == inst
    | none => false
  (s.xlt.changes.filter (fun x => here x.ctx)).length + (s.xlt.windowChanges.filter (fun x => here x.ctx)).length

/-- The tag writes of a change are sent: the gleaners that take one. -/
def State.sendTags (s : State) (ch : SegChange) : State × List Nat :=
  let p := (s.ctx ch.ctx).part
  match s.planOf p, s.planSegment ch.ctx ch.seg with
  | some pl, some g =>
    let es := (s.tagsWanted p pl (g.runs g.limit)).filter s.tagDiffers
    (s.sendAll (tagMessages ch.ctx es), (es.map Prod.fst).eraseDups)
  | _, _ => (s, [])

/-- A change is complete: the version advances and the result is written (R370). -/
def State.endChange (s : State) (ch : SegChange) : State :=
  let s1 := s.setCtx ch.ctx { s.ctx ch.ctx with version := (s.ctx ch.ctx).version + 1 }
  let s2 := s1.setChanges (s1.xlt.changes.filter (fun x => x.ctx != ch.ctx))
  s2.answerChange ch.fn 0 ch.form (s2.ctx ch.ctx).version.toNat

/-- The granting part begins (R371): the entry stands, the tags are written. -/
def State.grantPart (s : State) (ch : SegChange) : State :=
  if ch.after = ch.between then s.endChange ch
  else
    let (s1, gs) := (s.setSegCur ch.ctx ch.seg ch.after).sendTags ch
    let next : ChangePhase := if !ch.drain && gs.isEmpty then .grantCopies else .grantTags
    s1.putChange { ch with phase := next, updated := 0, copies := 0, subs := gs, stations := 0 }

/-- Every copy has acknowledged the revoking part: its tags follow (R371, R373, R374). -/
def State.revokeTags (s : State) (ch : SegChange) : State :=
  let (s1, gs) := (s.setSegCur ch.ctx ch.seg ch.between).sendTags ch
  if !ch.drain && gs.isEmpty then s1.grantPart ch
  else s1.putChange { ch with phase := .revokeTags, subs := gs, stations := 0 }

/-- The tags of a phase are all acknowledged. -/
def State.tagsDone (s : State) (ch : SegChange) : State :=
  if ch.phase = .revokeTags then s.grantPart ch else s.putChange { ch with phase := .grantCopies, updated := 0, copies := 0 }

/-- A SEG_WRITE or SEG_DRAIN begins (R369, R371, R372). -/
def State.beginSegChange (s : State) (f : Nat) (c : AdminCmd) : State :=
  match s.changeCtx f with
  | none => s.answerChange f 3 0 0
  | some ctx =>
    let x := s.ctx ctx
    let seg := c.field 1 1
    if x.state = 2 then s.finishAdmin f codeTornDown
    else
      match s.planSegment ctx seg with
      | none => s.answerChange f 3 0 x.version.toNat
      | some g =>
        let new : SegCur := { limit := c.field 3 4 * 65536, perm := c.field 2 1 }
        let cur := s.segCur ctx seg
        if (new.perm ||| (g.perm ||| permValid)) ≠ (g.perm ||| permValid) ∨ g.limit < new.limit then s.answerChange f 2 0 x.version.toNat
        else if c.field 7 4 ≠ x.version.toNat then s.answerChange f 1 0 x.version.toNat
        else
          let between := revoked cur new
          let granting := grants cur new
          let many := decide (32 < (s.subscribers ctx).length)
          let drain := c.op == 0x86 || many
          let grantOnly := granting && between == cur
          let ch : SegChange := { ctx := ctx, seg := seg, between := between, after := new
                                  form := if grantOnly then 2 else if drain then 1 else 0
                                  drain := drain, phase := if drain then .waiting else .revokeCopies
                                  updated := 0, copies := 0, marks := [], subs := [], stations := 0, fn := f }
          let s1 := (s.beginAdmin f).setChanges (s.xlt.changes ++ [ch])
          let s2 := if c.op = 0x85 ∧ many then { s1 with xlt := { s1.xlt with upgraded := s1.xlt.upgraded + 1 } } else s1
          if grantOnly then s2.grantPart ch else s2

/-- A WINDOW_WRITE begins (R379): one mapping is cleared, or takes a new PERM, KEY, PEER and LENGTH within the plan's. -/
def State.beginWindowChange (s : State) (f : Nat) (c : AdminCmd) : State :=
  let p := s.changePart f
  match s.changeCtx f, (s.part p).desc, s.planOf p with
  | some ctx, some d, some pl =>
    let x := s.ctx ctx
    let w := d.windows.1 + c.field 0 2
    let ms := Tbl.get [] s.xlt.windows w
    let n := c.field 2 1
    let planned := (pl.windows.filter (fun m => m.window == c.field 0 2))[n]?
    match ms[n]?, planned with
    | some m, some pm =>
      let clear := c.field 3 1 != 0
      let perm := c.field 4 1
      let len := c.field 11 4 * 65536
      if x.state = 2 then s.finishAdmin f codeTornDown
      else if !clear ∧ ((perm ||| pm.perm) ≠ pm.perm ∨ pm.length < len ∨ len = 0) then s.answerChange f 2 0 x.version.toNat
      else if c.field 15 4 ≠ x.version.toNat then s.answerChange f 1 0 x.version.toNat
      else
        let new : MappingCur := if clear then { m with cleared := true }
          else { m with perm := perm, key := c.field 5 2, peer := c.field 7 4, length := len, cleared := false }
        let wc : WindowChange := { window := w, mapping := n, ctx := ctx, acks := 0, mark := s.links.serial, fn := f }
        let s1 := s.beginAdmin f
        { s1 with xlt := { s1.xlt with windows := Tbl.set [] s1.xlt.windows w (replaceAt ms n new)
                                       windowChanges := s1.xlt.windowChanges ++ [wc] } }
    | _, _ => s.answerChange f 3 0 x.version.toNat
  | _, _, _ => s.answerChange f 3 0 0

/-- Starting a change that may run. -/
def State.beginChange (s : State) (f : Nat) : State :=
  match s.admin f with
  | none => s
  | some c => if c.op = 0x87 then s.beginWindowChange f c else s.beginSegChange f c

/-- Whether a function's change must wait: its context's earlier change or eight in progress at the instance (R360, R370). -/
def State.changeWaits (s : State) (f : Nat) (ahead : List Nat) : Bool :=
  match s.changeCtx f with
  | none => false
  | some c => s.changing c || ahead.any (fun g => s.changeCtx g == some c) ||
      decide (8 ≤ s.changesAt ((s.part (s.changePart f)).home))

/-- Waiting changes start in arrival order as they may (R370). -/
def pumpChanges : Nat → State → State
  | 0, s => s
  | fuel + 1, s =>
    match s.xlt.changeQueue.find? (fun f => !s.changeWaits f (s.xlt.changeQueue.takeWhile (fun g => g != f))) with
    | none => s
    | some f => pumpChanges fuel ({ s with xlt := { s.xlt with changeQueue := s.xlt.changeQueue.erase f } }.beginChange f)
/-- Waiting changes start once one has completed. -/
def State.pumpChanges (s : State) : State := Sys2Proof.Machine.pumpChanges s.xlt.changeQueue.length s

/-- A change command whose result can be written: it starts, or waits its turn (R369, R370). -/
def onChange (f op at_ : Nat) (s : State) : Answer :=
  onAdminRaw f op s (fun s c =>
    if !s.adminResultOk f (c.field at_ 8) 16 then s.finishAdmin f codeBounds
    else if s.changeWaits f s.xlt.changeQueue then
      let s1 := s.beginAdmin f
      { s1 with xlt := { s1.xlt with changeQueue := s1.xlt.changeQueue ++ [f] } }
    else s.beginChange f)

/-- SEG_WRITE of function `f` (R369 to R373). -/
def execSegWrite (f : Nat) (s : State) : Answer := onChange f 0x85 11 s
/-- SEG_DRAIN of function `f` (R369, R374). -/
def execSegDrain (f : Nat) (s : State) : Answer := onChange f 0x86 11 s
/-- WINDOW_WRITE of function `f` (R379). -/
def execWindowWrite (f : Nat) (s : State) : Answer := onChange f 0x87 19 s

/-! ### Copies and tags (R371 to R376) -/

/-- A command on translation copy `n` faults where there is none (R360). -/
def onCopy (n : Nat) (s : State) (f : State → Answer) : Answer := if n < 30 then f s else .fault .noSuchUnit

/-- A drain form change whose context has no transfer left of the generation before the current one advances the generation (R374). -/
def State.startDrain (s : State) (ch : SegChange) : State × SegChange :=
  if ch.phase = .waiting ∧ !s.generationBefore ch.ctx (s.ctx ch.ctx).gen then
    let ch1 := { ch with phase := .revokeCopies }
    ((s.setCtx ch.ctx { s.ctx ch.ctx with gen := (s.ctx ch.ctx).gen + 1 }).putChange ch1, ch1)
  else (s, ch)

/-- XLT_COPY_UPDATE: copy `n` takes the new entry of the change of context `c`, and in drain form the new generation, in one step
between two translations (R365, R373, R374). -/
def execXltCopyUpdate (n c : Nat) (s : State) : Answer :=
  onCopy n s (fun s =>
    match s.change c with
    | none => .next s
    | some ch0 =>
      let (s0, ch) := s.startDrain ch0
      if ch.updated.testBit n ∨ (ch.phase ≠ .revokeCopies ∧ ch.phase ≠ .grantCopies) then .next s0
      else
        let e := if ch.phase = .revokeCopies then ch.between else ch.after
        let held := s0.copyCtx n c
        let mine : CopyCtx := { segs := putSeg held.segs ch.seg e, gen := (s0.ctx c).gen }
        let s1 := { s0 with xlt := { s0.xlt with copies := Tbl.set copyReset s0.xlt.copies (n * 256 + c) mine } }
        .next (s1.putChange { ch with
          updated := ch.updated ||| 2 ^ n
          marks := if n < 24 then Tbl.set 0 ch.marks n (s1.dma n).serial else if 26 ≤ n ∧ n < 28 then Tbl.set 0 ch.marks n s1.links.serial else ch.marks }))

/-- XLT_COPY_ACK: copy `n` acknowledges once the transfers that it awaits have completed; with the last copy the change goes on (R371 to
R375). -/
def execXltCopyAck (n c : Nat) (s : State) : Answer :=
  onCopy n s (fun s =>
    match s.change c with
    | none => .next s
    | some ch =>
      if !ch.updated.testBit n ∨ ch.copies.testBit n ∨ (ch.phase = .revokeCopies ∧ !s.copySettled ch n) then .next s
      else
        let ch1 := { ch with copies := ch.copies ||| 2 ^ n }
        let s1 := s.putChange ch1
        if ch1.copies ≠ 2 ^ 30 - 1 then .next s1
        else .next ((if ch.phase = .revokeCopies then s1.revokeTags ch1 else s1.endChange ch1).pumpChanges))

/-- Whether a gleaner has applied the tag writes of a change and the operations admitted under the old tags have been applied (R261). -/
def State.tagsApplied (s : State) (ch : SegChange) (g : Nat) : Bool :=
  let p := (s.ctx ch.ctx).part
  (s.gleaner g).tagChanges.all (fun t => t.ctx != ch.ctx) &&
    (match s.planOf p, s.planSegment ch.ctx ch.seg with
     | some pl, some sg => (s.tagsWanted p pl (sg.runs sg.limit)).all (fun e => e.1 != g || !s.tagDiffers e)
     | _, _ => true)

/-- SUBSCRIBER_ACK: gleaner `g`'s acknowledgement of a tag write reaches the GFE; with the last one the change goes on (R371, R373). -/
def execSubscriberAck (g c : Nat) (s : State) : Answer :=
  onGleaner g s (fun s =>
    match s.change c with
    | none => .next s
    | some ch =>
      if ch.drain ∨ !ch.subs.contains g ∨ !s.tagsApplied ch g then .next s
      else
        let ch1 := { ch with subs := ch.subs.filter (fun x => x != g) }
        .next (if ch1.subs.isEmpty then ((s.putChange ch1).tagsDone ch1).pumpChanges else s.putChange ch1))

/-- The gleaners behind a stack station 0 to 11, or an I/O-die fabric 12 or 13 (R6, R374). -/
def stationGleaners (n : Nat) : List Nat := if n < 12 then (List.range 32).map (fun i => 32 * n + i) else (List.range 32).map (fun i => 384 + 32 * (n - 12) + i)

/-- STATION_TAG_ACK: a station's acknowledgement of the tag broadcast; the change goes on with the last of the fourteen (R374). -/
def execStationTagAck (n c : Nat) (s : State) : Answer :=
  if 14 ≤ n then .fault .noSuchUnit
  else
    match s.change c with
    | none => .next s
    | some ch =>
      if !ch.drain ∨ (ch.phase ≠ .revokeTags ∧ ch.phase ≠ .grantTags) ∨ ch.stations.testBit n ∨
          !(stationGleaners n).all (fun g => s.tagsApplied ch g) then .next s
      else
        let ch1 := { ch with stations := ch.stations ||| 2 ^ n }
        .next (if ch1.stations = 2 ^ 14 - 1 then ((s.putChange ch1).tagsDone ch1).pumpChanges else s.putChange ch1)

/-! ### The capture (R380) -/

/-- The 16 bytes of a placement record (R124). -/
def Placement.record (p : Placement) : List Byte :=
  natLE 1 p.tier ++ zeroBytes 1 ++ natLE 2 p.channel ++ natLE 2 p.stripe ++ zeroBytes 2 ++ natLE 4 p.length ++ natLE 4 p.offset
/-- The load segment's entry: GRANARY, with its current LIMIT and PERM. It has no placement records (R413), and what a capture shows in their
place is a free value (DESIGN CHOICE, log 32). -/
def loadRecord48 (ctr : Nat) (e : SegCur) : List Byte :=
  natLE 8 e.limit ++ natLE 1 0 ++ natLE 1 e.perm ++ zeroBytes 6 ++ freeBytes ctr 32
/-- The 48 bytes of a segment entry with its current LIMIT and PERM (R366). -/
def Segment.record (g : Segment) (e : SegCur) : List Byte :=
  natLE 8 e.limit ++ natLE 1 g.policy ++ natLE 1 e.perm ++ zeroBytes 2 ++ natLE 4 g.frames ++ g.placement.record ++ g.framePlacement.record

/-- XLT_SEG_SELECT written with `value` by function `f`, 32 being the reeve: the entry and version are captured in one step; zeros where
the function does not own the context's partition (R380). -/
def execXltSegSelect (f : Nat) (value : Word32) (s : State) : Answer :=
  if 32 < f then .fault .noSuchUnit
  else if !s.served then .next s
  else
    let sel : BitVec 12 := BitVec.ofNat 12 value.toNat
    let c := sel.toNat % 256
    let seg := sel.toNat / 256
    let owned := match s.partOfCtx c with
      | some p => f == 32 || s.ownsPart f p
      | none => false
    let bytes := if !owned then [] else
      match s.planSegment c seg with
      | some g => g.record (s.segCur c seg)
      | none => if s.isLoadSeg c seg then loadRecord48 s.freeCtr (s.segCur c seg) else []
    let cap : SegCapture := { select := sel, version := if owned then (s.ctx c).version else 0
                              data := (List.range 12).map (fun i => BitVec.ofNat 32 (fieldLE bytes (4 * i) 4)) }
    let ctr := if owned && s.isLoadSeg c seg then s.freeCtr + 4 else s.freeCtr
    .next { s with freeCtr := ctr, xlt := { s.xlt with captures := Tbl.set captureReset s.xlt.captures f cap } }

end Sys2Proof.Machine
end

