-- ==== Sys2Proof/Machine/LinkCmds.lean ====
section
/-!
DEFINITION. The commands of the Ethernet ports and of the Igrum transport at the sending side (spec 17): ports, timers, send rings,
entries; and the records that gleaners return to any requester (R258).
-/

namespace Sys2Proof.Machine

/-! ### Ports (R456 to R458) -/

/-- The partition whose ports include both halves of a port. -/
def State.portOwner (s : State) (p : Nat) : Option Nat := (List.range 8).find? (fun q => s.holdsPort q p false && s.holdsPort q p true)

/-- The partitions, their shares of a port and VC in units of 2 cells, and the halves of it they hold (R462, R463). -/
def State.shareSum (s : State) (p vc : Nat) (half : Bool) : Nat :=
  sumNat ((List.range 8).map (fun q => match (s.part q).desc with
    | some d => if d.ports.testBit (2 * p + half.toNat) then d.igrumCredits.getD (8 * p + vc) 0 else 0
    | none => 0))
/-- The cells that loaded plans give contexts on a link of LINK_CREDITS and VC, the larger of the two directions (R464). -/
def State.planCells (s : State) (link vc : Nat) : Nat :=
  let all := (List.range 8).flatMap (fun q => match s.planOf q with
    | some pl => pl.linkCredits.filter (fun c => c.link == link && c.vc == vc)
    | none => [])
  max (sumNat (all.map (fun c => c.credits0))) (sumNat (all.map (fun c => c.credits1)))
/-- Whether shares and plans fit the pools of a mode (R463). -/
def State.modeFits (s : State) (p mode : Nat) : Bool :=
  (List.range 8).all (fun vc =>
    if mode = 2 then
      decide (s.shareSum p vc false ≤ 124) && decide (s.shareSum p vc true ≤ 124) && decide (s.planCells (0x20 + p) vc ≤ 248) &&
        decide (s.planCells (0x28 + p) vc ≤ 248)
    else decide (s.shareSum p vc false ≤ 248) && decide (s.planCells (0x20 + p) vc ≤ 496) && decide (s.planCells (0x28 + p) vc = 0))

/-- PORT_MODE_WRITE: function `f` writes PORT_CTL; a change of MODE or PMD resets the port, behind its capture,
and takes the link down (R458, R463, R502, R505). -/
def execPortModeWrite (f p : Nat) (value : Word32) (s : State) : Answer :=
  onEth p s (fun s => onBar0 f s (fun s =>
    let mode := value.toNat % 4
    let pmd := value.toNat / 4 % 4
    let e := s.eth p
    let owner := match s.portOwner p with
      | some q => s.ownsPart f q
      | none => false
    if !owner ∨ mode = 3 ∨ !s.modeFits p mode then .next s
    else
      let s1 := s.updEth p (fun e => { e with mode := BitVec.ofNat 2 mode, pmd := BitVec.ofNat 2 pmd, pfcEn := value.getLsbD 4 })
      if mode = e.mode.toNat ∧ pmd = e.pmd.toNat then .next s1 else .next ((s1.captureFor 4 []).linksDown p [false, true])))

/-- ETH_LINK_DOWN: a link goes down and its paths fail (R482). -/
def execEthLinkDown (p : Nat) (half : Bool) (s : State) : Answer := onEth p s (fun s => .next (s.linksDown p [half]))

/-- ETH_LINK_UP: a link of a port that is not off comes up; half b has one in MODE 2 alone (R456, R458). -/
def execEthLinkUp (p : Nat) (half : Bool) (s : State) : Answer :=
  onEth p s (fun s =>
    let e := s.eth p
    if e.mode = 0 ∨ (half ∧ e.mode ≠ 2) then .next s
    else .next (s.updEth p (fun e => if half then { e with linkB := true } else { e with linkA := true })))

/-- ETH_FRAME_RECEIVE: a frame that is no Igrum frame is discarded and counted, a PAUSE frame too; `corrected` and `uncorrected` are the
FEC codewords met since the last frame (R456, R457, R486). A PFC frame is PFC_FRAME's where PFC_EN is set, an Igrum frame is its own command's. -/
def execEthFrameReceive (p : Nat) (half fcs : Bool) (corrected uncorrected : Nat) (frame : List Byte) (s : State) : Answer :=
  onEth p s (fun s =>
    let s1 := s.updEth p (fun e => { e with
      fecCorrected := e.fecCorrected + BitVec.ofNat 32 corrected, fecUncorrected := e.fecUncorrected + BitVec.ofNat 32 uncorrected })
    let pfc := beNat ((frame.drop 12).take 2) = 0x8808 ∧ beNat ((frame.drop 14).take 2) = 0x0101 ∧ (s.eth p).pfcEn
    if !(s.eth p).up half ∨ !fcs ∨ !frameLengthOk frame ∨ pfc ∨ (s.matchFrame frame).isSome then .next s1
    else .next (s1.updEth p (fun e => { e with rxDropped := e.rxDropped + 1 })))

/-- PFC_FRAME: with PFC_EN set, the enabled priorities are paused, or resumed by a time of 0; without it the frame is discarded and
counted (R457). -/
def execPfcFrame (p : Nat) (half : Bool) (enabled : Nat) (times : List Nat) (s : State) : Answer :=
  onEth p s (fun s =>
    if !(s.eth p).up half then .next s
    else if !(s.eth p).pfcEn then .next (s.updEth p (fun e => { e with rxDropped := e.rxDropped + 1 }))
    else
      let base := if half then 8 else 0
      .next (s.updEth p (fun e => { e with paused := (List.range 8).foldl (fun m i =>
        if !enabled.testBit i then m
        else if times.getD i 0 = 0 then m &&& ~~~(BitVec.ofNat 16 (2 ^ (base + i)))
        else m ||| BitVec.ofNat 16 (2 ^ (base + i))) e.paused })))

/-- PFC_PAUSE_EXPIRE: a pause time runs out (R457). -/
def execPfcPauseExpire (p : Nat) (half : Bool) (priority : Nat) (s : State) : Answer :=
  onEth p s (fun s => .next (s.updEth p (fun e => { e with
    paused := e.paused &&& ~~~(BitVec.ofNat 16 (2 ^ ((if half then 8 else 0) + priority % 8))) })))

/-- Whether a VC is paused on a path's port (R457). -/
def State.vcPaused (s : State) (vc : Nat) (path : List Byte) : Bool :=
  let pcp := (Tbl.get 0 s.links.regs.vcMap vc).toNat % 8
  (s.eth (pathPort path)).paused.getLsbD ((if pathHalf path then 8 else 0) + pcp)

/-! ### Timers (R465, R472 to R474, R482, R484) -/

/-- ACK_TIMER: an acknowledgement that is due is sent (R472). -/
def execAckTimer (k vc : Nat) (s : State) : Answer :=
  onStream k vc s (fun s => let st := s.stream k vc; if st.ackDue then .next (s.sendAck k vc st.ackPath 1) else .next s)

/-- RETX_TIMER: every unacknowledged packet is sent again, and a retry is counted; with three already counted the path fails (R473,
R482). -/
def execRetxTimer (k vc : Nat) (s : State) : Answer :=
  onStream k vc s (fun s =>
    let st := s.stream k vc
    let p := s.peer k
    if st.unacked.isEmpty ∨ p.down ∨ p.probing.isSome then .next s
    else if 3 ≤ st.retries then .next ((s.updStream k vc (fun x => { x with retries := 0 })).failPath k p.active)
    else .next ((s.updStream k vc (fun x => { x with retries := x.retries + 1 })).resend k vc))

/-- PROBE_TIMEOUT: a failover's PROBE draws no reply, and its path fails too (R482). -/
def execProbeTimeout (k : Nat) (s : State) : Answer :=
  onPeer k s (fun s =>
    match (s.peer k).probing with
    | some i => .next (s.failPath k i)
    | none => .next s)

/-- PATH_PROBE_TIMER: a failed path is probed; a probe without a reply starts the count again (R484). -/
def execPathProbeTimer (k i : Nat) (s : State) : Answer :=
  onPeer k s (fun s =>
    let p := s.peer k
    if !entryValid (s.peerEntry k) ∨ (peerPath (s.peerEntry k) i).isNone ∨ p.pathsUp.testBit i then .next s
    else
      let s1 := s.updPeer k (fun p => { p with
        replies := if p.probed.testBit i then Tbl.set 0 p.replies i 0 else p.replies, probed := p.probed ||| 2 ^ i })
      .next (s1.sendProbe k i))

/-- PACING_TIMER: 10 µs without an echo raise the rate by 1/32 of the port rate (R474). -/
def execPacingTimer (k vc : Nat) (s : State) : Answer :=
  onStream k vc s (fun s => .next (s.updStream k vc (fun x => { x with rate := min (x.rate + 2 ^ 27) (2 ^ 32) })))

/-- RX_RESERVATION_RELEASE: a stream that holds no cells gives back its reservation on a port (R465). -/
def execRxReservationRelease (k vc p : Nat) (half : Bool) (s : State) : Answer :=
  onStream k vc s (fun s =>
    if s.heldCells k vc ≠ 0 then .next s
    else .next (s.updStream k vc (fun x => { x with reserved := Tbl.set false x.reserved (halfUnit p half) false })))

/-! ### Send rings (R475 to R478) -/

/-- The cells that a slot's response takes (R466). -/
def responseCells (slot : List Byte) : Nat :=
  match fieldLE slot 0 1 with
  | 0 | 3 | 4 => 1
  | _ => 17 * max 1 (ceilDiv (fieldLE slot 0x24 4) 4096)

/-- The lengths of a slot fit its operation (R455, R477; DEDUCED, log 41). -/
def slotLengthsOk (slot : List Byte) : Bool :=
  let len := fieldLE slot 0x20 4
  let res := fieldLE slot 0x24 4
  let raw (n : Nat) : Bool := decide (64 ≤ n) && decide (n ≤ 65536) && n % 64 == 0
  match fieldLE slot 0 1 with
  | 0 => raw len && res == 0 && fieldLE slot 0x10 8 % 64 == 0
  | 1 => len == 0 && raw res && fieldLE slot 0x10 8 % 64 == 0
  | 2 => len == 0 && decide (8 ≤ res) && decide (res ≤ 16392)
  | 3 => decide (8 ≤ len) && decide (len ≤ 16392) && res == 0
  | 4 => decide (8 ≤ len) && decide (len ≤ 16392) && res == 0
  | 5 => len == 24 && decide (8 ≤ res) && decide (res ≤ 16384)
  | 6 => decide (len ≤ 16384) && decide (res ≤ 16384)
  | _ => false

/-- The status a consumed slot fails with (R477): NO_PEER, INVALID, BOUNDS, in that order; none where it passes. -/
def State.slotFault (s : State) (ring : List Byte) (slot : List Byte) : Option Nat :=
  let k := fieldLE slot 2 1
  let pe := s.peerEntry k
  let vc := fieldLE slot 1 1 / 4 % 8
  let ctx := entryCtx ring
  let copy := 26 + entryHome ring
  let len := fieldLE slot 0x20 4
  let res := fieldLE slot 0x24 4
  if 128 ≤ k ∨ !entryValid pe ∨ entryCtx pe ≠ ctx ∨ entryHome pe ≠ entryHome ring ∨ !(peerVcs pe).contains vc then some 7
  else if 32 ≤ fieldLE slot 1 1 ∨ fieldLE slot 0x0B 1 ≠ 0 ∨ fieldLE slot 0x30 15 ≠ 0 ∨ !slotLengthsOk slot ∨
      fieldLE pe 0x0A 2 < responseCells slot then some 2
  else if (0 < len ∧ !s.extentOk copy ctx (fieldLE slot 0x18 8) (fieldLE slot 0x18 8 + len - 1 : Nat) permRead) ∨
      (0 < res ∧ !s.extentOk copy ctx (fieldLE slot 0x28 8) (fieldLE slot 0x28 8 + res - 1 : Nat) permWrite) then some 6
  else none

/-- SEND_RING_POLL: the engine reads a ring's next slot, and consumes it where it is sealed; a slot that fails its checks completes at
once, one that passes joins its stream (R476, R477). A torn-down context's rings stop (R485). -/
def execSendRingPoll (n : Nat) (s : State) : Answer :=
  if 128 ≤ n then .fault .noSuchUnit
  else
    let e := s.ringEntry n
    let ctx := entryCtx e
    if !entryValid e ∨ s.torn ctx then .next s
    else
      let r := s.ring n
      let slots := 2 ^ fieldLE e 2 1
      let slot := s.physBytes (s.physRun ctx (fieldLE e 8 8 + 64 * (r.next % slots)) 64)
      if slot.length < 64 ∨ !slotSealed slots r.next slot then .next s
      else
        let s1 := s.updRing n (fun r => { r with next := r.next + 1, lastYield := s.devTime })
        match s1.slotFault e slot with
        | some st => .next (s1.ringComplete n r.next slot st 0 0 0)
        | none =>
          let k := fieldLE slot 2 1
          let vc := fieldLE slot 1 1 / 4 % 8
          if (s1.peer k).down then .next (s1.ringComplete n r.next slot 5 0 0 0)
          else
            let o : SendOp :=
              { serial := s1.links.serial, ring := n, index := r.next, ctx := ctx, slot := slot, tag := s1.links.serial % 2 ^ 32
                nextPacket := 0, sent := false, respCells := 0, got := 0, status := 0, aborted := false }
            let s2 := s1.updStream k vc (fun x => { x with ops := x.ops ++ [o] })
            .next { s2 with links := { s2.links with serial := s2.links.serial + 1 } }

/-- The operation header of packet `j` of an operation (R469). -/
def opHeader (o : SendOp) (j count : Nat) : List Byte :=
  let b := o.slot
  natLE 1 (fieldLE b 0 1) ++ natLE 1 ((if j = 0 then 1 else 0) + if j + 1 = count then 2 else 0) ++ natLE 2 (fieldLE b 4 2) ++
    natLE 2 (fieldLE b 6 2) ++ natLE 2 (fieldLE b 8 2) ++ natLE 4 o.tag ++ natLE 4 (fieldLE b 0x20 4) ++ natLE 8 (fieldLE b 0x10 8) ++
    natLE 1 j ++ natLE 3 (fieldLE b 0x24 4) ++ natLE 1 (fieldLE b 3 1) ++ natLE 1 (fieldLE b 0x0A 1) ++ zeroBytes 2

/-- The cells of a stream's unacknowledged requests, which fill the transmit cells and the grant (R464, R465). -/
def Stream.requestCells (x : Stream) : Nat := sumNat ((x.unacked.filter (fun p => !p.response)).map TxPacket.cells)
/-- The cells taken for responses of a stream's operations (R466). -/
def Stream.responseCells (x : Stream) : Nat := sumNat (x.ops.map (fun o => o.respCells))

/-- The packets of an operation leave while the transmit cells and the grant allow; one whose data cannot be read ends LOST (R465,
R477). -/
def sendPackets : Nat → State → Nat → Nat → SendOp → State
  | 0, s, _, _, _ => s
  | fuel + 1, s, k, vc, o =>
    let st := s.stream k vc
    let len := fieldLE o.slot 0x20 4
    let count := max 1 (ceilDiv len 4096)
    let j := o.nextPacket
    let n := min 4096 (len - 4096 * j)
    let cells := packetCells n
    let used := st.requestCells + cells
    if fieldLE (s.peerEntry k) 8 2 < used ∨ st.credit < used then s
    else
      match s.ctxFetch o.ctx o.tag (fieldLE o.slot 0x18 8 + 4096 * j) n with
      | (t, 0, data) =>
        let s0 := t.chargeLink o.ctx n
        let s1 := s0.pushData k vc false (decide (used < st.credit)) (opHeader o j count ++ data)
        let o1 := { o with nextPacket := j + 1, sent := decide (j + 1 = count), respCells := Sys2Proof.Machine.responseCells o.slot }
        let s2 := s1.updStream k vc (fun x => { x with ops := x.ops.map (fun p => if p.serial = o.serial then o1 else p) })
        if j + 1 = count then s2 else sendPackets fuel s2 k vc o1
      | (t, _, _) => t.endOp k vc o 3

/-- SEND_OPERATION: the first operation of a stream that has not wholly left leaves as packets, once its response's cells are free and,
with FENCE, every operation before it has completed (R466, R477). -/
def execSendOperation (k vc : Nat) (s : State) : Answer :=
  onStream k vc s (fun s =>
    let st := s.stream k vc
    let p := s.peer k
    let path := s.pathEntry ((peerPath (s.peerEntry k) p.active).getD 0)
    match st.ops.find? (fun o => !o.sent) with
    | none => .next s
    | some o =>
      let fenced := (fieldLE o.slot 1 1).testBit 0 && (st.ops.head?.map (fun h => h.serial)) != some o.serial
      let room := o.nextPacket != 0 ||
        decide (st.responseCells + Sys2Proof.Machine.responseCells o.slot + s.heldCells k vc ≤ fieldLE (s.peerEntry k) 0x0A 2)
      if p.down ∨ p.probing.isSome ∨ s.links.regs.node = 0 ∨ !(s.eth (pathPort path)).up (pathHalf path) ∨ s.vcPaused vc path ∨ fenced ∨ !room then .next s
      else .next (sendPackets 17 s k vc o))

/-! ### Entries (R461, R464, R487) -/

/-- Whether a function owns a context's partition. -/
def State.ownsCtx (s : State) (f c : Nat) : Bool :=
  match s.partOfCtx c with
  | some p => s.ownsPart f p
  | none => false

/-- The valid peers that name a path entry. -/
def State.pathUsers (s : State) (n : Nat) : List Nat :=
  (List.range 128).filter (fun k => entryValid (s.peerEntry k) && (peerPaths (s.peerEntry k)).any (fun x => x.2 == n))

/-- Whether a function reads an entry (R461, R487). -/
def State.ownsEntry (s : State) (f kind n : Nat) : Bool :=
  match kind with
  | 0 => s.ownsCtx f (entryCtx (s.peerEntry n))
  | 1 => (s.pathUsers n).all (fun k => s.ownsCtx f (entryCtx (s.peerEntry k)))
  | _ => s.ownsCtx f (entryCtx (s.ringEntry n))

/-- The LINK number of LINK_CREDITS for a path's port (R58, R463). -/
def pathLink (e : List Byte) : Nat := (if pathHalf e then 0x28 else 0x20) + pathPort e

/-- Whether the credits of a peer's context cover its valid peers, the new one among them (R464). -/
def State.peerCreditsOk (s : State) (k : Nat) (pe : List Byte) : Bool :=
  let c := entryCtx pe
  let entry (j : Nat) : List Byte := if j = k then pe else s.peerEntry j
  let peers := (List.range 128).filter (fun j => entryValid (entry j) && entryCtx (entry j) == c)
  let links (j : Nat) : List Nat := (peerPaths (entry j)).map (fun x => pathLink (s.pathEntry x.2))
  match s.partOfCtx c with
  | none => false
  | some p =>
    match s.planOf p with
    | none => false
    | some pl =>
      (List.range 8).all (fun vc => (List.range 16).all (fun l =>
        let link := 0x20 + l
        let mine := pl.linkCredits.filter (fun x => x.context + s.ctxBase p == c && x.link == link && x.vc == vc)
        let tx := sumNat ((peers.filter (fun j => (peerVcs (entry j)).contains vc && (links j).head? == some link)).map (fun j => fieldLE (entry j) 8 2))
        let rx := sumNat ((peers.filter (fun j => (peerVcs (entry j)).contains vc && (links j).contains link)).map (fun j => fieldLE (entry j) 0x0A 2))
        decide (tx ≤ sumNat (mine.map (fun x => x.credits0))) && decide (rx ≤ sumNat (mine.map (fun x => x.credits1)))))

/-- A peer entry's fields are in range (R460, R461, R463). -/
def State.peerFieldsOk (s : State) (pe : List Byte) : Bool :=
  let paths := peerPaths pe
  let half := paths.any (fun x => (s.eth (pathPort (s.pathEntry x.2))).mode == 2)
  let top := if half then 248 else 496
  let cells (n : Nat) : Bool := decide (17 ≤ n) && decide (n ≤ top)
  let node := fieldLE pe 4 4
  decide (fieldLE pe 0 1 < 4) && decide (fieldLE pe 2 1 < 128) && fieldLE pe 3 1 != 0 && node != 0 && node != 0xFFFFFFFF &&
    cells (fieldLE pe 8 2) && cells (fieldLE pe 0x0A 2) && (peerPath pe 0).isSome && allZero (pe.drop 0x10) &&
    paths.all (fun x => entryValid (s.pathEntry x.2))

/-- Every port that a peer's paths name is held by its partition (R461). -/
def State.peerPortsHeld (s : State) (pe : List Byte) : Bool :=
  match s.partOfCtx (entryCtx pe) with
  | some p => (peerPaths pe).all (fun x => let e := s.pathEntry x.2
      s.holdsPort p (pathPort e) (pathHalf e))
  | none => false

/-- A path entry's fields are in range (R460). -/
def State.pathFieldsOk (s : State) (e : List Byte) : Bool :=
  decide (fieldLE e 0 1 < 16) && pathEncap e != 3 && decide (fieldLE e 1 1 < 16) && (!pathHalf e || (s.eth (pathPort e)).mode == 2) &&
    decide (fieldLE e 2 2 < 4096) && allZero ((e.drop 0x0A).take 6) && allZero (e.drop 0x20) &&
    (pathEncap e != 1 || allZero ((e.drop 0x14).take 12))

/-- A ring entry's fields are in range (R475). -/
def State.ringFieldsOk (s : State) (n : Nat) (e : List Byte) : Bool :=
  let p := (s.partOfCtx (entryCtx e)).getD 8
  let slots := 2 ^ fieldLE e 2 1
  let copy := 26 + entryHome e
  let rw := permRead ||| permWrite
  let fits (a len : Nat) : Bool := s.extentOk copy (entryCtx e) a (a + len - 1 : Nat) rw &&
    (match s.planSegment (entryCtx e) (a / 2 ^ 48) with
     | some g => decide (g.policy ≤ 1)
     | none => false)
  let home := ((List.range 128).filter (fun j => j != n && entryValid (s.ringEntry j) && entryHome (s.ringEntry j) == entryHome e)).length
  decide (fieldLE e 0 1 < 4) && decide (6 ≤ fieldLE e 2 1) && decide (fieldLE e 2 1 ≤ 12) && fieldLE e 3 1 == 0 && fieldLE e 6 2 == 0 &&
    (fieldLE e 4 2 == 0xFFFF || decide (fieldLE e 4 2 < s.semCount p)) && fieldLE e 8 8 % 64 == 0 && fieldLE e 0x10 8 % 16 == 0 &&
    allZero (e.drop 0x18) && (!entryValid e || (fits (fieldLE e 8 8) (64 * slots) && fits (fieldLE e 0x10 8) (16 * slots) && decide (home < 64)))

/-- The transport's data registers as an entry. -/
def IgtRegs.entry (r : IgtRegs) : List Byte := (List.range 16).flatMap (fun n => natLE 4 (Tbl.get 0 r.data n).toNat)
/-- RESULT of IGT_ENTRY_SELECT (R461). -/
def State.entryResult (s : State) (n : Nat) : State := s.updIgt (fun r => { r with selResult := BitVec.ofNat 3 n })
/-- A write of IGT_ENTRY_SELECT sets KIND and INDEX. -/
def State.entrySelect (s : State) (value : Word32) : State :=
  s.updIgt (fun r => { r with selKind := BitVec.ofNat 2 value.toNat, selIndex := BitVec.ofNat 8 (value.toNat / 4), selResult := 0 })

/-- Clearing VALID of a peer: every operation queued or in flight completes with ABORTED, and its cells are freed (R461). -/
def State.closePeer (s : State) (k : Nat) : State :=
  let s1 := (List.range 8).foldl (fun s v => (s.stream k v).ops.foldl (fun s o => s.endOp k v o 4) s) s
  let s2 := (List.range 8).foldl (fun s v => s.updStream k v (fun _ => streamReset)) s1
  let recv := s2.links.recv.filterMap (fun (r : RecvOp) => if r.peer ≠ k then some r else if r.waiting then some { r with drop := true } else none)
  { s2 with links := { s2.links with recv := recv, peers := Tbl.set peerReset s2.links.peers k peerReset } }

/-- An entry write that R461 has admitted, by kind. -/
def State.applyEntry (s : State) (kind n : Nat) (e : List Byte) : State :=
  match kind with
  | 0 =>
    let s1 := if entryValid (s.peerEntry n) then s.closePeer n else s
    { s1 with links := { s1.links with peerEntries := putEntry s1.links.peerEntries n e } }
  | 1 =>
    let s1 := { s with links := { s.links with pathEntries := putEntry s.links.pathEntries n e } }
    s1.failPaths (fun x => x == n)
  | _ =>
    { s with links := { s.links with ringEntries := putEntry s.links.ringEntries n e, rings := Tbl.set ringReset s.links.rings n ringReset } }

/-- IGT_ENTRY_READ: the READ bit copies an entry into IGT_ENTRY_DATA; one that the function does not own reads 0 (R487). -/
def execIgtEntryRead (f : Nat) (value : Word32) (s : State) : Answer :=
  onBar0 f s (fun s =>
    let s1 := s.entrySelect value
    if !value.getLsbD 10 then .next s1
    else
      let kind := value.toNat % 4
      let n := value.toNat / 4 % 256
      let e := if kind = 3 ∨ (kind ≠ 1 ∧ 128 ≤ n) ∨ !s.ownsEntry f kind n then []
        else if kind = 0 then s.peerEntry n else if kind = 1 then s.pathEntry n else s.ringEntry n
      let words := (List.range 16).map (fun i => BitVec.ofNat 32 (fieldLE e (4 * i) 4))
      .next ((s1.updIgt (fun r => { r with data := Tbl.setRun 0 r.data 0 words })).entryResult 1))

/-- IGT_ENTRY_WRITE: the WRITE bit applies IGT_ENTRY_DATA as an entry, or reports why not: NOT_OWNER, IN_USE, BAD, NO_CREDITS (R461,
R464). -/
def execIgtEntryWrite (f : Nat) (value : Word32) (s : State) : Answer :=
  onBar0 f s (fun s =>
    let s1 := s.entrySelect value
    if !value.getLsbD 11 then .next s1
    else
      let kind := value.toNat % 4
      let n := value.toNat / 4 % 256
      let e := s.links.regs.entry
      let result : Nat :=
        match kind with
        | 0 =>
          if 128 ≤ n then 3
          else if !s.ownsCtx f (entryCtx e) ∨ (entryValid (s.peerEntry n) ∧ !s.ownsCtx f (entryCtx (s.peerEntry n))) then 2
          else if entryValid (s.peerEntry n) ∧ entryValid e then 5
          else if !s.peerFieldsOk e ∨ !s.peerPortsHeld e then 3
          else if entryValid e ∧ !s.peerCreditsOk n e then 4 else 1
        | 1 =>
          let users := s.pathUsers n
          let held := users.all (fun k => match s.partOfCtx (entryCtx (s.peerEntry k)) with
            | some p => s.holdsPort p (pathPort e) (pathHalf e)
            | none => false)
          if !users.all (fun k => s.ownsCtx f (entryCtx (s.peerEntry k))) then 2
          else if !entryValid e ∧ !users.isEmpty then 5
          else if !s.pathFieldsOk e ∨ !held then 3
          else
            let t := { s with links := { s.links with pathEntries := putEntry s.links.pathEntries n e } }
            if users.all (fun k => t.peerCreditsOk k (s.peerEntry k)) then 1 else 4
        | 2 =>
          if 128 ≤ n then 3
          else if !s.ownsCtx f (entryCtx e) ∨ (entryValid (s.ringEntry n) ∧ !s.ownsCtx f (entryCtx (s.ringEntry n))) then 2
          else if !s.ringFieldsOk n e then 3 else 1
        | _ => 3
      .next ((if result = 1 then s1.applyEntry kind n e else s1).entryResult result))

/-! ### Window drains (R379) -/

/-- WINDOW_DRAIN_ACK: an Igrum engine has no operation of the context in flight that an old mapping admitted; with both, the change
completes (R379). -/
def execWindowDrainAck (e c : Nat) (s : State) : Answer :=
  if 2 ≤ e then .fault .noSuchUnit
  else
    match s.xlt.windowChanges.find? (fun w => w.ctx == c) with
    | none => .next s
    | some w =>
      let busy := s.links.recv.any (fun r => r.ctx == c && r.inFlight && decide (r.serial < w.mark) && entryHome (s.peerEntry r.peer) == e && fieldLE r.header 2 2 == w.window)
      if busy then .next s
      else
        let acks := w.acks ||| 2 ^ e
        let rest := s.xlt.windowChanges.filter (fun x => x.ctx != c)
        if acks ≠ 3 then .next { s with xlt := { s.xlt with windowChanges := rest ++ [{ w with acks := acks }] } }
        else
          let s1 := { s with xlt := { s.xlt with windowChanges := rest } }
          let s2 := s1.setCtx c { s1.ctx c with version := (s1.ctx c).version + 1 }
          .next (s2.answerChange w.fn 0 0 (s2.ctx c).version.toNat).pumpChanges

/-! ### Records and ENDs at their requesters (R258) -/

/-- RECORD_RECEIVE: a record arrives at requester `k` and is written at its slot, or joins an Igrum operation's response. -/
def execRecordReceive (k g : Nat) (m : RecordMsg) (s : State) : Answer :=
  onGleaner g s (fun s =>
    if k < 24 then .next (s.recordAtDma k m)
    else if k = 26 ∨ k = 27 then .next (s.recordAtIgrum m)
    else .next s)

/-- The END of a row write that the front end sent for a command: its live count falls, a LOST adds WEIGHT_LOST, and at 0 it completes
(R425, R426). -/
def State.endAtFront (s : State) (m : EndMsg) : State :=
  match s.cmdOfTag m.tag with
  | none => s
  | some (q, c) =>
    if c.phase ≠ .running ∨ c.op ≠ 0x10 then s
    else
      let live := c.live - 1
      let s1 := s.updCmd q c.seq (fun c => { c with live := live, marks := if m.status = 5 then c.marks ||| markWeightLost else c.marks })
      if live = 0 then s1.finishCmd q c.seq 0 else s1

/-- END_RECORD_RECEIVE: an END record arrives at requester `k` and completes its part of the transfer. -/
def execEndRecordReceive (k g : Nat) (m : EndMsg) (s : State) : Answer :=
  onGleaner g s (fun s =>
    if k < 24 then .next (s.endAtDma k g m)
    else if k < 26 then .next (s.endAtFront m)
    else if k < 28 then .next (s.endAtIgrum m)
    else .next s)

end Sys2Proof.Machine
end

