-- ==== Sys2Proof/Machine/Teardown.lean ====
section
/-!
DEFINITION. Stopping the work of a context, as a teardown and the unloading of a plan do (R75, R497): aborts, pins, semaphores,
segments, windows and the completion of its commands.
-/

namespace Sys2Proof.Machine

/-- The clusters of a context's partition. -/
def State.clustersOf (s : State) (p : Nat) : List Nat :=
  match (s.part p).desc with
  | some d => bitsSet d.clusters 24
  | none => []

/-- The aborts that name a context: to the sequencers and DMA engines of its partition's clusters, the cores and grids that run its
items, the gleaners that hold requests of the front end and the Igrum engines for it, and the Igrum engines (R497). -/
def State.contextAborts (s : State) (c : Nat) : List Out :=
  let cs := s.clustersOf ((s.partOfCtx c).getD 8)
  let cause := 1024 + c
  let runs (k : Nat) : Bool := match (s.core k).item with
    | some i => i.ctx == c
    | none => false
  let own := s.gleaners.filterMap (fun e =>
    if e.2.waitingReqs.any (fun r => decide (24 ≤ r.requester) && r.ctx == c) then some e.1 else none)
  cs.map (fun x => Out.abort 2 x c none 0 0 cause) ++
    (cs.flatMap (fun x => ((List.range 8).map (fun j => 8 * x + j)).filter runs)).map (fun k => Out.abort 1 k c none 0 0 cause) ++
    cs.map (fun x => Out.abort 3 x c none 0 0 cause) ++
    own.map (fun g => Out.abort (gleanerUnit g).1 (gleanerUnit g).2 c none 0 0 cause) ++
    [Out.abort 13 0 c none 0 0 cause, Out.abort 13 1 c none 0 0 cause]

/-- Whether an engine still holds work of a context, or a closed sheaf holds a row of it (R497). -/
def State.ctxBusy (s : State) (c : Nat) : Bool :=
  s.gleaners.any (fun e => e.2.waitingReqs.any (fun r => r.ctx == c) ||
    e.2.threads.any (fun t => (t.2.map (fun h => h.req.ctx == c)).getD false)) ||
  s.clusters.any (fun e => e.2.dma.transfers.any (fun x => x.ctx == c) || e.2.openSheaves.any (fun o => o.ctx == c) ||
    (e.2.ready.flatMap Prod.snd ++ e.2.unlisted).any (fun i => i.ctx == c)) ||
  s.cores.any (fun e => (e.2.item.map (fun i => i.ctx == c)).getD false || (e.2.saved.map (fun v => v.item.ctx == c)).getD false ||
    (e.2.incoming.map (fun v => v.1.ctx == c)).getD false)

/-- Fetched commands of a context are stopped with a code: those not dispatched complete at once (R497). -/
def State.stopCommands (s : State) (c code : Nat) : State :=
  let stop (d : Cmd) : Cmd := if d.stopped then d else
    { d with
      stopped := d.phase != CmdPhase.complete
      code := if d.phase = CmdPhase.complete then d.code else code
      phase := if d.phase = CmdPhase.parsed then .complete else d.phase }
  let qs := s.gfe.queues.filter (fun e => e.2.context == c && e.2.state != 0)
  let s1 := qs.foldl (fun s e => s.updQueue e.1 (fun x => { x with cmds := x.cmds.map stop, waitEvent := false })) s
  let gone := qs.map Prod.fst
  let sems := Tbl.mapWhere semReset s1.gfe.sems (fun _ (m : Semaphore) => m.waiters.any gone.contains)
    (fun m => { m with waiters := m.waiters.filter (fun w => !gone.contains w) })
  { s1 with gfe := { s1.gfe with sems := sems } }

/-- Every semaphore whose HOLDER is a context is revoked, and its waiters are abandoned (R418, R497). -/
def State.revokeHeld (s : State) (c : Nat) : State :=
  let sems := Tbl.mapWhere semReset s.gfe.sems (fun _ (m : Semaphore) => m.holder == some c) (fun m => { m with revoked := true })
  State.abandonRevoked { s with gfe := { s.gfe with sems := sems } }

/-- The segments of a context lose VALID in drain form: in the device's entries and in every copy, which takes a new generation; a
change pending on it completes with CONTEXT_TORN_DOWN (R374, R376). -/
def State.dropSegments (s : State) (c : Nat) : State :=
  let clear (e : SegCur) : SegCur := { e with perm := e.perm &&& 0x1F }
  let x := s.ctx c
  let s1 := s.setCtx c { x with segs := x.segs.map clear, gen := x.gen + 1 }
  let copies := (List.range 30).foldl (fun t n =>
    let y := s1.copyCtx n c
    Tbl.set copyReset t (n * 256 + c) { segs := y.segs.map clear, gen := x.gen + 1 }) s1.xlt.copies
  let fns := (s1.xlt.changes.filter (fun ch => ch.ctx == c)).map (fun ch => ch.fn) ++
    (s1.xlt.windowChanges.filter (fun w => w.ctx == c)).map (fun w => w.fn)
  let s2 := { s1 with xlt := { s1.xlt with
    copies := copies, changes := s1.xlt.changes.filter (fun ch => ch.ctx != c)
    windowChanges := s1.xlt.windowChanges.filter (fun w => w.ctx != c) } }
  (fns.foldl (fun s f => s.finishAdmin f codeTornDown) s2).pumpChanges

/-- The window mappings of a context are cleared (R376). -/
def State.dropWindows (s : State) (c : Nat) : State :=
  let windows := Tbl.mapWhere [] s.xlt.windows (fun _ (ms : List MappingCur) => ms.any (fun m => m.context == c))
    (fun ms => ms.map (fun m => if m.context = c then { m with cleared := true } else m))
  { s with xlt := { s.xlt with windows := windows } }

/-- The transport's operations of a context: those not sent end ABORTED, the others once their responses arrive (R485). -/
def State.abortOps (s : State) (c : Nat) : State :=
  s.links.streams.foldl (fun s e =>
    (s.stream (e.1 / 8) (e.1 % 8)).ops.foldl (fun s o =>
      if o.ctx ≠ c then s
      else if o.nextPacket = 0 then s.endOp (e.1 / 8) (e.1 % 8) o 4
      else s.updStream (e.1 / 8) (e.1 % 8) (fun x => { x with ops := x.ops.map (fun p => if p.serial = o.serial then { p with aborted := true } else p) })) s) s

/-- Steps 1 to 4 of a teardown, or of an unload in ABORT mode, for one context (R75, R497). -/
def State.stopContext (s : State) (c code : Nat) : State :=
  let p := (s.partOfCtx c).getD 8
  let s1 := s.stopCommands c code
  let s2 := s1.sendAll (s1.contextAborts c)
  let s3 := (s2.dropPins p (fun h => h.ctx == c)).revokeHeld c
  ((s3.dropSegments c).dropWindows c).abortOps c

/-- The tag writes that follow from a context's segments having lost VALID (R368, R376). -/
def State.sendContextTags (s : State) (c : Nat) : State :=
  let p := (s.partOfCtx c).getD 8
  match s.planOf p with
  | none => s
  | some pl =>
    let rs := (pl.contexts.filter (fun r => r.context + s.ctxBase p == c)).flatMap (fun r =>
      (bitsSet r.used 16).flatMap (fun n => match r.segments[n]? with
        | some g => g.runs g.limit
        | none => []))
    s.sendAll (tagMessages c ((s.tagsWanted p pl rs).filter s.tagDiffers))

/-- The stopped commands of a context that have work complete, in sequence order on each queue (R497). -/
def State.finishStopped (s : State) (c : Nat) : State :=
  (s.gfe.queues.filter (fun e => e.2.context == c && e.2.state == 1)).foldl (fun s e =>
    ((s.queue e.1).cmds.filter (fun d => d.stopped)).foldl (fun s d => s.finishCmd e.1 d.seq 0) s) s

/-- TEARDOWN_COMPLETE: every engine has acknowledged and no closed sheaf holds a row of the context: its commands with work complete,
XLT_CTX_STATE shows TORN_DOWN and FLT_CTX STOPPED is set (R497). -/
def execTeardownComplete (c : Nat) (s : State) : Answer :=
  if 256 ≤ c then .fault .noSuchUnit
  else
    match s.faults.teardowns.find? (fun t => t.ctx == c) with
    | none => .next s
    | some t =>
      if !t.captured ∨ s.ctxBusy c then .next s
      else
        let s1 := (s.sendContextTags c).finishStopped c
        let s2 := s1.setCtx c { s1.ctx c with state := 2 }
        let x := Tbl.get ctxFaultsReset s2.faults.ctxs c
        .next { s2 with faults := { s2.faults with
          teardowns := s2.faults.teardowns.filter (fun t => t.ctx != c)
          ctxs := Tbl.set ctxFaultsReset s2.faults.ctxs c { x with stopped := true } } }

end Sys2Proof.Machine
end

