-- ==== Sys2Proof/Machine/Install.lean ====
section
/-!
DEFINITION. What the installation of a plan writes and what taking it away clears (R73, R75 to R78, R227, R233, R288, R368, R376, R413), and
the result record (R68).
-/

namespace Sys2Proof.Machine

/-- The state with the loader changed. -/
def State.updLoader (s : State) (f : LoaderState → LoaderState) : State := { s with loader := f s.loader }

/-! ### The result record (R68) -/

/-- A load result record; PLAN_TAG is filled where R74 lists it. -/
def resultRecord (r : Refused) (tag planId elapsed : Nat) : List Byte :=
  natLE 2 r.code ++ natLE 2 r.sect ++ natLE 4 r.entry ++ natLE 4 r.unit ++ natLE 2 (if r.code = 0 ∨ r.code = 0x0501 then tag else 0) ++
    natLE 2 0 ++ natLE 8 r.requested ++ natLE 8 r.available ++ natLE 16 planId ++ natLE 8 elapsed ++ natLE 8 0

/-- Bytes written by the device itself at physical addresses (R63): a lost channel takes none. -/
def State.putPhys (s : State) (as : List Nat) (bs : List Byte) : State :=
  (joinRuns ((as.zip bs).map (fun e => (e.1, [e.2])))).foldl (fun s e => match s.physAt e.1 with
    | some (g, off) => (s.rawWrite g 0 0 off e.2 true).1
    | none => s) s

/-! ### Channels and tags -/

/-- The channels that a descriptor names, in the numbering of R74. -/
def PartitionDesc.channels (d : PartitionDesc) : List Nat :=
  d.granary.zipIdx.flatMap (fun e => (List.range e.1.2).map (fun i => e.2 * 32 + e.1.1 + i)) ++ (bitsSet d.loft 64).map (fun n => 384 + n)

/-- The gleaners behind a channel, two while it moves to its reserve (R310). -/
def State.behind (s : State) (chan : Nat) : List Nat := ([0, 24575].filterMap (fun b => s.chanGleaner chan b)).eraseDups

/-- The gleaners behind a partition's channels. -/
def State.gleanersOfPart (s : State) (p : Nat) : List Nat :=
  match (s.part p).desc with
  | some d => (d.channels.flatMap s.behind).eraseDups
  | none => []

/-- A tag written, its POISON bit kept (R305). -/
def GleanerState.putTag (x : GleanerState) (bale : Nat) (t : BaleTag) : GleanerState :=
  { x with tags := Tbl.set tagReset x.tags bale { t with poison := (x.tag bale).poison } }

/-- The tags of the bales above the system area lose VALID. -/
def State.clearTags (s : State) (gs : List Nat) : State :=
  gs.foldl (fun s g =>
    let base := if g < 384 then s.sysArea * 16 else 0
    s.updGleaner g (fun x => { x with
      tags := Tbl.mapWhere tagReset x.tags (fun b _ => decide (base ≤ b)) (fun t => { tagReset with poison := t.poison }) })) s

/-- Tags written at gleaners and bales. -/
def State.putTags (s : State) (es : List (Nat × Nat × BaleTag)) : State :=
  es.foldl (fun s e => s.updGleaner e.1 (fun x => x.putTag e.2.1 e.2.2)) s

/-! ### Contexts (R376, R413) -/

/-- A context takes entries, with a new generation, in the device's entries and in every copy. The residency of its TIERED segments starts empty, and
units written in a frame are not written back: R76 leaves contents in place and names no write-back (DESIGN CHOICE, log 64). -/
def State.putContext (s : State) (c p state : Nat) (version : Word32) (segs : List SegCur) : State :=
  let gen := (s.ctx c).gen + 1
  let s1 := s.setCtx c { state := state, part := p, version := version, gen := gen, segs := segs }
  let copies := (List.range 30).foldl (fun t n => Tbl.set copyReset t (n * 256 + c) { segs := segs, gen := gen }) s1.xlt.copies
  let tiered := (List.range 16).foldl (fun t n => Tbl.set tieredReset t (c * 16 + n) tieredReset) s1.xlt.tiered
  { s1 with xlt := { s1.xlt with copies := copies, tiered := tiered } }

/-- The contexts of a partition's range. -/
def State.rangeContexts (s : State) (p : Nat) : List Nat :=
  match (s.part p).desc with
  | some d => (List.range d.contexts.2).map (fun i => d.contexts.1 + i)
  | none => []

/-- LIMIT of the load segment: the smaller of 256 MiB and the granary share, rounded down to 64 KiB (R413). -/
def State.loadLimit (s : State) (p : Nat) : Nat :=
  min (256 * 2 ^ 20) (sumNat ((s.partChannels p).map s.channelShare)) / 65536 * 65536

/-- The contexts of a partition without a plan: FREE, and the first with the load segment, whose bales bear its tags (R368, R413). -/
def State.putLoadSegment (s : State) (p : Nat) : State :=
  let limit := s.loadLimit p
  let cs := s.rangeContexts p
  let s1 := cs.foldl (fun s c => s.putContext c p 0 (s.ctx c).version
    (if c = s.ctxBase p ∧ limit ≠ 0 then [{ limit := limit, perm := permRead ||| permWrite ||| permHost ||| permValid }] else [])) s
  let c := s1.ctxBase p
  let tag : BaleTag := { owner := c, valid := true, partition := false, read := true, write := true, poison := false }
  if cs.isEmpty then s1
  else s1.putTags ((List.range (limit / 65536)).filterMap (fun i => ((s1.segPhys c 0 (65536 * i)).bind s1.physAt).map (fun x => (x.1, x.2 / 65536, tag))))

/-- The contexts of a plan, each with the entries of its record, and the others of the range FREE (R366, R376). -/
def State.putContexts (s : State) (p : Nat) (pl : Plan) : State :=
  (s.rangeContexts p).foldl (fun s c =>
    match pl.contexts.find? (fun r => r.context + s.ctxBase p == c) with
    | some r =>
      let segs := r.segments.zipIdx.map (fun (e : Segment × Nat) => if r.used.testBit e.2 then { limit := e.1.limit, perm := e.1.perm } else segCurReset)
      s.putContext c p 1 ((s.ctx c).version + 1) segs
    | none => s.putContext c p 0 ((s.ctx c).version + 1) []) s

/-- The windows of a partition's range become those of a plan, or none (R75, R377). -/
def State.putWindows (s : State) (p : Nat) (maps : List WindowMapping) : State :=
  match (s.part p).desc with
  | none => s
  | some d =>
    let windows := (List.range d.windows.2).foldl (fun t i =>
      Tbl.set [] t (d.windows.1 + i) ((maps.filter (fun m => m.window == i)).map (fun (m : WindowMapping) =>
        { context := m.context + s.ctxBase p, perm := m.perm, key := m.key, peer := m.peer, winOffset := m.winOffset, length := m.length
          target := m.target, cleared := false }))) s.xlt.windows
    { s with xlt := { s.xlt with windows := windows } }

/-! ### Taking a plan away -/

/-- The registry of a partition with the epochs that its boards hold (R77). -/
def State.currentRegistry (s : State) (p : Nat) : List RegEntry :=
  let x := s.part p
  match x.plan with
  | none => x.registry
  | some pl => x.registry.map (fun r => match pl.tables.find? (fun t => t.tableId == r.tableId) with
      | some t => { r with epoch := (Tbl.get { epoch := r.epoch, leases := [] } x.boards t.table).epoch }
      | none => r)

/-- What a gleaner keeps of a partition's tables is cleared: its cache, moved rows, retained copies, replicas, counters and move slots
(R76, R79). -/
def GleanerState.dropPart (x : GleanerState) (p : Nat) : GleanerState :=
  let mine (tk : Nat) : Bool := tk / 4096 == p
  { x with
    map := x.map.filter (fun d => !mine d.table), moved := x.moved.filter (fun m => !mine m.1)
    retained := x.retained.filter (fun r => !mine r.table), cache := x.cache.filter (fun c => !mine c.table)
    replicas := x.replicas.filter (fun r => !mine r.table), epochs := x.epochs.filter (fun e => !mine e.1)
    pinned := x.pinned.filter (fun e => !mine e.1), load := x.load.filter (fun e => e.1 / 2 ^ 20 != p)
    freeSlots := x.freeSlots.filter (fun e => e.1 / 2 ^ 20 != p), history := x.history.filter (fun e => e.1 / 2 ^ 20 != p)
    addBuffer := x.addBuffer.filter (fun e => !mine e.table) }

/-- The cores of a partition's clusters. -/
def State.coresOfPart (s : State) (p : Nat) : List Nat := (s.clustersOf p).flatMap (fun c => (List.range 8).map (fun j => 8 * c + j))

/-- The rows of a partition's tables that live in move slots are copied to their home slots, each as it stands, and no slot keeps FORWARD: a
retained table keeps its rows (R77; DESIGN CHOICE, log 74). -/
def State.returnRows (s : State) (p : Nat) : State :=
  let back (s : State) (g : Nat) (m : Nat × Nat × Nat) : State :=
    match s.rowHome p (m.1 % 4096) m.2.1 with
    | none => s
    | some (_, t, _, b) =>
      match s.bayGleaner b t (m.2.1 - b.firstRow) with
      | none => s
      | some h =>
        let off := s.baySlot b t (m.2.1 - b.firstRow)
        if (s.gleaner g).rangeBad m.2.2 t.slot then
          s.updGleaner h (fun y => (unitsOf off t.slot).foldl (fun y u => y.poison (u / 1024)) (y.markUnits off t.slot 2))
        else s.updGleaner h (fun y => y.putSlot off (slotForward ((s.gleaner g).slotAt m.2.2 t.slot) false))
  let s1 := s.gleaners.foldl (fun s e => (e.2.map.filter (fun d => d.table / 4096 == p && d.state == .forward)).foldl (fun s d =>
    s.updGleaner e.1 (fun x => { x with data := x.data.put d.offset (slotForward (x.slotAt d.offset 8) false) })) s) s
  s.gleaners.foldl (fun s e => (e.2.moved.filter (fun m => m.1 / 4096 == p)).foldl (fun s m => back s e.1 m) s) s1

/-- The plan of a partition is taken from its units: epochs go to the registry; bay maps, tags, windows, leases and caches are cleared, and
with `bins` the bins and programs of its cores and clusters (R75, R77). Granary and loft keep their contents (R76). -/
def State.takePlan (s : State) (p : Nat) (bins : Bool) : State :=
  let gs := s.gleanersOfPart p
  let s1 := (s.returnRows p).updPart p (fun x => { x with
    registry := s.currentRegistry p, plan := none, boards := [], heldPins := [], advances := [], rings := [] })
  let s2 := gs.foldl (fun s g => s.updGleaner g (fun x => x.dropPart p)) s1
  let s3 := (s2.clearTags gs).putWindows p []
  let s4 := { s3 with copyMaps := Tbl.mapWhere copyMapReset s3.copyMaps (fun _ _ => true) (fun (m : BayMapCopy) =>
    { moves := m.moves.filter (fun e => e.1 / 4096 != p), replicas := m.replicas.filter (fun r => r.table / 4096 != p) }) }
  let s5 := (s4.clustersOf p).foldl (fun s c => s.updCluster c (fun x => { x with
    leases := [], pinCount := [], bin := if bins then [] else x.bin })) s4
  (s5.coresOfPart p).foldl (fun s k => s.updCore k (fun x => { x with
    harrow := { x.harrow with codeLost := false }, codeBase := 0, sfu := { x.sfu with loaded := 0 }, bin := if bins then [] else x.bin })) s5

/-! ### Installing a plan -/

/-- A region of a core's bin that the plan declares for a pool and stage-relative index (R287). -/
def Plan.regionsOfCore (pl : Plan) (c stage idx kind : Nat) : List BinRegion :=
  pl.binMap.filter (fun r => r.scope == 0 && r.kind == kind && r.cluster == c && r.stage == stage && (r.core == idx || r.core == 0xFF))

/-- A core as a commit leaves it: the program in its CODE region, its TWIN regions, its microprograms (R47, R192, R288). What a TWIN region
holds is a free value. -/
def State.putCore (s : State) (c j k : Nat) (pl : Plan) : State :=
  match poolOfLogical (poolsSorted pl) c j with
  | none => s
  | some (pool, idx) =>
    let code := (pl.stageCode.drop pool.codeOffset).take pool.codeLength
    let base := (((pl.regionsOfCore c pool.stage idx 0).head?).map (fun r => 4096 * r.offset)).getD 0
    let twins := pl.regionsOfCore c pool.stage idx 2
    let n := s.freeCtr
    let s1 := s.updCore k (fun x => { x with
      codeBase := base, sfu := { x.sfu with loaded := BitVec.ofNat 7 pool.sfuCount }
      bin := twins.foldl (fun m r => m.put (4096 * r.offset) ((List.range (4096 * r.size)).map (fun i => Config.twinByte n k (4096 * r.offset + i))))
        (x.bin.put base code) })
    s1.tookFree

/-- The cores of a partition take their logical numbers' programs (R46). -/
def State.putCores (s : State) (p : Nat) (pl : Plan) : State :=
  (s.clustersOf p).foldl (fun s c => (List.range 7).foldl (fun s j => match s.physicalOf c j with
    | some k => s.putCore c j k pl
    | none => s) s) s

/-- The epochs with which a plan's tables start: those of the registry for RETAIN, else 1 (R77). -/
def startEpoch (reg : List RegEntry) (t : TableDesc) : Nat :=
  if t.retain then (((reg.find? (fun r => r.tableId == t.tableId)).map (fun r => r.epoch)).getD 1) else 1

/-- A partition's tables at its copies and boards: every copy holds a lease on the starting epoch (R233, R234). -/
def State.putBoards (s : State) (p : Nat) (pl : Plan) (reg : List RegEntry) : State :=
  let ks := s.copiesOfPart p
  let s1 := s.updPart p (fun x => { x with
    boards := pl.tables.foldl (fun t d => Tbl.set { epoch := 0, leases := [] } t d.table
      { epoch := startEpoch reg d, leases := ks.map (fun k => (k, startEpoch reg d)) }) [] })
  (s.clustersOf p).foldl (fun s c => s.updCluster c (fun x => { x with
    leases := pl.tables.foldl (fun t d => Tbl.set 0 t d.table (startEpoch reg d)) [], pinCount := [] })) s1

/-- A table at one of its gleaners: its epoch and pins, its default row in the cache (R222, R227), and the free move slots of its bays
there (R244). -/
def State.putTable (s : State) (g p : Nat) (pl : Plan) (t : TableDesc) (epoch : Nat) : State :=
  let tk := tableKey p t.table
  let here := (pl.baysOf t.table).filter (fun e => s.bayGleaner e.2 t 0 == some g)
  let slots := here.foldl (fun f e =>
    Tbl.set [] f (bayKey p e.1) ((List.range e.2.spare).map (fun i => s.baySlot e.2 t (e.2.rows + i)))) (s.gleaner g).freeSlots
  s.updGleaner g (fun x => { x with
    epochs := Tbl.set 0 x.epochs tk epoch, pinned := Tbl.set [] x.pinned tk [epoch], freeSlots := slots
    cache := x.cache ++ [{ table := tk, row := 0, kind := 2, slot := pl.defaultOf t.table, recency := 0, markers := 0, withdrawing := false, hits := 0 }] })

/-- The registry that a plan leaves (R77). -/
def LoadEnv.registry (e : LoadEnv) (old : List RegEntry) : List RegEntry :=
  (tableEntries e.r e.ds).map (fun x =>
    let t := readTable e.r x.2
    { tableId := t.tableId, digest := e.digest x.2, epoch := startEpoch old t
      channels := ((e.pl.rangeBays t).filter (fun b => b.table == t.table)).map (fun b => chanOf b.tier b.channel) })

/-- The tag after another (R73). -/
def nextTag (t : Word16) : Word16 := if t + 1 = 0 then 1 else t + 1

/-- The commit of a plan (R71, R73, R77, R376): the partition, its contexts, tags, windows, tables, bins and cores take it, and
FLT_CTX STOPPED clears in its contexts. -/
def State.install (s : State) (e : LoadEnv) : State :=
  let p := e.p
  let pl := e.pl
  let old := s.currentRegistry p
  let s0 := s.takePlan p false
  let s1 := s0.updPart p (fun x => { x with plan := some pl, tag := nextTag x.tag, registry := e.registry old })
  let s2 := (s1.putContexts p pl).putWindows p pl.windows
  let runs := pl.fixedRuns ++ pl.contexts.flatMap (fun r => (bitsSet r.used 16).flatMap (fun n => match r.segments[n]? with
    | some g => g.runs g.limit
    | none => []))
  let s3 := s2.putTags (s2.tagsWanted p pl runs)
  let s4 := s3.putBoards p pl old
  let s5 := pl.tables.foldl (fun s t => (s.tableGleaners p t.table).foldl (fun s g => s.putTable g p pl t (startEpoch old t)) s) s4
  let s6 := s5.putCores p pl
  let clear (n : Nat) (_ : CtxFaults) : Bool := (s6.rangeContexts p).contains n
  { s6 with faults := { s6.faults with ctxs := Tbl.mapWhere ctxFaultsReset s6.faults.ctxs clear (fun x => { x with stopped := false }) } }

/-- The plan of a partition is unloaded: its contexts are FREE again and the first has the load segment (R75, R413). -/
def State.uninstall (s : State) (p : Nat) : State := (s.takePlan p true).putLoadSegment p

end Sys2Proof.Machine
end

