-- ==== Sys2Proof/Machine/Loader.lean ====
section
/-!
DEFINITION. The loader's commands (spec 02): defining partitions, loading, replacing and unloading plans (R36 to R43, R60 to R80).
-/

namespace Sys2Proof.Machine

/-! ### Partition descriptors (R37, R40) -/

/-- A pair of 16-bit halves of a word. -/
def halves (w : Nat) : Nat × Nat := (w % 65536, w / 65536 % 65536)

/-- The descriptor in 256 bytes. -/
def parseDesc (b : List Byte) : PartitionDesc :=
  { clusters := fieldLE b 4 4, granary := (List.range 12).map (fun st => (fieldLE b (8 + 2 * st) 1, fieldLE b (9 + 2 * st) 1))
    loft := fieldLE b 0x20 8, queues := halves (fieldLE b 0x28 4), semaphores := halves (fieldLE b 0x2C 4)
    contexts := halves (fieldLE b 0x30 4), windows := halves (fieldLE b 0x34 4), ports := fieldLE b 0x38 4, functions := fieldLE b 0x3C 4
    d2dCredits := (List.range 16).map (fun l => halves (fieldLE b (0x40 + 4 * l) 4)), igrumCredits := (List.range 64).map (fun i => fieldLE b (0x80 + i) 1) }

/-- Whether a descriptor names no resource (R40). -/
def PartitionDesc.empty (d : PartitionDesc) : Bool :=
  d.clusters == 0 && d.granary.all (fun g => g.2 == 0) && d.loft == 0 && d.queues.2 == 0 && d.semaphores.2 == 0 && d.contexts.2 == 0 &&
    d.windows.2 == 0 && d.ports == 0 && d.functions == 0 && d.d2dCredits.all (fun c => c == (0, 0)) && d.igrumCredits.all (fun c => c == 0)

/-- The descriptors of the partitions other than one. -/
def State.otherDescs (s : State) (p : Nat) : List PartitionDesc :=
  ((List.range 8).filter (fun q => q != p)).filterMap (fun q => (s.part q).desc)

/-- The first unit of a mask that others hold, or that the device does not have. -/
def maskConflict (mine : Nat) (others : List Nat) (width n : Nat) : Option Nat :=
  (bitsSet mine width).find? (fun i => decide (n ≤ i) || others.any (fun o => o.testBit i))

/-- The first number of a range that another range holds, or that the device does not have. -/
def rangeConflict (mine : Nat × Nat) (others : List (Nat × Nat)) (n : Nat) : Option Nat :=
  ((List.range mine.2).map (fun i => mine.1 + i)).find? (fun x => decide (n ≤ x) || others.any (fun o => decide (o.1 ≤ x) && decide (x < o.1 + o.2)))

/-- The die-to-die credits of a link open to partitions, in each direction (R58). -/
def d2dPool (l : Nat) : Nat := if l = 0 then 7936 else if l ≤ 2 then 3968 else if l ≤ 14 then 1984 else 0

/-- The credits of a descriptor on link × 2 + direction (R40, R74). -/
def PartitionDesc.d2d (d : PartitionDesc) (u : Nat) : Nat :=
  let c := d.d2dCredits.getD (u / 2) (0, 0)
  if u % 2 = 0 then c.1 else c.2

/-- The first die-to-die pool that the shares exceed. -/
def d2dConflict (d : PartitionDesc) (others : List PartitionDesc) : Option Nat :=
  (List.range 32).find? (fun u => d.d2d u != 0 && decide (d2dPool (u / 2) < d.d2d u + sumNat (others.map (fun o => o.d2d u))))

/-- The first Igrum pool that the shares exceed, port × 8 + VC and 64 more for half b of a port in MODE 2 (R462, R463). -/
def State.igrumConflict (s : State) (d : PartitionDesc) (others : List PartitionDesc) : Option Nat :=
  (List.range 128).find? (fun u =>
    let i := u % 64
    let half := decide (64 ≤ u)
    let two := (s.eth (i / 8)).mode == 2
    let share (o : PartitionDesc) : Nat := if two && !o.ports.testBit (2 * (i / 8) + half.toNat) then 0 else o.igrumCredits.getD i 0
    let mine := d.igrumCredits.getD i 0
    (two || !half) && mine != 0 && decide ((if two then 124 else 248) < max mine (share d + sumNat (others.map share))))

/-- The first port half taken from a partition that a valid peer of it still names (R485). -/
def State.portTaken (s : State) (p : Nat) (d : PartitionDesc) : Option Nat :=
  (List.range 16).find? (fun i => s.holdsPort p (i / 2) (i % 2 == 1) && !d.ports.testBit i &&
    (List.range 128).any (fun k => entryValid (s.peerEntry k) && s.partOfCtx (entryCtx (s.peerEntry k)) == some p &&
      (peerPaths (s.peerEntry k)).any (fun x => pathPort (s.pathEntry x.2) == i / 2 && pathHalf (s.pathEntry x.2) == (i % 2 == 1))))

/-- The first conflicting resource of a definition, in the descriptor's field order (R40, R74). A queue range that is no multiple of 8 and units
that the device does not have count as conflicts, UNIT being their first number: the spec names no answer for them (R37; DESIGN CHOICE,
log 63). -/
def State.conflict (s : State) (p : Nat) (d : PartitionDesc) : Option Nat :=
  let os := s.otherDescs p
  let granary := ((d.granary.zipIdx.flatMap (fun e => (List.range e.1.2).map (fun i => (e.2, e.1.1 + i)))).find? (fun x =>
    decide (31 ≤ x.2) || os.any (fun o => let g := o.granary.getD x.1 (0, 0); decide (g.1 ≤ x.2) && decide (x.2 < g.1 + g.2)))).map
      (fun x => 32 * x.1 + x.2)
  let uneven := if d.queues.1 % 8 = 0 ∧ d.queues.2 % 8 = 0 then none else some d.queues.1
  ([ maskConflict d.clusters (os.map (fun o => o.clusters)) 32 24, granary, (maskConflict d.loft (os.map (fun o => o.loft)) 64 64).map (fun n => 384 + n),
     uneven, rangeConflict d.queues (os.map (fun o => o.queues)) 1024, rangeConflict d.semaphores (os.map (fun o => o.semaphores)) 256,
     rangeConflict d.contexts (os.map (fun o => o.contexts)) 256, rangeConflict d.windows (os.map (fun o => o.windows)) 256,
     maskConflict d.ports (os.map (fun o => o.ports)) 32 16, s.portTaken p d, maskConflict d.functions (os.map (fun o => o.functions)) 32 32,
     d2dConflict d os, s.igrumConflict d os ] : List (Option Nat)).findSome? (fun x => x)

/-! ### PARTITION_DEFINE (R40, R41, R77, R404) -/

/-- Whether a partition is loading (R70). -/
def State.loading (s : State) (p : Nat) : Bool := s.loader.loads.any (fun l => l.part == p)

/-- The home instance of a partition defined by a function (R404). -/
def homeOf (d : PartitionDesc) (f : Nat) : Nat :=
  let a := (bitsSet (d.clusters % 4096) 12).length
  let b := (bitsSet (d.clusters / 4096) 12).length
  if b < a then 0 else if a < b then 1 else f / 16

/-- The partition takes a descriptor: the registry loses the tables of channels removed, contexts that leave its range are FREE, and the
load segment goes until the definition completes (R40, R41, R77, R404, R413). -/
def State.redefine (s : State) (p : Nat) (d : PartitionDesc) (f : Nat) : State :=
  let x := s.part p
  let chans := d.channels
  let gone := match x.desc with
    | some o => o.channels.filter (fun c => !chans.contains c)
    | none => []
  let fresh := x.desc.isNone
  let s1 := (s.rangeContexts p).foldl (fun s c => s.putContext c 0 0 (s.ctx c).version []) (s.clearTags (s.gleanersOfPart p))
  s1.updPart p (fun x => { x with
    desc := some d, home := if fresh then homeOf d f else x.home
    registry := if fresh then [] else x.registry.filter (fun r => !r.channels.any gone.contains) })

/-- A partition is deleted: it holds nothing but its tag (R40, R73, R77). -/
def State.deletePart (s : State) (p : Nat) : State :=
  let s1 := (s.rangeContexts p).foldl (fun s c => s.putContext c 0 0 (s.ctx c).version []) (s.clearTags (s.gleanersOfPart p))
  State.settleSysArea (s1.setPart p { partReset with tag := (s.part p).tag })

/-- PARTITION_DEFINE: refused, or the partition takes the descriptor and what enters it is scrubbed. R40 refuses with PARTITION_BUSY where the
partition holds a plan; that a partition that is loading or still being scrubbed is busy too is the model's choice (DESIGN CHOICE, log 63). -/
def execPartitionDefine (f : Nat) (s : State) : Answer :=
  onAdminRaw f 0x80 s (fun s c =>
    let addr := c.field 0 8
    let b := c.inline
    let p := fieldLE b 0 1
    let d := parseDesc b
    let tag := (s.part p).tag.toNat
    let answer (s : State) (r : Refused) : State := s.answerAdmin f addr (resultRecord r tag 0 (s.devTime - c.fetched))
    if !s.adminResultOk f addr 64 ∨ 8 ≤ p ∨ fieldLE b 1 3 ≠ 0 ∨ fieldLE b 0xC0 64 ≠ 0 then s.finishAdmin f codeBounds
    else if f % 16 ≠ 0 then answer s (refuse 0x0504)
    else if (s.planOf p).isSome ∨ s.loading p ∨ s.loader.scrubs.any (fun x => x.part == p) then answer s (refuse 0x0501)
    else if d.empty then answer (s.deletePart p) (refuse 0)
    else
      match s.conflict p d with
      | some u => answer s { refuse 0x0503 with unit := u }
      | none =>
        let old := (s.part p).desc
        let enter := d.channels.filter (fun ch => !(match old with
          | some o => o.channels.contains ch
          | none => false))
        let clusters := (bitsSet d.clusters 24).filter (fun n => !(match old with
          | some o => o.clusters.testBit n
          | none => false))
        let job : Scrub := { fn := f, result := addr, part := p, clusters := sumNat (clusters.map (fun n => 2 ^ n)), channels := enter }
        ((s.redefine p d f).updLoader (fun l => { l with scrubs := l.scrubs ++ [job] })).beginAdmin f)

/-- A channel that enters a partition is zero with valid ECC above the system area, its gleaner holding nothing (R41, R305). -/
def GleanerState.scrub (x : GleanerState) (base : Nat) : GleanerState :=
  let tags := Tbl.mapWhere tagReset x.tags (fun b _ => decide (base / 65536 ≤ b)) (fun t => { t with poison := false })
  { x with
    data := x.data.filter (fun e => decide (e.1 < base)), badRest := 0
    bad := if x.badRest = 0 then x.bad.filter (fun e => decide (e.1 < base / 64))
      else (List.range (base / 64)).foldl (fun t u => Tbl.set 0 t u (x.unitBad u)) []
    tags := tags, poisoned := (tags.filter (fun e => e.2.poison)).length
    cache := [], moved := [], retained := [], replicas := [], stubs := [], load := [], freeSlots := [] }

/-- PARTITION_SCRUB_DONE: the channels and clusters that entered are clear, and PARTITION_DEFINE answers (R41). A channel that
start-up has not tested waits for its test (R563). -/
def execPartitionScrubDone (p : Nat) (s : State) : Answer :=
  onPart p s (fun s =>
    match s.loader.scrubs.find? (fun x => x.part == p) with
    | none => .next s
    | some job =>
      let gs := (job.channels.flatMap s.behind).eraseDups
      if gs.any (fun g => (s.gleaner g).test.phase == 1) then .next s
      else
        let s1 := gs.foldl (fun s g => s.updGleaner g (fun x => x.scrub (if g < 384 then s.sysArea * 2 ^ 20 else 0))) s
        let clusters := bitsSet job.clusters 24
        let s2 := clusters.foldl (fun s c => (List.range 8).foldl (fun s j => s.updCore (8 * c + j) (fun x => { x with bin := [], codeBase := 0 }))
          (s.updCluster c (fun x => { x with bin := [] }))) s1
        let s3 := (s2.updLoader (fun l => { l with scrubs := l.scrubs.filter (fun x => x.part != p) })).putLoadSegment p
        let elapsed := s.devTime - ((s.admin job.fn).map (fun c => c.fetched)).getD s.devTime
        .next (s3.answerAdmin job.fn job.result (resultRecord (refuse 0) (s3.part p).tag.toNat 0 elapsed)))

/-! ### PLAN_LOAD and LOAD_START (R62, R67, R68, R70) -/

/-- PLAN_LOAD: BOUNDS where image or record lies outside its segment, a refusal at once, or a load that waits for its turn. -/
def execPlanLoad (f : Nat) (s : State) : Answer :=
  onAdminRaw f 0x81 s (fun s c =>
    let p := c.field 0 1
    let flags := c.field 1 1
    let rel := c.field 2 1
    let image := c.field 3 8
    let len := c.field 11 4
    let result := c.field 15 8
    match (s.part p).desc with
    | none => s.finishAdmin f codeBounds
    | some d =>
      let ctx := d.contexts.1 + rel
      let copy := 24 + f / 16
      if 8 ≤ p ∨ d.contexts.2 ≤ rel ∨ 4 ≤ flags ∨ (len ≠ 0 ∧ !s.extentOk copy ctx image (image + len - 1 : Nat) permRead) ∨
          !s.extentOk copy ctx result (result + 63 : Nat) permWrite then s.finishAdmin f codeBounds
      else
        let record := s.physRun ctx result 64
        let refuseNow (code : Nat) : State :=
          (s.putPhys record (resultRecord (refuse code) (s.part p).tag.toNat 0 (s.devTime - c.fetched))).finishAdmin f 0
        if !s.ownsPart f p then refuseNow 0x0504
        else if s.loading p ∨ ((s.planOf p).isSome ∧ !flags.testBit 1) then refuseNow 0x0501
        else
          let l : Load := { fn := f, part := p, mirror := flags.testBit 0, replace := flags.testBit 1, source := s.physRun ctx image len
                            record := record, fetched := c.fetched, phase := .waiting, image := [], coreMap0 := [], stacks0 := [], loft0 := 0
                            sysArea0 := 0, decided := 0 }
          (s.updLoader (fun x => { x with
            loads := x.loads.filter (fun m => decide (m.fetched ≤ l.fetched)) ++ [l] ++ x.loads.filter (fun m => decide (l.fetched < m.fetched)) })).beginAdmin f)

/-- The state with the load of a partition changed. -/
def State.updLoad (s : State) (p : Nat) (f : Load → Load) : State :=
  s.updLoader (fun x => { x with loads := x.loads.map (fun l => if l.part = p then f l else l) })

/-- Whether a PLAN_LOAD that was fetched before a load has not yet joined the loads (R70). -/
def State.earlierLoad (s : State) (l : Load) : Bool :=
  (List.range 32).any (fun f => match s.adminOf f 0x81 with
    | some c => decide (c.fetched < l.fetched)
    | none => false)

/-- LOAD_START: the first waiting load copies its image, at most two being in staging (R62, R70). -/
def execLoadStart (s : State) : Answer :=
  let staged := s.loader.loads.filter (fun l => l.phase != LoadPhase.waiting)
  match s.loader.loads.find? (fun l => l.phase == LoadPhase.waiting) with
  | none => .next s
  | some l =>
    if 2 ≤ staged.length ∨ s.earlierLoad l = true then .next s
    else .next (s.updLoad l.part (fun l => { l with
      phase := .staged, image := s.physBytes l.source, coreMap0 := s.coreMap, stacks0 := s.stackMaps, loft0 := s.loft.out, sysArea0 := s.sysArea }))

/-! ### LOAD_DECIDE (R42, R43, R60 to R66, R71, R72) -/

/-- Reads of a staged image. -/
def readerOf (image : List Byte) : Reader := fun o n => fieldLE image o n

/-- PLAN_ID of a load's record (R68). -/
def Load.planId (l : Load) : Nat := if l.image.length < 256 then 0 else fieldLE l.image 0x18 16

/-- Steps 1 to 8 of R65 on a staged image: header, signature, key slot, floor, MIRRORABLE. -/
def State.headerCheck (s : State) (l : Load) : Check :=
  let r := readerOf l.image
  let h := readHeader r
  let sig := h.length - 128
  let key := Tbl.get keyReset s.loader.keys h.keySlot
  let formatOk := decide (384 ≤ h.length) && decide (h.length ≤ 2 ^ 28) && decide (h.length ≤ l.image.length) && h.directory % 64 == 0 &&
    decide (256 ≤ h.directory) && decide (1 ≤ h.sections) && decide (h.sections ≤ 64) && decide (h.directory + 32 * h.sections ≤ sig) &&
    decide (h.keySlot ≤ 7) && decide (h.flags < 4) && r 0x44 188 == 0 && r (sig + 0x62) 30 == 0
  let signed := r (sig + 0x60) 2 == h.keySlot &&
    ecdsaVerifies key.key (beNat ((l.image.drop sig).take 48)) (beNat ((l.image.drop (sig + 0x30)).take 48)) (sha384 (l.image.take sig))
  firstOf
    [ must (decide (256 ≤ l.image.length) && h.magic == 0x48534C47) (refuse 0x0201),
      must (h.target != 0x7040) (refuse 0x0202),
      must (h.target == 0x9120 && h.steppings.testBit s.loader.stepping) (refuse 0x0203),
      must (h.major == 3 && decide (h.minor ≤ 7)) (refuse 0x0204),
      must formatOk (refuse 0x0201),
      must (key.state != 0) { refuse 0x0102 with unit := h.keySlot },
      must (key.state == 1) { refuse 0x0103 with unit := h.keySlot },
      must signed (refuse 0x0101),
      must (decide (key.floor ≤ h.security)) { refuse 0x0104 with requested := h.security, available := key.floor },
      must (!l.mirror || h.flags.testBit 0) (refuse 0x0507) ]

/-- What the section checks and counts of a load look at; none where the partition is gone. -/
def State.envOf (s : State) (l : Load) : Option LoadEnv :=
  let r := readerOf l.image
  (s.part l.part).desc.map (fun d =>
    { r := r, mr := l.mirror, ds := readDirs r (readHeader r), pl := readPlan r l.mirror, d := d, s := s, p := l.part })

/-- The capacity as it stood when the load started (R71). -/
def State.asStarted (s : State) (l : Load) : State :=
  { s with coreMap := l.coreMap0, stackMaps := l.stacks0, loft := { s.loft with out := l.loft0 }, sysArea := l.sysArea0 }

/-- The counts, a failure that capacity lost since the load started has caused being CAPACITY_CHANGED (R71). -/
def State.countCheck (s : State) (l : Load) (e : LoadEnv) : Check :=
  match e.counts with
  | none => none
  | some r => if (LoadEnv.counts { e with s := s.asStarted l }).isNone then some { r with code := 0x0505 } else some r

/-- The decision on a staged image (R65). -/
def State.decision (s : State) (l : Load) : Check :=
  match s.headerCheck l with
  | some r => some r
  | none =>
    match s.envOf l with
    | none => some (refuse 0x0502)
    | some e => firstOf [structureCheck e.r, e.checksLow, e.checksHigh, s.countCheck l e]

/-- A load ends with a record, and its command completes OK (R68). -/
def State.endLoad (s : State) (l : Load) (r : Refused) (elapsed : Nat) : State :=
  let s1 := s.putPhys l.record (resultRecord r (s.part l.part).tag.toNat l.planId elapsed)
  (s1.updLoader (fun x => { x with loads := x.loads.filter (fun m => m.part != l.part) })).finishAdmin l.fn 0

/-- RAISE_FLOOR at commit (R61). -/
def State.raiseFloor (s : State) (l : Load) : State :=
  let h := readHeader (readerOf l.image)
  let key := Tbl.get keyReset s.loader.keys h.keySlot
  if h.flags.testBit 1 ∧ key.floor < h.security then
    s.updLoader (fun x => { x with keys := Tbl.set keyReset x.keys h.keySlot { key with floor := h.security } })
  else s

/-- LOAD_DECIDE: the first staged load is refused, or commits; a replacement first drains the old plan's commands (R65, R71, R78). It waits while a
load fetched earlier has yet to come (R70). -/
def execLoadDecide (s : State) : Answer :=
  match s.loader.loads.find? (fun l => l.phase == LoadPhase.staged) with
  | none => .next s
  | some l =>
    if s.earlierLoad l then .next s else
    match s.decision l with
    | some r => .next (s.endLoad l r (s.devTime - l.fetched))
    | none =>
      if (s.planOf l.part).isSome then
        .next ((s.updLoad l.part (fun l => { l with phase := .draining, decided := s.devTime })).updPart l.part (fun x => { x with halted := true }))
      else .next ((s.raiseFloor l).updLoad l.part (fun l => { l with phase := .installing, decided := s.devTime }))

/-- LOAD_INSTALL_DONE: the plan of partition `p` is in force, and the record and completion are written (R68, R71). -/
def execLoadInstallDone (p : Nat) (s : State) : Answer :=
  onPart p s (fun s =>
    match s.loader.loads.find? (fun l => l.part == p && (l.phase == LoadPhase.installing || l.phase == LoadPhase.installed)) with
    | none => .next s
    | some l =>
      let s1 := if l.phase = .installed then s else match s.envOf l with
        | some e => s.install e
        | none => s
      .next (s1.endLoad l (refuse 0) (l.decided - l.fetched)))

/-! ### PLAN_SWITCH (R78, R79) -/

/-- Whether every fetched command of a partition has completed, its segment and window changes among them (R75, R78, R376). -/
def State.drained (s : State) (p : Nat) : Bool :=
  (List.range 32).all (fun f => match s.admin f with
    | some c => !(decide (0x85 ≤ c.op) && decide (c.op ≤ 0x87) && s.changePart f == p)
    | none => true) &&
  s.gfe.queues.all (fun e => e.2.state == 0 || e.2.part != p || e.2.cmds.all (fun c => c.phase == CmdPhase.complete))

/-- PLAN_SWITCH: the old plan's commands have drained: held pins are released and remembered, the new plan is installed, the tag
advances and fetching resumes; lost capacity refuses the load and the old plan serves on (R71, R78, R79). -/
def execPlanSwitch (p : Nat) (s : State) : Answer :=
  onPart p s (fun s =>
    match s.loader.loads.find? (fun l => l.part == p && l.phase == LoadPhase.draining) with
    | none => .next s
    | some l =>
      if !s.drained p then .next s
      else
        match s.envOf l with
        | none => .next s
        | some e =>
          match e.counts with
          | some r => .next ((s.endLoad l { r with code := 0x0505 } (s.devTime - l.fetched)).updPart p (fun x => { x with halted := false }))
          | none =>
            let pins := (s.part p).heldPins
            let s1 := ((s.dropPins p (fun _ => true)).raiseFloor l).install e
            .next ((s1.updPart p (fun x => { x with halted := false, lapsedPins := x.lapsedPins ++ pins })).updLoad p (fun l => { l with phase := .installed })))

/-! ### PLAN_UNLOAD (R75, R76) -/

/-- PLAN_UNLOAD: fetching stops; in ABORT mode every engine with the partition's work is sent an abort. -/
def execPlanUnload (f : Nat) (s : State) : Answer :=
  onAdmin f 0x82 2 s (fun s c =>
    let p := c.field 0 1
    let mode := c.field 1 1
    let answer (n : Nat) : State := s.answerAdmin f (c.field 2 8) (natLE 4 n)
    if 8 ≤ p ∨ 2 ≤ mode then answer outBad
    else if !s.ownsPart f p then answer outNotOwner
    else if (s.planOf p).isNone then answer outNoPlan
    else
      let u : Unload := { fn := f, part := p, abort := mode == 1, result := c.field 2 8 }
      let s1 := (s.updLoader (fun l => { l with unloads := l.unloads ++ [u] })).updPart p (fun x => { x with halted := true })
      (if mode = 1 then (s1.rangeContexts p).foldl (fun s c => s.stopContext c codeAborted) s1 else s1).beginAdmin f)

/-- Every semaphore of a partition is revoked and its HOLDER released, and its waiters are abandoned (R75, R418). -/
def State.revokePart (s : State) (p : Nat) : State :=
  State.abandonRevoked { s with gfe := { s.gfe with sems := (List.range (s.semCount p)).foldl (fun t i =>
      Tbl.set semReset t (s.semBase p + i) { Tbl.get semReset t (s.semBase p + i) with revoked := true, holder := none }) s.gfe.sems } }

/-- The plan of a partition goes after its work has stopped: pins and semaphores are released and the plan's state cleared (R75). -/
def State.unloadPart (s : State) (p : Nat) : State :=
  ((((s.dropPins p (fun _ => true)).revokePart p).uninstall p).updPart p (fun x => { x with halted := false, lapsedPins := [] }))

/-- UNLOAD_COMPLETE: in WAIT mode once every fetched command has completed, in ABORT mode once every engine has acknowledged (R75). -/
def execUnloadComplete (p : Nat) (s : State) : Answer :=
  onPart p s (fun s =>
    match s.loader.unloads.find? (fun u => u.part == p) with
    | none => .next s
    | some u =>
      if (if u.abort then (s.rangeContexts p).any s.ctxBusy else !s.drained p) then .next s
      else
        let s1 := (s.rangeContexts p).foldl (fun s c => s.finishStopped c) s
        let s2 := (s1.unloadPart p).updLoader (fun l => { l with unloads := l.unloads.filter (fun x => x.part != p) })
        .next (s2.answerAdmin u.fn u.result (natLE 4 outDone)))

end Sys2Proof.Machine
end

