-- ==== Sys2Proof/Machine/Preempt.lean ====
section
/-!
DEFINITION. Priority inheritance, full pre-emption and accounting (spec 16): the conditions of R439 and R440, quiesce, save and resume
(R441 to R446), energy (R451) and the snapshot (R452).
-/

namespace Sys2Proof.Machine

/-! ### Full pre-emption (R439, R440) -/

/-- PREEMPT_WAIT in ns: 0 acts as 1 µs, values above 10,000 as 10,000 (R453). -/
def SchedRegs.waitNs (r : SchedRegs) : Nat := 1000 * min 10000 (max 1 r.preemptWait.toNat)
/-- FULL_GAP: 0 acts as 1 (R453). -/
def SchedRegs.gap (r : SchedRegs) : Nat := max 1 r.fullGap.toNat

/-- Whether a core is an eligible victim for a waiting item (R440): it runs an item of the pool or of a compatible one, holds no saved
item, is in no harrow pass, and its item's effective priority is at least FULL_GAP below. -/
def State.eligible (s : State) (k : Nat) (phase : CorePhase) (i : WorkItem) : Bool :=
  let c := s.core k
  match c.item, s.poolOf k with
  | some r, some (_, pool, _) =>
    c.phase == phase && c.saved.isNone && c.harrow.phase != 2 && compatible pool i.stage && s.mayRun k i &&
      decide (s.effPrio r + (s.cluster (clusterOf k)).sched.gap ≤ s.effPrio i)
  | _, _ => false

/-- How victims rank: lowest effective priority, then latest start (R440). -/
def State.victimKey (s : State) (k : Nat) : Nat :=
  match (s.core k).item with
  | some r => s.effPrio r * (s.devTime + 1) + (s.devTime - r.started)
  | none => 0

/-- Whether the pool of an item's stage has FULL_PREEMPT set (R46). -/
def State.mayForce (s : State) (c : Nat) (i : WorkItem) : Bool :=
  match (s.clusterPlan c).bind (fun pl => pl.pool i.stage) with
  | some p => p.fullPreempt
  | none => false

/-- The victim's quiesce starts: the core issues nothing more and its unadmitted transfers are held (R357, R441). -/
def State.startQuiesce (s : State) (k : Nat) (i : Option WorkItem) : State :=
  let c := clusterOf k
  let s1 := (s.updCore k (fun x => { x with phase := .quiesce })).moveTransfers c k k true
  s1.updCluster c (fun x => { x with preempts := x.preempts ++ [{ core := k, waiting := i, since := s.devTime }] })

/-- The conditions of R439 for one listed item; at most one pre-emption is started for it. -/
def State.tryPreempt (s : State) (c : Nat) (i : WorkItem) : State :=
  let x := s.cluster c
  if i.forced ∨ x.sched.fullDisable ∨ 2 ≤ x.preempts.length ∨ s.devTime < i.entered + x.sched.waitNs ∨ !s.mayForce c i then s
  else
    match argMin s.victimKey (((List.range 8).map (fun j => 8 * c + j)).filter (fun k => s.eligible k .running i)) with
    | none => s
    | some k =>
      let s1 := s.updCluster c (fun x => { x with
        ready := Tbl.modify [] x.ready i.stage (fun xs => xs.map (fun y => if y = i then { y with forced := true } else y)) })
      s1.startQuiesce k (some i)

/-- The test of a cluster's lists, in list order (R439). -/
def State.preemptCheck (s : State) (c : Nat) : State :=
  (((s.cluster c).ready.flatMap Prod.snd).mergeSort (fun a b => s.listKey a ≤ s.listKey b)).foldl (fun s i => s.tryPreempt c i) s

/-- PRIORITY_UPDATE: the home instance of a partition has recomputed the inherited priorities of its contexts, which reach its ready
lists; the conditions of a full pre-emption are tested again (R431, R432, R434, R439). -/
def execPriorityUpdate (p : Nat) (s : State) : Answer :=
  onPart p s (fun s =>
    match (s.part p).desc with
    | none => .next s
    | some d =>
      let new := s.inheritance
      let own (c : Nat) : Bool := decide (d.contexts.1 ≤ c) && decide (c < d.contexts.1 + d.contexts.2)
      let inherited := ((List.range d.contexts.2).map (· + d.contexts.1)).foldl (fun (t : Tbl Nat) c =>
        Tbl.set 0 t c (if own c then Tbl.get 0 new c else 0)) s.inherited
      .next ((bitsSet d.clusters 24).foldl (fun s c => s.preemptCheck c) { s with inherited := inherited }))

/-- PREEMPT_CHECK: the test that a cluster sequencer makes every 1 µs (R439). -/
def execPreemptCheck (c : Nat) (s : State) : Answer := onCluster c s (fun s => .next (s.preemptCheck c))

/-! ### Quiesce, save and resume (R441 to R446) -/

/-- CLS_SAVE_NS (R453). -/
def State.addSaveNs (s : State) (c n : Nat) : State :=
  s.updCluster c (fun x => { x with sched := { x.sched with saveNs := x.sched.saveNs + BitVec.ofNat 64 n } })

/-- The waiting item of a pre-emption as its list holds it now; none once it has left the list. -/
def State.stillWaiting (s : State) (c : Nat) (i : WorkItem) : Option WorkItem :=
  ((s.cluster c).listOf i.stage).find? (fun y => y == { i with forced := true })

/-- PREEMPT_QUIESCE_DONE: the victim's issued work is complete: the admitted transfers have completed, and the grid stops at its tile boundary, from
which a tile in progress is issued again (R160). The recheck cancels the pre-emption where the core is no longer eligible or nothing waits for it any more; otherwise the save
starts (R441; DEDUCED, log 46). A harrow pass's pre-emption has no waiting item and is not rechecked (R529). -/
def execPreemptQuiesceDone (k : Nat) (s : State) : Answer :=
  onCore k s (fun s =>
    let c := clusterOf k
    match (s.cluster c).preempts.find? (fun p => p.core == k) with
    | none => .next s
    | some p =>
      let x := s.core k
      if x.phase ≠ .quiesce ∨ (s.cluster c).dma.outstanding.any (fun t => t.core == k) then .next s
      else
        let s1 := s.addSaveNs c (s.devTime - p.since)
        let go := match p.waiting with
          | none => true
          | some i => match s.stillWaiting c i with
            | some y => s.eligible k .quiesce y
            | none => false
        if go then
          .next ((s1.updCore k (fun x => { x with phase := .saving, grid := x.grid.stopped })).updCluster c (fun y => { y with
            preempts := y.preempts.map (fun q => if q.core = k then { q with since := s.devTime } else q) }))
        else
          let s2 := (s1.updCore k (fun x => { x with phase := .running })).moveTransfers c k k false
          .next (s2.updCluster c (fun y => { y with
            preempts := y.preempts.filter (fun q => q.core != k), sched := { y.sched with cancelled := true } })))

/-- The device physical address of byte `off` of a core's save area (`kind` 0) or of its cluster's (R51, R363): 1 the STAGING slot of the core, 2 the
place of its item's sheaf record in the records' 1 MiB, an eighth of it for each core (R444; DESIGN CHOICE, log 46); none where the plan places none. -/
def State.savePhys (s : State) (k kind off : Nat) : Option Nat :=
  match s.clusterPlan (clusterOf k), s.logicalOf k with
  | some pl, some j =>
    match pl.saveMap.find? (fun a => a.kind == min kind 1 && a.cluster == clusterOf k && (kind != 0 || a.core == j)) with
    | some a => some (physAddr 0 a.channel (s.sysArea * 2 ^ 20 + a.offset * 4096 + (if kind = 1 then 2 ^ 20 * (j + 1) else if kind = 2 then 2 ^ 17 * j else 0) + off))
    | none => none
  | _, _ => none

/-- Bytes written into a save area; `true` says that some write ended LOST (R446). -/
def State.saveBytes (s : State) (k kind off : Nat) (bs : List Byte) : State × Bool :=
  (pieces (bs.length / 65536 + 2) off bs.length).foldl (fun (acc : State × Bool) q =>
    match (acc.1.savePhys k kind q.1).bind acc.1.physAt with
    | none => (acc.1, true)
    | some (g, o) => ((acc.1.rawWrite g 0 0 o ((bs.drop (q.1 - off)).take q.2) true).1, acc.2)) (s, false)

/-- Bytes read back from a save area; none where a read ends LOST (R446). -/
def State.savedBytes (s : State) (k kind off n : Nat) : Option (List Byte) :=
  (pieces (n / 65536 + 2) off n).foldl (fun (acc : Option (List Byte)) q =>
    match acc, (s.savePhys k kind q.1).bind s.physAt with
    | some bs, some (g, o) =>
      (match s.rawRead g 0 o q.2 true with
       | (0, cs) => some (bs ++ cs)
       | _ => none)
    | _, _ => none) (some [])

/-- The state sections of a core save area (0) and of its cluster's (2), where the sheaf record of the item lies: offset and size (R443, R444). Their bytes' layout inside a section is open, so they are free
values in memory (DEDUCED, log 46); what they hold is kept in the core's saved item. -/
def saveSections (i : WorkItem) : List (Nat × Nat × Nat) :=
  [(0, 0x00000, 256), (0, 0x00100, 17312), (0, 0x05000, 4352), (0, 0x07000, 512), (0, 0x08000, 512), (0, 0x10000, 65536), (0, 0x20000, 131072)] ++
    (match i.kind with
     | .sheaf _ => [(2, 0x00000, 0x20000)]
     | .share _ => [])

/-- Writing the state sections. -/
def State.saveState (s : State) (k : Nat) (i : WorkItem) : State × Bool :=
  (saveSections i).foldl (fun (acc : State × Bool) e =>
    let r := acc.1.saveBytes k e.1 e.2.1 (freeBytes acc.1.freeCtr e.2.2)
    ({ r.1 with freeCtr := r.1.freeCtr + e.2.2 / 8 }, acc.2 || r.2)) (s, false)

/-- Unit `n` of a STAGING slot: its offset in the slot and its size (R444). -/
def stagedUnit (size n : Nat) : Nat × Nat := (n * 4096, min 4096 (size - n * 4096))

/-- Writing the item's written units of the core bin and of its STAGING slot (R443, R444). -/
def State.saveUnits (s : State) (k : Nat) (i : WorkItem) : State × Bool :=
  let bin := (s.core k).bin
  let r := (bitsSet i.units 512).foldl (fun (acc : State × Bool) n =>
    let w := acc.1.saveBytes k 0 (0x40000 + n * 4096) (bin.bytes (n * 4096) 4096)
    (w.1, acc.2 || w.2)) (s, false)
  match s.stagingSlot k with
  | none => r
  | some (base, size) =>
    (bitsSet i.staged 256).foldl (fun (acc : State × Bool) n =>
      let u := stagedUnit size n
      let w := acc.1.saveBytes k 1 u.1 ((s.cluster (clusterOf k)).bin.bytes (base + u.1) u.2)
      (w.1, acc.2 || w.2)) r

/-- A core whose item has been saved or has ended in a full pre-emption is empty, and its context's sheaves of the item's stage close
with PREEMPT (R151, R441). Nothing the saved item keeps outside the core changes. -/
def State.leaveCore (s : State) (k : Nat) (i : WorkItem) : State :=
  let s1 := s.updCore k (fun c => { c with
    phase := .idle, item := none, held := [], vec := vecRegsReset, dmaMarks := []
    winnow := { c.winnow with queue := [] }
    grid := { c.grid with queue := [], flight := [], active := [], shadow := none, banks := [], discard := [] } })
  s1.flushSheaf (clusterOf k) i.ctx i.stage .preempt

/-- The core takes the item its pre-emption was for, if that is still listed, or its next one (R441). -/
def State.takeWaiting (s : State) (k : Nat) (p : Preemption) : State :=
  match p.waiting.bind (fun i => s.stillWaiting (clusterOf k) i), s.poolOf k with
  | some y, some (_, pool, _) => if s.mayTake k then s.takeListed k pool y else s
  | _, _ => s.takeNext k

/-- PREEMPT_SAVE_DONE: the save area is written, the context's sheaves of the stage close with cause PREEMPT, and the core takes the
waiting item. A save that ended LOST leaves an item without memory writes to restart from its start and ends any other, whose rows
carry WEIGHT_LOST (R441, R443, R444, R446, R450). -/
def execPreemptSaveDone (k : Nat) (s : State) : Answer :=
  onCore k s (fun s =>
    let c := clusterOf k
    let x := s.core k
    match (s.cluster c).preempts.find? (fun p => p.core == k), x.item with
    | some p, some i =>
      if x.phase ≠ .saving then .next s
      else
        let ns := s.devTime - p.since
        let by_ := p.waiting.map (fun w => w.ctx)
        let s1 := (s.addSaveNs c ns).chargeItem k
        let s2 := match by_ with
          | some w => s1.chargeCore w ns
          | none => s1
        let (s3, lost1) := s2.saveState k i
        let (s4, lost2) := s3.saveUnits k i
        let lost := lost1 || lost2
        let s5 := s4.updCluster c (fun y => { y with
          preempts := y.preempts.filter (fun q => q.core != k)
          sched := { y.sched with fullCount := y.sched.fullCount + 1, saveLost := y.sched.saveLost || lost } })
        if lost ∧ i.wrote then
          let s6 := (s5.sendAll (i.endNotices (s5.rowsOf i) markWeightLost codeOk)).freeRecord i
          .next ((((s6.releasePins i).dropTransfers c k).leaveCore k i).takeWaiting k p)
        else
          let saved : SavedItem :=
            { item := { i with preempted := true, started := s.devTime }, priority := s.effPrio i, vec := x.vec, held := x.held
              winnowQueue := x.winnow.queue, grid := x.grid, dmaMarks := x.dmaMarks, restart := lost, since := s.devTime, by_ := by_ }
          let s6 := if lost then s5.dropTransfers c k else s5.moveTransfers c k (k + 256) true
          .next (((s6.updCore k (fun y => { y with saved := some saved })).leaveCore k i).takeWaiting k p)
    | _, _ => .next s)

/-- Reading back the saved units of the bins; the second component says that a read ended LOST (R442, R446). -/
def State.restoreUnits (s : State) (k : Nat) (i : WorkItem) : State × Bool :=
  let r := (bitsSet i.units 512).foldl (fun (acc : State × Bool) n =>
    match acc.1.savedBytes k 0 (0x40000 + n * 4096) 4096 with
    | some bs => (acc.1.updCore k (fun c => { c with bin := c.bin.put (n * 4096) bs }), acc.2)
    | none => (acc.1, true)) (s, false)
  match s.stagingSlot k with
  | none => r
  | some (base, size) =>
    (bitsSet i.staged 256).foldl (fun (acc : State × Bool) n =>
      let u := stagedUnit size n
      match acc.1.savedBytes k 1 u.1 u.2 with
      | some bs => (acc.1.updCluster (clusterOf k) (fun c => { c with bin := c.bin.put (base + u.1) bs }), acc.2)
      | none => (acc.1, true)) r

/-- Whether every state section of a save area reads back. -/
def State.stateReadable (s : State) (k : Nat) (i : WorkItem) : Bool := (saveSections i).all (fun e => (s.savedBytes k e.1 e.2.1 e.2.2).isSome)

/-- RESUME_DONE: a saved item is read back and continues at its next instruction, with its held rows and transfers. An item whose save or
resume ended LOST restarts with PREEMPTED if it issued no memory write, and is ended with WEIGHT_LOST otherwise (R160, R189, R442,
R446). -/
def execResumeDone (k : Nat) (s : State) : Answer :=
  onCore k s (fun s =>
    let c := clusterOf k
    match (s.core k).saved with
    | none => .next s
    | some v =>
      if (s.core k).phase ≠ .resuming then .next s
      else
        let ns := s.devTime - v.since
        let s0 := (s.addSaveNs c ns).chargeCore v.item.ctx (s.devTime - v.item.started)
        let s1 := match v.by_ with
          | some w => s0.chargeCore w ns
          | none => s0
        let (s2, lost) := if v.restart then (s1, true)
          else
            let r := s1.restoreUnits k v.item
            (r.1, r.2 || !s1.stateReadable k v.item)
        let s3 := if lost then s2.updCluster c (fun x => { x with sched := { x.sched with saveLost := true } }) else s2
        let s4 := s3.updCore k (fun x => { x with saved := none, phase := .idle })
        if lost then
          let s5 := s4.dropTransfers c (k + 256)
          if v.item.wrote then
            let s6 := (s5.sendAll (v.item.endNotices (s5.rowsOf v.item) markWeightLost codeOk)).freeRecord v.item
            .next ((s6.releasePins v.item).takeNext k)
          else .next ((s5.resetRows v.item).startItem k { v.item with marks := 0 })
        else
          let s5 := s4.updCore k (fun x => { x with
            phase := .running, item := some { v.item with started := s.devTime }, vec := v.vec, held := v.held, dmaMarks := v.dmaMarks
            winnow := { x.winnow with queue := v.winnowQueue }
            grid := { x.grid with
              queue := v.grid.queue, active := v.grid.active, shadow := v.grid.shadow, banks := v.grid.banks, discard := v.grid.discard } })
          .next (s5.moveTransfers c (k + 256) k false))

/-! ### Accounting (R451, R452) -/

/-- t = (E_m − E_i) / E_a in unsigned Q2.14, clamped to 0.80–1.25, with CLAMPED; a sum of 0 leaves the factor where it stands (DEDUCED, log 47). -/
def energyFactor (old measured idle total : Nat) : Nat × Bool :=
  if total = 0 then (old, false)
  else
    let t := (measured - idle) * 0x4000 / total
    if t < 13107 then (13107, true) else if 20480 < t then (20480, true) else (t, false)

/-- ENERGY_COMMIT: the pending sum of each context, times the factor, joins its ENERGY, and the rest of the measured energy joins
ACC_UNATTRIBUTED (R451). The measured and idle energies of the interval and the pending sums are inputs, in µJ (DEDUCED, log 47). -/
def execEnergyCommit (measured idle : Nat) (pending : List (Nat × Nat)) (s : State) : Answer :=
  let own := pending.filter (fun e => decide (e.1 < 256))
  let (t, clamped) := energyFactor (s.acc.trim.toNat % 65536) measured idle (sumNat (own.map Prod.snd))
  let shares := own.map (fun e => (e.1, e.2 * t / 0x4000))
  let s1 := shares.foldl (fun s (e : Nat × Nat) =>
    s.charge e.1 (fun x => { x with energy := x.energy + BitVec.ofNat 64 e.2 })) s
  let left : Int := (measured : Int) - (sumNat (shares.map Prod.snd) : Nat)
  .next { s1 with acc := { s1.acc with
    trim := BitVec.ofNat 17 (t % 65536 + 65536 * clamped.toNat), unattributed := s1.acc.unattributed + BitVec.ofInt 64 left } }

/-- ACC_SNAP: a write of 1 to ACC_CTL.SNAP copies every counter of every context into the snapshot bank in one step (R452). -/
def execAccSnap (s : State) : Answer := .next (if s.served then { s with acc := { s.acc with snap := s.acc.ctxs } } else s)

end Sys2Proof.Machine
end

