-- ==== Sys2Proof/Machine/Tiers.lean ====
section
/-!
DEFINITION. The memory tiers at work (spec 10): bale moves of TIERED segments, deadlines and substitutes of row reads,
patrol scrubbing, poison, evacuation and interface retraining.
-/

namespace Sys2Proof.Machine

/-! ### Bale moves (R293 to R296) -/

/-- The gleaner and channel offset of the loft slot of a bale of a TIERED segment; none where its channel is lost. -/
def State.loftSlot (s : State) (g : Segment) (bale : Nat) : Option (Nat × Nat) := s.physAt (s.placePhys g.placement (65536 * bale))
/-- The gleaner and channel offset of a frame. -/
def State.frameSlot (s : State) (g : Segment) (frame : Nat) : Option (Nat × Nat) := s.physAt (s.placePhys g.framePlacement (65536 * frame))

/-- The frames that hold a bale or belong to a move that has not been drained. -/
def TieredSeg.usedFrames (t : TieredSeg) : List Nat :=
  (t.resident.filterMap (fun e => if e.2 = 0 then none else some (e.2 - 1))) ++ t.moves.map (fun m => m.frame)
/-- The lowest free frame of a segment (DESIGN CHOICE, log 29). -/
def TieredSeg.freeFrame (t : TieredSeg) (frames : Nat) : Option Nat := (List.range frames).find? (fun f => !t.usedFrames.contains f)
/-- The resident bale that was promoted earliest, is not in a move and may leave its frame (R293, R312). -/
def TieredSeg.victim (t : TieredSeg) (leaves : Nat → Bool) : Option Nat :=
  t.order.find? (fun b => Tbl.get 0 t.resident b != 0 && !t.moves.any (fun m => m.bale == b) && leaves b)

/-- The tier transfers in progress at a loft gleaner (R296). -/
def State.tierLoad (s : State) (lg : Nat) : Nat :=
  sumNat (s.xlt.tiered.map (fun e =>
    match s.planSegment (e.1 / 16) (e.1 % 16) with
    | some g => (e.2.moves.filter (fun m => !m.flipped && (s.loftSlot g m.bale).map Prod.fst == some lg)).length
    | none => 0))

/-- Starting the demotion of a resident bale. -/
def State.startDemote (s : State) (c seg bale cluster serial : Nat) : State :=
  let t := s.tier c seg
  s.setTier c seg { t with moves := t.moves ++
    [{ bale := bale, promote := false, frame := Tbl.get 0 t.resident bale - 1, flipped := false, cluster := cluster, serial := serial
       drains := [] }] }
/-- Starting the promotion of a bale into a frame. -/
def State.startPromote (s : State) (c seg bale frame cluster serial : Nat) : State :=
  let t := s.tier c seg
  s.setTier c seg { t with moves := t.moves ++
    [{ bale := bale, promote := true, frame := frame, flipped := false, cluster := cluster, serial := serial, drains := [] }] }

/-- Whether the loft gleaner of a bale takes one more tier transfer (R296). -/
def State.loftTakes (s : State) (g : Segment) (bale : Nat) : Bool :=
  match s.loftSlot g bale with
  | some (lg, _) => decide (s.tierLoad lg < 16)
  | none => false

/-- The bales of a segment that wait are taken in order: a DEMOTE starts once its loft gleaner has room; a PROMOTE gets a free frame, or starts, once,
the demotion of the resident bale promoted earliest (R293, R296). Cluster 255 is no transfer's. -/
def State.pumpTier (s : State) (c seg : Nat) : State :=
  match s.planSegment c seg with
  | none => s
  | some g =>
    let d := (s.tier c seg).leaving.foldl (fun (acc : State × List (Nat × Nat × Nat)) w =>
      if acc.1.loftTakes g w.1 then (acc.1.startDemote c seg w.1 w.2.1 w.2.2, acc.2) else (acc.1, acc.2 ++ [w])) (s, [])
    let r := (d.1.tier c seg).waiting.foldl (fun (acc : State × List (Nat × Nat × Nat) × Nat) w =>
      let (s, left, demoting) := acc
      let t := s.tier c seg
      match (if left.isEmpty && s.loftTakes g w.1 then t.freeFrame g.frames else none) with
      | some f => (s.startPromote c seg w.1 f w.2.1 w.2.2, left, demoting)
      | none =>
        if 0 < demoting then (s, left ++ [w], demoting - 1)
        else if left.length < g.frames - t.usedFrames.eraseDups.length then (s, left ++ [w], 0)
        else match t.victim (s.loftTakes g) with
          | some b => (s.startDemote c seg b 255 0, left ++ [w], 0)
          | none => (s, left ++ [w], 0)) (d.1, [], ((d.1.tier c seg).moves.filter (fun m => !m.promote && m.cluster == 255)).length)
    r.1.setTier c seg { r.1.tier c seg with waiting := r.2.1, leaving := d.2 }

/-- Every segment whose bales wait is taken again: a tier transfer has left its loft gleaner (R296). -/
def State.pumpTiers (s : State) : State :=
  (s.xlt.tiered.filter (fun e => !e.2.waiting.isEmpty || !e.2.leaving.isEmpty)).foldl (fun s e => s.pumpTier (e.1 / 16) (e.1 % 16)) s

/-- The segment's bales that a transfer names (R351). -/
def Xfer.baleRange (x : Xfer) : List Nat := (List.range (x.desc.src.count 0)).map (fun i => x.desc.src.addr % 2 ^ 48 / 65536 + i)

/-- Whether every loft gleaner of a transfer's bales has room for one more tier transfer, and no channel that they name is held for a
microcode load (R296, R574). -/
def State.tierRoom (s : State) (c seg : Nat) (bales : List Nat) : Bool :=
  match s.planSegment c seg with
  | none => false
  | some g =>
    let r (b : Nat) : Nat := Tbl.get 0 (s.tier c seg).resident b
    bales.all (fun b => (match s.loftSlot g b with
      | some (lg, _) => decide (s.tierLoad lg < 16) && !s.rolls lg
      | none => true) && (match (if r b = 0 then none else s.frameSlot g (r b - 1)) with
      | some (gg, _) => !s.rolls gg
      | none => true))

/-- DMA_PROMOTE: the admitted PROMOTE starts moving its bales; a resident bale, or one that is already being promoted, needs nothing
(R293, R351). A bale whose loft slot is lost makes it LOST (R312). -/
def execDmaPromote (c q : Nat) (s : State) : Answer :=
  onAdmissible c q .promote s (fun s x =>
    let seg := x.desc.src.addr / 2 ^ 48 % 16
    let t := s.tier x.ctx seg
    let need := x.baleRange.filter (fun b =>
      Tbl.get 0 t.resident b == 0 && !t.moves.any (fun m => m.bale == b && m.promote && !m.flipped) && !t.waiting.any (fun w => w.1 == b))
    if !s.tierRoom x.ctx seg need then s
    else
      let here (b : Nat) : Bool := match s.planSegment x.ctx seg with
        | some g => (s.loftSlot g b).isSome
        | none => false
      let moves := need.filter here
      let y := { x with bales := moves, status := if need.all here then x.status else 5 }
      let s1 := (s.admitXfer c x).updXfer c x.serial (fun _ => y)
      if moves.isEmpty then s1.completeXfer c y 0
      else (s1.setTier x.ctx seg { t with
        order := t.order.filter (fun b => !moves.contains b) ++ moves
        waiting := t.waiting ++ moves.map (fun b => (b, c, x.serial)) }).pumpTier x.ctx seg)

/-- DMA_DEMOTE: the admitted DEMOTE starts releasing its bales; a bale that is not resident, is in a move, or whose loft slot is lost
(R312) needs nothing (R293, R351). -/
def execDmaDemote (c q : Nat) (s : State) : Answer :=
  onAdmissible c q .demote s (fun s x =>
    let seg := x.desc.src.addr / 2 ^ 48 % 16
    let t := s.tier x.ctx seg
    let slotHere (b : Nat) : Bool := match s.planSegment x.ctx seg with
      | some g => (s.loftSlot g b).isSome
      | none => false
    let need := x.baleRange.filter (fun b =>
      Tbl.get 0 t.resident b != 0 && !t.moves.any (fun m => m.bale == b) && !t.leaving.any (fun w => w.1 == b) && slotHere b)
    if !s.tierRoom x.ctx seg need then s
    else
      let s1 := (s.admitXfer c x).updXfer c x.serial (fun y => { y with bales := need })
      if need.isEmpty then s1.completeXfer c x 0
      else (s1.setTier x.ctx seg { t with leaving := t.leaving ++ need.map (fun b => (b, c, x.serial)) }).pumpTier x.ctx seg)

/-- One unit copied between channels: an unreadable one is served by its mirror, else it is written with the reserved poison syndrome
(R294, R307, R309, R310). `cause` is the DETAIL of a fault. -/
def State.copyUnit (s : State) (from_ to_ src dst cause : Nat) : State :=
  let put (s : State) : State := s.updGleaner to_ (fun y => (y.writeUnit dst ((s.gleaner from_).data.bytes src 64)).1)
  if (s.gleaner from_).unitBad (src / 64) = 0 then put s
  else
    match (s.meetUncorrectable from_ none src 64 cause).repairUnits from_ src 64 with
    | (s1, true) => put s1
    | (s1, false) => s1.updGleaner to_ (fun y => { y with bad := Tbl.set y.badRest y.bad (dst / 64) 2 }.poison (dst / 65536))

/-- Copying the units of a bale that a test names. -/
def State.copyBale (s : State) (from_ to_ src dst cause : Nat) (which : Nat → Bool) : State :=
  ((List.range 1024).filter which).foldl (fun s i => s.copyUnit from_ to_ (src + 64 * i) (dst + 64 * i) cause) s

/-- A transfer's bale has flipped; with the last one it completes (R351). -/
def State.baleDone (s : State) (cluster serial bale : Nat) : State :=
  match s.xferOf cluster serial with
  | none => s
  | some x =>
    let y := { x with bales := x.bales.erase bale }
    let s1 := s.updXfer cluster serial (fun _ => y)
    if x.bales.contains bale && y.bales.isEmpty then s1.completeXfer cluster y 0 else s1

/-- The transfers of a context that have been translated and are outstanding, by cluster and serial number (R294). -/
def State.translated (s : State) (c : Nat) : List (Nat × Nat) :=
  s.clusters.flatMap (fun e => (e.2.dma.outstanding.filter (fun x => x.ctx == c && x.desc.op != .promote && x.desc.op != .demote)).map
    (fun x => (e.1, x.serial)))

/-- BALE_FLIP: the copy of a bale in a move is complete and the translation unit flips its entry (R294): the destination holds the
source's bytes, the source keeps a stub, and the destination holds direct requests until the drain marker. A source with 16 stubs takes no
further one (R285). -/
def execBaleFlip (c seg bale : Nat) (s : State) : Answer :=
  let t := s.tier c seg
  match s.planSegment c seg, t.moves.find? (fun m => m.bale == bale && !m.flipped) with
  | some g, some m =>
    match s.loftSlot g bale, s.frameSlot g m.frame with
    | some (lg, lo), some (fg, fo) =>
      let (a, ao, b, bo) := if m.promote then (lg, lo, fg, fo) else (fg, fo, lg, lo)
      if 16 ≤ (s.gleaner a).stubs.length then .next s
      else
      let dirty (i : Nat) : Bool := m.promote || Tbl.get false t.dirty (1024 * bale + i)
      let s1 := s.copyBale a b ao bo 0 dirty
      let s2 := (s1.updGleaner a (fun x => { x with stubs := x.stubs ++ [{ bale := ao / 65536, dest := b, destBale := bo / 65536 }] })).updGleaner
        b (fun x => { x with baleHold := x.baleHold ++ [bo / 65536] })
      let clean := t.dirty.filter (fun e => e.1 / 1024 != bale)
      let t2 : TieredSeg := { t with
        resident := Tbl.set 0 t.resident bale (if m.promote then m.frame + 1 else 0)
        order := if m.promote then t.order else t.order.erase bale
        dirty := clean
        moves := t.moves.map (fun x => if x = m then { m with flipped := true, drains := s.translated c } else x) }
      let s3 := s2.setTier c seg t2
      let s4 := { s3 with loft := if m.promote then { s3.loft with promoted := s3.loft.promoted + 1 }
                                  else { s3.loft with demoted := s3.loft.demoted + 1 } }
      .next (s4.baleDone m.cluster m.serial bale).pumpTiers
    | _, _ => .next s
  | _, _ => .next s

/-- BALE_DRAIN_MARKER: every transfer translated before the flip has completed and the source has forwarded the marker: the stub goes,
the destination releases the requests it held, and a demoted bale's frame is free (R294). -/
def execBaleDrainMarker (c seg bale : Nat) (s : State) : Answer :=
  let t := s.tier c seg
  match s.planSegment c seg, t.moves.find? (fun m => m.bale == bale && m.flipped) with
  | some g, some m =>
    if m.drains.any (fun d => (s.xferOf d.1 d.2).isSome) then .next s
    else match s.loftSlot g bale, s.frameSlot g m.frame with
    | some (lg, lo), some (fg, fo) =>
      let (a, ao, b, bo) := if m.promote then (lg, lo, fg, fo) else (fg, fo, lg, lo)
      let s1 := s.updGleaner a (fun x => { x with stubs := x.stubs.filter (fun y => y.bale != ao / 65536) })
      let mine := ((s1.gleaner b).heldBale.filter (fun r => r.target / 65536 == bo / 65536))
      let s2 := s1.updGleaner b (fun x => { x with
        baleHold := x.baleHold.erase (bo / 65536), heldBale := x.heldBale.filter (fun r => r.target / 65536 != bo / 65536) })
      let s3 := (s2.setTier c seg { s2.tier c seg with moves := t.moves.erase m }).takeHeld b mine
      .next (s3.pumpTier c seg)
    | _, _ => .next ((s.setTier c seg { t with moves := t.moves.erase m }).pumpTier c seg)
  | _, _ => .next s

/-! ### Deadlines and substitutes (R298 to R308) -/

/-- LOFT_DEADLINE: the deadline of the request in thread `t` (8 and up: channel operation `t − 8`) expires; every row read of it that has
not arrived falls back, and the rows that the thread reads from here on have no time left (R298, R300). -/
def execLoftDeadline (g t : Nat) (s : State) : Answer :=
  onGleaner g s (fun s =>
    if 8 ≤ t then .next (s.onOp g (t - 8) (fun s _ f => s.fetchExpires g f))
    else
      match Tbl.get none (s.gleaner g).threads t with
      | none => .next s
      | some th =>
        let r := th.pendingRows.foldl (fun (acc : State × List PendingRow) q =>
          let a := acc.1.fetchExpires g q.fetch
          match q.second with
          | some f =>
            let b := a.1.fetchExpires g f
            (b.1, acc.2 ++ [{ q with fetch := a.2, second := some b.2 }])
          | none => (a.1, acc.2 ++ [{ q with fetch := a.2 }])) (s, [])
        let c := r.1.combineReady g { th with pendingRows := r.2, late := true }
        .next (c.1.putThread g t c.2))

/-- The stubble row of a row read, as its bay's gleaner answers a stubble read of a request (R220, R260, R299, R305): none where it is refused or
cannot be read. -/
def State.stubbleAnswer (s : State) (r : GReq) (f : RowFetch) (ecc : Ecc) : State × Option (List Byte) :=
  let p := f.table / 4096
  match s.stubbleGleaner p (f.table % 4096) f.row with
  | none => (s, none)
  | some sg =>
    match s.bayHere sg p (f.table % 4096) f.row 2 with
    | none => (s, none)
    | some (t, _, b) =>
      let off := s.baySlot b t (f.row - b.firstRow)
      let slot := (s.gleaner sg).slotAt off t.stubSlot
      if !r.system && !s.rangeAdmits sg off t.stubSlot r.ctx false then (s.noteRefusal sg r.ctx r.tag off, none)
      else if ecc = .uncorrectable ∨ (s.gleaner sg).rangeBad off t.stubSlot ∨ t.stubCheckFails slot then
        (s.meetUnreadable sg (some r) off t.stubSlot ecc, none)
      else (if ecc = .corrected then s.updGleaner sg (fun x => x.countCorrected) else s, some slot)

/-- A row read of thread `t`, or of channel operation `t − 8`. -/
def State.onFetch (s : State) (g t n : Nat) (f : State → GReq → RowFetch → State × RowFetch) : State :=
  if 8 ≤ t then s.onOp g (t - 8) f else s.onPending g t n f

/-- STUBBLE_ROW_ARRIVE: the stubble read sent for row read `n` comes back (R299, R300, R306). -/
def execStubbleRowArrive (g t n : Nat) (ecc : Ecc) (s : State) : Answer :=
  onGleaner g s (fun s => .next (s.onFetch g t n (fun s r f =>
    if f.stubble ≠ 1 ∨ f.got.isSome then (s, f)
    else let a := s.stubbleAnswer r f ecc; a.1.fetchStubble g f a.2)))

/-- The mirror's row of an unreadable row read (R303, R305, R306): none where it cannot be read either. -/
def State.mirrorAnswer (s : State) (r : GReq) (f : RowFetch) (ecc : Ecc) : State × Option (List Byte) :=
  let p := f.table / 4096
  match s.mirrorOf p (f.table % 4096) f.bay f.row, (s.planOf p).bind (fun pl => pl.tableOf (f.table % 4096)) with
  | some (mg, b), some t =>
    let off := s.baySlot b t (f.row - b.firstRow)
    let slot := (s.gleaner mg).slotAt off t.slot
    if ecc = .uncorrectable ∨ (s.gleaner mg).rangeBad off t.slot ∨ t.checkFails slot then (s.meetUnreadable mg (some r) off t.slot ecc, none)
    else (if ecc = .corrected then s.updGleaner mg (fun x => x.countCorrected) else s, some slot)
  | _, _ => (s, none)

/-- What reading the mirror of a raw request's bad unit leaves at the mirror's gleaner (R303, R305). -/
def State.mirrorMeets (s : State) (g : Nat) (r : GReq) (ecc : Ecc) : State :=
  match ((unitsOf r.target (leNat (r.payload.take 4))).find? (fun u => (s.gleaner g).unitBad u != 0)).bind (fun u => s.mirrorAt g (64 * u)) with
  | none => s
  | some (mg, mo) =>
    if ecc = .uncorrectable ∨ (s.gleaner mg).unitBad (mo / 64) ≠ 0 then s.meetUncorrectable mg (some r) mo 64 0
    else if ecc = .corrected then s.updGleaner mg (fun x => x.countCorrected) else s

/-- MIRROR_READ_RETURN: the mirror's row or unit of an unreadable row read, or of a raw read that waits for one, comes back (R306 to
R308). -/
def execMirrorReadReturn (g t n : Nat) (ecc : Ecc) (s : State) : Answer :=
  let row (s : State) (r : GReq) (f : RowFetch) : State × RowFetch :=
    if f.mirror ≠ 1 ∨ f.got.isSome then (s, f) else let a := s.mirrorAnswer r f ecc; a.1.fetchMirror g r f a.2
  onGleaner g s (fun s =>
    if 8 ≤ t then
      match (s.gleaner g).ops[t - 8]? with
      | none => .next s
      | some o =>
        if o.fetch.isSome then .next (s.onOp g (t - 8) row)
        else if o.mirror ≠ 1 then .next s
        else
          let s1 := s.mirrorMeets g o.req ecc
          if ecc = .uncorrectable then .next ((s1.updGleaner g (fun x => x.dropOp (t - 8))).loseRequest g o.req o.req.target)
          else .next (s1.finishRawMirror g (t - 8) o)
    else .next (s.onPending g t n row))

/-! ### Patrol, poison and evacuation (R304, R305, R309) -/

/-- PATROL_READ: the next unit of a gleaner's channel is read; an error follows R303 and R305 (R304). The cursor counts units, its
register shows the bale (R314). -/
def execPatrolRead (g : Nat) (ecc : Ecc) (s : State) : Answer :=
  onGleaner g s (fun s =>
    let u := (s.gleaner g).scrubCursor
    let s1 :=
      if ecc = .uncorrectable ∨ (s.gleaner g).unitBad u ≠ 0 then s.meetUncorrectable g none (64 * u) 64 1
      else if ecc = .corrected then s.updGleaner g (fun x => x.countCorrected) else s
    let last := u + 1 == channelBytes (isLoft g) / 64
    .next (s1.updGleaner g (fun x => { x with
      scrubCursor := if last then 0 else u + 1, scrubLapped := x.scrubLapped || last })))

/-- POISON_RECHECK: a poisoned bale is read again; POISON is cleared where every unit reads clean (R305). -/
def execPoisonRecheck (g bale : Nat) (s : State) : Answer :=
  onGleaner g s (fun s =>
    let x := s.gleaner g
    if !(x.tag bale).poison ∨ x.rangeBad (65536 * bale) 65536 then .next s
    else .next (s.updGleaner g (fun x => { x with
      tags := Tbl.set tagReset x.tags bale { x.tag bale with poison := false }, poisoned := x.poisoned - 1 })))

/-- Binding a logical channel to its stack's reserve: the reserve's gleaner holds the epochs and pins of the channel's tables and their default
slots, and evacuation begins at bale 0 (R227, R309). -/
def State.bindReserve (s : State) (stack n : Nat) : State :=
  let m := s.stack stack
  let old := stack * 32 + m.phys.getD n n
  let new := stack * 32 + m.reserve
  let x := s.gleaner old
  (s.updGleaner new (fun y => { y with
    cache := x.cache.filter (fun c => c.kind == 2), epochs := x.epochs, pinned := x.pinned, load := [], history := [], window := x.window })).setStack
    stack { m with phys := m.phys.set n m.reserve, evacuating := some n, cursor := 0, oldPhys := m.phys.getD n n, reserveFree := false }

/-- What a gleaner keeps of the rows whose slots `lies` names passes to the one that takes the slots over: which rows live there, the free move
slots, the retained copies, the replica directory and the replacements that wait (R309, R310). -/
def State.handRows (s : State) (old new : Nat) (lies : Nat → Bool) : State :=
  let x := s.gleaner old
  let row (tk n : Nat) : Bool := match s.rowPlace old (tk / 4096) (tk % 4096) n with
    | some (_, _, off) => lies off
    | none => false
  let req (r : GReq) : Bool := row (tableKey (s.reqPart r) r.table) r.target
  let s1 := s.updGleaner new (fun y => { y with
    moved := y.moved ++ x.moved.filter (fun m => lies m.2.2)
    freeSlots := x.freeSlots.foldl (fun t e => Tbl.modify [] t e.1 (· ++ e.2.filter lies)) y.freeSlots
    retained := y.retained ++ x.retained.filter (fun c => row c.table c.row)
    replicas := y.replicas ++ x.replicas.filter (fun r => row r.table r.row)
    waiting := y.waiting ++ x.waiting.filter req })
  s1.updGleaner old (fun x => { x with
    moved := x.moved.filter (fun m => !lies m.2.2)
    freeSlots := x.freeSlots.foldl (fun t e => Tbl.set [] t e.1 (e.2.filter (fun o => !lies o))) x.freeSlots
    retained := x.retained.filter (fun c => !row c.table c.row)
    replicas := x.replicas.filter (fun r => !row r.table r.row)
    cache := x.cache.filter (fun c => !(c.kind == 0 && row c.table c.row))
    addBuffer := x.addBuffer.filter (fun e => !lies e.off)
    waiting := x.waiting.filter (fun r => !req r) })

/-- The station's marker behind the last cursor advance (R309): the failing channel's stub of the bale before the cursor goes, and the reserve takes
the requests that it held for that bale. -/
def State.evacuationMarker (s : State) (old new bale : Nat) : State :=
  let s1 := s.updGleaner old (fun x => { x with stubs := x.stubs.filter (fun y => !(y.bale == bale && y.dest == new)) })
  let mine (r : GReq) : Bool := if r.kind ≤ 1 then r.target / 65536 == bale
    else match s1.rowPlace new (s1.reqPart r) r.table r.target with
      | some (_, _, off) => off / 65536 == bale
      | none => true
  let rs := (s1.gleaner new).heldBale.filter mine
  (s1.updGleaner new (fun x => { x with
    baleHold := x.baleHold.erase bale, heldBale := x.heldBale.filter (fun r => !mine r) })).takeHeld new rs

/-- One bale of a failing channel moves to the reserve with its tag and what the gleaner keeps of its rows; the failing channel keeps a stub and
the reserve holds direct requests until the marker (R294, R309). -/
def State.evacuateBale (s : State) (old new b : Nat) : State :=
  let s1 := (s.copyBale old new (65536 * b) (65536 * b) 2 (fun _ => true)).handRows old new (fun off => off / 65536 == b)
  let s2 := s1.updGleaner new (fun y => { y with
    tags := Tbl.set tagReset y.tags b { (s.gleaner old).tag b with poison := (y.tag b).poison }, baleHold := y.baleHold ++ [b] })
  s2.updGleaner old (fun x => { x with stubs := x.stubs ++ [{ bale := b, dest := new, destBale := b }] })

/-- EVACUATE_BALE: the marker of the bale before is taken, then the bale at a stack's cursor moves to the reserve and the cursor advances; after the
last bale only its marker is left (R309). A bale in which a row is moving, or for which the failing channel has no stub left, waits
(DESIGN CHOICE, log 73). -/
def execEvacuateBale (stack : Nat) (s : State) : Answer :=
  if 12 ≤ stack then .fault .noSuchUnit
  else
    let m := s.stack stack
    match m.evacuating with
    | none => .next s
    | some n =>
      let old := stack * 32 + m.oldPhys
      let new := stack * 32 + m.phys.getD n n
      let b := m.cursor
      let s1 := if b = 0 then s else s.evacuationMarker old new (b - 1)
      if b = channelBytes false / 65536 then .next (s1.setStack stack { m with cursor := 0, evacuating := none })
      else if (s1.gleaner old).map.any (fun d => d.offset / 65536 == b) ∨ 16 ≤ (s1.gleaner old).stubs.length then .next s1
      else .next ((s1.evacuateBale old new b).setStack stack { m with cursor := b + 1 })

/-! ### Interface retraining (R316) -/

/-- A command on an LPDDR5X package faults where there is none (R6). -/
def onPackage (p : Nat) (s : State) (f : State → Answer) : Answer := if p < 16 then f s else .fault .noSuchUnit

/-- INTERFACE_RETRAINING_START: the controller holds a package's accesses and RETRAINING is set. -/
def execInterfaceRetrainingStart (p : Nat) (s : State) : Answer :=
  onPackage p s (fun s =>
    if s.loft.retraining.testBit p then .next s
    else .next { s with loft := { s.loft with retraining := s.loft.retraining ||| 2 ^ p } }.noteUnits)
/-- INTERFACE_RETRAINING_DONE: RETRAINING clears and the held accesses proceed. -/
def execInterfaceRetrainingDone (p : Nat) (s : State) : Answer :=
  onPackage p s (fun s =>
    if !s.loft.retraining.testBit p then .next s
    else .next { s with loft := { s.loft with retraining := s.loft.retraining - 2 ^ p } }.noteUnits)

end Sys2Proof.Machine
end

