-- ==== Sys2Proof/Machine/Repair.lean ====
section
/-!
DEFINITION. The fault history (R532 to R536), spare cores, retirement and bin rows (R537 to R539), channels mapped out (R309 to R312, R542),
and what the reset of a unit does (R505 to R508).
-/

namespace Sys2Proof.Machine

/-- The state with management changed. -/
def State.updMgmt (s : State) (f : MgmtState → MgmtState) : State := { s with mgmt := f s.mgmt }
/-- The state with the fault history changed. -/
def State.updHist (s : State) (f : History → History) : State := s.updMgmt (fun m => { m with hist := f m.hist })

/-! ### The fault history (R532 to R536) -/

/-- The window of permanence: 30 days of service time (R515). -/
def permanenceWindow : Nat := 2592000
/-- An entry with no event. -/
def histBlank (uk part unit index : Nat) : HistEntry :=
  { unitKind := uk, part := part, unit := unit, index := index, state := 0, transients := 0, confirmed := 0, recent := [], lastEvent := 0
    permanentAt := 0, lastFault := 0, patterns := [] }
/-- Whether an entry is that of a unit's part. -/
def HistEntry.names (e : HistEntry) (uk part unit index : Nat) : Bool :=
  e.unitKind == uk && e.part == part && e.unit == unit && e.index == index

/-- The entry of a unit's part, made where there is none: a new one, or in a full area the oldest that is OK and whose last event lies more
than 365 days back; none where no entry qualifies (R532). -/
def History.place (h : History) (now uk part unit index : Nat) : Option (History × Nat) :=
  match findIdxFrom (fun (e : HistEntry) => e.names uk part unit index) h.entries 0 with
  | some n => some (h, n)
  | none =>
    let e := histBlank uk part unit index
    if h.entries.length < 4096 then some ({ h with entries := h.entries ++ [e] }, h.entries.length)
    else
      let old (n : Nat) : Bool := match h.entries[n]? with
        | some e => e.state == 0 && decide (e.lastEvent + 365 * 86400 < now)
        | none => false
      match argMin (fun n => ((h.entries[n]?).map (fun e => e.lastEvent)).getD 0) ((List.range 4096).filter old) with
      | some n => some ({ h with entries := h.entries.set n e }, n)
      | none => none

/-- An event at a unit's part: its entry changes, and the event awaits its flash write (R534). `serial` is that of the fault behind it, 0
for none. -/
def State.histEvent (s : State) (uk part unit index serial : Nat) (f : HistEntry → HistEntry) : State :=
  let now := s.mgmt.service
  match s.mgmt.hist.place now uk part unit index with
  | none => s.updHist (fun h => { h with full := true })
  | some (h, n) =>
    let seq := Tbl.get 0 s.faults.sequences serial
    let put (e : HistEntry) : HistEntry := { f e with lastEvent := now, lastFault := if seq = 0 then e.lastFault else seq }
    let h1 := { h with entries := h.entries.modify n put, pending := h.pending ++ [{ entry := n, serial := serial }] }
    (s.updHist (fun _ => h1)).send (.history n)

/-- A transient (R536). -/
def HistEntry.transient (e : HistEntry) : HistEntry := { e with transients := e.transients + 1 }
/-- A unit judged permanent. -/
def HistEntry.permanent (now : Nat) (e : HistEntry) : HistEntry := { e with state := 2, permanentAt := now }
/-- A counted event: it is confirmed, and its time enters RECENT. The unit is PERMANENT once `need` such events lie in the window; an event
short of that is also a transient (R525, R536; DEDUCED, log 50). -/
def HistEntry.counted (need now : Nat) (e : HistEntry) : HistEntry :=
  let recent := (now :: e.recent).take 3
  let e1 := { e with confirmed := e.confirmed + 1, recent := recent }
  if need ≤ recent.length ∧ now ≤ recent.getD (need - 1) 0 + permanenceWindow then e1.permanent now else e1.transient
/-- An attribution adds its pattern record, the newest first, three at most (R532). -/
def HistEntry.addPattern (p : PatternRecord) (e : HistEntry) : HistEntry := { e with patterns := (p :: e.patterns).take 3 }

/-- Whether the history holds a unit's part as PERMANENT. -/
def State.isPermanent (s : State) (uk part unit index : Nat) : Bool :=
  s.mgmt.hist.entries.any (fun e => e.names uk part unit index && e.state == 2)

/-! ### Cores (R505, R537, R538) -/

/-- The free spare of a cluster that may take a logical number: it has passed its last harrow pass (R537). -/
def State.spareOf (s : State) (c : Nat) : Option Nat :=
  let m := s.mapOf c
  let h := (s.core (8 * c + m.spare)).harrow
  if m.spareFree && !h.permanent && !h.suspect && !h.lastFailed && h.phase != 2 then some (8 * c + m.spare) else none

/-- The binding of a cluster's cores replaced. -/
def State.setMap (s : State) (c : Nat) (m : CoreMap) : State := { s with coreMap := Tbl.set coreMapReset s.coreMap c m }.noteUnits

/-- A spare takes the logical number of a core, with the item saved in its save area and that item's transfers. It takes no item before it
is loaded (R512, R537). -/
def State.spareTakes (s : State) (c old k : Nat) : State :=
  match s.logicalOf old with
  | none => s
  | some j =>
    let m := s.mapOf c
    let s1 := s.setMap c { m with phys := m.phys.set j (k % 8), spareFree := false }
    let s2 := (s1.updCore k (fun x => { x with phase := .stopped, saved := (s.core old).saved })).updCore old (fun x => { x with saved := none })
    s2.moveTransfers c (old + 256) (k + 256) true

/-- A core is loaded from the plan in force, takes items again, and its cluster dispatches to it (R505, R537). -/
def State.coreServes (s : State) (k : Nat) : State :=
  let c := clusterOf k
  let s1 := match s.clusterPlan c, s.logicalOf k with
    | some pl, some j => s.putCore c j k pl
    | _, _ => s
  (s1.updCore k (fun x => { x with phase := .idle })).dispatch c

/-- The units of a core after a core reset: regions cleared, counters kept, CORE_VEC_PC back to 0 (R505, R507). -/
def CoreState.resetUnits (x : CoreState) : CoreState :=
  { x with
    item := none, held := [], vec := vecRegsReset, dmaMarks := [], incoming := none, bin := []
    winnow := { x.winnow with queue := [] }
    grid := { x.grid with queue := [], flight := [], active := [], shadow := none, banks := [], discard := [] } }

/-- An item returned to its list at its entry time without core `k`, or ended where it may not be replayed (R520, R521). -/
def State.relist (s : State) (c k : Nat) (i : WorkItem) : State :=
  if s.endsItem i k then
    let s1 := (s.sendAll (i.endNotices (s.rowsOf i) markWeightLost codeOk)).freeRecord i
    s1.releasePins i
  else
    let item := { i with failedCores := (k :: i.failedCores).eraseDups, cleared := i.cleared.filter (fun n => n != k), marks := 0, wrote := false, units := 0, staged := 0 }
    (s.resetRows i).updCluster c (fun x =>
      let y := x.listItem item
      { y with integrity := { y.integrity with replays := y.integrity.replays + 1 } })

/-- Core `k` has cleared diagnosis or a harrow pass: the listed items of its die that failed on it may know (R521). -/
def State.coreCleared (s : State) (k : Nat) : State :=
  let clear (i : WorkItem) : WorkItem := if i.failedCores.contains k && !i.cleared.contains k then { i with cleared := k :: i.cleared } else i
  ((List.range 12).map (fun j => k / 96 * 12 + j)).foldl (fun s c => s.updCluster c (fun x => { x with
    ready := x.ready.map (fun e => (e.1, e.2.map clear)), unlisted := x.unlisted.map clear })) s

/-- A core lets go of everything: its running item is returned for replay, a stolen item under way is listed again. -/
def State.emptyCore (s : State) (k : Nat) : State :=
  let s1 := if (s.core k).item.isSome then s.replayItem k true else s
  match (s1.core k).incoming with
  | some (i, _) => (s1.updCore k (fun x => { x with incoming := none })).updCluster (clusterOf k) (fun c => c.listItem i)
  | none => s1

/-- A core fault abandons a pass, which falls due again at once (R531). -/
def Harrow.abandon (h : Harrow) : Harrow := if h.phase = 2 then { h with phase := 1 } else h

/-- A core is retired: it is never dispatched again. The cluster's spare takes its logical number where it can; otherwise the logical core
is absent and its saved item is returned to the list (R538; DEDUCED, log 51). -/
def State.retireCore (s : State) (k : Nat) : State :=
  let c := clusterOf k
  let s1 := (s.emptyCore k).updCore k (fun x => { x with
    phase := .stopped, harrow := { x.harrow with permanent := true, suspect := false, phase := 0, diagnosing := false } })
  let m := s1.mapOf c
  match s1.logicalOf k, s1.spareOf c with
  | some _, some n => (s1.spareTakes c k n).coreServes n
  | some j, none =>
    let s2 := s1.setMap c { m with present := if m.present.testBit j then m.present - 2 ^ j else m.present }
    (match (s1.core k).saved with
     | some v => ((s2.updCore k (fun x => { x with saved := none })).dropTransfers c (k + 256)).relist c k v.item
     | none => s2).dispatch c
  | none, _ => if m.spare = k % 8 then s1.setMap c { m with spareFree := false } else s1.noteUnits

/-- A cluster is retired: its cores count as retired, its open sheaves close with cause FLUSH, and its listed items move to the nearest
cluster that holds cores of their stage (R538). -/
def State.retireCluster (s : State) (c : Nat) : State :=
  let ks := (List.range 8).map (fun j => 8 * c + j)
  let s1 := ks.foldl (fun s k => (s.emptyCore k).updCore k (fun x => { x with
    phase := .stopped, harrow := { x.harrow with permanent := true, suspect := false, phase := 0, diagnosing := false } })) s
  let s2 := ((s1.updCluster c (fun x => { x with retired := true, preempts := [] })).setMap c { s1.mapOf c with present := 0, spareFree := false })
  let s3 := ks.foldl (fun s k => match (s.core k).saved with
    | some v => ((s.updCore k (fun x => { x with saved := none })).dropTransfers c (k + 256)).relist c k v.item
    | none => s) s2
  let s4 := (s3.cluster c).openSheaves.foldl (fun s o => s.closeSheaf c o .flush) s3
  let items := (s4.cluster c).ready.flatMap Prod.snd ++ (s4.cluster c).unlisted
  items.foldl (fun s i => s.enlist (s.formerOf c i.part i.stage) i) (s4.updCluster c (fun x => { x with ready := [], unlisted := [] }))

/-- A bin row is steered to a spare row of its bank and the unreadable word cleared; a bank whose 16 spare rows are used up retires its core
or cluster (R289, R539). -/
def State.spareRow (s : State) (k addr : Nat) : State :=
  let c := clusterOf k
  let off := addr % 2 ^ 24
  let inCluster := decide (2 ^ 24 ≤ addr)
  let key := (if inCluster then 8 else k % 8) * 16 + off / 2 ^ 19 % 16
  let zeros : List Byte := List.replicate 8 0
  if 16 ≤ Tbl.get 0 (s.cluster c).integrity.spareRows key then (if inCluster then s.retireCluster c else s.retireCore k)
  else
    let s1 := if inCluster then s.updCluster c (fun x => { x with bin := x.bin.put (off / 8 * 8) zeros })
      else s.updCore k (fun x => { x with bin := x.bin.put (off / 8 * 8) zeros })
    s1.updCluster c (fun x => { x with integrity := { x.integrity with spareRows := Tbl.modify 0 x.integrity.spareRows key (· + 1) } })

/-! ### Channels (R309 to R313, R542) -/

/-- The partition that holds a channel, in the numbering of R74. -/
def State.partOfChannel (s : State) (chan : Nat) : Option Nat :=
  (List.range 8).find? (fun p => match (s.part p).desc with
    | some d => d.channels.contains chan
    | none => false)

/-- Whether a gleaner's channel is mapped out (GLN_STATUS.MAPPED_OUT, R314). -/
def State.mappedOut (s : State) (g : Nat) : Bool := (s.gleaner g).status.getLsbD 5

/-- A channel of `n` bales all of whose units have been written with the reserved poison syndrome (R310). -/
def GleanerState.poisonBales (x : GleanerState) (n : Nat) : GleanerState :=
  { x with
    data := [], bad := [], badRest := 2, poisoned := n
    tags := (List.range n).map (fun b => (b, { x.tag b with poison := true })) }
/-- A granary channel so written. -/
def GleanerState.poisonAll (x : GleanerState) : GleanerState := x.poisonBales 24576

/-- The mirrored home bays of a channel are copied back from their mirrors, each unit as a repair write (R308, R310; at once: DESIGN CHOICE,
log 73). -/
def State.rebuildBays (s : State) (code g : Nat) : State :=
  (List.range 8).foldl (fun s p =>
    match s.planOf p with
    | none => s
    | some pl => pl.bays.zipIdx.foldl (fun s e =>
        match (if e.1.role = 0 ∧ e.1.tier = 0 ∧ e.1.channel = code then pl.tableOf e.1.table else none) with
        | none => s
        | some t =>
          if (pl.copiesOf e.1.table 3 e.2).isEmpty then s
          else (unitsOf (s.baySlot e.1 t 0) (e.1.rows * t.slot)).foldl (fun s u => (s.repairUnits g (64 * u) 64).1) s) s) s

/-- A granary channel is taken from its stack: evacuated to the reserve, switched to it at once, or absent (R309 to R311). A lost reserve is
no longer free. -/
def State.dropGranary (s : State) (g : Nat) (readable : Bool) : State :=
  let st := g / 32
  let m := s.stack st
  match (List.range 31).find? (fun n => m.phys.getD n n == g % 32 && !m.absent.testBit n) with
  | none => if m.reserve = g % 32 then s.setStack st { m with reserveFree := false, reserveFailed := true } else s
  | some n =>
    if m.reserveFree && !m.reserveFailed then
      let s1 := s.bindReserve st n
      if readable then s1
      else
        let tags := (s.gleaner g).tags
        let new := st * 32 + m.reserve
        let s2 := (s1.handRows g new (fun _ => true)).setStack st { s1.stack st with evacuating := none }
        let kept (x : GleanerState) : GleanerState := { x with tags := tags, retained := x.retained.map (fun c => { c with poisoned := true }) }
        (s2.updGleaner new (fun x => (kept x).poisonAll)).rebuildBays (st * 32 + n) new
    else (s.setStack st { m with
      absent := m.absent ||| 2 ^ n, evacuating := if m.evacuating = some n then none else m.evacuating
      reserveFailed := m.reserveFailed || m.reserve == g % 32 }).settleSysArea

/-- The replicas at a gleaner that is mapped out are withdrawn: its lookups go to a row's other replicas, or to its home (R251). -/
def State.loseReplicas (s : State) (g : Nat) : State :=
  let left (r : ReplicaEntry) : ReplicaEntry := { r with holders := r.holders.filter (fun h => h != g) }
  let s1 := s.gleaners.foldl (fun s e => e.2.replicas.foldl (fun s r =>
    if r.holders.any (fun h => h != g) then s
    else match s.rowPlace e.1 (r.table / 4096) (r.table % 4096) r.row with
      | some (t, _, off) => s.withdrawRow e.1 (r.table / 4096) off t.slot r
      | none => s) s) s
  let s2 := s1.gleaners.foldl (fun s e => if e.2.replicas.isEmpty then s
    else s.updGleaner e.1 (fun x => { x with replicas := x.replicas.map left })) s1
  let s3 := (List.range 28).foldl (fun s k => s.updCopyMap k (fun m => { m with replicas := m.replicas.map left })) s2
  s3.updGleaner g (fun x => { x with cache := x.cache.filter (fun c => c.kind != 1) })

/-- The moves into a gleaner that is mapped out are cancelled while their sources have not gone to FORWARD (R247). -/
def State.loseMoves (s : State) (g : Nat) : State :=
  (s.gleaner g).map.foldl (fun s d =>
    match (s.gleaner d.peer).mapOf d.table d.row with
    | some e => if d.state = .taking ∧ (e.state = .copying ∨ e.state = .dual) then s.cancelMove d.peer d.table d.row else s
    | none => s) s

/-- The bytes of a channel that partitions hold: it lies whole in one partition's share (R37, R39). -/
def State.heldBytes (s : State) (g : Nat) : Nat :=
  let (tier, code) := s.channelCode g
  if (s.partOfChannel (if tier = 0 then code else 384 + code)).isNone then 0
  else channelBytes (isLoft g) - (if tier = 0 then s.sysArea * 2 ^ 20 else 0)

/-- The journal units that lay in a channel that is gone are lost (R310, R398). The spec does not say where in the system area a journal
lies, so which records these are is free (DESIGN CHOICE, log 77). -/
def State.loseJournals (s : State) : State :=
  (List.range 32).foldl (fun s a =>
    let n := s.freeCtr
    let j := (s.att a).journal
    if j.isEmpty then s
    else { s.updAtt a (fun x => { x with journal := j.zipIdx.map (fun e => { e.1 with lost := e.1.lost || (Config.freeValue (n + e.2)).getLsbD 0 }) }) with
      freeCtr := n + j.length }) s

/-- A channel is mapped out (R542): its replicas and the moves into it end (R247, R251), MAPPED_OUT is set and CHANNEL_OUT
reported with the bytes lost to partitions, none where the reserve takes over its contents. -/
def State.mapOut (s : State) (g : Nat) (readable : Bool) : State :=
  if s.mappedOut g then s
  else
    let (tier, code) := s.channelCode g
    let p := (s.partOfChannel (if tier = 0 then code else 384 + code)).getD 0xFF
    let m := s.stack (g / 32)
    let kept := !isLoft g && readable && m.reserveFree && !m.reserveFailed
    let spare := !isLoft g && m.reserve == g % 32 && m.reserveFree
    let lost := if kept || spare then 0 else s.heldBytes g
    let s1 := ((s.updGleaner g (fun x => { x with status := x.status ||| 32 })).loseReplicas g).loseMoves g
    let s2 := if isLoft g then { s1 with loft := { s1.loft with out := s1.loft.out ||| 2 ^ (g - 384) } }.noteUnits else s1.dropGranary g readable
    let s3 := if isLoft g || kept || spare then s2 else s2.loseJournals
    s3.send (.fault { faultOf 0x0308 (gleanerUnit g).1 (gleanerUnit g).2 with
      part := p, addrKind := 1, address := physAddr tier code 0, detail := lost })

/-! ### Gleaners (R505, R507, R508) -/

/-- A built-in request whose point had been taken is answered; it ends OK (R508). -/
def State.answerReset (s : State) (g : Nat) (o : ChannelOp) : State :=
  match o.req.kind, o.fetch with
  | 0, _ => s.answerOp g o.req o.marks o.data
  | 2, some f =>
    let (bytes, stub, degraded) := s.fetchGives f (f.got.getD (f.slot, s.isStandIn f, s.isStandIn f))
    let whole := match (if stub then s.planOf (f.table / 4096) else none).bind (fun pl => (pl.tableOf (f.table % 4096)).map (fun t => (pl, t))) with
      | some (pl, t) => restoreStubble pl t bytes
      | none => bytes
    s.answerOp g o.req (o.marks ||| degraded.toNat) whole
  | 5, _ => s.answerOp g o.req o.marks o.data
  | _, _ => s.endRequest g o.req 0 0 o.marks

/-- A gleaner reset (R508): built-in requests that had taken their point end OK; an INVOKE that had issued no replacement runs again from its
start, one that had ends LOST; the cache keeps its rewritten default slots; requests wait until the gleaner is back. -/
def State.resetGleaner (s : State) (g : Nat) : State :=
  let x := s.gleaner g
  let ths := x.threads.filterMap Prod.snd
  let again := (ths.filter (fun t => !t.replaced)).map (fun t => t.req)
  let s1 := x.ops.foldl (fun s o => s.answerReset g o) (s.updGleaner g (fun x => { x with
    ops := [], threads := [], map := [], cache := x.cache.filter (fun c => c.kind == 2), stubbleUsed := 0, lateReads := []
    queue := again ++ x.forwardQueue ++ x.queue ++ x.held, held := [], forwardQueue := [], addBuffer := [] }))
  let s2 := (List.range 8).foldl (fun s t => s.dropProg g t) s1
  (ths.filter (fun t => t.replaced)).foldl (fun s t => s.endRequest g t.req 5 t.sent t.endMarks) s2

/-! ### Dies (R505 to R507) -/

/-- The bit of a die in DEV_READY's mask of dies held in reset: compute dies 0 and 1, then I/O dies. -/
def dieBit (unitKind unit : Nat) : Nat := (if unitKind = 16 then 2 else 0) + unit % 2

/-- The mask without a die. -/
def clearBit (m n : Nat) : Nat := if m.testBit n then m - 2 ^ n else m

/-- Whether a partition holds a unit of a die: clusters and stacks of a compute die, loft channels and Ethernet ports of an I/O die. -/
def PartitionDesc.holdsDie (d : PartitionDesc) (bit : Nat) : Bool :=
  if bit < 2 then (bitsSet d.clusters 24).any (fun c => c / 12 == bit) || (d.granary.zipIdx.any (fun e => e.1.2 != 0 && e.2 / 6 == bit))
  else (bitsSet d.loft 64).any (fun n => n / 32 == bit - 2) || (List.range 16).any (fun h => d.ports.testBit h && h / 8 == bit - 2)

/-- A queue is freed: its fetched commands complete with ABORTED (R506). -/
def State.freeQueue (s : State) (q : Nat) : State :=
  let s1 := s.updQueue q (fun x => { x with
    cmds := x.cmds.map (fun c => { c with stopped := true, code := if c.stopped then c.code else codeAborted, phase := .complete }) })
  let x := s1.queue q
  let s2 := x.cmds.foldl (fun s c =>
    s.issueCompletion q (s.recordWrite q c.seq (statusWord c.code c.marks false) c.userTag (if c.flags.testBit 1 then some x.vector else none))) s1
  { s2 with
    host := { s2.host with cmirror := Tbl.set 0 s2.host.cmirror q (x.nextSeq - 1) }
    gfe := { s2.gfe with queues := Tbl.set queueReset s2.gfe.queues q queueReset } }

/-- The plan of a partition is unloaded in ABORT mode at once: its contexts stop and their commands complete with ABORTED (R75, R506). -/
def State.abortPart (s : State) (p : Nat) : State :=
  if (s.planOf p).isNone then s
  else
    let cs := s.rangeContexts p
    let s1 := cs.foldl (fun s c => s.stopContext c codeAborted) s
    (cs.foldl (fun s c => s.finishStopped c) s1).unloadPart p

/-- A core after a die warm reset: reset values, but for its repair column, what the history applies again and its passes' record. -/
def CoreState.warm (x : CoreState) : CoreState :=
  { coreReset with
    grid := { gridReset with repairColumn := x.grid.repairColumn, repairActive := x.grid.repairActive }
    harrow := { harrowReset with permanent := x.harrow.permanent, suspect := x.harrow.suspect, passedAt := x.harrow.passedAt } }

/-- A gleaner after a die warm reset: reset values; DRAM contents, their readability and what is mapped out are kept. -/
def GleanerState.warm (x : GleanerState) : GleanerState :=
  { gleanerReset with
    data := x.data, bad := x.bad, badRest := x.badRest, status := x.status &&& 32
    test := { gleanerReset.test with hardRows := x.test.hardRows, found := x.test.found } }

/-- The units of compute die `d` take their reset values (R507). -/
def State.warmCompute (s : State) (d : Nat) : State :=
  let ks := (List.range 96).map (fun i => 96 * d + i)
  let cs := (List.range 12).map (fun i => 12 * d + i)
  let s1 := ks.foldl (fun s k => s.updCore k CoreState.warm) s
  let s2 := cs.foldl (fun s c => s.updCluster c (fun x => { clusterReset with
    retired := x.retired, integrity := { clusterReset.integrity with spareRows := x.integrity.spareRows } })) s1
  { s2 with gleaners := Tbl.mapWhere gleanerReset s2.gleaners (fun g _ => decide (g < 384) && g / 192 == d) GleanerState.warm }

/-- The units of I/O die `d` take their reset values: its host port and functions, Ethernet ports, loft gleaners and queues (R506, R507). -/
def State.warmIo (s : State) (d : Nat) : State :=
  let s1 := (s.gfe.queues.filter (fun e => e.2.state != 0 && e.2.inst == d)).foldl (fun s e => s.freeQueue e.1) s
  let s2 := (s1.resetPort d 0).updPort d (fun p => { portReset with perst := p.perst, clksel := p.clksel })
  let s3 := { s2 with gleaners := Tbl.mapWhere gleanerReset s2.gleaners (fun g _ => decide (384 ≤ g) && (g - 384) / 32 == d) GleanerState.warm }
  let far (k : Nat) : Bool := entryHome (s3.peerEntry k) != d
  { s3 with
    links := { s3.links with
      peers := s3.links.peers.filter (fun e => far e.1), streams := s3.links.streams.filter (fun e => far (e.1 / 8))
      ports := (List.range 4).foldl (fun t i => Tbl.set ethReset t (4 * d + i) ethReset) s3.links.ports }
    gfe := { s3.gfe with admin := s3.gfe.admin.filter (fun e => e.1 / 16 != d) } }

/-- A die warm reset (R506, R564): every plan whose partition holds a unit of the die is unloaded in ABORT mode, the die's units take their
reset values, and the die is out until WARM_RESET_DONE. -/
def State.warmReset (s : State) (bit : Nat) : State :=
  let s1 := (List.range 8).foldl (fun s p => match (s.part p).desc with
    | some d => if d.holdsDie bit then s.abortPart p else s
    | none => s) s
  let s2 := s1.updMgmt (fun m => { m with down := m.down ||| 2 ^ bit })
  if bit < 2 then s2.warmCompute bit else s2.warmIo (bit - 2)

/-! ### The device (R505, R506, R561) -/

/-- A gleaner after a cold reset: what the DRAM holds is kept unless power was lost, and then reads as the start's tests leave it (R506, R540,
R563). -/
def GleanerState.cold (x : GleanerState) (lost : Bool) : GleanerState :=
  let y := x.warm
  let z := { y with test := { y.test with hardRows := [] } }
  if lost then { z with data := [], bad := [], badRest := 0 } else z

/-- Management after a cold reset: reset values, but for fuses, flash, the pins of boundary scan, and whether DRAM was powered throughout. -/
def MgmtState.cold (m : MgmtState) : MgmtState :=
  { mgmtReset with
    fwFloor := m.fwFloor, debugLock := m.debugLock, serial := m.serial, rootKeyHash := m.rootKeyHash, prefer := m.prefer, images := m.images
    maintKeys := m.maintKeys, service := m.serviceFlash, serviceFlash := m.serviceFlash
    hist := { histReset with entries := m.hist.flash, flash := m.hist.flash }, thermTrip := m.thermTrip
    tap := m.tap, boundary := m.boundary }

/-- A device cold reset: every register takes its reset value. DRAM contents, capture slots and the table registry are kept unless power was
lost; so are flash, fuses, the channel maps, the host's queue of commands and what has been sent (R505 to R507). -/
def State.coldReset (s : State) (lost : Bool) : State :=
  let port (p : HostPort) : HostPort := { portReset with perst := p.perst, clksel := p.clksel }
  State.settleSysArea { State.reset with
    pending := s.pending, freeCtr := s.freeCtr, out := s.out
    parts := if lost then [] else (List.range 8).foldl (fun t p => Tbl.set partReset t p { partReset with registry := s.currentRegistry p }) []
    gleaners := Tbl.mapWhere gleanerReset ((List.range 8).foldl (fun s p => s.returnRows p) s).gleaners (fun _ _ => true) (fun x => x.cold lost)
    stackMaps := Tbl.mapWhere stackReset s.stackMaps (fun _ _ => true) (fun m => { m with evacuating := none, cursor := 0 }), loft := { loftReset with out := s.loft.out }
    host := { hostReset with ports := Tbl.mapWhere portReset s.host.ports (fun _ _ => true) port }
    loader := { loaderReset with keys := s.loader.keys, stepping := s.loader.stepping }
    faults := if lost then faultsReset else { faultsReset with captures := s.faults.captures, captureHead := s.faults.captureHead }
    acc := { accReset with coef := s.acc.coef }
    mgmt := s.mgmt.cold }

end Sys2Proof.Machine
end

