-- ==== Sys2Proof/Machine/Faults.lean ====
section
/-!
DEFINITION. Fault handling (spec 18): reports, the merge stage and the fault queue, teardowns, captures, recoveries and die resets.
-/

namespace Sys2Proof.Machine

/-! ### Records (R489 to R495) -/

/-- The side of the device that a unit stands on, 0 for CD0, stacks 0–5 and XD0 (R490, R499). A link between the sides belongs to side 0
(DEDUCED, log 52). -/
def State.sideOf (s : State) (uk u : Nat) : Nat :=
  match uk with
  | 1 => u / 96 % 2
  | 2 | 3 => u / 12 % 2
  | 4 => u / 192 % 2
  | 5 => u / 32 % 2
  | 6 => u / 8 % 2
  | 7 => u / 6 % 2
  | 8 => if u = 0 then 0 else if u < 3 then u - 1 else (u - 3) / 6 % 2
  | 11 => (s.att u).fn / 16 % 2
  | 12 => u / 4 % 2
  | 0 => 0
  | _ => u % 2

/-- The recovery engine of a unit: its side's, or the other once that one is silent (R499, R510). -/
def State.engineOf (s : State) (uk u : Nat) : Nat :=
  let e := s.sideOf uk u
  if s.faults.lost.testBit e then 1 - e else e

/-- The place by which faults merge: the 64 KiB bale of an address, the table and row indices over 65,536 (R494). -/
def faultPlace (r : FaultReport) : Nat × Nat × Nat :=
  match r.addrKind with
  | 3 => (3, 0, (if r.unitKind = 1 ∧ 2 ^ 24 ≤ r.address then clusterOf r.unit else r.unit) * 2 ^ 48 + r.address / 65536)
  | k => (k, if k = 4 then r.table else 0, r.address / 65536)

/-- Whether a report merges into a held record (R494). -/
def HeldFault.merges (h : HeldFault) (r : FaultReport) (now : Nat) : Bool :=
  decide (now < h.since + 1000) && r.ctx.isSome && h.report.ctx == r.ctx && h.report.kind == r.kind && r.addrKind != 0 &&
    faultPlace h.report == faultPlace r && h.report.unitKind == r.unitKind && h.report.unit / 64 == r.unit / 64

/-- A report enters its engine's merge stage, or merges into a record held there (R494). -/
def State.holdFault (s : State) (r : FaultReport) (serial capture : Nat) : State :=
  let e := s.engineOf r.unitKind r.unit
  let mine (h : HeldFault) : Bool := s.engineOf h.report.unitKind h.report.unit == e && h.merges r s.devTime
  s.updFaults (fun f =>
    match findIdxFrom mine f.merge 0 with
    | some n => { f with merge := f.merge.modify n (fun h =>
        { h with merged := true, mask := h.mask ||| 2 ^ (h.report.unit % 64) ||| 2 ^ (r.unit % 64), count := h.count + 1 }) }
    | none => { f with merge := f.merge ++ [
        { report := r, serial := serial, capture := capture, mask := 0, count := 1, merged := false, since := s.devTime }] })

/-- The 64 bytes of a record (R489); `flags` adds OVERFLOW_FIRST and OVERFLOW_LAST. -/
def HeldFault.bytes (h : HeldFault) (seq flags : Nat) : List Byte :=
  let r := h.report
  let fl := (if r.ctx.isSome then 1 else 0) + (if h.merged then 2 else 0) + flags
  natLE 4 seq ++ natLE 2 r.kind ++ natLE 1 r.action ++ natLE 1 fl ++ natLE 1 (r.ctx.getD 0) ++ natLE 1 r.part ++ natLE 2 r.queue ++
    natLE 4 r.tag ++ natLE 8 h.since ++ natLE 1 r.unitKind ++ natLE 1 r.addrKind ++ natLE 2 r.unit ++ natLE 2 r.table ++
    natLE 2 h.capture ++ natLE 8 r.address ++ natLE 8 h.mask ++ natLE 8 r.detail ++ natLE 4 h.count ++ natLE 1 r.domain ++ natLE 3 0

/-- Unconsumed records in the queue (R493). -/
def FaultState.unread (f : FaultState) : Nat := (f.head - f.tail).toNat

/-- FLT_INT_CTL's vector of each physical function that has ENABLE set (R493). -/
def State.faultVectors (s : State) : State :=
  [0, 16].foldl (fun s f =>
    let w := Tbl.get 0 s.faults.intCtl f
    if w.getLsbD 0 then s.fnVector f (w.toNat / 2) else s) s

/-- DEV_INT_STATUS of a physical function (R604). -/
def State.intSummary (s : State) (f : Nat) : Nat :=
  let i := Tbl.get intReset s.mgmt.ints f
  fieldsAt [(0, bit01 (s.faults.unread != 0)), (1, bit01 (s.gfe.status != 0)), (2, bit01 (s.host.status != 0)),
    (3, bit01 (s.xlt.status.getLsbD 1 || s.xlt.status.getLsbD 2)), (4, bit01 (s.links.regs.status != 0)),
    (5, bit01 (s.links.ports.any (fun e => e.2.linkLost))), (6, bit01 (s.mgmt.sensors.any (fun e => e.2.seen))), (7, bit01 s.mgmt.dip),
    (8, bit01 i.readyEvent), (9, bit01 i.units)]

/-- The interrupt summary is observed: the vector of each physical function with ENABLE set is sent once for each summary bit within MASK that
has gone from 0 to 1 since it was last observed (R605; DEDUCED, log 58). -/
def State.settleInts (s : State) : State :=
  [0, 16].foldl (fun s f =>
    let i := Tbl.get intReset s.mgmt.ints f
    let now := s.intSummary f
    let rose := (bitsSet now 10).filter (fun n => !i.seen.testBit n && i.ctl.getLsbD (12 + n))
    let s1 := if i.ctl.getLsbD 0 then rose.foldl (fun s _ => s.fnVector f (i.ctl.toNat / 2 % 2048)) s else s
    s1.updMgmt (fun m => { m with ints := Tbl.modify intReset m.ints f (fun i => { i with seen := now }) })) s
/-- A source of the summary is cleared: what rose before shows first, and what rises later will show again (R605; DEDUCED, log 58). -/
def State.clearing (s : State) (g : State → State) : State := (g s.settleInts).settleInts

/-- A record takes the next SEQUENCE and its place in the ring; a vector is sent where the queue was empty (R493). -/
def State.writeRecord (s : State) (h : HeldFault) (flags : Nat) : State :=
  let f := s.faults
  let seq := f.head.toNat
  let ctxs := match h.report.ctx with
    | some c => Tbl.modify ctxFaultsReset f.ctxs c (fun x => { x with last := f.head })
    | none => f.ctxs
  let s1 := { s with
    faults := { f with
      records := Tbl.set [] f.records (seq % 1024) (h.bytes seq flags), head := f.head + 1, ctxs := ctxs
      sequences := Tbl.set 0 f.sequences h.serial seq
      captures := Tbl.mapWhere none f.captures (fun _ c => (c.map (fun x => x.serial == h.serial)).getD false)
        (fun c => c.map (fun x => { x with fault := seq })) } }
  if f.unread = 0 then s1.faultVectors else s1

/-- A record that is due while the queue is full, or while overflowing records wait, is held first or coalesced as last (R495). -/
def State.overflow (s : State) (h : HeldFault) : State :=
  s.updFaults (fun f =>
    if f.overflowFirst.isNone && f.overflowLast.isNone then { f with status := f.status ||| 1, overflowFirst := some h }
    else
      let n := ((f.overflowLast.map (fun x => x.count)).getD 0) + h.count
      let f1 := { f with overflowLast := some { h with count := n } }
      match h.report.ctx with
      | some c => { f1 with ctxs := Tbl.modify ctxFaultsReset f.ctxs c (fun x => { x with overflow := x.overflow + BitVec.ofNat 16 h.count }) }
      | none => { f1 with overflowDevice := f.overflowDevice + BitVec.ofNat 32 h.count })

/-- A record is due (R494, R495). -/
def State.recordDue (s : State) (h : HeldFault) : State :=
  if 1024 ≤ s.faults.unread || s.faults.overflowFirst.isSome || s.faults.overflowLast.isSome then s.overflow h else s.writeRecord h 0

/-- As FLT_TAIL frees slots, the held first record is written, then the held last one (R495). -/
def State.releaseOverflow (s : State) : State :=
  let s1 := match s.faults.overflowFirst with
    | some h => if s.faults.unread < 1024 then (s.updFaults (fun f => { f with overflowFirst := none })).writeRecord h 4 else s
    | none => s
  match s1.faults.overflowFirst, s1.faults.overflowLast with
  | none, some h => if s1.faults.unread < 1024 then (s1.updFaults (fun f => { f with overflowLast := none })).writeRecord h 8 else s1
  | _, _ => s1

/-! ### Events of the history (R534, R536, R541, R542) -/

/-- The units that a record stands for: those of ENGINE_MASK where it is MERGED. -/
def HeldFault.units (h : HeldFault) : List Nat :=
  if h.merged then (bitsSet h.mask 64).map (fun i => h.report.unit / 64 * 64 + i) else [h.report.unit]

/-- Whether a recovery of a unit is open or queued. -/
def State.inRecovery (s : State) (uk u : Nat) : Bool := s.faults.recoveries.any (fun r => r.unitKind == uk && r.unit == u)

/-- An uncorrectable DRAM unit has been recorded (R305, R536, R542): its row's entry takes the event, and STATE PENDING_REPAIR where the unit
was found again after a write; 5 such rows, or 16 distinct units within 24 h, map the channel out. -/
def State.countDram (s : State) (r : FaultReport) (serial : Nat) : State :=
  let g := unitGleaner r.unitKind r.unit
  let t := (s.gleaner g).test
  let row := Config.dramRow g (r.address % 2 ^ (if isLoft g then 34 else 31) / 64)
  let s1 := s.histEvent r.unitKind 5 r.unit row serial (fun e =>
    { e.transient with state := if t.hardRows.contains row && e.state < 2 then 4 else e.state })
  let recent := t.found.filter (fun f => decide (s.mgmt.service < f.2 + 86400))
  if 5 ≤ t.hardRows.length ∨ 16 ≤ recent.length then s1.mapOut g true else s1

/-- The record of a harrow failure has been written: the entry and pattern of its event learn its SEQUENCE (R532, R533). -/
def State.noteHarrow (s : State) (u serial : Nat) : State :=
  let seq := Tbl.get 0 s.faults.sequences serial
  let mine (e : HistEntry) : Bool := e.unitKind == 1 && e.unit == u && (match e.patterns with
    | p :: _ => p.kind == 0x030B && p.fault == 0
    | [] => false)
  match findIdxFrom mine s.mgmt.hist.entries 0 with
  | none => s
  | some n => s.updHist (fun h => { h with
      pending := h.pending ++ [{ entry := n, serial := serial }]
      entries := h.entries.modify n (fun e => { e with
        lastFault := seq, patterns := e.patterns.modify 0 (fun p => { p with fault := seq }) }) })

/-- The event of one unit that a written record counts (R534, R536). A core or cluster that becomes PERMANENT is retired at once, or when its
recovery's capture is done. -/
def State.countUnit (s : State) (h : HeldFault) (u : Nat) : State :=
  let r := h.report
  let now := s.mgmt.service
  let core (s : State) : State :=
    let s1 := s.histEvent 1 0 u 0 h.serial (HistEntry.counted 3 now)
    if s1.isPermanent 1 0 u 0 && !s1.inRecovery 1 u && !(s1.core u).harrow.permanent then s1.retireCore u else s1
  match r.kind with
  | 0x0301 | 0x0304 => core s
  | 0x0305 =>
    let inCluster := decide (2 ^ 24 ≤ r.address)
    let (uk, un) := if inCluster then (2, clusterOf u) else (1, u)
    let s0 := if inCluster then s else core s
    let s1 := s0.histEvent uk 4 un (r.address % 2 ^ 24 / 512) h.serial (HistEntry.counted 2 now)
    if s1.isPermanent uk 4 un (r.address % 2 ^ 24 / 512) then s1.spareRow u r.address else s1
  | 0x0302 =>
    let s1 := s.histEvent 2 0 u 0 h.serial (HistEntry.counted 3 now)
    if s1.isPermanent 2 0 u 0 && !s1.inRecovery 2 u && !(s1.cluster u).retired then s1.retireCluster u else s1
  | 0x0306 | 0x0309 => s.histEvent r.unitKind 0 u 0 h.serial HistEntry.transient
  | 0x0307 => s.countDram { r with unit := u } h.serial
  | 0x030B => s.noteHarrow u h.serial
  | 0x0308 => s.histEvent r.unitKind 0 u 0 h.serial (HistEntry.permanent now)
  | 0x0401 => if r.unitKind = 1 then core s else s.histEvent r.unitKind 0 u 0 h.serial HistEntry.transient
  | _ => s

/-- What follows from the writing of a record: its events are counted, and a mismatch's pattern learns its SEQUENCE (R523, R534). -/
def State.countEvents (s : State) (h : HeldFault) : State :=
  let s1 := h.units.foldl (fun s u => s.countUnit h u) s
  if h.report.kind ≠ 0x0303 then s1
  else
    let mine (p : MismatchPattern) : Bool := p.core == h.report.unit && p.fault == 0 &&
      h.report.detail == unsignedOf 32 p.dSum + 2 ^ 32 * unsignedOf 32 p.cSum
    { s1 with patterns := s1.patterns.map (fun p => if mine p then { p with fault := Tbl.get 0 s1.faults.sequences h.serial } else p) }

/-- Whether a pattern's work item still exists: on a core, saved, stolen or listed. -/
def State.itemLives (s : State) (p : MismatchPattern) : Bool :=
  let mine := itemIs p.item p.home p.entered
  s.cores.any (fun e => (e.2.item.map mine).getD false || (e.2.saved.map (fun v => mine v.item)).getD false ||
    (e.2.incoming.map (fun v => mine v.1)).getD false) ||
  s.clusters.any (fun e => (e.2.ready.flatMap Prod.snd ++ e.2.unlisted).any mine)

/-- Unconfirmed mismatches, those discarded or whose item has ended without a clean replay, leave the recovery engine's memory and count as
transients of their core (R522, R523). -/
def State.discardPatterns (s : State) : State :=
  let gone (p : MismatchPattern) : Bool := !p.confirmed && p.fault != 0 && (p.discarded || !s.itemLives p)
  (s.patterns.filter gone).foldl (fun s p => s.histEvent 1 0 p.core 0 0 (fun e => { e.transient with lastFault := p.fault }))
    { s with patterns := s.patterns.filter (fun p => !gone p) }

/-- MERGE_WINDOW_EXPIRE: the oldest record held by engine `e` is due (R494, R495). -/
def execMergeWindowExpire (e : Nat) (s : State) : Answer :=
  if 2 ≤ e then .fault .noSuchUnit
  else
    match s.faults.merge.find? (fun h => s.engineOf h.report.unitKind h.report.unit == e) with
    | none => .next s
    | some h => .next (((s.updFaults (fun f => { f with merge := f.merge.erase h })).recordDue h).countEvents h |>.discardPatterns)

/-! ### Teardowns and recoveries (R496 to R498, R502, R505, R511) -/

/-- Whether a word lies between two others by serial arithmetic, ends included (R514). -/
def serialBetween (v low high : Word32) : Bool := decide ((v - low).toNat ≤ (high - low).toNat)

/-- The teardown of a context opens, unless one is under way or done, which absorbs the cause (R496). The second component is the capture
slot. -/
def State.openTeardown (s : State) (c : Nat) : State × Nat :=
  if s.faults.teardowns.any (fun t => t.ctx == c) ∨ (s.ctx c).state = 2 then (s, 0xFFFF)
  else
    let (s1, slot) := s.takeSlot
    (s1.updFaults (fun f => { f with teardowns := f.teardowns ++ [{ ctx := c, code := codeTornDown, slot := slot, captured := false }] }), slot)

/-- The unit that a fault's recovery resets, and its domain (R501, R505, R537); none where nothing is reset. -/
def recoveryOf (r : FaultReport) : Option (Nat × Nat × Nat) :=
  match r.kind with
  | 0x0301 | 0x0304 | 0x0305 => some (1, r.unit, 1)
  | 0x0302 => some (2, r.unit, 2)
  | 0x030A => some (r.unitKind, r.unit, 3)
  | 0x0401 =>
    match r.unitKind with
    | 1 => some (1, r.unit, 1)
    | 2 | 3 => some (2, r.unit, 2)
    | 4 | 5 => some (r.unitKind, r.unit, 3)
    | 9 | 13 => some (16, r.unit, 6)
    | _ => none
  | 0x030C => some (16, r.unit, 6)
  | _ => none

/-- A unit stops for its recovery: a hung core's item is returned for replay, a cluster's sequencer stops, a gleaner holds its requests. -/
def State.stopUnit (s : State) (uk u : Nat) : State :=
  match uk with
  | 1 => (s.emptyCore u).updCore u (fun x => { x with phase := .stopped, harrow := x.harrow.abandon })
  | 2 => s.updCluster u (fun x => { x with stopped := true })
  | 4 | 5 => s.updGleaner (unitGleaner uk u) (fun x => { x with holding := true })
  | _ => s

/-- A recovery opens, or waits while its engine has four open; a fault on a unit in recovery joins that one (R511). The second component is
the capture slot. -/
def State.openRecovery (s : State) (r : FaultReport) (uk u domain : Nat) : State × Nat :=
  match s.faults.recoveries.find? (fun x => x.unitKind == uk && x.unit == u) with
  | some x => (s, x.slot)
  | none =>
    let e := s.engineOf uk u
    let running := decide ((s.faults.recoveries.filter (fun x => x.engine == e && x.running)).length < 4)
    let (s1, slot) := s.takeSlot
    let x : Recovery :=
      { serial := s.faults.serial - 1, engine := e, unitKind := uk, unit := u, domain := domain, kind := r.kind, detail := r.detail, address := r.address, ctx := r.ctx
        running := running, slot := slot, captured := false }
    ((s1.updFaults (fun f => { f with recoveries := f.recoveries ++ [x] })).stopUnit uk u, slot)

/-- A stack or package that fails as a whole takes its channels with it; a failed stack's reserve fails too (R311, R312, R542). -/
def State.channelsLost (s : State) (r : FaultReport) : State :=
  match r.kind, r.unitKind with
  | 0x0308, 6 => (List.range 4).foldl (fun s i => s.mapOut (384 + 4 * r.unit + i) false) s
  | 0x0308, 7 =>
    let s1 := s.setStack r.unit { s.stack r.unit with reserveFree := false, reserveFailed := true }
    (List.range 32).foldl (fun s i => s.mapOut (32 * r.unit + i) false) s1
  | _, _ => s

/-- A fault is reported to its recovery engine: its action is taken at once and its record held (R494, R496, R511). -/
def State.report (s : State) (r : FaultReport) : State :=
  let serial := s.faults.serial
  let s0 := s.updFaults (fun f => { f with serial := f.serial + 1 })
  match r.kind / 256, r.ctx with
  | 1, some c =>
    let (s1, slot) := s0.openTeardown c
    s1.holdFault { r with action := 2, domain := 0 } serial slot
  | _, _ =>
    match recoveryOf r with
    | some (uk, u, domain) =>
      let (s1, slot) := s0.openRecovery r uk u domain
      s1.holdFault { r with action := if r.action = 0 then 4 else r.action, domain := domain } serial slot
    | none => (s0.channelsLost r).holdFault r serial 0xFFFF

/-- FAULT_REPORT: a unit's report reaches its recovery engine. -/
def execFaultReport (r : FaultReport) (s : State) : Answer := .next (s.report r)

/-- FLT_TAIL_WRITE: a value between TAIL and HEAD consumes records and lets held overflow records be written; a vector is sent where records
are left (R493, R495, R514). -/
def execFltTailWrite (f : Nat) (v : Word32) (s : State) : Answer :=
  onBar0 f s (fun s =>
    if f % 16 ≠ 0 ∨ !serialBetween v s.faults.tail s.faults.head then .next s
    else
      .next (s.clearing (fun s =>
        let s1 := s.updFaults (fun x => { x with tail := v })
        if s1.faults.unread = 0 then s1.releaseOverflow else s1.releaseOverflow.faultVectors)))

/-- FLT_TEARDOWN with GO: a function that owns the context's partition starts the context's teardown (R496, R514). -/
def execFltTeardown (f c : Nat) (s : State) : Answer :=
  onBar0 f s (fun s =>
    match s.partOfCtx (c % 256) with
    | none => .next s
    | some p =>
      if s.ownsPart f p then .next (s.report { faultOf 0x0105 0 0 with ctx := some (c % 256), part := p, detail := f }) else .next s)

/-- RECOVERY_START: the oldest waiting recovery of an engine starts once fewer than four are open (R511). -/
def execRecoveryStart (e : Nat) (s : State) : Answer :=
  if 2 ≤ e then .fault .noSuchUnit
  else
    let f := s.faults
    if 4 ≤ (f.recoveries.filter (fun x => x.engine == e && x.running)).length then .next s
    else
      match findIdxFrom (fun (x : Recovery) => x.engine == e && !x.running) f.recoveries 0 with
      | none => .next s
      | some n => .next (s.updFaults (fun f => { f with recoveries := f.recoveries.modify n (fun x => { x with running := true }) }))

/-! ### Captures (R502 to R504) -/

/-- The serial number of the fault that a slot was given to, and its time. -/
def State.captureFault (s : State) (slot : Nat) : Option (Nat × Nat) :=
  (s.faults.merge.find? (fun h => h.capture == slot)).map (fun h => (h.serial, h.since))

/-- The record of a fault whose capture was skipped shows no slot (R502): in the merge stage, held in overflow, or in the ring. -/
def FaultState.skipCapture (f : FaultState) (slot : Nat) : FaultState :=
  let mend (h : HeldFault) : HeldFault := if h.capture = slot then { h with capture := 0xFFFF } else h
  let inRing (b : List Byte) : Bool := fieldLE b 0x1E 2 == slot
  { f with
    status := f.status ||| 2, merge := f.merge.map mend, overflowFirst := f.overflowFirst.map mend, overflowLast := f.overflowLast.map mend
    records := Tbl.mapWhere [] f.records (fun n b => inRing b &&
        decide ((f.head.toNat + 1024 - 1 - n) % 1024 < 128)) (fun b => b.take 0x1E ++ natLE 2 0xFFFF ++ b.drop 0x20) }

/-- The SEQUENCE and TIME of the fault behind a slot, as its record in the ring or the merge stage gives them; 0 where none does. -/
def State.slotRecord (s : State) (slot : Nat) : Nat × Nat × Nat :=
  match s.captureFault slot with
  | some (serial, time) => (serial, 0, time)
  | none =>
    match s.faults.records.find? (fun e => fieldLE e.2 0x1E 2 == slot && decide ((s.faults.head.toNat + 1023 - e.1) % 1024 < 128)) with
    | some e => (0, fieldLE e.2 0 4, fieldLE e.2 0x10 8)
    | none => (0, 0, s.devTime)

/-- A capture is written to its slot, or skipped (R502, R503). -/
def State.writeCapture (s : State) (slot domain uk u : Nat) (ctx : Option Nat) (written : Bool) : State :=
  if !written then s.updFaults (fun f => f.skipCapture slot)
  else
    let (sections, truncated) := fitSections (s.captureSections (domain == 7) uk (if domain = 7 then List.range 256 else s.domainContexts uk u ctx))
    let (serial, seq, time) := s.slotRecord slot
    s.updFaults (fun f => { f with captures := Tbl.set none f.captures slot (some
      { serial := serial, fault := seq, time := time, domain := domain, complete := true, truncated := truncated, sections := sections }) })

/-! ### Resets (R505, R507, R508, R537) -/

/-- A cluster reset: the DMA engine is emptied and the items whose transfers it held are returned for replay; other cores keep their items;
pre-emptions end (R505, R507, R518; DEDUCED, log 53). -/
def State.resetCluster (s : State) (c : Nat) : State :=
  let x := s.cluster c
  let held (k : Nat) : Bool := x.transfersOf k != 0
  let ks := (List.range 8).map (fun j => 8 * c + j)
  let s1 := (ks.filter held).foldl (fun s k => s.replayItem k false) s
  let s2 := ks.foldl (fun s k => s.updCore k (fun y => { y with
    phase := if y.phase = .quiesce ∨ y.phase = .saving then .running else y.phase })) s1
  s2.updCluster c (fun y => { y with preempts := [], dma := { y.dma with queues := [], outstanding := [] } })

/-- What a recovery's capture lets go on: the core is retired, replaced by the spare or reset; the cluster, gleaner or die is reset
(R289, R505, R537). -/
def State.performReset (s : State) (r : Recovery) : State :=
  match r.unitKind with
  | 1 =>
    let k := r.unit
    let c := clusterOf k
    let alone := r.kind == 0x0305 && r.detail == 0 && (match s.poolOf k with
      | some (_, p, _) => (List.range 192).all (fun n => n == k || s.partOfCluster (clusterOf n) != s.partOfCluster c || (s.core n).harrow.codeLost ||
          (match s.poolOf n with
           | some (_, q, _) => q.stage != p.stage
           | none => true))
      | none => true)
    let s1 := if r.kind = 0x0305 ∧ 2 ^ 24 ≤ r.address
      then s.updCluster c (fun x => { x with bin := x.bin.put (r.address % 2 ^ 24 / 8 * 8) (List.replicate 8 0) }) else s
    if s1.isPermanent 1 0 k 0 then s1.retireCore k
    else
      let s2 := s1.updCore k (fun x => { x.resetUnits with harrow := { x.harrow with suspect := true, phase := 1, codeLost := alone } })
      match s2.logicalOf k, s2.spareOf c with
      | some _, some n => if alone then s2 else s2.spareTakes c k n
      | _, _ => s2
  | 2 => if s.isPermanent 2 0 r.unit 0 then s.retireCluster r.unit else s.resetCluster r.unit
  | 4 | 5 => s.resetGleaner (unitGleaner r.unitKind r.unit)
  | 0 =>
    let s1 := s.coldReset false
    s1.updMgmt (fun m => { m with phase := .bootRom, powerGood := s.mgmt.powerGood })
  | uk => s.warmReset (dieBit uk r.unit)

/-- CAPTURE_DONE: a capture is written, or skipped where its slot cannot be written, and what waited for it proceeds: the teardown's steps or
the unit's reset (R497, R502). -/
def execCaptureDone (slot : Nat) (written : Bool) (s : State) : Answer :=
  match s.faults.teardowns.find? (fun t => t.slot == slot && !t.captured) with
  | some t =>
    let s1 := s.writeCapture slot 0 0 0 (some t.ctx) written
    let s2 := s1.updFaults (fun f => { f with teardowns := f.teardowns.map (fun x => if x.ctx = t.ctx then { x with captured := true } else x) })
    .next (s2.stopContext t.ctx t.code)
  | none =>
    match s.faults.recoveries.find? (fun r => r.slot == slot && r.running && !r.captured) with
    | some r =>
      let s1 := s.writeCapture slot r.domain r.unitKind r.unit r.ctx written
      let s2 := s1.updFaults (fun f => { f with recoveries := f.recoveries.map (fun x => if x = r then { x with captured := true } else x) })
      .next (s2.performReset r)
    | none => .next s

/-- A recovery closes (R512). -/
def State.closeRecovery (s : State) (uk u : Nat) : State :=
  s.updFaults (fun f => { f with recoveries := f.recoveries.filter (fun r => !(r.unitKind == uk && r.unit == u)) })

/-- Every loaded core of a cluster that stands stopped without a recovery of its own, and without having been retired, serves: a core that
kept its logical number, or the spare that took it. -/
def State.coresReturn (s : State) (c : Nat) : State :=
  ((List.range 8).map (fun j => 8 * c + j)).foldl (fun s k =>
    if (s.core k).phase = .stopped ∧ !(s.core k).harrow.permanent ∧ !s.inRecovery 1 k then
      (if (s.logicalOf k).isSome then s.coreServes k else s.updCore k (fun x => { x with phase := .idle })) else s) s

/-- UNIT_RESET_DONE: the reset or replaced unit returns to service and its recovery closes. A gleaner first passes its self-test: an event of
a passed one is counted and makes the channel SUSPECT, a failed one maps it out (R508, R512, R536, R541). -/
def execUnitResetDone (unitKind unit : Nat) (passed : Bool) (s : State) : Answer :=
  match s.faults.recoveries.find? (fun r => r.unitKind == unitKind && r.unit == unit && r.captured) with
  | none => .next s
  | some r =>
    match unitKind with
    | 1 => .next ((s.closeRecovery 1 unit).coresReturn (clusterOf unit))
    | 2 =>
      let s1 := (s.closeRecovery 2 unit).updCluster unit (fun x => { x with stopped := false })
      .next ((s1.coresReturn unit).dispatch unit)
    | 4 | 5 =>
      let g := unitGleaner unitKind unit
      let now := s.mgmt.service
      let s1 := s.closeRecovery unitKind unit
      let s2 := if r.kind ≠ 0x030A then s1
        else s1.histEvent unitKind 0 unit 0 r.serial (if passed then HistEntry.counted 3 now else HistEntry.permanent now)
      let s3 := if s2.isPermanent unitKind 0 unit 0 then s2.mapOut g true
        else s2.updGleaner g (fun x => { x with test := if r.kind = 0x030A then x.test.suspects else x.test })
      .next ((s3.updGleaner g (fun x => { x with holding := s3.rolls g })).drainQueue g)
    | _ => .next s

/-! ### Die resets and the pair of engines (R505, R506, R510, R564) -/

/-- A die warm reset opens: its capture comes first (R502). Dies 0 and 1 are the compute dies, 2 and 3 the I/O dies. -/
def State.openDieReset (s : State) (die : Nat) : State :=
  let uk := if die < 2 then 15 else 16
  (s.openRecovery (faultOf 0 uk (die % 2)) uk (die % 2) 6).1

/-- DIE_PLL_LOSS: a die has lost its PLL, or a whole die-to-die link of it has failed (R505). -/
def execDiePllLoss (die : Nat) (s : State) : Answer := if 4 ≤ die then .fault .noSuchUnit else .next (s.openDieReset die)

/-- The die-to-die links of a die, in the order of R58: CD0–CD1, the die's I/O-die link, its six stack links (R25). -/
def dieLinks (die : Nat) : List Nat := if die < 2 then [0, 1 + die] ++ (List.range 6).map (fun i => 3 + 6 * die + i) else [die - 1]
/-- The links of a die retrain with all their modules and start anew (R27, R564). -/
def MgmtState.retrainLinks (m : MgmtState) (die : Nat) : MgmtState :=
  (dieLinks die).foldl (fun m l => { m with
    modulesOut := Tbl.set 0 m.modulesOut l 0
    flits := Tbl.set flitReset (Tbl.set flitReset m.flits (2 * l) flitReset) (2 * l + 1) flitReset }) m

/-- WARM_RESET_DONE: the die has retrained and passed BIST; it returns to service, and its recovery closes (R564). -/
def execWarmResetDone (die : Nat) (s : State) : Answer :=
  if 4 ≤ die then .fault .noSuchUnit
  else if !s.mgmt.down.testBit die then .next s
  else
    let s1 := (s.updMgmt (fun m => { m with down := clearBit m.down die }.retrainLinks die)).closeRecovery (if die < 2 then 15 else 16) (die % 2)
    .next (if die < 2 then s1 else s1.updFaults (fun f => { f with lost := clearBit f.lost (die - 2) }))

/-- ENGINE_HEARTBEAT_TIMEOUT: engine `e` has heard nothing for 100 µs: it takes over the other's recoveries, sampling and queue writes,
records ENGINE_TAKEOVER, sets INSTANCE_LOST and has the other's I/O die warm-reset (R510). -/
def execEngineHeartbeatTimeout (e : Nat) (s : State) : Answer :=
  if 2 ≤ e then .fault .noSuchUnit
  else if s.faults.lost ≠ 0 then .next s
  else
    let s1 := s.updFaults (fun f => { f with
      lost := 2 ^ (1 - e), status := f.status ||| 4, recoveries := f.recoveries.map (fun r => { r with engine := e }) })
    .next (s1.report { faultOf 0x030C 9 (1 - e) with detail := e })

end Sys2Proof.Machine
end

