-- ==== Sys2Proof/Machine/Flits.lean ====
section
/-!
DEFINITION. Die-to-die links (R24 to R27): flits with their CRC, replay in order, and modules that fail.
-/

namespace Sys2Proof.Machine

/-- A command on a die-to-die link and direction faults where there is none (R25, R58). -/
def onLink (l d : Nat) (s : State) (f : State → Answer) : Answer := if l < 15 ∧ d < 2 then f s else .fault .noSuchUnit
/-- The modules of a link: 25, or 8 for a stack link (R25). -/
def linkModules (l : Nat) : Nat := if l < 3 then 25 else 8
/-- One direction of a link. -/
def State.flitPath (s : State) (l d : Nat) : FlitPath := Tbl.get flitReset s.mgmt.flits (2 * l + d)
/-- The state with that replaced. -/
def State.setFlitPath (s : State) (l d : Nat) (p : FlitPath) : State :=
  s.updMgmt (fun m => { m with flits := Tbl.set flitReset m.flits (2 * l + d) p })
/-- The receiver asks for the flits from the next expected one on. -/
def State.replayFlits (s : State) (l d : Nat) : State :=
  (s.setFlitPath l d { s.flitPath l d with replaying := true }).send (.flitReplay l d (s.flitPath l d).expected)

/-- What the sender's retry buffer holds of a flit: what it sent first (R26). -/
def FlitPath.sent (p : FlitPath) (seq : Nat) (payload : List Byte) : List Byte := ((p.retry.find? (fun e => e.1 == seq)).map Prod.snd).getD payload
/-- The sender keeps a flit that it sends until the receiver has taken it. -/
def FlitPath.keep (p : FlitPath) (seq : Nat) (payload : List Byte) : FlitPath :=
  if seq < p.expected ∨ p.retry.any (fun e => e.1 == seq) then p else { p with retry := p.retry ++ [(seq, payload)] }

/-- D2D_FLIT_RECEIVE: flit number `seq` of a link's direction arrives, with 240 bytes of payload. One that fails its CRC is replayed from the
sender's retry buffer, again where the replayed flit fails too; until it has come, later ones are not delivered, so that none is delivered out of
order (R26). -/
def execD2dFlitReceive (l d seq : Nat) (crcOk : Bool) (payload : List Byte) (s : State) : Answer :=
  onLink l d s (fun s =>
    if payload.length ≠ 240 then .next s
    else
      let p := (s.flitPath l d).keep seq payload
      let s1 := s.setFlitPath l d p
      if !crcOk then .next (if p.replaying ∧ seq ≠ p.expected then s1 else s1.replayFlits l d)
      else if seq ≠ p.expected then .next s1
      else .next ((s.setFlitPath l d
        { expected := seq + 1, replaying := false, replays := p.replays + bit01 p.replaying, retry := p.retry.filter (fun e => decide (seq < e.1)) }).send
          (.flit l d (p.sent seq payload))))

/-- D2D_MODULE_FAIL: a module leaves its link; the flits not acknowledged are replayed on the others, the link then runs at a reduced rate, and the
fault is reported. Credits are not reduced (R27). -/
def execD2dModuleFail (l module : Nat) (s : State) : Answer :=
  onLink l 0 s (fun s =>
    let out := Tbl.get 0 s.mgmt.modulesOut l
    if linkModules l ≤ module ∨ out.testBit module then .next s
    else
      let s1 := s.updMgmt (fun m => { m with modulesOut := Tbl.set 0 m.modulesOut l (out + 2 ^ module) })
      .next (((s1.replayFlits l 0).replayFlits l 1).send (.fault { faultOf 0x0309 8 l with detail := module })))

end Sys2Proof.Machine
end

