-- ==== Sys2Proof/Machine/Progress.lean ====
section
/-!
DEFINITION. Progress counters and stalls (R499 to R501).
-/

namespace Sys2Proof.Machine

/-- What a sample finds of an engine (R499): its counter, whether work is pending, and whether one of the excluded waits holds. -/
structure Probe where
  counter : Nat
  work : Bool
  excluded : Bool

/-- What a stalled engine waits for (R500): another engine, by code and number; a named wait with its cause, object and context; or nothing
that is known. -/
inductive Cause where
  | engine (code unit : Nat)
  | named (cause object : Nat) (ctx : Option Nat)
  | self

/-- The key of an engine's samples. -/
def engineKey (code unit : Nat) : Nat := code * 65536 + unit

/-- Whether some ready list is full (R437). -/
def State.listFull (s : State) : Bool := s.clusters.any (fun e => !e.2.unlisted.isEmpty || e.2.ready.any (fun l => decide (256 ≤ l.2.length)))

/-- Whether a queue's next parsed command could be dispatched (R415). -/
def State.dispatchable (s : State) (q : Nat) : Bool :=
  let x := s.queue q
  match x.nextParsed with
  | none => false
  | some c => x.state == 1 && !(c.flags.testBit 0 && x.cmds.any (fun d => decide (d.seq < c.seq) && d.phase != CmdPhase.complete)) &&
      (match s.workWait q c with
       | .go _ => true
       | _ => false)

/-- What a recovery engine samples of a queue: HOST_CMIRROR; the full completion ring, the unsealed slot and the full journal are excluded. -/
def State.probeQueue (s : State) (q : Nat) : Probe :=
  let x := s.queue q
  { counter := Tbl.get 0 s.host.cmirror q, work := !x.cmds.isEmpty, excluded := x.cqFull || x.waitSeal.isSome || (s.att x.attachment).journalFull }

/-- What it samples of an Igrum engine: packets acknowledged and completion entries written, over the peers and rings at home there. -/
def State.probeIgrum (s : State) (e : Nat) : Probe :=
  let streams := s.links.streams.filter (fun x => entryHome (s.peerEntry (x.1 / 8)) == e)
  let rings := s.links.rings.filter (fun r => entryHome (s.ringEntry r.1) == e)
  { counter := sumNat (streams.map (fun x => x.2.ackPsn)) + 2 ^ 32 * sumNat (rings.map (fun r => r.2.written))
    work := streams.any (fun x => !x.2.unacked.isEmpty || !x.2.ops.isEmpty) || rings.any (fun r => r.2.next != r.2.written)
    excluded := streams.any (fun x => x.2.ops.any (fun o => s.gfe.queues.any (fun q =>
      q.2.state != 0 && q.2.context == o.ctx && (s.att q.2.attachment).journalFull))) }

/-- What it samples of any engine (R499). -/
def State.probe (s : State) (code u : Nat) : Probe :=
  match code with
  | 1 => s.probeQueue u
  | 2 => { counter := s.gfe.dispatched.toNat, work := s.gfe.queues.any (fun e => e.2.inst == u && s.dispatchable e.1), excluded := s.listFull }
  | 3 =>
    let c := s.cluster u
    let open_ (r : SheafRecord) : Bool := r.counts.any (fun e => Tbl.get 0 r.verdicts (e.1 / 128) == 0)
    { counter := c.progress, work := c.ready.any (fun l => !l.2.isEmpty) || c.records.any (fun e => (e.2.map open_).getD false), excluded := false }
  | 4 => { counter := (s.core u).retired.toNat, work := (s.core u).phase == .running || (s.core u).phase == .atEnd, excluded := false }
  | 5 =>
    let g := (s.core u).grid
    { counter := g.tiles.toNat, work := !g.queue.isEmpty || g.anyOpen, excluded := false }
  | 6 =>
    let d := (s.cluster u).dma
    { counter := d.done.toNat, work := !d.outstanding.isEmpty || d.queues.any (fun q => !q.2.isEmpty), excluded := false }
  | 7 =>
    let g := s.gleaner u
    { counter := g.retired.toNat, work := !g.threads.isEmpty || !g.waitingReqs.isEmpty, excluded := false }
  | _ => s.probeIgrum u

/-- The named wait of a queue: a semaphore, a landing counter, or held pins at the limit (R234, R416, R500). -/
def State.queueCause (s : State) (q : Nat) : Cause :=
  let x := s.queue q
  let pinned (c : Cmd) : Bool := c.op == 0x11 && c.phase == CmdPhase.dispatched &&
    decide (16 ≤ (s.pinnedEpochs x.part (c.field 0 2)).length)
  match x.cmds.find? pinned, x.nextParsed with
  | some c, _ => .named 4 (c.field 0 2) (some x.context)
  | none, some c =>
    if !x.waitEvent ∨ !c.flags.testBit 2 then .engine 2 x.inst
    else if c.waitKind = 2 then .named 2 c.waitObj (some x.context)
    else .named 1 (s.semBase x.part + c.waitObj) (some x.context)
  | none, none => .engine 2 x.inst

/-- The named wait of an Igrum engine: a peer that is failing over, or credit that a peer has not granted (R465, R482). -/
def State.igrumCause (s : State) (e : Nat) : Cause :=
  let stuck (x : Nat × Stream) : Bool := entryHome (s.peerEntry (x.1 / 8)) == e &&
    ((s.peer (x.1 / 8)).probing.isSome || x.2.ops.any (fun o => !o.sent && decide (x.2.credit <
      x.2.requestCells + packetCells (min 4096 (fieldLE o.slot 0x20 4 - 4096 * o.nextPacket)))))
  match s.links.streams.find? stuck with
  | some x => .named 5 (x.1 / 8) ((x.2.ops.head?).map (fun o => o.ctx))
  | none => .self

/-- The engine that a core waits on (R500): at GWAIT its grid, at VRDT the cluster sequencer of its sheaf, at FENCE or END a unit with work of
the item. -/
def State.coreCause (s : State) (k : Nat) : Cause :=
  let c := s.core k
  let op := s.opcodeAt k c.vec.pc
  if op = 0x61 then .engine 5 k
  else if op = 0x15 then .engine 3 (c.home k)
  else if c.phase ≠ .atEnd ∧ op ≠ 0x13 then .self
  else if !c.grid.queue.isEmpty ∨ !c.grid.flight.isEmpty then .engine 5 k
  else if (s.cluster (clusterOf k)).transfersOf k ≠ 0 then .engine 6 (clusterOf k)
  else .self

/-- The cause that a stalled engine names (R500): a core the unit it waits on, a grid at a verdict the cluster that takes it, a DMA engine a
gleaner that owes it an END, a gleaner a replacement that waits on reserve space. -/
def State.causeOf (s : State) (code u : Nat) : Cause :=
  match code with
  | 1 => s.queueCause u
  | 4 => s.coreCause u
  | 5 =>
    match (s.core u).grid.queue.head? with
    | some t => if t.sheaf != 0xFFFF && (s.cluster ((s.core u).home u)).verdict t.sheaf t.layer == 0 then .engine 3 ((s.core u).home u) else .self
    | none => .self
  | 6 =>
    match ((s.cluster u).dma.outstanding.flatMap (fun x => x.parts)).head? with
    | some (_, g) => .engine 7 g
    | none => .self
  | 7 =>
    match (s.gleaner u).waiting.head? with
    | some r => .named 3 r.table (some r.ctx)
    | none => .self
  | 8 => s.igrumCause u
  | _ => .self

/-- The engines that engine `e` samples: those of its side, and the other side's too once that one is silent (R499, R510). -/
def State.sampled (s : State) (e : Nat) : List (Nat × Nat) :=
  let sides := (List.range 2).filter (fun d => d == e || s.faults.lost.testBit d)
  let own := sides.flatMap (fun d =>
    [(2, d), (8, d)] ++ (List.range 12).flatMap (fun i => [(3, 12 * d + i), (6, 12 * d + i)]) ++
      (List.range 96).flatMap (fun i => [(4, 96 * d + i), (5, 96 * d + i)]) ++
      (List.range 192).map (fun i => (7, 192 * d + i)) ++ (List.range 32).map (fun i => (7, 384 + 32 * d + i)))
  ((s.gfe.queues.filter (fun q => q.2.state != 0 && sides.contains q.2.inst)).map (fun q => (1, q.1))) ++ own

/-- LIMIT: 0 and 1 act as 2 (R514). -/
def FaultState.stallLimit (f : FaultState) : Nat := max 2 f.limit.toNat

/-- An engine's sample: its count of samples without progress goes on, or the episode ends (R499, R501). -/
def State.sampleOne (s : State) (code u : Nat) : State :=
  let p := s.probe code u
  let x := Tbl.get sampleReset s.faults.samples (engineKey code u)
  let y : Sample := if p.work && !p.excluded && p.counter == x.counter then { x with still := x.still + 1 }
    else { counter := p.counter, still := 0, reported := false }
  s.updFaults (fun f => { f with samples := Tbl.set sampleReset f.samples (engineKey code u) y })

/-- Whether an engine is stalled (R499). -/
def State.stalled (s : State) (code u : Nat) : Bool :=
  decide (s.faults.stallLimit ≤ (Tbl.get sampleReset s.faults.samples (engineKey code u)).still)

/-- The end of a chain of causes: the last stalled engine, with what it waits for, or every engine of a chain that closes on itself
(R500). -/
def State.chainEnd (s : State) : Nat → Nat → Nat → List (Nat × Nat) → List (Nat × Nat × Cause)
  | 0, _, _, _ => []
  | fuel + 1, code, u, seen =>
    match s.causeOf code u with
    | .engine c v =>
      if seen.contains (c, v) then ((c, v) :: seen.takeWhile (fun x => x != (c, v))).map (fun x => (x.1, x.2, Cause.self))
      else if s.stalled c v then s.chainEnd fuel c v ((c, v) :: seen)
      else []
    | other => [(code, u, other)]

/-- UNIT_KIND and UNIT of an engine (R490, R499). -/
def engineUnit (code u : Nat) : Nat × Nat :=
  match code with
  | 1 | 2 => (9, u)
  | 3 => (2, u)
  | 4 | 5 => (1, u)
  | 6 => (3, u)
  | 7 => gleanerUnit u
  | _ => (13, u)

/-- The context of the oldest work that a hung engine holds (R491, R492); of several contexts it is the oldest item's (DESIGN CHOICE, log 54). -/
def State.heldContext (s : State) (code u : Nat) : Option Nat :=
  match code with
  | 3 => (argMin (fun i : WorkItem => i.entered) ((s.cluster u).ready.flatMap Prod.snd)).map (fun i => i.ctx)
  | 6 => ((s.cluster u).dma.transfers.head?).map (fun x => x.ctx)
  | 7 => (((s.gleaner u).threads.filterMap (fun t => t.2.map (fun h => h.req)) ++ (s.gleaner u).waitingReqs).find? (fun r => !r.system)).map
      (fun r => r.ctx)
  | 8 => ((s.links.streams.filter (fun x => entryHome (s.peerEntry (x.1 / 8)) == u)).flatMap (fun x => x.2.ops)).head?.map (fun o => o.ctx)
  | _ => none

/-- The record of a stall: STALL_BLOCKED with ACTION NOTED at a named wait, else STALL_HUNG, whose recovery captures and resets the smallest
domain (R501). -/
def State.declareStall (s : State) (code u : Nat) (cause : Cause) : State :=
  match cause with
  | .named n object ctx =>
    let (uk, un) := if code = 1 then (9, (s.queue u).inst) else engineUnit code u
    s.report { faultOf 0x0402 uk un with
      ctx := ctx, part := (ctx.bind s.partOfCtx).getD 0xFF, queue := if code = 1 then u else 0xFFFF, detail := n + 65536 * (object % 65536) }
  | _ =>
    let (uk, un) := engineUnit code u
    if uk = 1 then
      let action := match (s.core u).item with
        | some i => if s.endsItem i u then 1 else 3
        | none => 0
      s.report { s.coreFault u 0x0401 code with action := action }
    else
      let ctx := s.heldContext code u
      s.report { faultOf 0x0401 uk un with ctx := ctx, part := (ctx.bind s.partOfCtx).getD 0xFF, detail := code }

/-- A stalled engine declares the end of its chain, once an episode (R501). -/
def State.judgeStall (s : State) (code u : Nat) : State :=
  if !s.stalled code u then s
  else
    (s.chainEnd 64 code u [(code, u)]).foldl (fun s e =>
      let key := engineKey e.1 e.2.1
      let x := Tbl.get sampleReset s.faults.samples key
      if x.reported then s
      else
        (s.updFaults (fun f => { f with samples := Tbl.set sampleReset f.samples key { x with reported := true } })).declareStall e.1 e.2.1 e.2.2) s

/-- PROGRESS_SAMPLE: engine `e` samples every engine on its side and declares the stalls that LIMIT samples have shown (R499 to R501). -/
def execProgressSample (e : Nat) (s : State) : Answer :=
  if 2 ≤ e then .fault .noSuchUnit
  else
    let es := s.sampled e
    .next (es.foldl (fun s x => s.judgeStall x.1 x.2) (es.foldl (fun s x => s.sampleOne x.1 x.2) s))

end Sys2Proof.Machine
end

