-- ==== Sys2Proof/Machine/Integrity.lean ====
section
/-!
DEFINITION. Lockstep, column diagnosis, harrow passes, the fault history's writes and the traffic generators (spec 19).
-/

namespace Sys2Proof.Machine

/-! ### Lockstep (R516 to R518) -/

/-- CORE_LOCKSTEP: the sequencer pair of core `k` disagrees at an issue index; the core stops, its item is returned for replay (R517). -/
def execCoreLockstep (k index : Nat) (s : State) : Answer :=
  onCore k s (fun s =>
    if (s.core k).phase = .stopped then .next s
    else
      let s1 := s.updCluster (clusterOf k) (fun x => { x with
        integrity := { x.integrity with lockstepCore := x.integrity.lockstepCore + 1 } })
      .next (s1.coreFailed k 0x0301 index))

/-- CLUSTER_LOCKSTEP: the sequencer pair of cluster `c` disagrees and stops; the fault takes a cluster reset (R516, R518). -/
def execClusterLockstep (c : Nat) (s : State) : Answer :=
  onCluster c s (fun s =>
    if (s.cluster c).stopped ∨ (s.cluster c).retired then .next s
    else
      let s1 := s.updCluster c (fun x => { x with
        stopped := true, integrity := { x.integrity with lockstepCluster := x.integrity.lockstepCluster + 1 } })
      .next (s1.send (.fault (faultOf 0x0302 2 c))))

/-- CLUSTER_SELFTEST_DONE: the self-test after a cluster reset ends; a copy that it names as failed retires the cluster at once (R518, R536). -/
def execClusterSelftestDone (c : Nat) (failedCopy : Option Nat) (s : State) : Answer :=
  onCluster c s (fun s =>
    match failedCopy with
    | none => .next s
    | some n =>
      if (s.cluster c).retired then .next s
      else
        let now := s.mgmt.service
        let s1 := (s.histEvent 2 6 c n 0 (HistEntry.permanent now)).histEvent 2 0 c 0 0 (HistEntry.permanent now)
        .next (s1.retireCluster c))

/-! ### Column diagnosis (R522 to R525) -/

/-- What a diagnosis attributes an event to (R524): a data column, the checksum column, the core as a whole, or the grid, unresolved. -/
inductive Attribution where
  | column (j : Nat)
  | checksum
  | core
  | unresolved
  deriving DecidableEq, Repr

/-- The attribution of the columns that differ: 0 to 127 the data columns, 128 the checksum column, 129 the repair column (R524). -/
def attributed (columns : List Nat) : Attribution :=
  let cs := (columns.mergeSort (fun a b => a ≤ b)).eraseDups
  match cs with
  | [] => .unresolved
  | [128] => .checksum
  | j :: rest => if j < 128 ∧ (rest = [] ∨ cs = (List.range (128 - j)).map (fun i => j + i)) then .column j else .core

/-- An operand of a pattern as 2 bytes: an integer, or the upper half of a binary32 that holds a BF16 or E4M3 value exactly (R131, R533). -/
def operandWord (pairing : Nat) (a : Int) : List Byte :=
  if floatClass pairing then natLE 2 (a.toNat / 65536) else natLE 2 (unsignedOf 16 a)

/-- The pattern record of a diagnosed mismatch (R533). KB and NB are not among what the model's pattern keeps; they are free values. -/
def State.gridPattern (s : State) (p : MismatchPattern) (column : Nat) (differ : List (Nat × Int)) : PatternRecord :=
  { time := s.mgmt.service, kind := 0x0303, fault := p.fault
    planId := ((s.clusterPlan (clusterOf p.core)).map (fun pl => pl.planId)).getD 0
    summary := natLE 2 p.layer ++ natLE 1 p.pairing ++ natLE 1 p.row ++ natLE 4 s.free.toNat ++ natLE 1 column ++ zeroBytes 7 ++
      natLE 8 (unsignedOf 64 p.dSum) ++ natLE 8 (unsignedOf 64 p.cSum)
    operandsA := p.acts.flatMap (operandWord p.pairing)
    operandsW := p.weights.flatMap (fun r => operandWord p.pairing (r.getD column 0))
    diagnosis := (List.range 130).flatMap (fun j => natLE 4 (unsignedOf 32 (((differ.find? (fun e => e.1 == j)).map Prod.snd).getD 0))) }

/-- What a permanent grid event does to its core: the repair column takes a data column's place where it is free and its check matched; any
other retires the core (R159, R525). -/
def State.repairColumn (s : State) (k : Nat) (where_ : Attribution) (repairOk : Bool) : State :=
  match where_ with
  | .column j =>
    if repairOk && !(s.core k).grid.repairActive then s.updCore k (fun x => { x with grid := { x.grid with repairWanted := some j }.steer })
    else s.retireCore k
  | _ => s.retireCore k

/-- A diagnosis of a core's oldest confirmed pattern: the event is attributed and written to the history, and a permanent one is acted on
(R524, R525). -/
def State.diagnose (s : State) (k : Nat) (differ : List (Nat × Int)) (repairOk : Bool) : State :=
  match s.patterns.find? (fun p => p.core == k && p.confirmed) with
  | none => s
  | some p =>
    let at_ := attributed (differ.map Prod.fst)
    let (part, index) : Nat × Nat := match at_ with
      | .column j => (1, j)
      | .checksum => (2, 0)
      | .core => (0, 0)
      | .unresolved => (0, 0xFF)
    let column := match at_ with
      | .column j => j
      | _ => 0xFF
    let record := s.gridPattern p column differ
    let put (e : HistEntry) : HistEntry :=
      { (HistEntry.counted 3 s.mgmt.service e).addPattern record with lastFault := if p.fault = 0 then e.lastFault else p.fault }
    let s1 := ({ s with patterns := s.patterns.erase p }.tookFree).histEvent 1 part k index 0 put
    if s1.isPermanent 1 part k index then s1.repairColumn k at_ repairOk else s1

/-- COLUMN_DIAGNOSIS: a core with a confirmed mismatch stands at an item boundary and is withdrawn (R524). -/
def execColumnDiagnosis (k : Nat) (s : State) : Answer :=
  onCore k s (fun s =>
    let c := s.core k
    if c.phase = .idle ∧ c.item.isNone ∧ c.harrow.phase ≠ 2 ∧ s.patterns.any (fun p => p.core == k && p.confirmed) then
      .next (s.updCore k (fun x => { x with harrow := { x.harrow with diagnosing := true } }))
    else .next s)

/-- DIAGNOSIS_DONE: the 16 runs have ended with the named columns off their references by the given differences, and a run with the repair
column in place of the attributed one matched or did not; the core returns to its pool (R524, R525). -/
def execDiagnosisDone (k : Nat) (differ : List (Nat × Int)) (repairOk : Bool) (s : State) : Answer :=
  onCore k s (fun s =>
    if !(s.core k).harrow.diagnosing then .next s
    else
      let s1 := (s.updCore k (fun x => { x with harrow := { x.harrow with diagnosing := false } })).diagnose k differ repairOk
      .next ((s1.coreCleared k).dispatch (clusterOf k)))

/-! ### Harrow passes (R526 to R531) -/

/-- HARROW_DUE (R526). -/
def execHarrowDue (k : Nat) (s : State) : Answer :=
  onCore k s (fun s =>
    let h := (s.core k).harrow
    if !s.mgmt.harrowEnable ∨ h.permanent ∨ h.phase ≠ 0 then .next s
    else .next (s.updCore k (fun x => { x with harrow := { x.harrow with phase := 1 } })))

/-- Whether a plan of a cluster's partition has been committed and its queues do not fetch yet (R78, R531). -/
def State.betweenPlans (s : State) (c : Nat) : Bool :=
  match s.partOfCluster c with
  | some p => (s.part p).halted && s.loader.loads.any (fun l => l.part == p && (l.phase == LoadPhase.installing || l.phase == LoadPhase.installed))
  | none => false

/-- HARROW_START: a due core stands at an item boundary and no other pass runs in its cluster (R528, R531). -/
def execHarrowStart (k : Nat) (s : State) : Answer :=
  onCore k s (fun s =>
    let c := s.core k
    let others := (List.range 8).any (fun j => (s.core (8 * clusterOf k + j)).harrow.phase == 2)
    if (c.harrow.phase = 1 ∨ c.harrow.phase = 3) ∧ c.phase = .idle ∧ c.item.isNone ∧ c.incoming.isNone ∧ !c.harrow.diagnosing ∧ !others ∧
        !s.betweenPlans (clusterOf k) then
      .next (s.updCore k (fun x => { x with harrow := { x.harrow with phase := 2 } }))
    else .next s)

/-- HARROW_DEFER_EXPIRE: a pass has not started within the deferral limit: the core is fully pre-empted for it, or shows OVERDUE where its
pool lacks FULL_PREEMPT, its cluster has FULL_DISABLE set or it already holds a saved item (R453, R529). -/
def execHarrowDeferExpire (k : Nat) (s : State) : Answer :=
  onCore k s (fun s =>
    let c := s.core k
    match c.item, s.poolOf k with
    | some _, some (_, pool, _) =>
      if c.harrow.phase ≠ 1 then .next s
      else if !pool.fullPreempt ∨ (s.cluster (clusterOf k)).sched.fullDisable ∨ c.saved.isSome then .next (s.updCore k (fun x => { x with harrow := { x.harrow with phase := 3 } }))
      else if c.phase ≠ .running ∨ 2 ≤ (s.cluster (clusterOf k)).preempts.length then .next s
      else .next (s.startQuiesce k none)
    | _, _ => .next s)

/-- DETAIL of HARROW_FAIL (R530). -/
def harrowDetail (f : HarrowFailure) : Nat := f.step % 256 + 2 ^ 8 * (f.place % 256) + 2 ^ 16 * (f.pattern % 65536) + 2 ^ 32 * (f.difference % 2 ^ 32)

/-- A failed step of a pass (R530, R536, R537): both repeats passed makes it a transient of the core; a repeated failure makes the unit that
the step names PERMANENT, and a SUSPECT core as a whole. A data column is repaired where the repair column's run matched (R525). -/
def State.harrowFailed (s : State) (k : Nat) (f : HarrowFailure) (suspect repairOk : Bool) : State :=
  let now := s.mgmt.service
  if !f.again then s.histEvent 1 0 k 0 0 HistEntry.transient
  else
    let at_ : Attribution := if suspect ∨ f.step ≠ 5 then .core else if f.place < 128 then .column f.place else if f.place = 128 then .checksum else .core
    let (part, index) : Nat × Nat := match at_ with
      | .column j => (1, j)
      | .checksum => (2, 0)
      | _ => if !suspect && f.step == 5 && f.place == 129 then (3, 0) else (0, 0)
    let record : PatternRecord :=
      { time := now, kind := 0x030B, fault := 0, planId := ((s.clusterPlan (clusterOf k)).map (fun pl => pl.planId)).getD 0
        summary := natLE 8 (harrowDetail f) ++ zeroBytes 24, operandsA := zeroBytes 256, operandsW := zeroBytes 256, diagnosis := zeroBytes 520 }
    let s1 := s.send (.fault { faultOf 0x030B 1 k with detail := harrowDetail f })
    (s1.histEvent 1 part k index 0 (fun e => (e.permanent now).addPattern record)).repairColumn k at_ repairOk

/-- A SUSPECT core that has passed: it is the cluster's spare where its number was taken, else it returns to its pool (R537). -/
def State.clearSuspect (s : State) (k : Nat) : State :=
  let s1 := s.updCore k (fun x => { x with harrow := { x.harrow with suspect := false } })
  if (s1.logicalOf k).isSome then s1 else s1.setMap (clusterOf k) { s1.mapOf (clusterOf k) with spare := k % 8, spareFree := true }

/-- HARROW_COMPLETE: the pass ends, with a failed step or none, and with the diagnosis that it included where a confirmed mismatch was
pending; the saved item then resumes before any listed item (R526, R529 to R531, R545). -/
def execHarrowComplete (k : Nat) (failure : Option HarrowFailure) (differ : List (Nat × Int)) (repairOk : Bool) (s : State) : Answer :=
  onCore k s (fun s =>
    let h := (s.core k).harrow
    if h.phase ≠ 2 then .next s
    else
      let s1 := s.updCore k (fun x => { x with harrow := { x.harrow with
        phase := 0, lastFailed := failure.isSome, passedAt := s.mgmt.service, passes := x.harrow.passes + 1 } })
      let s2 := match failure with
        | some f => s1.harrowFailed k f h.suspect repairOk
        | none => s1
      let s3 := if h.suspect ∧ !(s2.core k).harrow.permanent then s2.clearSuspect k else s2
      let s4 := if (s3.core k).harrow.permanent then s3 else (s3.diagnose k differ repairOk).coreCleared k
      .next ((if (s4.core k).saved.isSome && s4.mayTake k then s4.startResume k else s4).dispatch (clusterOf k)))

/-! ### The fault history (R534, R535) -/

/-- HISTORY_WRITE_DONE: an entry's pending events are in flash, and FLAGS.HISTORY of their records is set (R489, R534). -/
def execHistoryWriteDone (entry : Nat) (s : State) : Answer :=
  let h := s.mgmt.hist
  match h.entries[entry]?, h.pending.any (fun p => p.entry == entry) with
  | some e, true =>
    let seqs := (h.pending.filter (fun p => p.entry == entry)).map (fun p => Tbl.get 0 s.faults.sequences p.serial)
    let flash := (h.flash ++ List.replicate (entry + 1 - h.flash.length) (histBlank 0 0 0 0)).set entry e
    let s1 := s.updHist (fun h => { h with flash := flash, pending := h.pending.filter (fun p => p.entry != entry) })
    let mine (_ : Nat) (b : List Byte) : Bool := fieldLE b 0 4 != 0 && seqs.contains (fieldLE b 0 4)
    let flag (b : List Byte) : List Byte := b.set 7 (b.getD 7 0 ||| 16)
    .next (s1.updFaults (fun f => { f with records := Tbl.mapWhere [] f.records mine flag }))
  | _, _ => .next s

/-- SERVICE_TIME_TICK: another 60 s of powered operation, written to flash; the hour over which corrected units are counted moves on
(R534, R541). -/
def execServiceTimeTick (s : State) : Answer :=
  let s1 := s.updMgmt (fun m => { m with service := m.service + 60, serviceFlash := m.service + 60 })
  let later (x : GleanerState) : GleanerState := { x with test := { x.test with recent := (0 :: x.test.recent).take 60 } }
  .next { s1 with gleaners := Tbl.mapWhere gleanerReset s1.gleaners (fun _ x => !x.test.recent.isEmpty) later }

/-- HIST_SELECT: a physical function's write of FLT_HIST_SELECT captures an entry into the window in one step (R535, R548). -/
def execHistSelect (f n : Nat) (s : State) : Answer :=
  onBar0 f s (fun s =>
    if f % 16 ≠ 0 then .next s
    else .next (s.updHist (fun h => { h with select := n % 4096, window := h.entries[n % 4096]? })))

/-! ### Traffic generators (R540 to R542, R563) -/

/-- The units that a PATTERN or MARCH test has touched are zero with valid ECC: a channel out of service, or the bales above the system area
of one that no partition holds (R540). -/
def State.zeroTested (s : State) (g : Nat) : State :=
  let (tier, code) := s.channelCode g
  if s.mappedOut g then s.updGleaner g (fun x => { x with data := [], bad := [], badRest := 0 })
  else if (s.partOfChannel (if tier = 0 then code else 384 + code)).isSome then s
  else
    let base := if tier = 0 then s.sysArea * 2 ^ 20 else 0
    s.updGleaner g (fun x => { x with
      data := x.data.filter (fun e => decide (e.1 < base)), bad := x.bad.filter (fun e => decide (e.1 < base / 64)) })

/-- TRAFFIC_TEST_DONE: a channel's test ends with the given count of units that failed a check. A failure in service maps the channel out;
a passed TRANSPARENT test of a SUSPECT channel makes it OK again, and a passed test of an untested loft channel frees it (R540 to R542,
R547, R563). -/
def execTrafficTestDone (g errors : Nat) (s : State) : Answer :=
  onGleaner g s (fun s =>
    let t := (s.gleaner g).test
    if t.phase ≠ 1 then .next s
    else
      let ok := errors == 0
      let s1 := s.updGleaner g (fun x => { x with test := { x.test with
        phase := if ok then 2 else 3, errors := x.test.errors + BitVec.ofNat 32 errors, failedSeen := x.test.failedSeen || !ok
        suspect := x.test.suspect && !(ok && x.test.mode == 1) } })
      let s2 := if 2 ≤ t.mode then s1.zeroTested g else s1
      let s3 := if ok ∧ isLoft g then s2.updMgmt (fun m => { m with untested := clearBit m.untested (g - 384) }) else s2
      .next (if ok ∨ s3.mappedOut g then s3 else s3.mapOut g true))

end Sys2Proof.Machine
end

