-- ==== Sys2Proof/Machine/Power.lean ====
section
/-!
DEFINITION. Start (R553 to R563), clocks and power (R565 to R569), input and sensors (R588 to R596), and the reeve pair (R550 to R552).
-/

namespace Sys2Proof.Machine

/-! ### Firmware images (R554, R555) -/

/-- Whether an image is valid (R554): its signature verifies under the key it carries, that key's digest is the fused one, and its
SECURITY_VERSION is at least FW_FLOOR. -/
def State.imageValid (s : State) (n : Nat) : Bool :=
  match Tbl.get none s.mgmt.images n with
  | none => false
  | some i => ecdsaVerifies i.vendorKey i.sigR i.sigS i.digest && sha384 (natBE 97 i.vendorKey) == s.mgmt.rootKeyHash &&
      decide (s.mgmt.fwFloor ≤ i.security)

/-- The image that a boot ROM runs: the preferred one if it is valid, else the other (R554). -/
def State.bootImage (s : State) : Option Nat :=
  let p := s.mgmt.prefer % 2
  if s.imageValid p then some p else if s.imageValid (1 - p) then some (1 - p) else none

/-! ### Cold start (R560 to R563, R588) -/

/-- POWER_ON: the input reaches 46 V; the always-on domain is powered and both boot ROMs start. Every bale awaits the tests that follow a loss
of power, those of the loft channels in service the last (R561, R563). A thermal trip holds the module off until its input is removed (R593). -/
def execPowerOn (s : State) : Answer :=
  if s.mgmt.phase ≠ .off ∨ s.mgmt.thermTrip then .next s
  else .next (s.updMgmt (fun m => { m with phase := .bootRom, untested := (2 ^ 64 - 1) ^^^ (s.loft.out % 2 ^ 64) }))

/-- PWR_GOOD_RISE: every rail has reached regulation (R588). -/
def execPwrGoodRise (s : State) : Answer :=
  if s.mgmt.phase = .off ∨ s.mgmt.dipping then .next s else .next (s.updMgmt (fun m => { m with powerGood := true }))

/-- IMAGE_VERIFY_DONE: the boot ROMs have verified the preferred image, and the other where that is invalid; the first valid one runs on both
reeves, and with none FAILED shows ERROR 1 (R554, R561). -/
def execImageVerifyDone (s : State) : Answer :=
  if s.mgmt.phase ≠ .bootRom then .next s
  else
    match s.bootImage with
    | some n => .next (s.updMgmt (fun m => { m with phase := .firmware, reeve := true, standby := true, image := n, activeReeve := 0 }))
    | none => .next (s.updMgmt (fun m => { m with phase := .failed, failed := true, error := 1 })).noteReady

/-- Failures during the start are reported as faults of the unit range, of a KIND that the spec leaves open (R491, R562; DESIGN CHOICE,
log 2). -/
def State.startFaults (s : State) (rs : List FaultReport) : State :=
  rs.foldl (fun s r => s.tookFree.send (.fault { r with kind := 0x0300 + s.free.toNat % 256 })) s

/-- DIE_POWER_UP_DONE: the dies have powered up, but for the compute dies named in the mask `absent`, and HBM training starts (R561, R562). -/
def execDiePowerUpDone (absent : Nat) (s : State) : Answer :=
  if s.mgmt.phase ≠ .firmware then .next s
  else .next (s.updMgmt (fun m => { m with phase := .training, absent := absent % 4, error := if absent % 4 = 0 then m.error else 2 })
    |>.startFaults ((bitsSet (absent % 4) 2).map (faultOf 0 15)))

/-- Channels that failed training are mapped out; what they held is lost (R310 to R312, R562). -/
def State.trainingFailed (s : State) (gs : List Nat) : State := gs.foldl (fun s g => if g < 448 then s.mapOut g false else s) s

/-- After a loss of power the generators of the granary channels in service test every bale (R540, R563). -/
def State.startGranaryTests (s : State) : State :=
  if s.mgmt.untested = 0 then s
  else ((List.range 384).filter (fun g => !s.mappedOut g)).foldl (fun s g =>
    s.updGleaner g (fun x => { x with test := { x.test with phase := 1, mode := 3 } })) s

/-- HBM_TRAINING_DONE, with the granary channels that failed it; the tests of the others run alongside LPDDR training (R561 to R563). -/
def execHbmTrainingDone (failed : List Nat) (s : State) : Answer :=
  if s.mgmt.phase ≠ .training then .next s
  else .next ((s.trainingFailed (failed.filter (fun g => decide (g < 384)))).startGranaryTests.updMgmt (fun m => { m with phase := .hbmTrained }))

/-- LPDDR_TRAINING_DONE, with the loft channels that failed it, by their numbers: TRAINED is set. An I/O die none of whose channels trained
shows ERROR 3 (R561, R562, R578). -/
def execLpddrTrainingDone (failed : List Nat) (s : State) : Answer :=
  if s.mgmt.phase ≠ .hbmTrained then .next s
  else
    let s1 := s.trainingFailed ((failed.filter (fun n => decide (n < 64))).map (fun n => 384 + n))
    let dead := [0, 32].any (fun b => (List.range 32).all (fun i => s1.loft.out.testBit (b + i)))
    .next (s1.updMgmt (fun m => { m with phase := .trained, trained := true, error := if dead then 3 else m.error }))

/-- The history as flash holds it applies again (R534): repaired columns, retired cores and clusters, bin rows, and the DRAM rows that are
PENDING_REPAIR. Channel maps stand in flash of themselves (R315, R553). -/
def State.applyHist (s : State) (e : HistEntry) : State :=
  if e.state ≠ 2 then
    (if e.state = 4 ∧ e.part = 5 then s.updGleaner (unitGleaner e.unitKind e.unit) (fun x => { x with test := { x.test with
      hardRows := if x.test.hardRows.contains e.index then x.test.hardRows else x.test.hardRows ++ [e.index] } }) else s)
  else
    match e.unitKind, e.part with
    | 1, 1 => if (s.core e.unit).grid.repairActive then s.retireCore e.unit
        else s.updCore e.unit (fun x => { x with grid := { x.grid with repairColumn := BitVec.ofNat 7 e.index, repairActive := true } })
    | 1, 4 => s.spareRow e.unit (512 * e.index)
    | 1, _ => s.retireCore e.unit
    | 2, 4 => s.spareRow (8 * e.unit) (2 ^ 24 + 512 * e.index)
    | 2, _ => s.retireCluster e.unit
    | _, _ => s

/-- The channels whose tests still run after a loss of power: those of the loft (R563). -/
def State.startTests (s : State) : State :=
  (bitsSet s.mgmt.untested 64).foldl (fun s n => s.updGleaner (384 + n) (fun x => { x with test := { x.test with phase := 1, mode := 3 } })) s

/-- FW_FLOOR rises to the SECURITY_VERSION of a running image with RAISE set, up to 64 (R555). -/
def State.raiseFwFloor (s : State) : State :=
  match Tbl.get none s.mgmt.images s.mgmt.image with
  | some i => if i.raise then s.updMgmt (fun m => { m with fwFloor := max m.fwFloor (min 64 i.security) }) else s
  | none => s

/-- What a failed BIST reports: cores, clusters, bin rows by their core and bin address, and compute dies (R562). -/
def bistFaults (cores clusters : List Nat) (rows : List (Nat × Nat)) (dies : List Nat) : List FaultReport :=
  cores.map (faultOf 0 1) ++ clusters.map (faultOf 0 2) ++
    rows.map (fun e => { faultOf 0 (if e.2 < 2 ^ 24 then 1 else 2) (if e.2 < 2 ^ 24 then e.1 else clusterOf e.1) with addrKind := 3, address := e.2 }) ++
    dies.map (faultOf 0 15)

/-- BIST_DONE: repairs are applied from flash, the cores, clusters and bin rows that failed BIST are handled, an absent die's cores are
retired, the failures are reported, BIST and READY are set, and fetching starts (R534, R555, R561, R562). -/
def execBistDone (cores clusters : List Nat) (rows : List (Nat × Nat)) (s : State) : Answer :=
  if s.mgmt.phase ≠ .trained then .next s
  else
    let now := s.mgmt.service
    let s1 := s.mgmt.hist.flash.foldl (fun s e => s.applyHist e) s
    let s2 := (cores.filter (fun k => decide (k < 192))).foldl (fun s k =>
      (s.histEvent 1 0 k 0 0 (HistEntry.permanent now)).retireCore k) s1
    let s3 := (clusters.filter (fun c => decide (c < 24))).foldl (fun s c =>
      (s.histEvent 2 0 c 0 0 (HistEntry.permanent now)).retireCluster c) s2
    let s4 := (rows.filter (fun e => decide (e.1 < 192))).foldl (fun s e => s.spareRow e.1 e.2) s3
    let gone := (List.range 24).filter (fun c => s4.mgmt.absent.testBit (c / 12))
    let s5 := gone.foldl (fun s c => s.retireCluster c) s4
    let dead := [0, 1].filter (fun d => (List.range 12).all (fun i => (s5.mapOf (12 * d + i)).present == 0))
    let s6 := s5.startFaults (bistFaults (cores.filter (fun k => decide (k < 192))) (clusters.filter (fun c => decide (c < 24)))
      (rows.filter (fun e => decide (e.1 < 192))) (dead.filter (fun d => !s5.mgmt.absent.testBit d)))
    let s7 := s6.updMgmt (fun m => { m with phase := .ready, bist := true, ready := true, error := if dead.isEmpty then m.error else 2 })
    .next s7.raiseFwFloor.startTests.noteReady

/-! ### Clocks and power (R565 to R569, R589) -/

/-- A compute die's clock and power. -/
def State.die (s : State) (d : Nat) : DieClock := Tbl.get dieReset s.mgmt.dies d
/-- The state with a die's clock and power changed. -/
def State.updDie (s : State) (d : Nat) (f : DieClock → DieClock) : State :=
  s.updMgmt (fun m => { m with dies := Tbl.set dieReset m.dies d (f (s.die d)) })
/-- A sensor of R571, numbered from 1. -/
def State.sensor (s : State) (n : Nat) : Sensor := Tbl.get sensorReset s.mgmt.sensors n
/-- The state with a sensor changed. -/
def State.updSensor (s : State) (n : Nat) (f : Sensor → Sensor) : State :=
  s.updMgmt (fun m => { m with sensors := Tbl.set sensorReset m.sensors n (f (s.sensor n)) })

/-- A value held in a range: below it the lowest acts, above it the highest (R566). -/
def clampTo (low high v : Nat) : Nat := max low (min high v)
/-- The module cap C (R566). -/
def MgmtState.cap (m : MgmtState) : Nat := min (clampTo 850 1200 m.hostCap.toNat) (clampTo 850 1200 m.bmcCap.toNat)
/-- A die's cap (R566). -/
def DieClock.cap (d : DieClock) : Nat := clampTo 150 450 d.dieCap
/-- A die's ceiling (R566, R579). -/
def DieClock.top (d : DieClock) : Nat := min (min 18 d.ceiling) (min 18 d.bmcCeiling)

/-- The THROTTLE value of a sensor (R593). -/
def throttleOf (n : Nat) : Nat := if n ≤ 4 then 95 else if n ≤ 32 then 85 else if n = 33 then 42 else 60

/-- The sensors by which a compute die is throttled: its own and those of the six HBM stacks it borders (R569). -/
def dieSensors (d : Nat) : List Nat := (1 + d) :: (List.range 6).map (fun i => 5 + 6 * d + i)
/-- Whether a die is at THROTTLE. -/
def State.dieHot (s : State) (d : Nat) : Bool := (dieSensors d).any (fun n => decide (throttleOf n ≤ (s.sensor n).temp))
/-- Whether a die is at least 2 °C below THROTTLE. -/
def State.dieCool (s : State) (d : Nat) : Bool := (dieSensors d).all (fun n => decide ((s.sensor n).temp + 2 ≤ throttleOf n))

/-- Whether two powers lie within 5 % of each other, of the higher one (R567; DEDUCED, log 55). -/
def within5 (a b : Nat) : Bool := decide (20 * (max a b - min a b) ≤ max a b)

/-- Why a die is lowered in this interval, as LIMITER codes it; none where nothing lowers it. Where several limits apply, the order is
thermal, die cap, module cap, ceiling (R567, R579; DEDUCED, log 55). -/
def State.lowering (s : State) (d : Nat) (isOver : Bool) : Option Nat :=
  let x := s.die d
  let y := s.die (1 - d)
  if s.dieHot d then some 3
  else if x.cap < x.watts then some 2
  else if isOver && (decide (y.watts < x.watts) || within5 x.watts y.watts) then some 1
  else if x.top < x.current then some 0
  else none

/-- A die runs: it is not absent and not held in a warm reset. -/
def State.dieRuns (s : State) (d : Nat) : Bool := !s.mgmt.absent.testBit d && !s.mgmt.down.testBit d

/-- A step down by one point begins (R565). -/
def DieClock.lower (x : DieClock) (limiter : Nat) : DieClock :=
  if x.current = 0 then { x with limiter := limiter }
  else { x with stepTo := some (x.current - 1), limiter := limiter, stepsDown := x.stepsDown + 1 }

/-- The decision of the power loop (R567): every die that a limit lowers steps down; only where there is none may one die be raised, the one at
the lower point, CD0 on a tie. While the input dips, the hardware limiter holds both dies (R589). -/
def State.powerDecision (s : State) : State :=
  let isOver := decide (s.mgmt.cap < s.mgmt.lastMs)
  let down := [0, 1].filterMap (fun d => if s.dieRuns d then (s.lowering d isOver).map (fun l => (d, l)) else none)
  if s.mgmt.dipping then s
  else if !down.isEmpty then down.foldl (fun s e => s.updDie e.1 (fun x => x.lower e.2)) s
  else if s.mgmt.calm < 10 ∨ s.mgmt.dipHold ≠ 0 then s
  else
    let ok (d : Nat) : Bool :=
      let x := s.die d
      s.dieRuns d && decide (x.current < x.top) && decide (100 * x.watts < 97 * x.cap) && s.dieCool d
    match argMin (fun d => 2 * (s.die d).current + d) ([0, 1].filter ok) with
    | none => s
    | some d => s.updDie d (fun x => { x with
        stepTo := some (x.current + 1), limiter := if x.current + 1 = x.top then 0 else x.limiter })

/-- POWER_LOOP_TICK: the readings of the last 1 ms: input power and its 1 s average in W, input voltage in units of 10 mV, the rail power
of both compute dies in W, and the temperatures of sensors 1 to 34; the reeve then steps the dies (R567, R579, R591, R596). -/
def execPowerLoopTick (power average volts watts0 watts1 : Nat) (temps : List Nat) (s : State) : Answer :=
  if !s.mgmt.reeve then .next s
  else
    let s1 := temps.zipIdx.foldl (fun s (e : Nat × Nat) =>
      if e.2 < 34 then s.updSensor (e.2 + 1) (fun x => { x with temp := e.1 % 256, above := decide (throttleOf (e.2 + 1) ≤ e.1) }) else s) s
    let s2 := s1.updMgmt (fun m => { m with
      lastMs := power % 65536, lastS := average % 65536, volts := volts % 65536, energy := m.energy + BitVec.ofNat 64 power
      calm := if 100 * power < 97 * m.cap then min 10 (m.calm + 1) else 0
      dipHold := if m.dipping then 10 else m.dipHold - 1 })
    let s3 := (s2.updDie 0 (fun x => { x with watts := watts0 % 65536, tempMax := (s2.sensor 1).temp })).updDie 1
      (fun x => { x with watts := watts1 % 65536, tempMax := (s2.sensor 2).temp })
    .next s3.powerDecision

/-- CLOCK_STEP_DONE: the die's step completes (R565). -/
def execClockStepDone (d : Nat) (s : State) : Answer :=
  if 2 ≤ d then .fault .noSuchUnit
  else .next (s.updDie d (fun x => match x.stepTo with
    | some k => { x with current := k, stepTo := none }
    | none => x))

/-- The hardware limiter drops a die to the lowest point (R568, R589); each point it drops counts as a downward step (DEDUCED, log 55). -/
def DieClock.drop (x : DieClock) : DieClock :=
  { x with current := 0, stepTo := none, limiter := 4, stepsDown := x.stepsDown + BitVec.ofNat 32 x.current }

/-- CURRENT_LIMIT_TRIP (R568). -/
def execCurrentLimitTrip (d : Nat) (s : State) : Answer :=
  if 2 ≤ d then .fault .noSuchUnit else .next (s.updDie d DieClock.drop)

/-- Package power goes, and with it all that is not flash, fuses or pins (R506, R588). -/
def State.powerDown (s : State) (trip : Bool) : State := (s.coldReset true).updMgmt (fun m => { m with lastTrip := trip })

/-- UNIT_KIND and UNIT of the unit that a sensor sits in (R490, R571). -/
def sensorUnit (n : Nat) : Nat × Nat :=
  if n ≤ 2 then (15, n - 1) else if n ≤ 4 then (16, n - 3) else if n ≤ 16 then (7, n - 5) else (6, n - 17)

/-- THERMAL_TRIP: a sensor of a die, stack or package reaches TRIP: THERM_TRIP# is asserted and package power removed; the reeve writes the
event to the history, and the next start shows LAST_TRIP (R569, R593). -/
def execThermalTrip (n : Nat) (s : State) : Answer :=
  if s.mgmt.phase = .off ∨ n = 0 ∨ 32 < n then .next s
  else
    let (uk, u) := sensorUnit n
    let s1 := if s.mgmt.reeve then
        let s1 := s.histEvent uk 0 u 0 0 HistEntry.transient
        s1.updHist (fun h => { h with flash := match findIdxFrom (fun (e : HistEntry) => e.names uk 0 u 0) h.entries 0 with
          | some i => (h.flash ++ List.replicate (i + 1 - h.flash.length) (histBlank 0 0 0 0)).set i (h.entries.getD i (histBlank uk 0 u 0))
          | none => h.flash })
      else s
    .next ((s1.powerDown s.mgmt.reeve).updMgmt (fun m => { m with thermTrip := true }))

/-- INPUT_DIP: the input falls below 46 V: DIP is set and both compute dies are held at the lowest point (R589, R596). -/
def execInputDip (s : State) : Answer :=
  if s.mgmt.phase = .off then .next s
  else
    let s1 := s.updMgmt (fun m => { m with dip := true, dipping := true, dipHold := 10 })
    .next ((s1.updDie 0 DieClock.drop).updDie 1 DieClock.drop)

/-- INPUT_RESTORED: the input is back at 46 V or above (R589). -/
def execInputRestored (s : State) : Answer := .next (s.updMgmt (fun m => { m with dipping := false }))

/-- DIP_TIMEOUT: a dip has lasted 10 ms and the input controller opens: loss of power (R589). -/
def execDipTimeout (s : State) : Answer := if s.mgmt.dipping then .next (s.powerDown false) else .next s

/-- INPUT_COLLAPSE: the input falls below 40 V: loss of power (R589). -/
def execInputCollapse (s : State) : Answer :=
  if s.mgmt.phase = .off then .next s else .next (s.powerDown false)

/-- POWER_LOSS: power is lost or the module removed; DRAM contents are lost (R506). Removal of the input ends THERM_TRIP# (R593); it does not
hide that the last power-down was a trip. -/
def execPowerLoss (s : State) : Answer :=
  .next ((s.powerDown (s.mgmt.phase = .off && s.mgmt.lastTrip)).updMgmt (fun m => { m with thermTrip := false }))

/-- THRESHOLD_CROSSING: sensor `n` reaches its THROTTLE value: SEEN is set and a PlatformEventMessage sent (R571, R593, R596). -/
def execThresholdCrossing (n : Nat) (s : State) : Answer :=
  if n = 0 ∨ 34 < n then .fault .noSuchUnit
  else .next ((s.updSensor n (fun x => { x with above := true, seen := true })).send (.pldm 0 2 (natLE 1 n)))

/-! ### The reeve pair (R550 to R552) -/

/-- REEVE_TAKEOVER: the standby has heard nothing for 10 ms and takes the primary role: REEVE_FAILOVER is raised and loads not yet decided are
refused with LOADER_RESTARTED (R71, R551, R552). -/
def execReeveTakeover (s : State) : Answer :=
  if !s.mgmt.reeve ∨ !s.mgmt.standby then .next s
  else
    let old := s.mgmt.activeReeve
    let s1 := s.updMgmt (fun m => { m with activeReeve := 1 - old, standby := false })
    let open_ := s1.loader.loads.filter (fun l => l.phase == LoadPhase.waiting || l.phase == LoadPhase.staged)
    let s2 := open_.foldl (fun s l => s.endLoad l (refuse 0x0506) (s.devTime - l.fetched)) s1
    .next (s2.send (.fault (faultOf 0x030D 14 old)))

/-- REEVE_RESTART: the old primary, restarted from flash after 1 s, joins as standby if it boots (R551, R554). -/
def execReeveRestart (s : State) : Answer :=
  if !s.mgmt.reeve ∨ s.mgmt.standby ∨ s.bootImage.isNone then .next s else .next (s.updMgmt (fun m => { m with standby := true }))

end Sys2Proof.Machine
end

