-- ==== Sys2Proof/Machine/RegMap.lean ====
section
/-!
DEFINITION. The register map: what every BAR0 offset reads as, for each function and for the reeve (R597 to R604 and the register tables
of every chapter). Function 32 is the reeve, which reads without regard to ownership (R559).
-/

namespace Sys2Proof.Machine

/-- How many of the bits below `n` of a mask are set. -/
def setBits (m n : Nat) : Nat := (bitsSet m n).length

/-! ### Who reads what (R599) -/

/-- A reader that sees a partition's units by owning it, or as the reeve. -/
def State.ownsOr (s : State) (f p : Nat) : Bool := f == 32 || s.ownsPart f p
/-- Whether a function sees the units of a partition, none for units that no partition holds (R599). -/
def State.seesUnit (s : State) (f : Nat) (p : Option Nat) : Bool :=
  f == 32 || isPhysical f || (p.map (fun q => s.ownsPart f q)).getD false
/-- Whether a function sees a context's registers. -/
def State.seesCtx (s : State) (f c : Nat) : Bool := f == 32 || s.ownsCtx f c
/-- Whether a function holds an attachment (R401). -/
def State.holdsAtt (s : State) (f a : Nat) : Bool := f == 32 || s.attOf f == some a
/-- The partition of a gleaner's channel. -/
def State.partOfGleaner (s : State) (g : Nat) : Option Nat :=
  let (tier, code) := s.channelCode g
  s.partOfChannel (if tier = 0 then code else 384 + code)
/-- Whether a function sees the registers of a group of channels: those of a stack, a package or the loft (R599; DEDUCED, log 57). -/
def State.seesAny (s : State) (f : Nat) (gs : List Nat) : Bool :=
  f == 32 || isPhysical f || gs.any (fun g => s.seesUnit f (s.partOfGleaner g))
/-- A value that only some readers see; to the others it reads 0. -/
def shownIf (b : Bool) (v : Nat) : Nat := if b then v else 0

/-! ### Identity, active units, interrupt summary (R601 to R604) -/

/-- DEV_FW_VERSION: the running image's, 0 before the reeve runs (R601). -/
def MgmtState.fwVersion (m : MgmtState) : Nat :=
  match Tbl.get none m.images m.image with
  | some i => if m.reeve then fieldsAt [(0, i.build % 65536), (16, i.minor % 256), (24, i.major % 256)] else 0
  | none => 0

/-- DEV_UNITS (R601). -/
def State.units (s : State) : Nat :=
  fieldsAt [(0, sumNat ((List.range 24).map s.coresActive)), (8, sumNat ((List.range 12).map (fun n => 31 - setBits (s.stack n).absent 31))),
    (17, 64 - setBits s.loft.out 64)]

/-- DEV_READY (R578). -/
def MgmtState.readyWord (m : MgmtState) : Nat :=
  fieldsAt [(0, bit01 (m.phase != .off)), (1, bit01 m.reeve), (2, bit01 m.trained), (3, bit01 m.bist), (4, bit01 m.ready),
    (5, bit01 m.failed), (6, m.activeReeve % 2), (7, m.image % 2), (8, bit01 m.lastTrip), (16, setBits m.untested 64), (24, m.error % 256)]

/-- DEV_CORE_MAP (R602). -/
def CoreMap.word (m : CoreMap) : Nat :=
  fieldsAt ((List.range 7).flatMap (fun k => [(4 * k, m.phys.getD k 0 % 8), (4 * k + 3, bit01 (m.present.testBit k))])
    ++ [(28, m.spare % 8), (31, bit01 m.spareFree)])

/-- DEV_CORE_STATE of a cluster (R602). -/
def State.coreStateWord (s : State) (c : Nat) : Nat :=
  fieldsAt ((List.range 8).flatMap (fun n => [(n, bit01 (s.logicalOf (8 * c + n)).isSome), (8 + n, bit01 (s.core (8 * c + n)).harrow.permanent)])
    ++ [(16, bit01 (s.cluster c).retired)])

/-- The single registers of the DEV_ block. -/
def State.devWord (s : State) (f off : Nat) : Option Nat :=
  if 0x100 ≤ off ∧ off < 0x160 then some (s.mapOf ((off - 0x100) / 4)).word
  else if 0x180 ≤ off ∧ off < 0x1E0 then some (s.coreStateWord ((off - 0x180) / 4))
  else match off with
    | 0x00 => some (fieldsAt [(0, 0x9120), (16, s.loader.stepping % 16)])
    | 0x04 => some s.mgmt.fwVersion
    | 0x18 => some (s.fn f).accessErr.toNat
    | 0x1C => some 0
    | 0x20 => some s.units
    | 0x24 => some (fieldsAt [(0, min s.mgmt.fwFloor 64), (7, bit01 s.mgmt.debugLock)])
    | 0x40 => some s.mgmt.readyWord
    | 0x80 => some (shownIf (isPhysical f) (s.intSummary f))
    | 0x84 => some (shownIf (isPhysical f) (Tbl.get intReset s.mgmt.ints f).ctl.toNat)
    | _ => none
/-- Its pairs. -/
def State.devPair (s : State) (off : Nat) : Option Nat :=
  match off with
  | 0x08 => some s.mgmt.serial
  | 0x10 => some s.devTime
  | _ => none

/-! ### Front end (R429) -/

/-- Whether a queue's completed record waits on a full completion ring (R406, R429). -/
def State.cqFull (s : State) (q : Nat) : Bool := (s.queue q).cqFull

/-- GFE_Q_STATE. -/
def State.queueWord (s : State) (q : Nat) : Nat :=
  let x := s.queue q
  if x.state = 0 then 0
  else fieldsAt [(0, x.state % 4), (2, x.inst % 2), (3, (s.att x.attachment).fn % 32), (8, x.part % 8), (11, bit01 x.waitSeal.isSome), (12, bit01 x.waitEvent),
    (13, bit01 (s.cqFull q)), (14, x.cmds.length % 8192)]

/-- Whether a function sees a queue's registers. -/
def State.seesQueue (s : State) (f q : Nat) : Bool :=
  match s.partOfQueue q with
  | some p => s.ownsOr f p
  | none => f == 32
/-- Whether a function sees the selected semaphore. -/
def State.seesSem (s : State) (f : Nat) : Bool :=
  let k := s.gfe.semSelect.toNat
  f == 32 || (List.range 8).any (fun p => s.ownsPart f p && decide (s.semBase p ≤ k) && decide (k < s.semBase p + s.semCount p))

/-- The single registers of the GFE_ block. -/
def State.gfeWord (s : State) (f off : Nat) : Option Nat :=
  if 0x400 ≤ off ∧ off < 0x1400 then
    let q := (off - 0x400) / 4
    some (shownIf (s.seesQueue f q) (s.queueWord q))
  else if 0x2000 ≤ off ∧ off < 0x3000 then
    let q := (off - 0x2000) / 4
    some (shownIf (s.seesQueue f q) ((s.queue q).head % 2 ^ 32))
  else if 0x8000 ≤ off ∧ off < 0x8400 then some 0
  else match off with
    | 0x00 => some (fieldsAt [(0, s.gfe.status.toNat), (3, bit01 (s.gfe.queues.any (fun e => s.cqFull e.1)))])
    | 0x04 => some s.gfe.early.toNat
    | 0x10 => some 0
    | 0x14 => some (s.fn f).adminDone.toNat
    | 0x20 => some s.gfe.semSelect.toNat
    | 0x24 => some (shownIf (s.seesSem f) s.gfe.semState.toNat)
    | _ => none
/-- Its pairs. -/
def State.gfePair (s : State) (f off : Nat) : Option Nat :=
  match off with
  | 0x08 => some s.gfe.dispatched.toNat
  | 0x18 => some (s.fn f).adminCq.toNat
  | 0x28 => some (shownIf (s.seesSem f) s.gfe.semValue.toNat)
  | _ => none

/-! ### Translation (R380) -/

/-- XLT_CTX_STATE. -/
def State.ctxWord (s : State) (c : Nat) : Nat :=
  let x := s.ctx c
  fieldsAt [(0, x.state % 4), (2, ((s.partOfCtx c).getD 0) % 8), (5, bit01 (s.changing c)), (6, bit01 (s.generationBefore c x.gen)),
    (16, (s.subscribers c).length % 512)]

/-- The registers of the XLT_ block. -/
def State.xltWord (s : State) (f off : Nat) : Option Nat :=
  let cap := Tbl.get captureReset s.xlt.captures f
  if 0x1000 ≤ off ∧ off < 0x1800 then
    let c := (off - 0x1000) / 8
    some (if off % 8 = 0 then s.ctxWord c else (s.ctx c).version.toNat)
  else if 0x20 ≤ off ∧ off < 0x50 then some (cap.data.getD ((off - 0x20) / 4) 0).toNat
  else match off with
    | 0x00 => some (fieldsAt [(0, bit01 (!s.xlt.changes.isEmpty || !s.xlt.windowChanges.isEmpty)), (1, bit01 (s.xlt.status.getLsbD 1)),
        (2, bit01 (s.xlt.status.getLsbD 2))])
    | 0x04 => some s.xlt.upgraded.toNat
    | 0x08 => some s.xlt.winRefused.toNat
    | 0x10 => some cap.select.toNat
    | 0x50 => some cap.version.toNat
    | _ => none

/-! ### Host block (R401) -/

/-- HOST_ATT_STATE. -/
def State.attWord (s : State) (a : Nat) : Nat :=
  let x := s.att a
  fieldsAt [(0, x.state % 4), (2, x.fn % 32), (7, bit01 x.journalFull), (8, bit01 x.journalLost), (9, x.cause.toNat)]

/-- The registers of an attachment's block. -/
def State.attReg (s : State) (a r : Nat) : Nat :=
  let x := s.att a
  match r with
  | 0x00 => s.attWord a
  | 0x04 => ceilDiv x.journalUsed 1024 % 2 ^ 17
  | 0x08 => x.timeout.toNat
  | 0x0C => x.alarm.toNat
  | _ => if x.credRead then 0 else x.credential.toNat / 2 ^ (32 * ((r - 0x10) / 4)) % 2 ^ 32

/-- HOST_CSTOP[i]: the bits of the queues whose attachment the function holds. -/
def State.cstopWord (s : State) (f i : Nat) : Nat :=
  fieldsAt ((List.range 32).map (fun j =>
    let q := 32 * i + j
    (j, bit01 ((s.queue q).cstop && s.holdsAtt f (s.queue q).attachment))))

/-- The single registers of the HOST_ block. -/
def State.hostWord (s : State) (f off : Nat) : Option Nat :=
  let h := s.fn f
  if 0x100 ≤ off ∧ off < 0x500 then
    let a := (off - 0x100) / 32
    some (shownIf (s.holdsAtt f a) (s.attReg a (off % 32)))
  else if 0x800 ≤ off ∧ off < 0x880 then some (s.cstopWord f ((off - 0x800) / 4))
  else match off with
    | 0x00 => some s.host.status.toNat
    | 0x04 => some s.host.winRefused.toNat
    | 0x08 => some (fieldsAt [(0, h.slotBase % 65536), (16, h.slotCount % 32768), (31, bit01 h.short)])
    | 0x10 => some (fieldsAt [(0, h.ctlAttachment.toNat), (5, h.ctlMode.toNat), (9, h.ctlResult.toNat)])
    | 0x14 | 0x18 | 0x1C | 0x20 => some 0
    | _ => none
/-- Its pairs. -/
def State.hostPair (s : State) (f off : Nat) : Option Nat :=
  if 0x2000 ≤ off ∧ off < 0x4000 then
    let q := (off - 0x2000) / 8
    some (shownIf (s.holdsAtt f (s.queue q).attachment) (Tbl.get 0 s.host.cmirror q))
  else if 0x4000 ≤ off ∧ off < 0x8000 then
    let n := (off - 0x4000) / 8
    some (shownIf (s.holdsAtt f (n / 64)) (Tbl.get 0 (s.att (n / 64)).landing (n % 64)).toNat)
  else none

/-! ### Clusters and cores (R127, R128, R162, R163, R190, R216, R317, R358, R359, R453, R545, R546, R598) -/

/-- The spare rows in use in a range of banks, keyed bin × 16 + bank (R546). -/
def spareSum (t : Tbl Nat) (lo n : Nat) : Nat := sumNat ((List.range n).map (fun i => Tbl.get 0 t (lo + i)))

/-- CLS_SCHED_STATUS (R453). -/
def State.schedStatus (s : State) (c : Nat) : Nat :=
  let x := s.cluster c
  let held (j : Nat) : Bool := match s.physicalOf c j with
    | some k => (s.core k).saved.isSome
    | none => false
  fieldsAt ((List.range 7).map (fun j => (j, bit01 (held j))) ++
    [(7, bit01 (!x.unlisted.isEmpty || x.ready.any (fun l => decide (256 ≤ l.2.length)))), (8, x.preempts.length % 4),
     (10, bit01 x.sched.cancelled), (11, bit01 x.sched.saveLost)])

/-- The single registers of a cluster. -/
def State.clusterWord (s : State) (c off : Nat) : Option Nat :=
  let x := s.cluster c
  if 0xD40 ≤ off ∧ off < 0xD80 then some (Tbl.get qlimitReset x.dma.qlimit ((off - 0xD40) / 4)).toNat
  else match off with
    | 0xA00 => some x.widen.count.toNat
    | 0xA04 => some x.widen.last.toNat
    | 0xA08 => some x.widen.lastClips.toNat
    | 0xB00 => some x.former.full.toNat
    | 0xB04 => some x.former.timed.toNat
    | 0xB08 => some x.former.flushed.toNat
    | 0xB0C => some x.former.evicted.toNat
    | 0xC00 => some (fieldsAt [(0, x.binCorrected.toNat), (16, bit01 x.binUncorrectable)])
    | 0xD00 => some x.dma.status.toNat
    | 0xD04 => some (fieldsAt [(0, x.dma.outstanding.length % 1024), (16, x.dma.peak.toNat)])
    | 0xE00 => some (fieldsAt [(0, x.sched.preemptWait.toNat), (14, x.sched.fullGap.toNat), (17, bit01 x.sched.fullDisable),
        (24, x.sched.stealBytes.toNat)])
    | 0xE04 => some (s.schedStatus c)
    | 0xE08 => some x.sched.fullCount.toNat
    | 0xE0C => some x.sched.lightCount.toNat
    | 0xE10 => some x.sched.stealsIn.toNat
    | 0xE14 => some x.sched.stealsOut.toNat
    | 0xF00 => some x.integrity.lockstepCore.toNat
    | 0xF04 => some x.integrity.lockstepCluster.toNat
    | 0xF08 => some x.integrity.replays.toNat
    | 0xF0C => some (fieldsAt [(0, spareSum x.integrity.spareRows 0 128 % 1024), (10, spareSum x.integrity.spareRows 128 16 % 512),
        (19, ((List.range 144).map (fun i => Tbl.get 0 x.integrity.spareRows i)).foldl max 0 % 32)])
    | _ => none
/-- Its pairs. -/
def State.clusterPair (s : State) (c off : Nat) : Option Nat :=
  let x := s.cluster c
  match off with
  | 0xB10 => some x.former.rows.toNat
  | 0xD08 => some x.dma.done.toNat
  | 0xD10 => some x.dma.bytes.toNat
  | 0xE18 => some x.sched.saveNs.toNat
  | _ => none

/-- CORE_HARROW (R545). -/
def State.harrowWord (s : State) (k : Nat) : Nat :=
  let h := (s.core k).harrow
  fieldsAt [(0, h.phase % 4), (2, bit01 h.suspect), (3, bit01 h.permanent), (4, bit01 h.lastFailed),
    (16, min ((s.mgmt.service - h.passedAt) / 3600) 65535)]

/-- The single registers of a core. -/
def State.coreWord (s : State) (k off : Nat) : Option Nat :=
  let x := s.core k
  match off with
  | 0xC00 => some x.winnow.status.toNat
  | 0xD00 => some x.grid.status.toNat
  | 0xD04 => some (fieldsAt [(0, x.grid.repairColumn.toNat), (7, bit01 x.grid.repairActive)])
  | 0xD18 => some x.grid.mismatches.toNat
  | 0xD1C => some x.grid.lastMismatch.toNat
  | 0xD20 => some x.grid.skips.toNat
  | 0xE00 => some x.vecStatus.toNat
  | 0xE04 => some (fieldsAt [(0, x.vec.pc % 2 ^ 18), (31, bit01 x.item.isSome)])
  | 0xF00 => some x.sfu.status.toNat
  | 0xF04 => some x.sfu.loaded.toNat
  | 0x1000 => some (fieldsAt [(0, x.binCorrected.toNat), (16, bit01 x.binUncorrectable)])
  | 0x1100 => some (s.harrowWord k)
  | 0x1104 => some x.harrow.passes.toNat
  | _ => none
/-- Its pairs. -/
def State.corePair (s : State) (k off : Nat) : Option Nat :=
  let x := s.core k
  match off with
  | 0xC08 => some x.winnow.rows.toNat
  | 0xC10 => some x.winnow.clips.toNat
  | 0xD08 => some x.grid.tiles.toNat
  | 0xD10 => some x.grid.busy.toNat
  | 0xE08 => some x.retired.toNat
  | 0xE10 => some x.stalls.toNat
  | 0xF08 => some x.sfu.ops.toNat
  | 0xF10 => some x.sfu.busy.toNat
  | _ => none

/-- Where an offset of a compute die's range lies: the cluster, and the core and offset or the cluster's own offset (R597, R598). -/
inductive DiePlace where
  | cluster (c off : Nat)
  | core (k off : Nat)
  | unused
  deriving DecidableEq, Repr

/-- The place of a BAR0 offset between 0x0040_0000 and 0x00BF_FFFF. -/
def diePlace (off : Nat) : DiePlace :=
  let r := (off - 0x400000) % 0x400000
  let c := (off - 0x400000) / 0x400000 * 12 + r / 0x20000
  let w := r % 0x20000
  if 12 ≤ r / 0x20000 then .unused
  else if w < 0x10000 then .cluster c w
  else .core (8 * c + (w - 0x10000) / 0x2000) ((w - 0x10000) % 0x2000)

/-- The single registers of the compute dies. -/
def State.dieWord (s : State) (f off : Nat) : Option Nat :=
  match diePlace off with
  | .cluster c r => (s.clusterWord c r).map (shownIf (s.seesUnit f (s.partOfCluster c)))
  | .core k r => (s.coreWord k r).map (shownIf (s.seesUnit f (s.partOfCluster (clusterOf k))))
  | .unused => none
/-- Their pairs. -/
def State.diePair (s : State) (f off : Nat) : Option Nat :=
  match diePlace off with
  | .cluster c r => (s.clusterPair c r).map (shownIf (s.seesUnit f (s.partOfCluster c)))
  | .core k r => (s.corePair k r).map (shownIf (s.seesUnit f (s.partOfCluster (clusterOf k))))
  | .unused => none

/-! ### Gleaners, stacks and loft (R283, R314 to R316, R547) -/

/-- The single registers of a gleaner. -/
def State.gleanerWord (s : State) (g off : Nat) : Option Nat :=
  let x := s.gleaner g
  match off with
  | 0x00 => some x.status.toNat
  | 0x18 => some x.cacheHits.toNat
  | 0x1C => some x.adds.toNat
  | 0x20 => some x.flags.toNat
  | 0x24 => some (fieldsAt [(0, x.map.length % 512), (16, x.mapPeak % 512)])
  | 0x28 => some (fieldsAt [(0, (x.threads.filter (fun e => e.2.isSome)).length % 16), (4, min 64 x.queue.length), (11, min 16 x.forwardQueue.length),
      (16, x.held.length % 1024)])
  | 0x2C => some x.lastFault.toNat
  | 0x40 => some (fieldsAt [(0, x.corrected.toNat), (16, x.uncorrectable.toNat)])
  | 0x44 => some (x.poisoned % 2 ^ 18)
  | 0x48 => some x.degraded.toNat
  | 0x4C => some (fieldsAt [(0, x.scrubCursor / 1024 % 2 ^ 18), (31, bit01 x.scrubLapped)])
  | 0x80 => some (fieldsAt [(0, x.test.phase % 4), (2, x.test.mode % 4), (4, bit01 x.test.suspect), (5, bit01 x.test.failedSeen),
      (16, x.test.hardRows.length % 65536)])
  | 0x84 => some x.test.errors.toNat
  | _ => none
/-- Its pairs. -/
def State.gleanerPair (s : State) (g off : Nat) : Option Nat :=
  match off with
  | 0x08 => some (s.gleaner g).retired.toNat
  | 0x10 => some (s.gleaner g).rows.toNat
  | _ => none

/-- GLN_STACK_MAP (R315). -/
def StackMap.word (m : StackMap) (n : Nat) : Nat :=
  fieldsAt [(0, m.phys.getD n n % 32), (5, bit01 (m.absent.testBit n)), (6, bit01 (m.evacuating == some n)),
    (8, if m.evacuating = some n then m.cursor % 32768 else 0)]
/-- GLN_STACK_STATUS (R315). -/
def StackMap.statusWord (m : StackMap) : Nat := fieldsAt [(0, m.reserve % 32), (5, bit01 m.reserveFree), (6, bit01 m.reserveFailed)]
/-- The gleaners of a stack. -/
def stackGleaners (n : Nat) : List Nat := (List.range 32).map (fun i => 32 * n + i)

/-- The single registers of the granary range. -/
def State.granaryWord (s : State) (f off : Nat) : Option Nat :=
  let st := (off - 0xC00000) / 0x10000
  let w := (off - 0xC00000) % 0x10000
  if 12 ≤ st then none
  else if w < 0x8000 then
    let g := 32 * st + w / 0x400
    (s.gleanerWord g (w % 0x400)).map (shownIf (s.seesUnit f (s.partOfGleaner g)))
  else if w < 0x807C then
    let n := (w - 0x8000) / 4
    some (shownIf (s.seesUnit f (s.partOfChannel (32 * st + n))) ((s.stack st).word n))
  else if w = 0x8080 then some (shownIf (s.seesAny f (stackGleaners st)) (s.stack st).statusWord)
  else none
/-- Its pairs. -/
def State.granaryPair (s : State) (f off : Nat) : Option Nat :=
  let st := (off - 0xC00000) / 0x10000
  let w := (off - 0xC00000) % 0x10000
  let g := 32 * st + w / 0x400
  if 12 ≤ st ∨ 0x8000 ≤ w then none else (s.gleanerPair g (w % 0x400)).map (shownIf (s.seesUnit f (s.partOfGleaner g)))

/-- The single registers of the loft block. -/
def State.loftWord (s : State) (f off : Nat) : Option Nat :=
  let w := off - 0xD00000
  let all := (List.range 64).map (fun n => 384 + n)
  if w < 0x10000 then (s.gleanerWord (384 + w / 0x400) (w % 0x400)).map (shownIf (s.seesUnit f (s.partOfGleaner (384 + w / 0x400))))
  else if w < 0x10400 then
    let p := (w - 0x10000) / 0x40
    if w % 0x40 = 0 then
      some (shownIf (s.seesAny f ((List.range 4).map (fun i => 384 + 4 * p + i)))
        (fieldsAt [(0, s.loft.out / 2 ^ (4 * p) % 16), (4, bit01 (s.loft.retraining.testBit p))]))
    else none
  else if 0x20000 ≤ w ∧ w < 0x20020 then some (shownIf (s.seesAny f all) (Tbl.get 0 s.loft.classDegraded ((w - 0x20000) / 4)).toNat)
  else if 0x20020 ≤ w ∧ w < 0x20040 then some (shownIf (s.seesAny f all) (Tbl.get 0 s.loft.classLate ((w - 0x20020) / 4)).toNat)
  else if w = 0x20040 then some (shownIf (s.seesAny f all) s.loft.promoted.toNat)
  else if w = 0x20044 then some (shownIf (s.seesAny f all) s.loft.demoted.toNat)
  else none
/-- Its pairs. -/
def State.loftPair (s : State) (f off : Nat) : Option Nat :=
  let w := off - 0xD00000
  let g := 384 + w / 0x400
  if 0x10000 ≤ w then none else (s.gleanerPair g (w % 0x400)).map (shownIf (s.seesUnit f (s.partOfGleaner g)))

/-! ### Ports and transport (R486, R487) -/

/-- The single registers of a port. -/
def EthPort.word (e : EthPort) (r : Nat) : Option Nat :=
  if 0x30 ≤ r ∧ r < 0x40 then some (e.ipv6A.toNat / 2 ^ (32 * ((r - 0x30) / 4)) % 2 ^ 32)
  else if 0x40 ≤ r ∧ r < 0x50 then some (e.ipv6B.toNat / 2 ^ (32 * ((r - 0x40) / 4)) % 2 ^ 32)
  else match r with
    | 0x00 => some (fieldsAt [(0, e.mode.toNat), (2, e.pmd.toNat), (4, bit01 e.pfcEn)])
    | 0x04 => some (fieldsAt [(0, bit01 e.linkA), (1, bit01 e.linkB), (2, bit01 e.linkLost)])
    | 0x08 => some e.fecCorrected.toNat
    | 0x0C => some e.fecUncorrected.toNat
    | 0x20 => some e.ipv4A.toNat
    | 0x24 => some e.ipv4B.toNat
    | 0x50 => some e.rxDropped.toNat
    | _ => none
/-- Its pairs. -/
def EthPort.pair (e : EthPort) (r : Nat) : Option Nat :=
  match r with
  | 0x10 => some e.macA.toNat
  | 0x18 => some e.macB.toNat
  | 0x58 => some e.txFrames.toNat
  | 0x60 => some e.rxFrames.toNat
  | _ => none

/-- IGT_PEER_STATE (R487): UP with its active path, FAILING OVER while a failover probes, DOWN where no path is up. -/
def State.peerWord (s : State) (k : Nat) : Nat :=
  let p := s.peer k
  if !entryValid (s.peerEntry k) then 0
  else fieldsAt [(0, if p.probing.isSome then 2 else if p.down then 3 else 1), (2, p.active % 4), (4, p.pathsUp % 16), (8, p.epoch % 256),
    (16, p.failovers.toNat)]

/-- The single registers of the Ethernet and transport block. -/
def State.linkWord (s : State) (f off : Nat) : Option Nat :=
  let w := off - 0xE00000
  let r := s.links.regs
  if w < 0x8000 then (s.eth (w / 0x1000)).word (w % 0x1000)
  else if w < 0x80000 then none
  else
    let t := w - 0x80000
    if 0x20 ≤ t ∧ t < 0x40 then some (Tbl.get 0 r.vcMap ((t - 0x20) / 4)).toNat
    else if 0x140 ≤ t ∧ t < 0x180 then some (Tbl.get 0 r.data ((t - 0x140) / 4)).toNat
    else if 0x200 ≤ t ∧ t < 0x400 then
      let k := (t - 0x200) / 4
      some (shownIf (f == 32 || s.ownsEntry f 0 k) (s.peerWord k))
    else match t with
      | 0x00 => some (fieldsAt [(0, r.etherType.toNat), (16, r.ttl.toNat)])
      | 0x04 => some r.node.toNat
      | 0x08 => some r.udpPort.toNat
      | 0x0C => some r.status.toNat
      | 0x10 => some (fieldsAt [(0, r.drops.toNat), (16, r.dropReason.toNat)])
      | 0x100 => some (fieldsAt [(0, r.selKind.toNat), (2, r.selIndex.toNat), (12, r.selResult.toNat)])
      | _ => none
/-- Its pairs. -/
def State.linkPair (s : State) (off : Nat) : Option Nat :=
  let w := off - 0xE00000
  if w < 0x8000 then (s.eth (w / 0x1000)).pair (w % 0x1000) else none

/-! ### History entries and captures (R503, R532, R533) -/

/-- The 1,280 bytes of a pattern record (R533). -/
def PatternRecord.bytes (p : PatternRecord) : List Byte :=
  natLE 8 p.time ++ natLE 2 p.kind ++ natLE 2 0 ++ natLE 4 p.fault ++ natLE 16 p.planId ++ padTo 32 p.summary ++ padTo 256 p.operandsA ++
    padTo 256 p.operandsW ++ padTo 520 p.diagnosis ++ zeroBytes 184

/-- The 4 KiB of a history entry (R532). -/
def HistEntry.bytes (e : HistEntry) : List Byte :=
  let recent := (List.range 3).flatMap (fun i => natLE 8 (e.recent.getD i 0))
  padTo 4096 (natLE 1 e.unitKind ++ natLE 1 e.part ++ natLE 2 e.unit ++ natLE 4 e.index ++ natLE 1 e.state ++ zeroBytes 3 ++
    natLE 4 e.transients ++ natLE 4 e.confirmed ++ zeroBytes 4 ++ recent ++ natLE 8 e.permanentAt ++ natLE 4 e.lastFault ++
    natLE 1 e.patterns.length ++ zeroBytes 195 ++ e.patterns.flatMap PatternRecord.bytes)

/-- Where each section of a capture begins, from the page behind its header (R503). -/
def sectionOffsets : Nat → List (Nat × Nat × Nat) → List Nat
  | _, [] => []
  | at_, e :: es => at_ :: sectionOffsets (at_ + (e.2.2 + 4095) / 4096 * 4096) es

/-- The header of a capture, with its directory (R503). -/
def Capture.header (c : Capture) : List Byte :=
  let offs := sectionOffsets 4096 c.sections
  let used := match c.sections.getLast?, offs.getLast? with
    | some e, some o => o + e.2.2
    | _, _ => 4096
  let dir := (c.sections.zip offs).flatMap (fun e => natLE 2 e.1.1 ++ natLE 2 e.1.2.1 ++ natLE 4 e.2 ++ natLE 4 e.1.2.2 ++ natLE 4 0)
  padTo 4096 (natLE 4 0x54504143 ++ natLE 4 c.fault ++ natLE 8 c.time ++ natLE 1 c.domain ++ natLE 1 (bit01 c.complete + 2 * bit01 c.truncated) ++
    natLE 2 c.sections.length ++ natLE 4 used ++ zeroBytes 40 ++ dir)

/-- A 32-bit word of a capture slot: its header as R503 lays it out, and the bytes of its sections, whose inner layout the spec leaves open, as
free values (DESIGN CHOICE, log 2). A slot that holds no capture reads 0. -/
def State.captureWord (s : State) (slot off : Nat) : Nat :=
  match Tbl.get none s.faults.captures slot with
  | none => 0
  | some c => if off < 4096 then fieldLE c.header off 4 else leNat ((List.range 4).map (fun i => Config.captureByte c.serial (off + i)))

/-! ### Faults, telemetry, accounting (R454, R493, R514, R548, R579, R596) -/

/-- The single registers of the FLT_ part. -/
def State.fltWord (s : State) (f off : Nat) : Option Nat :=
  let x := s.faults
  let h := s.mgmt.hist
  if 0x1000 ≤ off ∧ off < 0x1800 then
    let c := (off - 0x1000) / 8
    let y := Tbl.get ctxFaultsReset x.ctxs c
    some (shownIf (s.seesCtx f c) (if off % 8 = 0 then fieldsAt [(0, y.overflow.toNat), (16, bit01 y.stopped)] else y.last.toNat))
  else match off with
    | 0x00 => some (fieldsAt [(0, x.status.toNat), (3, bit01 (x.unread != 0)), (4, (x.recoveries.filter (fun r => r.running)).length % 16)])
    | 0x04 => some x.head.toNat
    | 0x08 => some x.tail.toNat
    | 0x0C => some (fieldsAt [(0, x.period.toNat), (16, x.limit.toNat)])
    | 0x10 => some x.overflowDevice.toNat
    | 0x14 => some 0
    | 0x18 => some x.captureHead.toNat
    | 0x1C => some (fieldsAt [(0, x.captureSlot.toNat), (7, x.capturePage.toNat)])
    | 0x20 => some (shownIf (isPhysical f) (Tbl.get 0 x.intCtl f).toNat)
    | 0x30 => some (fieldsAt [(0, bit01 s.mgmt.harrowEnable), (1, s.mgmt.harrowInterval.toNat), (9, s.mgmt.harrowDefer.toNat)])
    | 0x34 => some (fieldsAt [(0, h.entries.length % 8192), (13, bit01 h.full), (14, bit01 (!h.pending.isEmpty))])
    | 0x40 => some (h.select % 4096)
    | _ => none

/-- A word of the fault queue's ring: a physical function reads every record, another one that of a partition it owns (R493). -/
def State.recordWord (s : State) (f off : Nat) : Nat :=
  let b := Tbl.get [] s.faults.records (off / 64)
  shownIf (f == 32 || isPhysical f || s.ownsPart f (fieldLE b 9 1)) (fieldLE b (off % 64) 4)

/-- The single registers of the TEL_ part. -/
def State.telWord (s : State) (off : Nat) : Option Nat :=
  let m := s.mgmt
  if 0x100 ≤ off ∧ off < 0x188 then
    let x := s.sensor ((off - 0x100) / 4 + 1)
    some (fieldsAt [(0, x.temp % 256), (8, bit01 x.above), (9, bit01 x.seen)])
  else
    let clock (d : Nat) : Nat := let x := s.die d
      fieldsAt [(0, x.ceiling % 32), (8, x.current % 32), (13, x.limiter % 8), (16, x.dieCap % 512)]
    let power (d : Nat) : Nat := let x := s.die d
      fieldsAt [(0, x.watts % 65536), (16, x.tempMax % 256)]
    match off with
    | 0x00 => some (fieldsAt [(0, m.hostCap.toNat), (16, m.bmcCap.toNat)])
    | 0x04 => some (fieldsAt [(0, m.lastMs % 65536), (16, m.lastS % 65536)])
    | 0x10 => some (clock 0)
    | 0x14 => some (clock 1)
    | 0x20 => some (power 0)
    | 0x24 => some (power 1)
    | 0x30 => some (s.die 0).stepsDown.toNat
    | 0x34 => some (s.die 1).stepsDown.toNat
    | 0x40 => some (fieldsAt [(0, m.volts % 65536), (16, bit01 m.dip)])
    | _ => none

/-- The charge registers of a context (R454). -/
def Charges.reg (c : Charges) (r : Nat) : Nat :=
  match r with
  | 0 => c.coreNs.toNat
  | 1 => c.gleanerNs.toNat
  | 2 => c.binBytes.toNat
  | 3 => c.granaryBytes.toNat
  | 4 => c.loftBytes.toNat
  | 5 => c.hostBytes.toNat
  | 6 => c.linkBytes.toNat
  | _ => c.energy.toNat

/-- The single registers of the block from 0x00F0_0000, by the sub-map of R597. -/
def State.sysWord (s : State) (f off : Nat) : Option Nat :=
  let w := off - 0xF00000
  if w < 0x1800 then s.fltWord f w
  else if 0x10000 ≤ w ∧ w < 0x20000 then some (s.recordWord f (w - 0x10000))
  else if 0x20000 ≤ w ∧ w < 0x30000 then
    some (shownIf (f == 32 || isPhysical f) (s.captureWord s.faults.captureSlot.toNat (65536 * s.faults.capturePage.toNat + (w - 0x20000))))
  else if 0x30000 ≤ w ∧ w < 0x31000 then
    some (shownIf (f == 32 || isPhysical f) ((s.mgmt.hist.window.map (fun e => fieldLE e.bytes (w - 0x30000) 4)).getD 0))
  else if 0x80000 ≤ w ∧ w < 0x80200 then s.telWord (w - 0x80000)
  else if 0xE0100 ≤ w ∧ w < 0xE0200 then some (Tbl.get 0 s.acc.coef ((w - 0xE0100) / 4)).toNat
  else if w = 0xE0000 then some 0
  else if w = 0xE0004 then some s.acc.trim.toNat
  else none
/-- Its pairs. -/
def State.sysPair (s : State) (f off : Nat) : Option Nat :=
  let w := off - 0xF00000
  let charges (t : Tbl Charges) (r : Nat) : Nat := shownIf (s.seesCtx f (r / 64)) ((Tbl.get chargesReset t (r / 64)).reg (r % 64 / 8))
  if 0xC0000 ≤ w ∧ w < 0xC4000 then some (charges s.acc.ctxs (w - 0xC0000))
  else if 0xD0000 ≤ w ∧ w < 0xD4000 then some (charges s.acc.snap (w - 0xD0000))
  else match w with
    | 0x38 => some s.mgmt.service
    | 0x80048 => some s.mgmt.energy.toNat
    | 0xE0008 => some s.acc.unattributed.toNat
    | _ => none

/-! ### The whole map -/

/-- The 64-bit value of the pair whose _LO register lies at an offset, or none (R13). -/
def State.regPair (s : State) (f off : Nat) : Option Nat :=
  if off % 8 ≠ 0 then none
  else if off < 0x10000 then s.devPair off
  else if off < 0x20000 then s.gfePair f (off - 0x10000)
  else if off < 0x30000 then none
  else if off < 0x40000 then s.hostPair f (off - 0x30000)
  else if off < 0x400000 then none
  else if off < 0xC00000 then s.diePair f off
  else if off < 0xD00000 then s.granaryPair f off
  else if off < 0xE00000 then s.loftPair f off
  else if off < 0xF00000 then s.linkPair off
  else if off < 0x1000000 then s.sysPair f off
  else none

/-- The 32-bit value of the single register at an offset, or none. -/
def State.regSingle (s : State) (f off : Nat) : Option Nat :=
  if off % 4 ≠ 0 then none
  else if off < 0x10000 then s.devWord f off
  else if off < 0x20000 then s.gfeWord f (off - 0x10000)
  else if off < 0x30000 then s.xltWord f (off - 0x20000)
  else if off < 0x40000 then s.hostWord f (off - 0x30000)
  else if off < 0x400000 then none
  else if off < 0xC00000 then s.dieWord f off
  else if off < 0xD00000 then s.granaryWord f off
  else if off < 0xE00000 then s.loftWord f off
  else if off < 0xF00000 then s.linkWord f off
  else if off < 0x1000000 then s.sysWord f off
  else none

/-- The current 32-bit value at an offset of the map, half a pair or a single register; none where no register lies (R13, R597). -/
def State.regWord (s : State) (f off : Nat) : Option Nat :=
  match s.regPair f off with
  | some v => some (v % 2 ^ 32)
  | none =>
    match (if 4 ≤ off then s.regPair f (off - 4) else none) with
    | some v => some (v / 2 ^ 32 % 2 ^ 32)
    | none => s.regSingle f off

/-- What an offset reads as to a function before READY too: all but DEV_READY and the identity registers read 0 until then (R560). -/
def State.barWord (s : State) (f off : Nat) : Option Nat :=
  (s.regWord f off).map (fun v => if s.served ∨ off ∈ [0x00, 0x04, 0x08, 0x0C, 0x40] then v else 0)

end Sys2Proof.Machine
end

