-- ==== Sys2Proof/Machine/Registers.lean ====
section
/-!
DEFINITION. BAR0 accesses that have no row of their own (R12 to R16, R599, R600), 64-bit pairs (R13), the access error counter (R601) and the
interrupt summary's control (R604, R605).
-/

namespace Sys2Proof.Machine

/-! ### Access errors (R600, R601) -/

/-- An access error: the function's COUNT goes up, saturating at 255, and OFFSET shows the offset (R600, R601). -/
def State.accessError (s : State) (f off : Nat) : State :=
  s.updFn f (fun h => { h with accessErr := BitVec.ofNat 32 (min (h.accessErr.toNat % 256 + 1) 255 + 256 * (off % 2 ^ 24)) })

/-- ACCESS_CLEAR: a physical function writes DEV_ACCESS_CLR with CLEAR set, and every function's copy becomes 0 (R601). -/
def execAccessClear (f : Nat) (value : Word32) (s : State) : Answer :=
  onBar0 f s (fun s =>
    if isPhysical f && value.getLsbD 0 then .next ((List.range 32).foldl (fun s g => s.updFn g (fun h => { h with accessErr := 0 })) s)
    else .next s)

/-! ### Who writes what (R599) -/

/-- Whether a function writes the units of a partition; a unit that no partition holds is written by physical functions (R599). -/
def State.writesUnit (s : State) (f : Nat) (p : Option Nat) : Bool :=
  match p with
  | some q => s.ownsPart f q
  | none => isPhysical f
/-- The registers of gleaners are written by physical functions and owners (R599). -/
def State.writesGleaner (s : State) (f g : Nat) : Bool := isPhysical f || s.writesUnit f (s.partOfGleaner g)
/-- Whether a function owns the partition that holds a port, or one of its halves (R458; DEDUCED, log 57). -/
def State.writesPort (s : State) (f p : Nat) (half : Bool) : Bool :=
  (List.range 8).any (fun q => s.holdsPort q p half && s.ownsPart f q)

/-- The bits of a W1C field that a write leaves set (R14). -/
def writeOnes {n : Nat} (x : BitVec n) (v : Nat) : BitVec n := x &&& ~~~(BitVec.ofNat n v)

/-! ### Writes of single registers (R14, R15), by block -/

/-- DEV_: LAST_TRIP, READY_EVENT and UNITS. -/
def State.writeDev (s : State) (f off v : Nat) : State :=
  if !isPhysical f then s
  else match off with
    | 0x40 => s.updMgmt (fun m => { m with lastTrip := m.lastTrip && !v.testBit 8 })
    | 0x80 => s.clearing (fun s => s.updMgmt (fun m => { m with ints := Tbl.modify intReset m.ints f (fun i =>
        { i with readyEvent := i.readyEvent && !v.testBit 8, units := i.units && !v.testBit 9 }) }))
    | _ => s

/-- GFE_: the status bits and the administrative slots, of which each function has its own (R411, R429). -/
def State.writeGfe (s : State) (f off v : Nat) : State :=
  if 0x8000 ≤ off ∧ off < 0x8400 then s.updFn f (fun h => { h with adminSlots := h.adminSlots.put (off - 0x8000) (natLE 4 v) })
  else if off = 0 then s.clearing (fun s => { s with gfe := { s.gfe with status := writeOnes s.gfe.status v } })
  else s

/-- XLT_: the status bits. -/
def State.writeXlt (s : State) (off v : Nat) : State :=
  if off = 0 then s.clearing (fun s => { s with xlt := { s.xlt with status := writeOnes s.xlt.status (v % 8 / 2 * 2) } }) else s

/-- A word of HOST_ATTACH_CRED replaced. -/
def putWord (x : BitVec 128) (i v : Nat) : BitVec 128 :=
  BitVec.ofNat 128 (x.toNat - x.toNat / 2 ^ (32 * i) % 2 ^ 32 * 2 ^ (32 * i) + v % 2 ^ 32 * 2 ^ (32 * i))

/-- HOST_: the status bits; ATTACHMENT and MODE without GO or REPLAY; the credential to present; JOURNAL_LOST, TIMEOUT and ALARM of an attachment
that the function holds (R401). -/
def State.writeHost (s : State) (f off v : Nat) : State :=
  if 0x100 ≤ off ∧ off < 0x500 then
    let a := (off - 0x100) / 32
    if s.attOf f ≠ some a then s
    else match off % 32 with
      | 0x00 => s.updAtt a (fun x => { x with journalLost := x.journalLost && !v.testBit 8 })
      | 0x08 => s.updAtt a (fun x => { x with timeout := BitVec.ofNat 14 v })
      | 0x0C => s.updAtt a (fun x => { x with alarm := BitVec.ofNat 11 v })
      | _ => s
  else match off with
    | 0x00 => s.clearing (fun s => { s with host := { s.host with status := writeOnes s.host.status v } })
    | 0x10 =>
      if v.testBit 7 || v.testBit 8 then s
      else s.updFn f (fun h => { h with ctlAttachment := BitVec.ofNat 5 v, ctlMode := BitVec.ofNat 2 (v / 32) })
    | 0x14 | 0x18 | 0x1C | 0x20 => s.updFn f (fun h => { h with cred := putWord h.cred ((off - 0x14) / 4) v })
    | _ => s

/-- CLS_: the queue limits, the scheduling control and the status bits (R317, R358, R359, R453). -/
def State.writeCluster (s : State) (c off v : Nat) : State :=
  if 0xD40 ≤ off ∧ off < 0xD80 then
    s.updCluster c (fun x =>
      let limits := Tbl.set qlimitReset x.dma.qlimit ((off - 0xD40) / 4) (BitVec.ofNat 16 (v % 1024))
      { x with dma := { x.dma with qlimit := limits } })
  else match off with
    | 0xC00 => s.updCluster c (fun x => { x with binUncorrectable := x.binUncorrectable && !v.testBit 16 })
    | 0xD00 => s.updCluster c (fun x => { x with dma := { x.dma with status := writeOnes x.dma.status v } })
    | 0xE00 => s.updCluster c (fun x => { x with sched := { x.sched with
        preemptWait := BitVec.ofNat 14 v, fullGap := BitVec.ofNat 3 (v / 2 ^ 14), fullDisable := v.testBit 17
        stealBytes := BitVec.ofNat 8 (v / 2 ^ 24) } })
    | 0xE04 => s.updCluster c (fun x => { x with sched := { x.sched with
        cancelled := x.sched.cancelled && !v.testBit 10, saveLost := x.sched.saveLost && !v.testBit 11 } })
    | _ => s

/-- CORE_: the status bits (R127, R162, R190, R216, R317). -/
def State.writeCore (s : State) (k off v : Nat) : State :=
  match off with
  | 0xC00 => s.updCore k (fun x => { x with winnow := { x.winnow with status := writeOnes x.winnow.status v } })
  | 0xD00 => s.updCore k (fun x => { x with grid := { x.grid with status := writeOnes x.grid.status v } })
  | 0xE00 => s.updCore k (fun x => { x with vecStatus := writeOnes x.vecStatus v })
  | 0xF00 => s.updCore k (fun x => { x with sfu := { x.sfu with status := writeOnes x.sfu.status v } })
  | 0x1000 => s.updCore k (fun x => { x with binUncorrectable := x.binUncorrectable && !v.testBit 16 })
  | _ => s

/-- The units of the compute dies. -/
def State.writeDie (s : State) (f off v : Nat) : State :=
  match diePlace off with
  | .cluster c r => if s.writesUnit f (s.partOfCluster c) then s.writeCluster c r v else s
  | .core k r => if s.writesUnit f (s.partOfCluster (clusterOf k)) then s.writeCore k r v else s
  | .unused => s

/-- GLN_ and LOFT_: the status bits, LAPPED and FAILED_SEEN of a gleaner (R283, R314, R547). -/
def State.writeGleaner (s : State) (f g off v : Nat) : State :=
  if !s.writesGleaner f g then s
  else match off with
    | 0x00 => s.updGleaner g (fun x => { x with status := writeOnes x.status (v % 32) })
    | 0x4C => s.updGleaner g (fun x => { x with scrubLapped := x.scrubLapped && !v.testBit 31 })
    | 0x80 => s.updGleaner g (fun x => { x with test := { x.test with failedSeen := x.test.failedSeen && !v.testBit 5 } })
    | _ => s

/-- PORT_: LINK_LOST and the addresses (R486). -/
def State.writePort (s : State) (f p r v : Nat) : State :=
  let word6 (x : BitVec 128) (i : Nat) : BitVec 128 := putWord x i v
  if 0x30 ≤ r ∧ r < 0x40 then
    if s.writesPort f p false then s.updEth p (fun e => { e with ipv6A := word6 e.ipv6A ((r - 0x30) / 4) }) else s
  else if 0x40 ≤ r ∧ r < 0x50 then
    if s.writesPort f p true then s.updEth p (fun e => { e with ipv6B := word6 e.ipv6B ((r - 0x40) / 4) }) else s
  else match r with
    | 0x04 =>
      if s.writesPort f p false || s.writesPort f p true then
        s.clearing (fun s => s.updEth p (fun e => { e with linkLost := e.linkLost && !v.testBit 2 }))
      else s
    | 0x20 => if s.writesPort f p false then s.updEth p (fun e => { e with ipv4A := BitVec.ofNat 32 v }) else s
    | 0x24 => if s.writesPort f p true then s.updEth p (fun e => { e with ipv4B := BitVec.ofNat 32 v }) else s
    | _ => s

/-- IGT_: the registers of physical functions; ENTRY_DATA, and KIND and INDEX without READ or WRITE (R487). -/
def State.writeIgt (s : State) (f t v : Nat) : State :=
  let phys := isPhysical f
  if 0x20 ≤ t ∧ t < 0x40 then
    if phys then s.updIgt (fun r => { r with vcMap := Tbl.set 0 r.vcMap ((t - 0x20) / 4) (BitVec.ofNat 9 v) }) else s
  else if 0x140 ≤ t ∧ t < 0x180 then s.updIgt (fun r => { r with data := Tbl.set 0 r.data ((t - 0x140) / 4) (BitVec.ofNat 32 v) })
  else match t with
    | 0x00 => if phys then s.updIgt (fun r => { r with etherType := BitVec.ofNat 16 v, ttl := BitVec.ofNat 8 (v / 65536) }) else s
    | 0x04 => if phys then s.updIgt (fun r => { r with node := BitVec.ofNat 32 v }) else s
    | 0x08 => if phys then s.updIgt (fun r => { r with udpPort := BitVec.ofNat 16 v }) else s
    | 0x0C => if phys then s.clearing (fun s => s.updIgt (fun r => { r with status := writeOnes r.status v })) else s
    | 0x100 => if v.testBit 10 || v.testBit 11 then s else s.entrySelect (BitVec.ofNat 32 v)
    | _ => s

/-- FLT_ and TEL_: written by physical functions (R514, R548, R579, R596). -/
def State.writeSys (s : State) (f w v : Nat) : State :=
  if !isPhysical f then s
  else if 0x80100 ≤ w ∧ w < 0x80188 then
    s.clearing (fun s => s.updSensor ((w - 0x80100) / 4 + 1) (fun x => { x with seen := x.seen && !v.testBit 9 }))
  else
    let clock (x : DieClock) : DieClock := { x with ceiling := v % 32, dieCap := v / 65536 % 512 }
    match w with
    | 0x00 => s.updFaults (fun x => { x with status := writeOnes x.status v })
    | 0x0C => s.updFaults (fun x => { x with period := BitVec.ofNat 16 v, limit := BitVec.ofNat 16 (v / 65536) })
    | 0x1C => s.updFaults (fun x => { x with captureSlot := BitVec.ofNat 7 v, capturePage := BitVec.ofNat 5 (v / 128) })
    | 0x20 => s.updFaults (fun x => { x with intCtl := Tbl.set 0 x.intCtl f (BitVec.ofNat 12 v) })
    | 0x30 => s.updMgmt (fun m => { m with
        harrowEnable := v.testBit 0, harrowInterval := BitVec.ofNat 8 (v / 2), harrowDefer := BitVec.ofNat 10 (v / 512) })
    | 0x80000 => s.updMgmt (fun m => { m with hostCap := BitVec.ofNat 11 v })
    | 0x80010 => s.updDie 0 clock
    | 0x80014 => s.updDie 1 clock
    | 0x80040 => s.clearing (fun s => s.updMgmt (fun m => { m with dip := m.dip && !v.testBit 16 }))
    | _ => s

/-- A 4-byte write to the single register at an offset, by its access type: a register that has a row of its own, or that is read-only, keeps
its value (R14, R15). -/
def State.writeSingle (s : State) (f off v : Nat) : State :=
  if off < 0x10000 then s.writeDev f off v
  else if off < 0x20000 then s.writeGfe f (off - 0x10000) v
  else if off < 0x30000 then s.writeXlt (off - 0x20000) v
  else if off < 0x40000 then s.writeHost f (off - 0x30000) v
  else if off < 0xC00000 then s.writeDie f off v
  else if off < 0xD00000 then
    (if (off - 0xC00000) % 0x10000 < 0x8000 then
      s.writeGleaner f (32 * ((off - 0xC00000) / 0x10000) + (off - 0xC00000) % 0x10000 / 0x400) (off % 0x400) v else s)
  else if off < 0xE00000 then s.writeGleaner f (384 + (off - 0xD00000) / 0x400) (off % 0x400) v
  else if off < 0xE80000 then s.writePort f ((off - 0xE00000) / 0x1000) (off % 0x1000) v
  else if off < 0xF00000 then s.writeIgt f (off - 0xE80000) v
  else s.writeSys f (off - 0xF00000) v

/-! ### Pairs (R13) -/

/-- The key under which a function's capture of a pair is kept, and from 2^40 that of its held _LO write. -/
def pairKey (f off : Nat) : Nat := f * 2 ^ 24 + off
/-- What a function holds under a key. -/
def State.pairHold (s : State) (k : Nat) : Option PairHold := Tbl.get none s.mgmt.pairs k
/-- The state with that replaced. -/
def State.setPair (s : State) (k : Nat) (h : Option PairHold) : State := s.updMgmt (fun m => { m with pairs := Tbl.set none m.pairs k h })

/-- The writable pairs: the administrative ring, landing counters, MAC addresses (R401, R429, R486). -/
def State.writePair (s : State) (f off v : Nat) : State :=
  if off = 0x10018 then s.updFn f (fun h => { h with adminCq := BitVec.ofNat 64 v })
  else if 0x34000 ≤ off ∧ off < 0x38000 then
    let n := (off - 0x34000) / 8
    if s.attOf f = some (n / 64) then
      (s.updAtt (n / 64) (fun x => { x with landing := Tbl.set 0 x.landing (n % 64) (BitVec.ofNat 64 v) })).grantLanding (n / 64) (n % 64) else s
  else if 0xE00000 ≤ off ∧ off < 0xE08000 then
    let p := (off - 0xE00000) / 0x1000
    match off % 0x1000 with
    | 0x10 => if s.writesPort f p false then s.updEth p (fun e => { e with macA := BitVec.ofNat 48 v }) else s
    | 0x18 => if s.writesPort f p true then s.updEth p (fun e => { e with macB := BitVec.ofNat 48 v }) else s
    | _ => s
  else s

/-- A write of NAME_LO is held for the function; it ends an earlier capture of the pair (R13). -/
def State.holdLow (s : State) (f off : Nat) (w : Word32) : State :=
  (s.setPair (pairKey f off) none).setPair (pairKey f off + 2 ^ 40) (some { offset := off, write := true, value := w })

/-- A write of the _HI half of the pair at `off`: the pair takes the held low half, or keeps its own, under the new upper half (R13). -/
def State.writeHigh (s : State) (f off : Nat) (w : Word32) : State :=
  let low := match s.pairHold (pairKey f off + 2 ^ 40) with
    | some h => h.value.toNat
    | none => (s.regPair f off).getD 0 % 2 ^ 32
  ((s.setPair (pairKey f off) none).setPair (pairKey f off + 2 ^ 40) none).writePair f off (w.toNat * 2 ^ 32 + low)

/-- One 4-byte write at an offset: an access error where no register lies; without effect before READY but for DEV_READY (R12, R13, R560, R600). -/
def State.writeOne (s : State) (f off : Nat) (w : Word32) : State :=
  match s.regWord f off with
  | none => s.accessError f off
  | some _ =>
    if !s.served ∧ off ≠ 0x40 then s
    else if (s.regPair f off).isSome then s.holdLow f off w
    else if 4 ≤ off ∧ (s.regPair f (off - 4)).isSome then s.writeHigh f (off - 4) w
    else s.writeSingle f off w.toNat

/-- The DWORDs of a write in ascending address order (R600). -/
def writeWords : State → Nat → Nat → List Word32 → State
  | s, _, _, [] => s
  | s, f, off, w :: ws => writeWords (s.writeOne f off w) f (off + 4) ws

/-- REGISTER_WRITE: a BAR0 write of function `f` of whole DWORDs at an offset; `narrow` says that it has fewer than 4 bytes or partial byte enables in
its first or last DWORD, and it then has no effect and is an access error (R12 to R16, R600). The table has no row for BAR4's MSI-X table: an offset
of BAR4 stands here behind BAR0's 16 MiB (DESIGN CHOICE, log 39). -/
def execRegisterWrite (f off : Nat) (words : List Word32) (narrow : Bool) (s : State) : Answer :=
  onFn f s (fun s => .next (
    if 0x1000000 ≤ off then (if narrow ∨ s.served = false then s else writeMsixWords s f (off - 0x1000000) words)
    else if narrow then s.accessError f off else writeWords s f off words))

/-- PAIR_HI_WRITE: a write of the _HI register at an offset (R13). An offset that is no pair's upper half is no such write. -/
def execPairHiWrite (f off : Nat) (value : Word32) (s : State) : Answer :=
  onBar0 f s (fun s =>
    if 4 ≤ off ∧ (s.regPair f (off - 4)).isSome then .next (s.writeHigh f (off - 4) value) else .next s)

/-- Whether an offset is a credential register, whose read is a row of its own (R395). -/
def credOffset (off : Nat) : Bool := decide (0x30100 ≤ off) && decide (off < 0x30500) && decide (0x10 ≤ off % 32)

/-- One 4-byte read of the register word `v` at an offset, `high` being the word behind it: a read of NAME_LO captures the whole pair for the
function, and the next read of its NAME_HI takes the captured half (R13). -/
def State.takeWord (s : State) (f off v high : Nat) : State × Nat :=
  if (s.regPair f off).isSome then (s.setPair (pairKey f off) (some { offset := off, write := false, value := BitVec.ofNat 32 high }), v)
  else if 4 ≤ off ∧ (s.regPair f (off - 4)).isSome then
    match s.pairHold (pairKey f (off - 4)) with
    | some h => (s.setPair (pairKey f (off - 4)) none, h.value.toNat)
    | none => (s, v)
  else (s, v)

/-- One 4-byte read at an aligned offset; one where no register lies returns 0 and is an access error recorded at `at_` (R600). An offset of
BAR4 stands here behind BAR0's 16 MiB (DESIGN CHOICE, log 39). -/
def State.readWord (s : State) (f off at_ : Nat) : State × Nat :=
  if 0x1000000 ≤ off then (s, if s.served then s.readMsix f (off - 0x1000000) else 0)
  else match s.barWord f off with
    | none => (s.accessError f at_, 0)
    | some v => s.takeWord f off v ((s.barWord f (off + 4)).getD 0)

/-- The bytes of the words that a read touches, the lowest first (R12, R600). -/
def State.readWords (s : State) (f at_ : Nat) : Nat → Nat → State × List Byte
  | 0, _ => (s, [])
  | n + 1, off =>
    let r := s.readWord f off (max off at_)
    let rest := r.1.readWords f at_ n (off + 4)
    (rest.1, natLE 4 r.2 ++ rest.2)

/-- PAIR_LO_READ: a read of function `f`. An aligned 8-byte read of a pair is one operation and needs no capture; any other read takes the words that
it touches in ascending order and returns the addressed bytes (R12, R13, R600). -/
def execPairLoRead (f : Nat) (r : BarRead) (s : State) : Answer :=
  onFn f s (fun s =>
    if credOffset r.off then .next s
    else if r.size = 8 ∧ r.off % 8 = 0 ∧ (s.regPair f r.off).isSome then
      .next (s.send (.completion f (natLE 4 ((s.barWord f r.off).getD 0) ++ natLE 4 ((s.barWord f (r.off + 4)).getD 0))))
    else
      let first := r.off / 4 * 4
      let x := s.readWords f r.off (ceilDiv (r.off + r.size - first) 4) first
      .next (x.1.send (.completion f ((x.2.drop (r.off % 4)).take r.size))))

/-! ### The interrupt summary's control (R604, R605) -/

/-- INT_CTL_WRITE: a physical function writes its DEV_INT_CTL; where that enables a bit already set, its vector is sent once (R604, R605). -/
def execIntCtlWrite (f : Nat) (value : Word32) (s : State) : Answer :=
  onBar0 f s (fun s =>
    if !isPhysical f then .next s
    else
      let s0 := s.settleInts
      let i := Tbl.get intReset s0.mgmt.ints f
      let ctl : BitVec 22 := BitVec.ofNat 22 value.toNat
      let on (c : BitVec 22) (n : Nat) : Bool := c.getLsbD 0 && c.getLsbD (12 + n)
      let s1 := s0.updMgmt (fun m => { m with ints := Tbl.modify intReset m.ints f (fun i => { i with ctl := ctl }) })
      .next (if (bitsSet (s0.intSummary f) 10).any (fun n => on ctl n && !on i.ctl n) then s1.fnVector f (ctl.toNat / 2 % 2048) else s1))

end Sys2Proof.Machine
end

