-- ==== Sys2Proof/Machine/Maint.lean ====
section
/-!
DEFINITION. Signed maintenance commands and unsigned management messages (R543, R544, R556 to R559).
-/

namespace Sys2Proof.Machine

/-- The reeve's answer to an endpoint: the outcome of R557 and data. -/
def State.manage (s : State) (ep outcome : Nat) (data : List Byte) : State := s.send (.management ep outcome data)

/-! ### Checking a maintenance command (R557) -/

/-- LENGTH of a maintenance command. -/
def maintLength (msg : List Byte) : Nat := fieldLE msg 4 4
/-- Its PAYLOAD. -/
def maintPayload (msg : List Byte) : List Byte := (msg.drop 0x20).take (maintLength msg)
/-- The bytes that its signature covers. -/
def maintSigned (msg : List Byte) : List Byte := msg.take (0x20 + maintLength msg)
/-- r and s of its signature (R60). -/
def maintSig (msg : List Byte) : Nat × Nat :=
  let sig := msg.drop (0x20 + maintLength msg)
  (beNat (sig.take 48), beNat ((sig.drop 48).take 48))
/-- Whether a byte string is a maintenance command of the given number: its COMMAND, and a LENGTH of 0 to 4,096 that agrees with its size. -/
def isMaint (command : Nat) (msg : List Byte) : Bool :=
  fieldLE msg 0 2 == command && decide (maintLength msg ≤ 4096) && msg.length == 0x20 + maintLength msg + 96

/-- A maintenance key slot (R556). -/
def State.maintKey (s : State) (n : Nat) : KeySlot := Tbl.get keyReset s.mgmt.maintKeys n
/-- How many maintenance slots are ACTIVE. -/
def State.maintActive (s : State) : Nat := ((List.range 4).filter (fun n => (s.maintKey n).state == 1)).length
/-- The key that KEY_SLOT names, where it may sign this command: an ACTIVE slot's, or the vendor's for KEY_ENROLL of a maintenance slot while none
is ACTIVE (R557). -/
def State.maintSigner (s : State) (msg : List Byte) : Option Nat :=
  let n := fieldLE msg 2 1
  if n < 4 then (if (s.maintKey n).state = 1 then some (s.maintKey n).key else none)
  else if n = 0xFF ∧ fieldLE msg 0 2 = 1 ∧ fieldLE msg 0x20 1 = 1 ∧ s.maintActive = 0 then
    (Tbl.get none s.mgmt.images s.mgmt.image).map (fun i => i.vendorKey)
  else none

/-- The first of the ordered checks that a command fails: STALE_NONCE 2, WRONG_MODULE 4, KEY_NOT_ACTIVE 3, BAD_SIGNATURE 1, BUSY 6; 0 where
it passes all (R557). -/
def State.maintCheck (s : State) (ep : Nat) (msg : List Byte) : Nat :=
  if !s.mgmt.nonces.any (fun n => n.endpoint == ep && n.value == fieldLE msg 8 16) then 2
  else if fieldLE msg 0x18 8 ≠ s.mgmt.serial then 4
  else match s.maintSigner msg with
    | none => 3
    | some key =>
      if !ecdsaVerifies key (maintSig msg).1 (maintSig msg).2 (sha384 (maintSigned msg)) then 1
      else if s.mgmt.activation.isSome then 6
      else 0

/-- Voiding an endpoint's nonce. -/
def State.dropNonce (s : State) (ep : Nat) : State := s.updMgmt (fun m => { m with nonces := m.nonces.filter (fun n => n.endpoint != ep) })

/-- A maintenance command: the running reeve answers with the first failing check, its nonce consumed from step 3 on; one that passes has the outcome
of its own checks. `body` takes the payload and gives the state, the outcome and the data of the answer (R557). -/
def maintenance (command ep : Nat) (msg : List Byte) (s : State) (body : State → List Byte → State × Nat × List Byte) : Answer :=
  if !s.mgmt.reeve ∨ !isMaint command msg then .next s
  else match s.maintCheck ep msg with
    | 0 =>
      let r := body (s.dropNonce ep) (maintPayload msg)
      .next (r.1.manage ep r.2.1 r.2.2)
    | n => .next ((if n = 2 ∨ n = 4 then s else s.dropNonce ep).manage ep n [])

/-- REFUSED, with a reason whose code the spec leaves open (R557; DESIGN CHOICE, log 2). -/
def State.refuse (s : State) : State × Nat × List Byte := (s.tookFree, 5, natLE 1 s.free.toNat)
/-- DONE. -/
def State.done (s : State) : State × Nat × List Byte := (s, 0, [])

/-! ### Keys (R556, R558) -/

/-- The key slot of a KIND and SLOT; none outside the store. -/
def State.keySlot (s : State) (kind slot : Nat) : Option KeySlot :=
  if kind = 0 ∧ slot < 8 then some (Tbl.get keyReset s.loader.keys slot)
  else if kind = 1 ∧ slot < 4 then some (s.maintKey slot)
  else none
/-- The state with a key slot replaced. -/
def State.setKeySlot (s : State) (kind slot : Nat) (k : KeySlot) : State :=
  if kind = 0 then { s with loader := { s.loader with keys := Tbl.set keyReset s.loader.keys slot k } }
  else s.updMgmt (fun m => { m with maintKeys := Tbl.set keyReset m.maintKeys slot k })

/-- KEY_ENROLL: an EMPTY or REVOKED slot takes the key and is ACTIVE; a plan slot's floor is the larger of FLOOR and its earlier one (R558). -/
def execKeyEnroll (ep : Nat) (msg : List Byte) (s : State) : Answer :=
  maintenance 1 ep msg s (fun s p =>
    let kind := fieldLE p 0 1
    let slot := fieldLE p 1 1
    match s.keySlot kind slot with
    | none => s.refuse
    | some k =>
      if k.state = 1 ∨ p.length ≠ 103 then s.refuse
      else (s.setKeySlot kind slot { state := 1, key := beNat ((p.drop 2).take 97), floor := if kind = 0 then max (fieldLE p 99 4) k.floor else 0 }).done)

/-- KEY_REVOKE: the slot is REVOKED; the last ACTIVE maintenance slot is refused (R558). -/
def execKeyRevoke (ep : Nat) (msg : List Byte) (s : State) : Answer :=
  maintenance 2 ep msg s (fun s p =>
    let kind := fieldLE p 0 1
    let slot := fieldLE p 1 1
    match s.keySlot kind slot with
    | none => s.refuse
    | some k =>
      if kind = 1 ∧ k.state = 1 ∧ s.maintActive = 1 then s.refuse else (s.setKeySlot kind slot { k with state := 2 }).done)

/-! ### The fault history (R535, R543, R558) -/

/-- Entries of the history changed by the reeve itself; the change follows in flash (R534). -/
def State.editHist (s : State) (p : Nat → HistEntry → Bool) (f : HistEntry → HistEntry) : State :=
  let h := s.mgmt.hist
  let ns := (List.range h.entries.length).filter (fun n => match h.entries[n]? with
    | some e => p n e
    | none => false)
  (s.updHist (fun h => { h with
    entries := ns.foldl (fun es n => es.modify n f) h.entries, pending := h.pending ++ ns.map (fun n => { entry := n, serial := 0 }) })).sendAll
    (ns.map Out.history)

/-- An entry that is OK again, with counts 0 (R558). -/
def HistEntry.cleared (e : HistEntry) : HistEntry := { e with state := 0, transients := 0, confirmed := 0, recent := [], permanentAt := 0 }

/-- HISTORY_CLEAR: one entry, or every entry of a unit, is OK again with counts 0; entries can be reused from then on (R535, R558). -/
def execHistoryClear (ep : Nat) (msg : List Byte) (s : State) : Answer :=
  maintenance 4 ep msg s (fun s p =>
    let n := fieldLE p 0 2
    let mine (i : Nat) (e : HistEntry) : Bool := if n = 0xFFFF then e.unitKind == fieldLE p 2 1 && e.unit == fieldLE p 3 2 else i == n
    if n ≠ 0xFFFF ∧ s.mgmt.hist.entries.length ≤ n then s.refuse
    else ((s.editHist mine HistEntry.cleared).updHist (fun h => { h with full := false })).done)

/-! ### Channels (R540, R543, R544) -/

/-- TEST_START: the traffic generator of a channel starts in a mode (R540, R558). -/
def execTestStart (ep : Nat) (msg : List Byte) (s : State) : Answer :=
  maintenance 5 ep msg s (fun s p =>
    let g := fieldLE p 0 2
    let mode := fieldLE p 2 1
    if 448 ≤ g ∨ 4 ≤ mode ∨ (s.gleaner g).test.phase = 1 then s.refuse
    else (s.updGleaner g (fun x => { x with test := { x.test with phase := 1, mode := mode } })).done)

/-- Whether a channel is out of service and bound to no logical channel (R543). -/
def State.isOut (s : State) (g : Nat) : Bool :=
  s.mappedOut g && (isLoft g || !(List.range 31).any (fun n => (s.stack (g / 32)).phys.getD n n == g % 32 && !(s.stack (g / 32)).absent.testBit n))

/-- A repaired channel returns to service, poisoned: bound to an absent logical channel of its stack, or the stack's reserve, or a loft channel
again (R544). -/
def State.returnChannel (s : State) (g : Nat) : State :=
  let s1 := s.updGleaner g (fun x => { x.poisonBales (channelBytes (isLoft g) / 65536) with status := x.status &&& 31 })
  if isLoft g then { s1 with loft := { s1.loft with out := clearBit s1.loft.out (g - 384) } }.noteUnits
  else
    let m := s1.stack (g / 32)
    match (List.range 31).find? (fun n => m.absent.testBit n) with
    | some n => (s1.setStack (g / 32) { m with phys := m.phys.set n (g % 32), absent := m.absent - 2 ^ n }).settleSysArea
    | none => s1.setStack (g / 32) { m with reserve := g % 32, reserveFree := true, reserveFailed := false }

/-- STACK_REPAIR of gleaner `g`'s channel: post-package repair of the named rows, or of all that are PENDING_REPAIR, then PATTERN and MARCH tests;
`resources` says that every row could be repaired and `passed` that the tests passed. The payload's layout is open, so the command brings what it
names (DEDUCED, log 56). DETAIL: 0 REPAIRED, 1 NO_RESOURCES, 2 TEST_FAILED, 3 NOT_OUT (R543, R544). -/
def execStackRepair (ep : Nat) (msg : List Byte) (g : Nat) (rows : List Nat) (resources passed : Bool) (s : State) : Answer :=
  onGleaner g s (fun s =>
    maintenance 3 ep msg s (fun s _ =>
      if !s.isOut g then (s, 5, natLE 1 3)
      else if !resources then (s, 0, natLE 1 1)
      else if !passed then
        (s.updGleaner g (fun x => { x with test := { x.test with phase := 3, mode := 3, failedSeen := true } }), 0, natLE 1 2)
      else
        let named := if rows.isEmpty then (s.gleaner g).test.hardRows else rows
        let (uk, u) := gleanerUnit g
        let s1 := s.updGleaner g (fun x => { x with test := { x.test with
          phase := 2, mode := 3, suspect := false, hardRows := x.test.hardRows.filter (fun r => !named.contains r), found := [] } })
        let s2 := s1.editHist (fun _ e => e.unitKind == uk && e.part == 5 && e.unit == u && named.contains e.index) (fun e => { e with state := 3 })
        (s2.returnChannel g, 0, natLE 1 0)))

/-! ### Images and debug (R554, R558, R576) -/

/-- IMAGE_PREFER: the preferred image, from the next reeve boot on (R558). -/
def execImagePrefer (ep : Nat) (msg : List Byte) (s : State) : Answer :=
  maintenance 6 ep msg s (fun s p =>
    if p.length = 1 ∧ fieldLE p 0 1 < 2 then (s.updMgmt (fun m => { m with prefer := fieldLE p 0 1 })).done else s.refuse)

/-- DEBUG_UNLOCK: the internal debug port answers until the next cold reset; refused once DEBUG_LOCK is blown (R558, R576). -/
def execDebugUnlock (ep : Nat) (msg : List Byte) (s : State) : Answer :=
  maintenance 7 ep msg s (fun s _ => if s.mgmt.debugLock then s.refuse else (s.updMgmt (fun m => { m with debugOpen := true })).done)

/-- DEBUG_LOCK_BLOW: the debug port is disabled at once and never returns (R576). -/
def execDebugLockBlow (ep : Nat) (msg : List Byte) (s : State) : Answer :=
  maintenance 8 ep msg s (fun s _ => (s.updMgmt (fun m => { m with debugLock := true, debugOpen := false })).done)

/-! ### Unsigned messages (R559) -/

/-- A message that the running reeve serves. -/
def onReeve (s : State) (f : State → State) : Answer := if s.mgmt.reeve then .next (f s) else .next s

/-- GET_NONCE: a fresh nonce for the endpoint, its earlier one void, the oldest of four others evicted (R559). -/
def execGetNonce (ep : Nat) (s : State) : Answer :=
  onReeve s (fun s =>
    let v := (Config.freeCredential s.freeCtr).toNat
    let s1 := (s.dropNonce ep).tookFree
    (s1.updMgmt (fun m => { m with nonces := m.nonces.drop (m.nonces.length - 3) ++ [{ endpoint := ep, value := v }] })).manage ep 0 (natLE 16 v))

/-- NONCE_EXPIRE: an endpoint's outstanding nonce is 60 s old (R557). -/
def execNonceExpire (ep : Nat) (s : State) : Answer := .next (s.dropNonce ep)

/-- The words that READ returns, from offset `off` on: `kind` 0 BAR0 words of the TEL_, FLT_ and ACC_ blocks and the fault queue, as function 0
reads them, the captures of pairs being the reeve's own (R13); 1 words of capture slot `index`; 2 words of history entry `index` (R559). -/
def State.mgmtWords (s : State) (kind index : Nat) : Nat → Nat → State × List Byte
  | 0, _ => (s, [])
  | n + 1, off =>
    let r := match kind with
      | 0 => if 0xF00000 ≤ off ∧ off < 0x1000000 then s.takeWord 32 off ((s.regWord 32 off).getD 0) ((s.regWord 32 (off + 4)).getD 0) else (s, 0)
      | 1 => (s, s.captureWord index off)
      | _ => (s, ((s.mgmt.hist.entries[index]?).map (fun e => fieldLE (HistEntry.bytes e) off 4)).getD 0)
    let rest := r.1.mgmtWords kind index n (off + 4)
    (rest.1, natLE 4 r.2 ++ rest.2)
/-- MGMT_READ (R452, R559). -/
def execMgmtRead (ep kind index off words : Nat) (s : State) : Answer :=
  onReeve s (fun s => let r := s.mgmtWords kind index words off; r.1.manage ep 0 r.2)

/-- MGMT_RESET: a warm reset of one die, or with none named a device cold reset, either behind its capture (R502, R505, R559). -/
def execMgmtReset (ep : Nat) (die : Option Nat) (s : State) : Answer :=
  onReeve s (fun s =>
    match die with
    | none => ((s.openRecovery (faultOf 0 0 0) 0 0 7).1).manage ep 0 []
    | some d => if d < 4 then (s.openDieReset d).manage ep 0 [] else s)

/-- BMC_CAP set (R566). -/
def State.setBmcCap (s : State) (v : Nat) : State := s.updMgmt (fun m => { m with bmcCap := BitVec.ofNat 11 (min v 2047) })
/-- A compute die's BMC ceiling set (R566). -/
def State.setBmcCeiling (s : State) (d k : Nat) : State := s.updDie d (fun x => { x with bmcCeiling := min k 18 })

/-- MGMT_CAP: BMC_CAP and the BMC ceilings, each where it is given (R559, R566). -/
def execMgmtCap (ep : Nat) (cap ceiling0 ceiling1 : Option Nat) (s : State) : Answer :=
  onReeve s (fun s =>
    let s1 := match cap with
      | some v => s.setBmcCap v
      | none => s
    let s2 := match ceiling0 with
      | some k => s1.setBmcCeiling 0 k
      | none => s1
    let s3 := match ceiling1 with
      | some k => s2.setBmcCeiling 1 k
      | none => s2
    s3.manage ep 0 [])

end Sys2Proof.Machine
end

