-- ==== Sys2Proof/Machine/Pldm.lean ====
section
/-!
DEFINITION. MCTP and PLDM (R570 to R572), firmware replaced in service (R573, R574), and the TAP (R577).
-/

namespace Sys2Proof.Machine

/-! ### MCTP control (R570) -/

/-- MCTP_CONTROL: a control message of DSP0236 on a binding: 1 sets its EID, 2 gets it, 5 lists the message types served, control, PLDM and
vendor-defined PCI; any other command is answered as unsupported (PRESUMED, log 60). -/
def execMctpControl (binding command : Nat) (data : List Byte) (s : State) : Answer :=
  if 3 ≤ binding then .fault .noSuchUnit
  else onReeve s (fun s =>
    let reply (s : State) (bs : List Byte) : State := s.send (.pldm binding 0 (natLE 1 command ++ bs))
    match command with
    | 1 =>
      let eid := fieldLE data 1 1
      reply (s.updMgmt (fun m => { m with eids := Tbl.set 0 m.eids binding eid })) ([0, 0] ++ natLE 1 eid ++ [0])
    | 2 => reply s ([0] ++ natLE 1 (Tbl.get 0 s.mgmt.eids binding) ++ [0, 0])
    | 5 => reply s [0, 3, 0x00, 0x01, 0x7E]
    | _ => reply s [5])

/-! ### PLDM sensors and effecters (R571) -/

/-- DEV_READY's state as sensor 50 presents it: 0 starting, 1 ready, 2 failed (R571; PRESUMED, log 60). -/
def MgmtState.startState (m : MgmtState) : Nat := if m.failed then 2 else if m.ready then 1 else 0
/-- A compute die's clock in MHz (R565). -/
def DieClock.mhz (x : DieClock) : Nat := 900 + 50 * x.current
/-- The reading of a sensor of R571; none where there is none. -/
def State.sensorValue (s : State) (n : Nat) : Option Nat :=
  if 1 ≤ n ∧ n ≤ 34 then some (s.sensor n).temp
  else match n with
    | 40 => some (s.mgmt.volts / 100)
    | 41 => some s.mgmt.lastS
    | 42 => some (s.mgmt.energy.toNat / 1000)
    | 43 => some (s.die 0).watts
    | 44 => some (s.die 1).watts
    | 45 => some (s.die 0).mhz
    | 46 => some (s.die 1).mhz
    | 50 => some s.mgmt.startState
    | _ => none

/-- PLDM_GET_SENSOR: the reading, or a refusal for a number that names no sensor (R571). -/
def execPldmGetSensor (ep n : Nat) (s : State) : Answer :=
  onReeve s (fun s => s.send (.pldm ep 1 (match s.sensorValue n with
    | some v => natLE 2 n ++ natLE 8 v
    | none => natLE 2 n)))

/-- The operating point of a frequency in MHz, rounded down (R565, R571). -/
def pointOf (mhz : Nat) : Nat := min 18 ((mhz - 900) / 50)

/-- PLDM_SET_EFFECTER: 100 sets BMC_CAP, 101 and 102 the BMC ceilings of CD0 and CD1 (R571). -/
def execPldmSetEffecter (ep n value : Nat) (s : State) : Answer :=
  onReeve s (fun s =>
    match n with
    | 100 => (s.setBmcCap value).send (.pldm ep 3 (natLE 2 n))
    | 101 => (s.setBmcCeiling 0 (pointOf value)).send (.pldm ep 3 (natLE 2 n))
    | 102 => (s.setBmcCeiling 1 (pointOf value)).send (.pldm ep 3 (natLE 2 n))
    | _ => s.send (.pldm ep 3 []))

/-! ### Firmware update (R572) -/

/-- The image slot that is not running. -/
def MgmtState.spareSlot (m : MgmtState) : Nat := 1 - m.image % 2
/-- Whether firmware update is served: by the running reeve, or by the boot ROM over SMBus while neither image is valid (R554, R572). -/
def State.updates (s : State) (overSmbus : Bool) : Bool := s.mgmt.reeve || (s.mgmt.phase == .failed && s.mgmt.error == 1 && overSmbus)

/-- PLDM_FW_TRANSFER: an image is written into the slot that is not running, and accepted if it is valid (R554, R572). -/
def execPldmFwTransfer (ep : Nat) (overSmbus : Bool) (image : FwImage) (s : State) : Answer :=
  if !s.updates overSmbus ∨ s.mgmt.activation.isSome then .next s
  else
    let s1 := s.updMgmt (fun m => { m with images := Tbl.set none m.images m.spareSlot (some image) })
    .next (s1.send (.pldm ep 4 [BitVec.ofNat 8 (bit01 (s1.imageValid s1.mgmt.spareSlot))]))

/-- PLDM_ACTIVATE_FIRMWARE: the preference moves to the accepted image, and its activation begins; one marked COLD_ONLY waits for a device cold reset
(R572). -/
def execPldmActivateFirmware (ep : Nat) (overSmbus : Bool) (s : State) : Answer :=
  let n := s.mgmt.spareSlot
  if !s.updates overSmbus ∨ s.mgmt.activation.isSome ∨ !s.imageValid n then .next s
  else
    let cold := ((Tbl.get none s.mgmt.images n).map (fun i => i.coldOnly)).getD true || !s.mgmt.reeve
    .next ((s.updMgmt (fun m => { m with prefer := n, activation := if cold then none else some { done := 0 } })).send
      (.pldm ep 5 [BitVec.ofNat 8 (bit01 cold)]))

/-! ### Replacing firmware in service (R573, R574) -/

/-- Whether a load is between its fetch and its decision. -/
def State.undecided (s : State) : Bool := s.loader.loads.any (fun l => l.phase == LoadPhase.waiting || l.phase == LoadPhase.staged)

/-- ACTIVATION_STEP: the next of the five steps completes: the standby restarts on the new image; the roles swap while no load is undecided; the old
primary restarts as standby; the front end's and the recovery engines' microcode is replaced; the gleaner microcode begins to roll (R573). -/
def execActivationStep (s : State) : Answer :=
  match s.mgmt.activation with
  | none => .next s
  | some a =>
    let step (f : MgmtState → MgmtState) : Answer := .next (s.updMgmt (fun m => f { m with activation := some { done := a.done + 1 } }))
    match a.done with
    | 0 => step (fun m => { m with standby := true })
    | 1 => if s.undecided then .next s else step (fun m => { m with activeReeve := 1 - m.activeReeve, image := m.spareSlot, standby := false })
    | 2 => step (fun m => { m with standby := true })
    | 3 => step id
    | 4 => step (fun m => { m with roll := some 0, rolling := false })
    | _ => .next s

/-- The gleaners of a stack (0 to 11) or loft package (12 to 27) of a roll (R574). -/
def rollGleaners (n : Nat) : List Nat := if n < 12 then stackGleaners n else (List.range 4).map (fun i => 384 + 4 * (n - 12) + i)

/-- MICROCODE_ROLL_STEP: the next stack or package of the roll holds new requests for its gleaners (R574). -/
def execMicrocodeRollStep (s : State) : Answer :=
  match s.mgmt.roll with
  | none => .next s
  | some n =>
    if s.mgmt.rolling then .next s
    else .next ((rollGleaners n).foldl (fun s g => s.updGleaner g (fun x => { x with holding := true })) (s.updMgmt (fun m => { m with rolling := true })))

/-- Whether a gleaner's threads have ended and its displaced-row map is empty (R574). -/
def State.quiet (s : State) (g : Nat) : Bool :=
  !(s.gleaner g).threads.any (fun e => e.2.isSome) && (s.gleaner g).map.isEmpty && (s.gleaner g).ops.isEmpty

/-- MICROCODE_LOAD: once the held gleaners are quiet, their microcode is loaded and the held requests are released in order; a gleaner whose load failed its check
twice raises GLEANER_FAULT. After the last package the activation is complete (R573, R574). -/
def execMicrocodeLoad (failed : List Nat) (s : State) : Answer :=
  match s.mgmt.roll, s.mgmt.rolling with
  | some n, true =>
    let gs := rollGleaners n
    if !gs.all s.quiet then .next s
    else
      let last := decide (27 ≤ n)
      let s1 := s.updMgmt (fun m => { m with
        rolling := false, roll := if last then none else some (n + 1), activation := if last then none else m.activation })
      let bad := gs.filter (fun g => failed.contains g)
      let s2 := gs.foldl (fun s g =>
        let held := s.inRecovery (gleanerUnit g).1 (gleanerUnit g).2
        (s.updGleaner g (fun x => { x with holding := held })).drainQueue g) s1
      .next (s2.sendAll (bad.map (fun g => Out.fault (faultOf 0x030A (gleanerUnit g).1 (gleanerUnit g).2))))
  | _, _ => .next s

/-! ### The TAP (R577) -/

/-- IDCODE (R577). -/
def State.idcode (s : State) : Nat := fieldsAt [(0, 1), (1, Config.jepIdentity.toNat), (12, 0x9120), (28, s.loader.stepping % 16)]
/-- Whether PERST# of both ports is asserted. -/
def State.bothPerst (s : State) : Bool := (s.port 0).perst && (s.port 1).perst

/-- TAP_INSTRUCTION: an instruction is loaded, numbered as `tap` is. EXTEST, CLAMP and HIGHZ take effect only while PERST# of both ports is asserted;
pins still under boundary scan after PERST# deasserts stay so until the TAP's reset; an instruction of no number below 6 is BYPASS once DEBUG_LOCK is
blown (R577). -/
def execTapInstruction (n : Nat) (s : State) : Answer :=
  if s.mgmt.phase = .off then .next s
  else
    let scan := decide (3 ≤ n) && decide (n ≤ 5)
    let ir := if scan ∧ !s.bothPerst then 0 else if 6 ≤ n ∧ s.mgmt.debugLock then 0 else n
    let s1 := s.updMgmt (fun m => { m with tap := ir, boundary := (scan && s.bothPerst) || (m.boundary && !s.bothPerst) })
    .next (if ir = 1 then s1.send (.tap s.idcode) else s1)

/-- TAP_RESET: Test-Logic-Reset releases the pins and selects IDCODE (R577; PRESUMED, log 60). -/
def execTapReset (s : State) : Answer := .next (s.updMgmt (fun m => { m with tap := 1, boundary := false }))

end Sys2Proof.Machine
end

