-- ==== Sys2Proof/Machine/RowOps.lean ====
section
/-!
DEFINITION. The instructions that feed the next stage: ROWPUT and SFLUSH (R171, R185).
-/

namespace Sys2Proof.Machine

/-- The row record of R185 as a row descriptor. -/
def parseRow (bs : List Byte) : RowDesc :=
  { stage := fieldLE bs 0 1, cls := fieldLE bs 1 1, length := fieldLE bs 2 2, inAddr := fieldLE bs 4 4
    tag := fieldLE bs 8 4, marks := fieldLE bs 12 4, arrival := 0 }

/-- The rows among the held rows and flushes. -/
def heldRows (hs : List Held) : Nat :=
  (hs.filter (fun h => match h with
    | .row _ => true
    | .flush _ => false)).length

/-- ROWPUT holds a row record until END; a 257th in one work item stops the core with ROW_OVERFLOW (R185, R190, R491). -/
def execRowput (k : Nat) (w : VWord) (ecc : Ecc) (s : State) : Answer :=
  issueUnit k w (fun s c =>
    match s.coreLoad k (c.vec.address w) 16 true ecc with
    | (s1, none) => .ended s1
    | (s1, some bs) =>
      if 256 ≤ heldRows c.held then .ended (s1.stopWith k 5 0x0104 0 0)
      else .done (s1.updCore k (fun c => { c with held := c.held ++ [.row (parseRow bs)] }))) s

/-- SFLUSH holds a flush for stage IMM[5:0] and the item's context until END. -/
def execSflush (k : Nat) (w : VWord) (s : State) : Answer :=
  issueUnit k w (fun s _ =>
    .done (s.updCore k (fun c => { c with held := c.held ++ [.flush (w.imm.toNat % 64)] }))) s

end Sys2Proof.Machine
end

