-- ==== Sys2Proof/Machine/SfuUnit.lean ====
section
/-!
DEFINITION. The SFU instruction (R191 to R193, R215): a built-in function or a plan's microprogram on all lanes.
-/

namespace Sys2Proof.Machine

/-- The built-in function of IMM[6:0] (R191). -/
def sfuFnOf (n : Nat) : Option SfuFn :=
  match n with
  | 0 => some .exp
  | 1 => some .log
  | 2 => some .rcp
  | 3 => some .rsqrt
  | _ => none

/-- The microprogram in slot `n` of core `k`: entry SFU_FIRST + n, for n below SFU_COUNT (R192). -/
def State.sfuSlot (s : State) (k n : Nat) : Option SfuProgram :=
  match s.poolOf k with
  | some (pl, pool, _) => if n < pool.sfuCount then pl.sfuPrograms[pool.sfuFirst + n]? else none
  | none => none

/-- What the SFU computes in a lane and how long it is occupied (R193); none where the loader refuses the function
number (R192). -/
def State.sfuFunction (s : State) (k n : Nat) (g : Format) : Option ((Value → Nat × NumFlags) × Nat) :=
  match sfuFnOf n with
  | some f => some (sfuBuiltin f g, 4)
  | none =>
    if n < 64 then none else
      match s.sfuSlot k (n - 64) with
      | some p => some (sfuMicro p g (valueB32 (s.free.toNat % 2 ^ 32)), 4 * ceilDiv p.steps.length 4)
      | none => none

/-- The format of an SFU argument or result: 0 binary32, 1 SF32 (R191). -/
def sfuFormat (code : BitVec 4) : Format := if code = 1 then .sf32 else .b32

/-- An uncorrectable table error: nothing is written, UNCORRECTABLE is set and the core stops (R215). -/
def State.sfuError (s : State) (k n : Nat) : State :=
  (s.updCore k (fun c => { c with sfu := { c.sfu with status := c.sfu.status ||| 2 } })).coreFailed k 0x0304
    (if n < 64 then 0xFF else n - 64)

/-- SFU vD, vA, IMM: every lane, predicated as a whole (R191). With four instructions in the queue behind the one in execution it waits at
issue (R183, R193); `run.full` says so. A microprogram that reads W before writing it takes a free
value (DESIGN CHOICE, log 2). -/
def execSfu (k : Nat) (w : VWord) (run : SfuRun) (s : State) : Answer :=
  issueUnit k w (fun s c =>
    if run.full then .wait s else
    let n := w.imm.toNat % 128
    match s.sfuFunction k n (sfuFormat w.g) with
    | none => .done s
    | some (f, clocks) =>
      if run.ecc = .uncorrectable then .ended (s.sfuError k n) else
        let s1 := s.updCore k (fun c => { c with sfu := { c.sfu with
          status := if run.ecc = .corrected then c.sfu.status ||| 1 else c.sfu.status
          ops := c.sfu.ops + 1
          busy := c.sfu.busy + BitVec.ofNat 64 clocks } })
        let s2 := s1.writeLanes k (unmasked w) (fun i =>
          let r := f (laneValue (sfuFormat w.f) (c.vec.lane w.a i))
          (BitVec.ofNat 32 r.1, r.2))
        .done (if n < 64 then s2 else s2.tookFree)) s

end Sys2Proof.Machine
end

