-- ==== Sys2Proof/Machine/SheafCmds.lean ====
section
/-!
DEFINITION. The commands that end a hold of input regions (spec 04): a clip count, and a winnow row done.
-/

namespace Sys2Proof.Machine

/-- CLIP_COUNT: a count replaces any earlier one for its position; the last one in brings the verdict (R112, R115). A
verdict is never taken again; writes that stalled on the layer's inputs go on where it ends the hold (R117). -/
def execClipCount (cluster sheaf pos layer count : Nat) (s : State) : Answer :=
  onCluster cluster s (fun s =>
    if (s.cluster cluster).verdict sheaf layer ≠ 0 then .next s
    else .next (((s.updRecord cluster sheaf (fun r => { r with counts := Tbl.set 0 r.counts (layer * 128 + pos % 128) (count + 1) })).takeVerdict
      cluster sheaf layer).pumpStalled cluster))

/-- WINNOW_ROW_DONE: the row at the head of the queue is rotated, scaled, quantised and written (R104 to R113). The bin
accesses are checked as the core's own; a write of codes or of the scale to a held region stalls, and writes that stalled go on where the row
ends a hold (R117). A descriptor that names no layer of the plan
writes nothing (DESIGN CHOICE, log 13); a full pre-emption abandons the row in progress (R120). -/
def execWinnowRowDone (k : Nat) (ecc : Ecc) (s : State) : Answer :=
  onCore k s (fun s =>
    let c := s.core k
    if c.phase = .quiesce ∨ c.phase = .saving ∨ c.phase = .resuming then .next s else
    match c.winnow.queue with
    | [] => .next s
    | d :: _ =>
      match s.clusterPlan (clusterOf k), s.layerAt (clusterOf k) d.layer with
      | some plan, some l =>
        let f := l.actFmt d.wide
        let n := l.k * d.input.bits / 8
        match s.coreLoad k d.inAddr n false ecc with
        | (s1, none) => .next s1
        | (s1, some bs) =>
          let x := (unpackElements d.input bs l.k).map (fun e =>
            (convert d.input { codebook := [], scale := 0x3C00, zeroPoint := 0 } .b32 { codebook := [], scale := 0x3C00, zeroPoint := 0 } .rne 0 e).1)
          let book := bookOf .bg4 { codebook := plan.codebookOf .bg4 l.aCodebook, scale := 0x3C00, zeroPoint := 0 }
          let r := winnowRow l plan.signVectors book (s1.aqPair l) d.wide d.pos x
          let codes := packElements f r.codes
          match s1.binCheck k d.outAddr codes.length true false, r.scale.isNone || (s1.binCheck k d.scaleAddr 2 true false).isSome with
          | some (pl, _), true =>
            if s1.heldInput k pl codes.length || (r.scale.isSome && s1.destHeld k [d.scaleAddr] 2) then .next s else
              let counted := if d.wide ∨ (s1.cluster (c.home k)).verdict d.sheaf d.layer ≠ 0 then 0 else r.clips
              let s2 := s1.binWrite k pl codes
              let s3 := match r.scale, binPlace d.scaleAddr with
                | some v, some sp => s2.binWrite k sp (natLE 2 v)
                | _, _ => s2
              .next (((s3.winnowRetire k r counted).winnowReport k d r).pumpStalled (c.home k))
          | none, _ => .next (s1.binFault k d.outAddr)
          | _, false => .next (s1.binFault k d.scaleAddr)
      | _, _ => .next (s.updCore k (fun c => { c with winnow := { c.winnow with queue := c.winnow.queue.drop 1 } })))

end Sys2Proof.Machine
end

