-- ==== Sys2Proof/Machine/Dispatch.lean ====
section
/-!
DEFINITION. The dispatch: one arm for each command, each a direct call of its meaning.
-/

namespace Sys2Proof.Machine

/-- The effect of a command on everything but the queue of waiting commands. -/
def exec (i : Instr) (s : State) : Host.Outcome State Fault Refusal :=
  match i with
  | .registerWrite f off words narrow => Sys2Proof.Machine.execRegisterWrite f off words narrow s
  | .pairLoRead f off => Sys2Proof.Machine.execPairLoRead f off s
  | .pairHiWrite f off value => Sys2Proof.Machine.execPairHiWrite f off value s
  | .d2dFlitReceive l d seq crcOk payload => Sys2Proof.Machine.execD2dFlitReceive l d seq crcOk payload s
  | .d2dModuleFail l module => Sys2Proof.Machine.execD2dModuleFail l module s
  | .partitionDefine f => Sys2Proof.Machine.execPartitionDefine f s
  | .partitionScrubDone p => Sys2Proof.Machine.execPartitionScrubDone p s
  | .planLoad f => Sys2Proof.Machine.execPlanLoad f s
  | .loadStart => Sys2Proof.Machine.execLoadStart s
  | .loadDecide => Sys2Proof.Machine.execLoadDecide s
  | .loadInstallDone p => Sys2Proof.Machine.execLoadInstallDone p s
  | .planSwitch p => Sys2Proof.Machine.execPlanSwitch p s
  | .planUnload f => Sys2Proof.Machine.execPlanUnload f s
  | .unloadComplete p => Sys2Proof.Machine.execUnloadComplete p s
  | .winnowRowDone k ecc => Sys2Proof.Machine.execWinnowRowDone k ecc s
  | .clipCount cluster sheaf pos layer count => Sys2Proof.Machine.execClipCount cluster sheaf pos layer count s
  | .tileIssue k block ecc => Sys2Proof.Machine.execTileIssue k block ecc s
  | .gridRowWrite k upset => Sys2Proof.Machine.execGridRowWrite k upset s
  | .gridAbort k => Sys2Proof.Machine.execGridAbort k s
  | .rowArrive cluster part ctx stage row input => Sys2Proof.Machine.execRowArrive cluster part ctx stage row input s
  | .sheafTimer cluster ctx stage => Sys2Proof.Machine.execSheafTimer cluster ctx stage s
  | .itemRetire k => Sys2Proof.Machine.execItemRetire k s
  | .sequencerAbort cluster ctx queue => Sys2Proof.Machine.execSequencerAbort cluster ctx queue s
  | .coreAbort k => Sys2Proof.Machine.execCoreAbort k s
  | .stealRequest thief asked => Sys2Proof.Machine.execStealRequest thief asked s
  | .stealCopyDone thief => Sys2Proof.Machine.execStealCopyDone thief s
  | .nop k w => Sys2Proof.Machine.execNop k w s
  | .sli k w => Sys2Proof.Machine.execSli k w s
  | .slui k w => Sys2Proof.Machine.execSlui k w s
  | .sadd k w => Sys2Proof.Machine.execSadd k w s
  | .ssub k w => Sys2Proof.Machine.execSsub k w s
  | .saddi k w => Sys2Proof.Machine.execSaddi k w s
  | .smul k w => Sys2Proof.Machine.execSmul k w s
  | .sand k w => Sys2Proof.Machine.execSand k w s
  | .sor k w => Sys2Proof.Machine.execSor k w s
  | .sxor k w => Sys2Proof.Machine.execSxor k w s
  | .sshl k w => Sys2Proof.Machine.execSshl k w s
  | .sshr k w => Sys2Proof.Machine.execSshr k w s
  | .ssra k w => Sys2Proof.Machine.execSsra k w s
  | .sld k w ecc => Sys2Proof.Machine.execSld k w ecc s
  | .sst k w => Sys2Proof.Machine.execSst k w s
  | .loopOpen k w => Sys2Proof.Machine.execLoopOpen k w s
  | .loopClose k w => Sys2Proof.Machine.execLoopClose k w s
  | .coreEnd k w => Sys2Proof.Machine.execCoreEnd k w s
  | .fence k w => Sys2Proof.Machine.execFence k w s
  | .seed k w => Sys2Proof.Machine.execSeed k w s
  | .vrdt k w => Sys2Proof.Machine.execVrdt k w s
  | .vadd k w => Sys2Proof.Machine.execVadd k w s
  | .vsub k w => Sys2Proof.Machine.execVsub k w s
  | .vmul k w => Sys2Proof.Machine.execVmul k w s
  | .vfma k w => Sys2Proof.Machine.execVfma k w s
  | .vmin k w => Sys2Proof.Machine.execVmin k w s
  | .vmax k w => Sys2Proof.Machine.execVmax k w s
  | .vabs k w => Sys2Proof.Machine.execVabs k w s
  | .vneg k w => Sys2Proof.Machine.execVneg k w s
  | .vand k w => Sys2Proof.Machine.execVand k w s
  | .vor k w => Sys2Proof.Machine.execVor k w s
  | .vxor k w => Sys2Proof.Machine.execVxor k w s
  | .vshl k w => Sys2Proof.Machine.execVshl k w s
  | .vshr k w => Sys2Proof.Machine.execVshr k w s
  | .vsra k w => Sys2Proof.Machine.execVsra k w s
  | .vsel k w => Sys2Proof.Machine.execVsel k w s
  | .vcvt k w => Sys2Proof.Machine.execVcvt k w s
  | .vbcast k w => Sys2Proof.Machine.execVbcast k w s
  | .viota k w => Sys2Proof.Machine.execViota k w s
  | .vext k w => Sys2Proof.Machine.execVext k w s
  | .vcmp k w => Sys2Proof.Machine.execVcmp k w s
  | .vrsum k w => Sys2Proof.Machine.execVrsum k w s
  | .vrmax k w => Sys2Proof.Machine.execVrmax k w s
  | .vrmin k w => Sys2Proof.Machine.execVrmin k w s
  | .vrev k w => Sys2Proof.Machine.execVrev k w s
  | .vrot k w => Sys2Proof.Machine.execVrot k w s
  | .vperm k w => Sys2Proof.Machine.execVperm k w s
  | .vxcmp k w => Sys2Proof.Machine.execVxcmp k w s
  | .vxchg k w => Sys2Proof.Machine.execVxchg k w s
  | .mand k w => Sys2Proof.Machine.execMand k w s
  | .mor k w => Sys2Proof.Machine.execMor k w s
  | .mxor k w => Sys2Proof.Machine.execMxor k w s
  | .mandn k w => Sys2Proof.Machine.execMandn k w s
  | .mnot k w => Sys2Proof.Machine.execMnot k w s
  | .mfill k w => Sys2Proof.Machine.execMfill k w s
  | .mpop k w => Sys2Proof.Machine.execMpop k w s
  | .mfirst k w => Sys2Proof.Machine.execMfirst k w s
  | .vflg k w => Sys2Proof.Machine.execVflg k w s
  | .vfclr k w => Sys2Proof.Machine.execVfclr k w s
  | .vld k w ecc => Sys2Proof.Machine.execVld k w ecc s
  | .vst k w => Sys2Proof.Machine.execVst k w s
  | .vgth k w ecc => Sys2Proof.Machine.execVgth k w ecc s
  | .gtile k w ecc => Sys2Proof.Machine.execGtile k w ecc s
  | .gwait k w => Sys2Proof.Machine.execGwait k w s
  | .wnw k w ecc => Sys2Proof.Machine.execWnw k w ecc s
  | .wwait k w => Sys2Proof.Machine.execWwait k w s
  | .sfu k w ecc => Sys2Proof.Machine.execSfu k w ecc s
  | .rowput k w ecc => Sys2Proof.Machine.execRowput k w ecc s
  | .sflush k w => Sys2Proof.Machine.execSflush k w s
  | .dmaq k w ecc => Sys2Proof.Machine.execDmaq k w ecc s
  | .dmark k w => Sys2Proof.Machine.execDmark k w s
  | .dmaCopy c q ecc => Sys2Proof.Machine.execDmaCopy c q ecc s
  | .dmaRequest c q ecc => Sys2Proof.Machine.execDmaRequest c q ecc s
  | .dmaLookup c q => Sys2Proof.Machine.execDmaLookup c q s
  | .dmaPromote c q => Sys2Proof.Machine.execDmaPromote c q s
  | .dmaDemote c q => Sys2Proof.Machine.execDmaDemote c q s
  | .dmaAbort c ctx tag mask cause => Sys2Proof.Machine.execDmaAbort c ctx tag mask cause s
  | .recordReceive k g m => Sys2Proof.Machine.execRecordReceive k g m s
  | .endRecordReceive k g m => Sys2Proof.Machine.execEndRecordReceive k g m s
  | .tableWrite q seq => Sys2Proof.Machine.execTableWrite q seq s
  | .epochAdvance q seq => Sys2Proof.Machine.execEpochAdvance q seq s
  | .epochDistribute g p table epoch pins => Sys2Proof.Machine.execEpochDistribute g p table epoch pins s
  | .epochAck g p table => Sys2Proof.Machine.execEpochAck g p table s
  | .tablePin q seq => Sys2Proof.Machine.execTablePin q seq s
  | .tableUnpin q seq => Sys2Proof.Machine.execTableUnpin q seq s
  | .pinSetUpdate g p table epochs => Sys2Proof.Machine.execPinSetUpdate g p table epochs s
  | .loadWindow g => Sys2Proof.Machine.execLoadWindow g s
  | .migrate q seq => Sys2Proof.Machine.execMigrate q seq s
  | .migrationCopy g source tk row slot first => Sys2Proof.Machine.execMigrationCopy g source tk row slot first s
  | .migrationCopyAck g tk row => Sys2Proof.Machine.execMigrationCopyAck g tk row s
  | .forwardStart g tk row => Sys2Proof.Machine.execForwardStart g tk row s
  | .moveUpdate k tk row dest source => Sys2Proof.Machine.execMoveUpdate k tk row dest source s
  | .moveMarker g tk row k => Sys2Proof.Machine.execMoveMarker g tk row k s
  | .moveMarkerForward g tk row k => Sys2Proof.Machine.execMoveMarkerForward g tk row k s
  | .replicate q seq => Sys2Proof.Machine.execReplicate q seq s
  | .replicaRefresh g tk row slot => Sys2Proof.Machine.execReplicaRefresh g tk row slot s
  | .stubbleRefresh g tk row slot => Sys2Proof.Machine.execStubbleRefresh g tk row slot s
  | .rawRead g r => Sys2Proof.Machine.execRawRead g r s
  | .rawWrite g r => Sys2Proof.Machine.execRawWrite g r s
  | .rowRead g r => Sys2Proof.Machine.execRowRead g r s
  | .rowWrite g r => Sys2Proof.Machine.execRowWrite g r s
  | .rowAdd g r ecc => Sys2Proof.Machine.execRowAdd g r ecc s
  | .rowCas g r ecc => Sys2Proof.Machine.execRowCas g r ecc s
  | .invoke g r => Sys2Proof.Machine.execInvoke g r s
  | .reservedRequestKind g r => Sys2Proof.Machine.execReservedRequestKind g r s
  | .threadStart g => Sys2Proof.Machine.execThreadStart g s
  | .glnNop g t w => Sys2Proof.Machine.execGlnNop g t w s
  | .glnSli g t w => Sys2Proof.Machine.execGlnSli g t w s
  | .glnSlui g t w => Sys2Proof.Machine.execGlnSlui g t w s
  | .glnSadd g t w => Sys2Proof.Machine.execGlnSadd g t w s
  | .glnSsub g t w => Sys2Proof.Machine.execGlnSsub g t w s
  | .glnSaddi g t w => Sys2Proof.Machine.execGlnSaddi g t w s
  | .glnSmul g t w => Sys2Proof.Machine.execGlnSmul g t w s
  | .smulh g t w => Sys2Proof.Machine.execSmulh g t w s
  | .glnSand g t w => Sys2Proof.Machine.execGlnSand g t w s
  | .glnSor g t w => Sys2Proof.Machine.execGlnSor g t w s
  | .glnSxor g t w => Sys2Proof.Machine.execGlnSxor g t w s
  | .glnSshl g t w => Sys2Proof.Machine.execGlnSshl g t w s
  | .glnSshr g t w => Sys2Proof.Machine.execGlnSshr g t w s
  | .sarg g t w => Sys2Proof.Machine.execSarg g t w s
  | .glnLoop g t w => Sys2Proof.Machine.execGlnLoop g t w s
  | .glnEndloop g t w => Sys2Proof.Machine.execGlnEndloop g t w s
  | .glnEnd g t w => Sys2Proof.Machine.execGlnEnd g t w s
  | .hash g t w => Sys2Proof.Machine.execHash g t w s
  | .gpool g t w => Sys2Proof.Machine.execGpool g t w s
  | .dot g t w => Sys2Proof.Machine.execDot g t w s
  | .expacc g t w => Sys2Proof.Machine.execExpacc g t w s
  | .vop g t w => Sys2Proof.Machine.execVop g t w s
  | .addm g t w ecc => Sys2Proof.Machine.execAddm g t w ecc s
  | .casm g t w ecc => Sys2Proof.Machine.execCasm g t w ecc s
  | .emit g t w => Sys2Proof.Machine.execEmit g t w s
  | .emits g t w => Sys2Proof.Machine.execEmits g t w s
  | .wrow g t w => Sys2Proof.Machine.execWrow g t w s
  | .gpoolRowArrive g t n ecc => Sys2Proof.Machine.execGpoolRowArrive g t n ecc s
  | .glnEndRetire g t => Sys2Proof.Machine.execGlnEndRetire g t s
  | .requestOverrun g t => Sys2Proof.Machine.execRequestOverrun g t s
  | .tagWrite g first count word ctx => Sys2Proof.Machine.execTagWrite g first count word ctx s
  | .tagWriteDrained g => Sys2Proof.Machine.execTagWriteDrained g s
  | .gleanerAbort g ctx requester value mask cause => Sys2Proof.Machine.execGleanerAbort g ctx requester value mask cause s
  | .baleFlip ctx seg bale => Sys2Proof.Machine.execBaleFlip ctx seg bale s
  | .baleDrainMarker ctx seg bale => Sys2Proof.Machine.execBaleDrainMarker ctx seg bale s
  | .loftDeadline g t => Sys2Proof.Machine.execLoftDeadline g t s
  | .stubbleRowArrive g t n ecc => Sys2Proof.Machine.execStubbleRowArrive g t n ecc s
  | .patrolRead g ecc => Sys2Proof.Machine.execPatrolRead g ecc s
  | .poisonRecheck g bale => Sys2Proof.Machine.execPoisonRecheck g bale s
  | .mirrorReadReturn g t n ecc => Sys2Proof.Machine.execMirrorReadReturn g t n ecc s
  | .evacuateBale stack => Sys2Proof.Machine.execEvacuateBale stack s
  | .segWrite f => Sys2Proof.Machine.execSegWrite f s
  | .segDrain f => Sys2Proof.Machine.execSegDrain f s
  | .windowWrite f => Sys2Proof.Machine.execWindowWrite f s
  | .xltCopyUpdate n c => Sys2Proof.Machine.execXltCopyUpdate n c s
  | .xltCopyAck n c => Sys2Proof.Machine.execXltCopyAck n c s
  | .subscriberAck g c => Sys2Proof.Machine.execSubscriberAck g c s
  | .stationTagAck n c => Sys2Proof.Machine.execStationTagAck n c s
  | .xltSegSelect f value => Sys2Proof.Machine.execXltSegSelect f value s
  | .perstAssert q => Sys2Proof.Machine.execPerstAssert q s
  | .perstDeassert q clksel => Sys2Proof.Machine.execPerstDeassert q clksel s
  | .hotReset q => Sys2Proof.Machine.execHotReset q s
  | .pcieLinkDown q => Sys2Proof.Machine.execPcieLinkDown q s
  | .pcieRetrainTimeout q => Sys2Proof.Machine.execPcieRetrainTimeout q s
  | .flr f => Sys2Proof.Machine.execFlr f s
  | .busMasterDisable f => Sys2Proof.Machine.execBusMasterDisable f s
  | .d3hotEntry f => Sys2Proof.Machine.execD3hotEntry f s
  | .memSpaceEnable f => Sys2Proof.Machine.execMemSpaceEnable f s
  | .bar2Resize f size => Sys2Proof.Machine.execBar2Resize f size s
  | .heartbeatTimeout a => Sys2Proof.Machine.execHeartbeatTimeout a s
  | .heartbeatBeat f a => Sys2Proof.Machine.execHeartbeatBeat f a s
  | .hostDetach f a => Sys2Proof.Machine.execHostDetach f a s
  | .attachNew f => Sys2Proof.Machine.execAttachNew f s
  | .attachResume f a => Sys2Proof.Machine.execAttachResume f a s
  | .attachAdopt f a => Sys2Proof.Machine.execAttachAdopt f a s
  | .attachReplay f => Sys2Proof.Machine.execAttachReplay f s
  | .attachLockoutExpire a => Sys2Proof.Machine.execAttachLockoutExpire a s
  | .journalEmpty a => Sys2Proof.Machine.execJournalEmpty a s
  | .credRead f a word => Sys2Proof.Machine.execCredRead f a word s
  | .cstopResume f q => Sys2Proof.Machine.execCstopResume f q s
  | .bar2Write f offset requester bytes => Sys2Proof.Machine.execBar2Write f offset requester bytes s
  | .bar2Read f offset requester len => Sys2Proof.Machine.execBar2Read f offset requester len s
  | .doorbell f q tail cqHead => Sys2Proof.Machine.execDoorbell f q tail cqHead s
  | .checkReadComplete q ok => Sys2Proof.Machine.execCheckReadComplete q ok s
  | .checkReadTimeout q => Sys2Proof.Machine.execCheckReadTimeout q s
  | .slotMap f => Sys2Proof.Machine.execSlotMap f s
  | .handleSet f => Sys2Proof.Machine.execHandleSet f s
  | .queueCreate f => Sys2Proof.Machine.execQueueCreate f s
  | .queueDestroy f => Sys2Proof.Machine.execQueueDestroy f s
  | .queueDestroyFinal q => Sys2Proof.Machine.execQueueDestroyFinal q s
  | .adminDoorbell f tail => Sys2Proof.Machine.execAdminDoorbell f tail s
  | .commandFetch q => Sys2Proof.Machine.execCommandFetch q s
  | .sealRecheck q => Sys2Proof.Machine.execSealRecheck q s
  | .commandDispatch q => Sys2Proof.Machine.execCommandDispatch q s
  | .cmdNop q seq => Sys2Proof.Machine.execCmdNop q seq s
  | .run q seq => Sys2Proof.Machine.execRun q seq s
  | .semSet q seq => Sys2Proof.Machine.execSemSet q seq s
  | .semSelect f n => Sys2Proof.Machine.execSemSelect f n s
  | .workEndNotice tag marks code ended released => Sys2Proof.Machine.execWorkEndNotice tag marks code ended released s
  | .completionRecordIssue q => Sys2Proof.Machine.execCompletionRecordIssue q s
  | .priorityUpdate p => Sys2Proof.Machine.execPriorityUpdate p s
  | .preemptCheck c => Sys2Proof.Machine.execPreemptCheck c s
  | .preemptQuiesceDone k => Sys2Proof.Machine.execPreemptQuiesceDone k s
  | .preemptSaveDone k => Sys2Proof.Machine.execPreemptSaveDone k s
  | .resumeDone k => Sys2Proof.Machine.execResumeDone k s
  | .energyCommit measured idle pending => Sys2Proof.Machine.execEnergyCommit measured idle pending s
  | .accSnap => Sys2Proof.Machine.execAccSnap s
  | .portModeWrite f p value => Sys2Proof.Machine.execPortModeWrite f p value s
  | .ethLinkDown p half => Sys2Proof.Machine.execEthLinkDown p half s
  | .ethLinkUp p half => Sys2Proof.Machine.execEthLinkUp p half s
  | .ethFrameReceive p half fcs corrected uncorrected frame => Sys2Proof.Machine.execEthFrameReceive p half fcs corrected uncorrected frame s
  | .pfcFrame p half enabled times => Sys2Proof.Machine.execPfcFrame p half enabled times s
  | .remoteWrite p half frame => Sys2Proof.Machine.execRemoteWrite p half frame s
  | .remoteRead p half frame => Sys2Proof.Machine.execRemoteRead p half frame s
  | .remoteRowRead p half frame => Sys2Proof.Machine.execRemoteRowRead p half frame s
  | .remoteRowWrite p half frame => Sys2Proof.Machine.execRemoteRowWrite p half frame s
  | .remoteRowAdd p half frame => Sys2Proof.Machine.execRemoteRowAdd p half frame s
  | .remoteRowCas p half frame => Sys2Proof.Machine.execRemoteRowCas p half frame s
  | .remoteInvoke p half frame => Sys2Proof.Machine.execRemoteInvoke p half frame s
  | .remoteResp p half frame => Sys2Proof.Machine.execRemoteResp p half frame s
  | .igrumAck p half frame => Sys2Proof.Machine.execIgrumAck p half frame s
  | .igrumNak p half frame => Sys2Proof.Machine.execIgrumNak p half frame s
  | .igrumProbe p half frame => Sys2Proof.Machine.execIgrumProbe p half frame s
  | .igrumProbeReply p half frame => Sys2Proof.Machine.execIgrumProbeReply p half frame s
  | .ackTimer k vc => Sys2Proof.Machine.execAckTimer k vc s
  | .retxTimer k vc => Sys2Proof.Machine.execRetxTimer k vc s
  | .probeTimeout k => Sys2Proof.Machine.execProbeTimeout k s
  | .pathProbeTimer k path => Sys2Proof.Machine.execPathProbeTimer k path s
  | .pacingTimer k vc => Sys2Proof.Machine.execPacingTimer k vc s
  | .rxReservationRelease k vc p half => Sys2Proof.Machine.execRxReservationRelease k vc p half s
  | .sendRingPoll n => Sys2Proof.Machine.execSendRingPoll n s
  | .sendOperation k vc => Sys2Proof.Machine.execSendOperation k vc s
  | .igtEntryRead f value => Sys2Proof.Machine.execIgtEntryRead f value s
  | .igtEntryWrite f value => Sys2Proof.Machine.execIgtEntryWrite f value s
  | .faultReport r => Sys2Proof.Machine.execFaultReport r s
  | .mergeWindowExpire e => Sys2Proof.Machine.execMergeWindowExpire e s
  | .fltTailWrite f v => Sys2Proof.Machine.execFltTailWrite f v s
  | .fltTeardown f c => Sys2Proof.Machine.execFltTeardown f c s
  | .teardownComplete c => Sys2Proof.Machine.execTeardownComplete c s
  | .progressSample e => Sys2Proof.Machine.execProgressSample e s
  | .captureDone slot written => Sys2Proof.Machine.execCaptureDone slot written s
  | .unitResetDone unitKind unit passed => Sys2Proof.Machine.execUnitResetDone unitKind unit passed s
  | .diePllLoss die => Sys2Proof.Machine.execDiePllLoss die s
  | .warmResetDone die => Sys2Proof.Machine.execWarmResetDone die s
  | .engineHeartbeatTimeout e => Sys2Proof.Machine.execEngineHeartbeatTimeout e s
  | .recoveryStart e => Sys2Proof.Machine.execRecoveryStart e s
  | .coreLockstep k index => Sys2Proof.Machine.execCoreLockstep k index s
  | .clusterLockstep c => Sys2Proof.Machine.execClusterLockstep c s
  | .clusterSelftestDone c failedCopy => Sys2Proof.Machine.execClusterSelftestDone c failedCopy s
  | .columnDiagnosis k => Sys2Proof.Machine.execColumnDiagnosis k s
  | .diagnosisDone k differ repairOk => Sys2Proof.Machine.execDiagnosisDone k differ repairOk s
  | .harrowDue k => Sys2Proof.Machine.execHarrowDue k s
  | .harrowStart k => Sys2Proof.Machine.execHarrowStart k s
  | .harrowDeferExpire k => Sys2Proof.Machine.execHarrowDeferExpire k s
  | .harrowComplete k failure differ repairOk => Sys2Proof.Machine.execHarrowComplete k failure differ repairOk s
  | .historyWriteDone entry => Sys2Proof.Machine.execHistoryWriteDone entry s
  | .serviceTimeTick => Sys2Proof.Machine.execServiceTimeTick s
  | .histSelect f n => Sys2Proof.Machine.execHistSelect f n s
  | .trafficTestDone g errors => Sys2Proof.Machine.execTrafficTestDone g errors s
  | .reeveTakeover => Sys2Proof.Machine.execReeveTakeover s
  | .reeveRestart => Sys2Proof.Machine.execReeveRestart s
  | .keyEnroll ep msg => Sys2Proof.Machine.execKeyEnroll ep msg s
  | .keyRevoke ep msg => Sys2Proof.Machine.execKeyRevoke ep msg s
  | .stackRepair ep msg g rows resources passed => Sys2Proof.Machine.execStackRepair ep msg g rows resources passed s
  | .historyClear ep msg => Sys2Proof.Machine.execHistoryClear ep msg s
  | .testStart ep msg => Sys2Proof.Machine.execTestStart ep msg s
  | .imagePrefer ep msg => Sys2Proof.Machine.execImagePrefer ep msg s
  | .debugUnlock ep msg => Sys2Proof.Machine.execDebugUnlock ep msg s
  | .debugLockBlow ep msg => Sys2Proof.Machine.execDebugLockBlow ep msg s
  | .getNonce ep => Sys2Proof.Machine.execGetNonce ep s
  | .mgmtRead ep kind index off words => Sys2Proof.Machine.execMgmtRead ep kind index off words s
  | .mgmtReset ep die => Sys2Proof.Machine.execMgmtReset ep die s
  | .mgmtCap ep cap ceiling0 ceiling1 => Sys2Proof.Machine.execMgmtCap ep cap ceiling0 ceiling1 s
  | .nonceExpire ep => Sys2Proof.Machine.execNonceExpire ep s
  | .powerOn => Sys2Proof.Machine.execPowerOn s
  | .imageVerifyDone => Sys2Proof.Machine.execImageVerifyDone s
  | .hbmTrainingDone failed => Sys2Proof.Machine.execHbmTrainingDone failed s
  | .lpddrTrainingDone failed => Sys2Proof.Machine.execLpddrTrainingDone failed s
  | .bistDone cores clusters rows => Sys2Proof.Machine.execBistDone cores clusters rows s
  | .powerLoopTick power average volts watts0 watts1 temps => Sys2Proof.Machine.execPowerLoopTick power average volts watts0 watts1 temps s
  | .clockStepDone d => Sys2Proof.Machine.execClockStepDone d s
  | .currentLimitTrip d => Sys2Proof.Machine.execCurrentLimitTrip d s
  | .thermalTrip n => Sys2Proof.Machine.execThermalTrip n s
  | .inputDip => Sys2Proof.Machine.execInputDip s
  | .dipTimeout => Sys2Proof.Machine.execDipTimeout s
  | .inputCollapse => Sys2Proof.Machine.execInputCollapse s
  | .powerLoss => Sys2Proof.Machine.execPowerLoss s
  | .mctpControl binding command data => Sys2Proof.Machine.execMctpControl binding command data s
  | .pldmGetSensor ep n => Sys2Proof.Machine.execPldmGetSensor ep n s
  | .pldmSetEffecter ep n value => Sys2Proof.Machine.execPldmSetEffecter ep n value s
  | .pldmFwTransfer ep overSmbus image => Sys2Proof.Machine.execPldmFwTransfer ep overSmbus image s
  | .pldmActivateFirmware ep overSmbus => Sys2Proof.Machine.execPldmActivateFirmware ep overSmbus s
  | .activationStep => Sys2Proof.Machine.execActivationStep s
  | .microcodeRollStep => Sys2Proof.Machine.execMicrocodeRollStep s
  | .microcodeLoad failed => Sys2Proof.Machine.execMicrocodeLoad failed s
  | .tapInstruction n => Sys2Proof.Machine.execTapInstruction n s
  | .tapReset => Sys2Proof.Machine.execTapReset s
  | .accessClear f value => Sys2Proof.Machine.execAccessClear f value s
  | .intCtlWrite f value => Sys2Proof.Machine.execIntCtlWrite f value s
  | .channelAccessComplete g n ecc => Sys2Proof.Machine.execChannelAccessComplete g n ecc s
  | .pcieLinkRetrain q => Sys2Proof.Machine.execPcieLinkRetrain q s
  | .pcieLinkL0 q => Sys2Proof.Machine.execPcieLinkL0 q s
  | .tlpAcknowledge a n => Sys2Proof.Machine.execTlpAcknowledge a n s
  | .inputRestored => Sys2Proof.Machine.execInputRestored s
  | .pwrGoodRise => Sys2Proof.Machine.execPwrGoodRise s
  | .diePowerUpDone absent => Sys2Proof.Machine.execDiePowerUpDone absent s
  | .replicaWithdrawMarker g tk row k => Sys2Proof.Machine.execReplicaWithdrawMarker g tk row k s
  | .windowDrainAck e c => Sys2Proof.Machine.execWindowDrainAck e c s
  | .thresholdCrossing n => Sys2Proof.Machine.execThresholdCrossing n s
  | .pfcPauseExpire p half priority => Sys2Proof.Machine.execPfcPauseExpire p half priority s
  | .interfaceRetrainingStart p => Sys2Proof.Machine.execInterfaceRetrainingStart p s
  | .interfaceRetrainingDone p => Sys2Proof.Machine.execInterfaceRetrainingDone p s

end Sys2Proof.Machine
end

