-- ==== Sys2Proof/Machine/Idle.lean ====
section
/-!
DEFINITION. What a step does when no command waits: the device time advances (R601; DESIGN CHOICE, log 1).
-/

namespace Sys2Proof.Machine

/-- One tick of DEV_TIME, which counts nanoseconds since cold reset (R601), after which the interrupt summary is observed (R605; DEDUCED, log 58).
Nothing else moves: every timed event of the spec is a command of the operation table. -/
def idle (s : State) : State := { s with devTime := (s.devTime + 1) % 2 ^ 64 }.settleInts

end Sys2Proof.Machine
end

