-- ==== Sys2Proof/WellFormed.lean ====
section
/-!
DEFINITION. Well-formed commands: those that name only units that the device has (R6, R25, R36, R381, R402, R463, R490). Every other one is
answered with the fault `noSuchUnit`.
-/

namespace Sys2Proof

/-- Whether a command names only units that the device has. -/
def Instr.wellFormed (i : Instr) : Bool :=
  match i with
  | .winnowRowDone k _ => decide (k < 192)
  | .clipCount cluster _ _ _ _ => decide (cluster < 24)
  | .tileIssue k _ _ => decide (k < 192)
  | .gridRowWrite k _ => decide (k < 192)
  | .gridAbort k => decide (k < 192)
  | .rowArrive cluster _ _ _ _ _ => decide (cluster < 24)
  | .sheafTimer cluster _ _ => decide (cluster < 24)
  | .itemRetire k => decide (k < 192)
  | .sequencerAbort cluster _ _ => decide (cluster < 24)
  | .coreAbort k => decide (k < 192)
  | .stealRequest thief asked => decide (thief < 192) && decide (asked < 24)
  | .stealCopyDone thief => decide (thief < 192)
  | .nop k _ => decide (k < 192)
  | .sli k _ => decide (k < 192)
  | .slui k _ => decide (k < 192)
  | .sadd k _ => decide (k < 192)
  | .ssub k _ => decide (k < 192)
  | .saddi k _ => decide (k < 192)
  | .smul k _ => decide (k < 192)
  | .sand k _ => decide (k < 192)
  | .sor k _ => decide (k < 192)
  | .sxor k _ => decide (k < 192)
  | .sshl k _ => decide (k < 192)
  | .sshr k _ => decide (k < 192)
  | .ssra k _ => decide (k < 192)
  | .sld k _ _ => decide (k < 192)
  | .sst k _ => decide (k < 192)
  | .loopOpen k _ => decide (k < 192)
  | .loopClose k _ => decide (k < 192)
  | .coreEnd k _ => decide (k < 192)
  | .fence k _ => decide (k < 192)
  | .seed k _ => decide (k < 192)
  | .vrdt k _ => decide (k < 192)
  | .vadd k _ => decide (k < 192)
  | .vsub k _ => decide (k < 192)
  | .vmul k _ => decide (k < 192)
  | .vfma k _ => decide (k < 192)
  | .vmin k _ => decide (k < 192)
  | .vmax k _ => decide (k < 192)
  | .vabs k _ => decide (k < 192)
  | .vneg k _ => decide (k < 192)
  | .vand k _ => decide (k < 192)
  | .vor k _ => decide (k < 192)
  | .vxor k _ => decide (k < 192)
  | .vshl k _ => decide (k < 192)
  | .vshr k _ => decide (k < 192)
  | .vsra k _ => decide (k < 192)
  | .vsel k _ => decide (k < 192)
  | .vcvt k _ => decide (k < 192)
  | .vbcast k _ => decide (k < 192)
  | .viota k _ => decide (k < 192)
  | .vext k _ => decide (k < 192)
  | .vcmp k _ => decide (k < 192)
  | .vrsum k _ => decide (k < 192)
  | .vrmax k _ => decide (k < 192)
  | .vrmin k _ => decide (k < 192)
  | .vrev k _ => decide (k < 192)
  | .vrot k _ => decide (k < 192)
  | .vperm k _ => decide (k < 192)
  | .vxcmp k _ => decide (k < 192)
  | .vxchg k _ => decide (k < 192)
  | .mand k _ => decide (k < 192)
  | .mor k _ => decide (k < 192)
  | .mxor k _ => decide (k < 192)
  | .mandn k _ => decide (k < 192)
  | .mnot k _ => decide (k < 192)
  | .mfill k _ => decide (k < 192)
  | .mpop k _ => decide (k < 192)
  | .mfirst k _ => decide (k < 192)
  | .vflg k _ => decide (k < 192)
  | .vfclr k _ => decide (k < 192)
  | .vld k _ _ => decide (k < 192)
  | .vst k _ => decide (k < 192)
  | .vgth k _ _ => decide (k < 192)
  | .gtile k _ _ => decide (k < 192)
  | .gwait k _ => decide (k < 192)
  | .wnw k _ _ => decide (k < 192)
  | .wwait k _ => decide (k < 192)
  | .sfu k _ _ => decide (k < 192)
  | .rowput k _ _ => decide (k < 192)
  | .sflush k _ => decide (k < 192)
  | .dmaq k _ _ => decide (k < 192)
  | .dmark k _ => decide (k < 192)
  | .dmaCopy c _ _ => decide (c < 24)
  | .dmaRequest c _ _ => decide (c < 24)
  | .dmaLookup c _ => decide (c < 24)
  | .dmaPromote c _ => decide (c < 24)
  | .dmaDemote c _ => decide (c < 24)
  | .dmaAbort c _ _ _ _ => decide (c < 24)
  | .tableWrite q _ => decide (q < 1024)
  | .epochAdvance q _ => decide (q < 1024)
  | .tablePin q _ => decide (q < 1024)
  | .tableUnpin q _ => decide (q < 1024)
  | .migrate q _ => decide (q < 1024)
  | .replicate q _ => decide (q < 1024)
  | .epochDistribute g p _ _ _ => decide (g < 448) && decide (p < 8)
  | .epochAck g p _ => decide (g < 448) && decide (p < 8)
  | .pinSetUpdate g p _ _ => decide (g < 448) && decide (p < 8)
  | .loadWindow g => decide (g < 448)
  | .migrationCopy g _ _ _ _ _ => decide (g < 448)
  | .migrationCopyAck g _ _ => decide (g < 448)
  | .forwardStart g _ _ => decide (g < 448)
  | .moveUpdate k _ _ _ _ => decide (k < 28)
  | .moveMarker g _ _ _ => decide (g < 448)
  | .moveMarkerForward g _ _ _ => decide (g < 448)
  | .replicaRefresh g _ _ _ => decide (g < 448)
  | .stubbleRefresh g _ _ _ => decide (g < 448)
  | .replicaWithdrawMarker g _ _ _ => decide (g < 448)
  | .rawRead g _ => decide (g < 448)
  | .rawWrite g _ => decide (g < 448)
  | .rowRead g _ => decide (g < 448)
  | .rowWrite g _ => decide (g < 448)
  | .rowAdd g _ _ => decide (g < 448)
  | .rowCas g _ _ => decide (g < 448)
  | .invoke g _ => decide (g < 448)
  | .reservedRequestKind g _ => decide (g < 448)
  | .threadStart g => decide (g < 448)
  | .glnNop g _ _ => decide (g < 448)
  | .glnSli g _ _ => decide (g < 448)
  | .glnSlui g _ _ => decide (g < 448)
  | .glnSadd g _ _ => decide (g < 448)
  | .glnSsub g _ _ => decide (g < 448)
  | .glnSaddi g _ _ => decide (g < 448)
  | .glnSmul g _ _ => decide (g < 448)
  | .smulh g _ _ => decide (g < 448)
  | .glnSand g _ _ => decide (g < 448)
  | .glnSor g _ _ => decide (g < 448)
  | .glnSxor g _ _ => decide (g < 448)
  | .glnSshl g _ _ => decide (g < 448)
  | .glnSshr g _ _ => decide (g < 448)
  | .sarg g _ _ => decide (g < 448)
  | .glnLoop g _ _ => decide (g < 448)
  | .glnEndloop g _ _ => decide (g < 448)
  | .glnEnd g _ _ => decide (g < 448)
  | .hash g _ _ => decide (g < 448)
  | .gpool g _ _ => decide (g < 448)
  | .dot g _ _ => decide (g < 448)
  | .expacc g _ _ => decide (g < 448)
  | .vop g _ _ => decide (g < 448)
  | .emit g _ _ => decide (g < 448)
  | .emits g _ _ => decide (g < 448)
  | .wrow g _ _ => decide (g < 448)
  | .addm g _ _ _ => decide (g < 448)
  | .casm g _ _ _ => decide (g < 448)
  | .gpoolRowArrive g _ _ _ => decide (g < 448)
  | .glnEndRetire g _ => decide (g < 448)
  | .requestOverrun g _ => decide (g < 448)
  | .channelAccessComplete g _ _ => decide (g < 448)
  | .tagWrite g _ _ _ _ => decide (g < 448)
  | .tagWriteDrained g => decide (g < 448)
  | .gleanerAbort g _ _ _ _ _ => decide (g < 448)
  | .baleFlip _ _ _ => true
  | .baleDrainMarker _ _ _ => true
  | .loftDeadline g _ => decide (g < 448)
  | .stubbleRowArrive g _ _ _ => decide (g < 448)
  | .patrolRead g _ => decide (g < 448)
  | .poisonRecheck g _ => decide (g < 448)
  | .mirrorReadReturn g _ _ _ => decide (g < 448)
  | .evacuateBale stack => decide (stack < 12)
  | .interfaceRetrainingStart p => decide (p < 16)
  | .interfaceRetrainingDone p => decide (p < 16)
  | .memSpaceEnable f => decide (f < 32)
  | .bar2Resize f _ => decide (f < 32)
  | .perstAssert q => decide (q < 2)
  | .hotReset q => decide (q < 2)
  | .pcieLinkDown q => decide (q < 2)
  | .perstDeassert q _ => decide (q < 2)
  | .pcieLinkRetrain q => decide (q < 2)
  | .pcieLinkL0 q => decide (q < 2)
  | .pcieRetrainTimeout q => decide (q < 2)
  | .flr f => decide (f < 32)
  | .busMasterDisable f => decide (f < 32)
  | .d3hotEntry f => decide (f < 32)
  | .heartbeatTimeout a => decide (a < 32)
  | .heartbeatBeat f a => decide (f < 32) && decide (a < 32)
  | .hostDetach f a => decide (f < 32) && decide (a < 32)
  | .tlpAcknowledge a _ => decide (a < 32)
  | .attachNew f => decide (f < 32)
  | .attachResume f a => decide (f < 32) && decide (a < 32)
  | .attachAdopt f a => decide (f < 32) && decide (a < 32)
  | .attachReplay f => decide (f < 32)
  | .attachLockoutExpire a => decide (a < 32)
  | .journalEmpty a => decide (a < 32)
  | .credRead f a _ => decide (f < 32) && decide (a < 32)
  | .checkReadComplete q _ => decide (q < 1024)
  | .checkReadTimeout q => decide (q < 1024)
  | .cstopResume f q => decide (f < 32) && decide (q < 1024)
  | .bar2Write f _ _ _ => decide (f < 32)
  | .bar2Read f _ _ _ => decide (f < 32)
  | .slotMap f => decide (f < 32)
  | .handleSet f => decide (f < 32)
  | .doorbell f q _ _ => decide (f < 32) && decide (q < 1024)
  | .adminDoorbell f _ => decide (f < 32)
  | .commandFetch q => decide (q < 1056)
  | .sealRecheck q => decide (q < 1024)
  | .commandDispatch q => decide (q < 1024)
  | .cmdNop q _ => decide (q < 1024)
  | .semSet q _ => decide (q < 1024)
  | .semSelect f _ => decide (f < 32)
  | .run q _ => decide (q < 1024)
  | .workEndNotice _ _ _ _ _ => true
  | .completionRecordIssue q => decide (q < 1024)
  | .queueCreate f => decide (f < 32)
  | .queueDestroy f => decide (f < 32)
  | .queueDestroyFinal q => decide (q < 1024)
  | .segWrite f => decide (f < 32)
  | .segDrain f => decide (f < 32)
  | .windowWrite f => decide (f < 32)
  | .xltCopyUpdate n _ => decide (n < 30)
  | .xltCopyAck n _ => decide (n < 30)
  | .subscriberAck g _ => decide (g < 448)
  | .stationTagAck n _ => decide (n < 14)
  | .xltSegSelect f _ => decide (f ≤ 32)
  | .remoteWrite p _ _ => decide (p < 8)
  | .remoteRead p _ _ => decide (p < 8)
  | .remoteRowRead p _ _ => decide (p < 8)
  | .remoteRowWrite p _ _ => decide (p < 8)
  | .remoteRowAdd p _ _ => decide (p < 8)
  | .remoteRowCas p _ _ => decide (p < 8)
  | .remoteInvoke p _ _ => decide (p < 8)
  | .remoteResp p _ _ => decide (p < 8)
  | .igrumAck p _ _ => decide (p < 8)
  | .igrumNak p _ _ => decide (p < 8)
  | .igrumProbe p _ _ => decide (p < 8)
  | .igrumProbeReply p _ _ => decide (p < 8)
  | .portModeWrite f p _ => decide (f < 32) && decide (p < 8)
  | .ethLinkDown p _ => decide (p < 8)
  | .ethLinkUp p _ => decide (p < 8)
  | .ethFrameReceive p _ _ _ _ _ => decide (p < 8)
  | .pfcFrame p _ _ _ => decide (p < 8)
  | .pfcPauseExpire p _ _ => decide (p < 8)
  | .ackTimer k vc => decide (k < 128) && decide (vc < 8)
  | .retxTimer k vc => decide (k < 128) && decide (vc < 8)
  | .probeTimeout k => decide (k < 128)
  | .pathProbeTimer k _ => decide (k < 128)
  | .pacingTimer k vc => decide (k < 128) && decide (vc < 8)
  | .rxReservationRelease k vc _ _ => decide (k < 128) && decide (vc < 8)
  | .sendRingPoll n => decide (n < 128)
  | .sendOperation k vc => decide (k < 128) && decide (vc < 8)
  | .igtEntryRead f _ => decide (f < 32)
  | .igtEntryWrite f _ => decide (f < 32)
  | .windowDrainAck e _ => decide (e < 2)
  | .recordReceive _ g _ => decide (g < 448)
  | .endRecordReceive _ g _ => decide (g < 448)
  | .teardownComplete c => decide (c < 256)
  | .partitionDefine f => decide (f < 32)
  | .partitionScrubDone p => decide (p < 8)
  | .planLoad f => decide (f < 32)
  | .loadStart => true
  | .loadDecide => true
  | .loadInstallDone p => decide (p < 8)
  | .planSwitch p => decide (p < 8)
  | .planUnload f => decide (f < 32)
  | .unloadComplete p => decide (p < 8)
  | .priorityUpdate p => decide (p < 8)
  | .preemptCheck c => decide (c < 24)
  | .preemptQuiesceDone k => decide (k < 192)
  | .preemptSaveDone k => decide (k < 192)
  | .resumeDone k => decide (k < 192)
  | .energyCommit _ _ _ => true
  | .accSnap => true
  | .mergeWindowExpire e => decide (e < 2)
  | .faultReport _ => true
  | .fltTailWrite f _ => decide (f < 32)
  | .fltTeardown f _ => decide (f < 32)
  | .recoveryStart e => decide (e < 2)
  | .captureDone _ _ => true
  | .unitResetDone _ _ _ => true
  | .diePllLoss die => decide (die < 4)
  | .warmResetDone die => decide (die < 4)
  | .engineHeartbeatTimeout e => decide (e < 2)
  | .progressSample e => decide (e < 2)
  | .coreLockstep k _ => decide (k < 192)
  | .clusterLockstep c => decide (c < 24)
  | .clusterSelftestDone c _ => decide (c < 24)
  | .columnDiagnosis k => decide (k < 192)
  | .diagnosisDone k _ _ => decide (k < 192)
  | .harrowDue k => decide (k < 192)
  | .harrowStart k => decide (k < 192)
  | .harrowDeferExpire k => decide (k < 192)
  | .harrowComplete k _ _ _ => decide (k < 192)
  | .historyWriteDone _ => true
  | .serviceTimeTick => true
  | .histSelect f _ => decide (f < 32)
  | .trafficTestDone g _ => decide (g < 448)
  | .powerOn => true
  | .pwrGoodRise => true
  | .imageVerifyDone => true
  | .diePowerUpDone _ => true
  | .hbmTrainingDone _ => true
  | .lpddrTrainingDone _ => true
  | .bistDone _ _ _ => true
  | .powerLoopTick _ _ _ _ _ _ => true
  | .clockStepDone d => decide (d < 2)
  | .currentLimitTrip d => decide (d < 2)
  | .thermalTrip _ => true
  | .inputDip => true
  | .inputRestored => true
  | .dipTimeout => true
  | .inputCollapse => true
  | .powerLoss => true
  | .thresholdCrossing n => decide (n ≠ 0) && decide (n ≤ 34)
  | .reeveTakeover => true
  | .reeveRestart => true
  | .accessClear f _ => decide (f < 32)
  | .registerWrite f _ _ _ => decide (f < 32)
  | .pairHiWrite f _ _ => decide (f < 32)
  | .pairLoRead f _ => decide (f < 32)
  | .intCtlWrite f _ => decide (f < 32)
  | .d2dFlitReceive l d _ _ _ => decide (l < 15) && decide (d < 2)
  | .d2dModuleFail l _ => decide (l < 15)
  | .keyEnroll _ _ => true
  | .keyRevoke _ _ => true
  | .historyClear _ _ => true
  | .testStart _ _ => true
  | .stackRepair _ _ g _ _ _ => decide (g < 448)
  | .imagePrefer _ _ => true
  | .debugUnlock _ _ => true
  | .debugLockBlow _ _ => true
  | .getNonce _ => true
  | .nonceExpire _ => true
  | .mgmtRead _ _ _ _ _ => true
  | .mgmtReset _ _ => true
  | .mgmtCap _ _ _ _ => true
  | .mctpControl binding _ _ => decide (binding < 3)
  | .pldmGetSensor _ _ => true
  | .pldmSetEffecter _ _ _ => true
  | .pldmFwTransfer _ _ _ => true
  | .pldmActivateFirmware _ _ => true
  | .activationStep => true
  | .microcodeRollStep => true
  | .microcodeLoad _ => true
  | .tapInstruction _ => true
  | .tapReset => true

end Sys2Proof
end

