-- ==== Sys2Proof/Safety.lean ====
section
/-!
DEFINITION. The terms in which claims about the block are stated: what a retired instruction leaves behind, and the
conditions on a state that several claims share.
-/

namespace Sys2Proof.Machine

/-! ### The vector engine -/

/-- Core `k` after an instruction of its program has retired: the registers it leaves, the pc on the next instruction, and
CORE_VEC_RETIRED counted once (R181, R190); STALLS advances by the clocks that it waited for its registers, which the model leaves free (log 44).
Nothing else of the machine has changed. -/
def State.retired (s : State) (k : Nat) (r : VecRegs) : State :=
  (s.updCore k (fun c => { c with
    vec := { r with pc := (c.vec.pc + 1) % 2 ^ 18 }, retired := c.retired + 1, stalls := c.stalls + s.free })).tookFree

/-- Core `k` after a lane instruction has retired: under the mask, lane i of vD takes `f i` and raises its flags in the lane flags and in
CORE_VEC_STATUS; a lane that is off takes 0 with Z and keeps its value without (R169, R179). -/
def State.retiredLanes (s : State) (k : Nat) (w : VWord) (f : Nat → LaneOut) : State :=
  let on := (s.core k).vec.enabled w
  let flags (i : Nat) : NumFlags := if on i then (f i).2 else flagNone
  (s.updCore k (fun c => { c with
    vec := { (c.vec.setLanes w.d (lanesOf (fun i => if on i then (f i).1 else if w.z then 0 else c.vec.lane w.d i))).raise flags with
      pc := (c.vec.pc + 1) % 2 ^ 18 }
    vecStatus := c.vecStatus ||| BitVec.ofNat 6 (anyFlags flags).toNat
    retired := c.retired + 1
    stalls := c.stalls + s.free })).tookFree

/-- Core `k` runs a work item, and a unit instruction with this word is not predicated off (R169). -/
def State.opens (s : State) (k : Nat) (w : VWord) : Bool :=
  decide (k < 192) && (s.core k).running && (!w.masked || ((s.core k).vec.mask w.m.toNat).getLsbD 0)

/-- A mask of the lanes of a mask result: `f` on the enabled lanes, 0 or the old bit on the others (R169). -/
def maskUnder (r : VecRegs) (w : VWord) (f : Nat → Bool) : Word128 :=
  maskOf (fun i => if r.enabled w i then f i else !w.z && (r.mask w.d.toNat).getLsbD i)

/-! ### Administrative commands -/

/-- The administrative command of function `f` that the front end runs now: command `c` with opcode `op`, whose wait is over; `u` is the
state with the wait done (R411, R417). -/
def State.runsAdmin (s : State) (f op : Nat) (c : AdminCmd) (u : State) : Prop :=
  f < 32 ∧ s.adminOf f op = some c ∧ s.adminWait f c = .go u

/-! ### Igrum packets -/

/-- A frame that port `p`, or its half b, receives is an accepted packet of type `type`, and for DATA of operation `op`: `pkt` arrives on path
`i` of peer `k`, `ce` says that it was marked for congestion, and `u` is the state with what it acknowledges applied (R468 to R470). -/
def State.receives (s : State) (p : Nat) (half : Bool) (frame : List Byte) (type op : Nat) (u : State) (k i : Nat) (ce : Bool)
    (pkt : List Byte) : Prop :=
  p < 8 ∧ (∃ v, s.acceptFrame p half frame = .packet v k i ce pkt ∧ u = v.takeAck k pkt) ∧
    ∃ encap src mark raw, s.matchFrame frame = some (encap, src, mark, raw) ∧ packetFormatOk raw = true ∧ fieldLE raw 0 1 / 16 = type ∧
      (type = 0 → fieldLE raw 32 1 = op)

/-! ### Fuses -/

/-- FW_FLOOR counts bits of a field of 64, and the internal debug port is shut once DEBUG_LOCK is blown (R555, R576). -/
def State.fusesLegal (s : State) : Bool := decide (s.mgmt.fwFloor ≤ 64) && !(s.mgmt.debugLock && s.mgmt.debugOpen)

end Sys2Proof.Machine
end

