-- ==== Sys2Proof/Certificates/Slice0/Obligations.lean ====
section
/-!
DEFINITION. The statements about the model for the provers. Each says which rules of the spec it rests on. Of every command, some statement has as its conclusion
that it answers a next state, and which; what it does not name in that state is unchanged.
-/

open Sys2Proof Sys2Proof.Machine

/-- One step of the block: the command at the front of the queue runs on the state with the queue's rest. With nothing waiting, the device timer goes on by one
nanosecond and the interrupt summary is observed: what happens then is the model's choice (DESIGN CHOICE, log 1). -/
def Obligations.AStepRunsTheFirstCommand : Prop :=
  (∀ (c : Instr) (rest : List Instr) (s : State), s.pending = c :: rest → step s = exec c { s with pending := rest }) ∧
  (∀ (c : Instr) (s : State), step (s.withCommand c) = exec c s) ∧
  (∀ s : State, s.pending = [] → step s = .next ({ s with devTime := (s.devTime + 1) % 2 ^ 64 }.settleInts))

/-- The reset values that the register tables state: identification, fault queue, progress and harrow control, power caps and clocks, the energy factor, the
transport's EtherType, TTL and UDP port, and the reserve channel of a stack, as function 0 reads them, and those of every cluster. -/
def Obligations.ResetHoldsTheStatedValues : Prop :=
  (State.reset.regWord 0 0x0000_0000).map (· % 2 ^ 16) = some 0x9120 ∧
  State.reset.regWord 0 0x00F0_0004 = some 1 ∧
  State.reset.regWord 0 0x00F0_0008 = some 1 ∧
  State.reset.regWord 0 0x00F0_000C = some (1000 + 50 * 2 ^ 16) ∧
  State.reset.regWord 0 0x00F0_0030 = some (1 + 24 * 2 + 200 * 2 ^ 9) ∧
  State.reset.regWord 0 0x00F8_0000 = some (1200 + 1200 * 2 ^ 16) ∧
  State.reset.regWord 0 0x00F8_0010 = some (14 + 14 * 2 ^ 8 + 360 * 2 ^ 16) ∧
  State.reset.regWord 0 0x00F8_0014 = some (14 + 14 * 2 ^ 8 + 360 * 2 ^ 16) ∧
  State.reset.regWord 0 0x00FE_0004 = some 0x4000 ∧
  State.reset.regWord 0 0x00E8_0000 = some (0x88B5 + 64 * 2 ^ 16) ∧
  State.reset.regWord 0 0x00E8_0008 = some 0xC2A5 ∧
  (State.reset.regWord 0 0x00C0_8080).map (fun v => v / 32 % 2) = some 1 ∧
  ∀ c < 24, State.reset.clusterWord c 0xE00 = some (50 + 2 * 2 ^ 14 + 63 * 2 ^ 24) ∧ State.reset.clusterWord c 0xD40 = some 32 ∧
    (State.reset.pending = [] ∧ State.reset.devTime = 0 ∧ (State.reset.cluster c).bin = [] ∧ (State.reset.core (8 * c)).item = none)

/-- R388: a read of BAR2 is taken unit by unit, each checked in the order slot, flags, filter, translation with READ. A unit that passes gives its bytes, one that fails
gives all ones and is counted, and the read always ends in one successful completion. -/
def Obligations.WindowReadsNeverFail : Prop :=
  ∀ (f offset requester len : Nat) (s : State), f < 32 →
    let check (t : State) (off : Nat) : WindowCheck :=
      let h := t.fn f
      let slot := h.slotBase + off / 2 ^ 21
      if h.slotCount ≤ off / 2 ^ 21 then .failed slot 3
      else match Tbl.get none t.host.slots slot with
        | none => .failed slot 0
        | some e =>
          let addr : Nat := e.target + off % 2 ^ 21
          let unit : Nat := addr / 64 * 64
          if h.disabled = true ∨ e.valid = false ∨ e.read = false then .failed slot 0
          else if e.filter = true ∧ (requester &&& e.reqMask) ≠ (e.requester &&& e.reqMask) then .failed slot 1
          else if t.extentOk (28 + f / 16) e.context unit ((unit + 63 : Nat) : Int) (permHost + permRead) = true then .ok e addr
          else .failed slot 2
    let one (acc : State × List Byte) (u : Nat × List Nat) : State × List Byte :=
      match check acc.1 u.1 with
      | .failed slot n => (acc.1.windowRefused slot n, acc.2 ++ List.replicate u.2.length 0xFF)
      | .ok e addr =>
          let (t, status, bytes) := acc.1.ctxFetch e.context 0 addr u.2.length
          (t, acc.2 ++ (if status = 0 then bytes else List.replicate u.2.length 0xFF))
    let out := (windowUnits (len / 64 + 2) offset (List.range len)).foldl one (s, [])
    exec (.bar2Read f offset requester len) s = .next (out.1.send (.completion f out.2))

/-- R577: BYPASS, IDCODE, SAMPLE/PRELOAD, EXTEST, CLAMP and HIGHZ (instructions 0 to 5) are offered whatever the state of DEBUG_LOCK, and every other one acts as
BYPASS once it is blown; IDCODE answers with the stepping, the part number and the maker's identity; EXTEST, CLAMP and HIGHZ take effect only with both PERST# asserted, and the
pins then stay under boundary scan until Test-Logic-Reset. -/
def Obligations.TestAccessUnderDebugLock : Prop :=
  ∀ (n : Nat) (s : State), s.mgmt.phase ≠ .off →
    let both := s.bothPerst
    let scan : Prop := n = 3 ∨ n = 4 ∨ n = 5
    let loads (ir : Nat) (boundary : Bool) : State := s.updMgmt (fun m => { m with tap := ir, boundary := boundary })
    let held := s.mgmt.boundary && !both
    (n = 0 ∨ n = 2 → exec (.tapInstruction n) s = .next (loads n held)) ∧
    (n = 1 → exec (.tapInstruction n) s = .next ((loads n held).send (.tap (Config.jepIdentity.toNat * 2 + 0x9120 * 2 ^ 12 +
      s.loader.stepping % 16 * 2 ^ 28 + 1)))) ∧
    (scan → both = true → exec (.tapInstruction n) s = .next (loads n true)) ∧
    (scan → both = false → exec (.tapInstruction n) s = .next (loads 0 s.mgmt.boundary)) ∧
    (5 < n → s.mgmt.debugLock = true → exec (.tapInstruction n) s = exec (.tapInstruction 0) s) ∧
    exec .tapReset s = .next (s.updMgmt (fun m => { m with tap := 1, boundary := false }))

/-- R188, R286, R288: SST and VST write the bytes of their access and no other: every other byte of every core bin and cluster bin reads as before, DRAM does not change, and after
SST the access reads as the stored register. -/
def Obligations.BinStoresWriteOnlyTheirBytes : Prop :=
  ∀ (k : Nat) (w : VWord) (s : State) (pl : BinPlace) (reg : BinRegion), k < 192 → (s.core k).running = true →
    let r := (s.core k).vec
    let n := bytesFor (otherFmt w) 128
    let only (n : Nat) (t : State) : Prop :=
      (∀ j o, (∀ off, pl = .core off → j = k → o < off ∨ off + n ≤ o) → (t.core j).bin.byte o = (s.core j).bin.byte o) ∧
      (∀ c o, (∀ off, pl = .cluster off → c = clusterOf k → o < off ∨ off + n ≤ o) → (t.cluster c).bin.byte o = (s.cluster c).bin.byte o) ∧
      t.gleaners = s.gleaners
    (s.binCheck k (r.address w) 8 true true = some (pl, reg) → s.heldInput k pl 8 = false →
      ∃ t, exec (.sst k w) s = .next t ∧ only 8 t ∧ t.binRead k pl 8 = natLE 8 (r.scalar w.b).toNat) ∧
    (s.binCheck k (r.address w) n true true = some (pl, reg) → s.heldInput k pl n = false →
      ∃ t, exec (.vst k w) s = .next t ∧ only n t)

/-- Every command that names units of the device completes, and one that names a unit the device does not have faults by name; none is refused. -/
def Obligations.WellFormedCommandsComplete : Prop :=
  ∀ (c : Instr) (s : State), (c.wellFormed = true → ∃ t, exec c s = .next t) ∧ (c.wellFormed = false → exec c s = .fault .noSuchUnit) ∧
    ∀ r, exec c s ≠ .refused r

/-- No command touches the queue of waiting commands: a step takes the front command away and nothing else. -/
def Obligations.StepsTakeOnlyTheFrontCommand : Prop :=
  (∀ (c : Instr) (s t : State), exec c s = .next t → t.pending = s.pending) ∧ ∀ s t : State, step s = .next t → t.pending = s.pending.tail

/-- R555, R556, R576: the fuses. With FW_FLOOR at most its 64 bits and no debug port open under a blown DEBUG_LOCK, every step keeps that so, blows FW_FLOOR bits and DEBUG_LOCK but
never clears one, and changes neither the serial number nor the root key's digest. -/
def Obligations.StepsKeepTheFuses : Prop :=
  ∀ s t : State, s.fusesLegal = true → step s = .next t →
    t.fusesLegal = true ∧ s.mgmt.fwFloor ≤ t.mgmt.fwFloor ∧ (s.mgmt.debugLock = true → t.mgmt.debugLock = true) ∧
      t.mgmt.serial = s.mgmt.serial ∧ t.mgmt.rootKeyHash = s.mgmt.rootKeyHash

/-- The state after reset meets the condition on the fuses. -/
def Obligations.ResetFusesAreLegal : Prop := State.reset.fusesLegal = true

/-- R171 to R173: the scalar instructions. In every state in which core `k` runs a work item each of them retires, writes its one
scalar register (s12 to s15 keep their value, R164) and changes nothing else. -/
def Obligations.ScalarInstructionsWriteTheirResult : Prop :=
  ∀ (k : Nat) (w : VWord) (s : State), k < 192 → (s.core k).running = true →
    let r := (s.core k).vec
    let gives (x : Word64) : State := s.retired k (if 12 ≤ w.d.toNat % 16 then r else { r with x := Tbl.set 0 r.x (w.d.toNat % 16) x })
    let a := r.scalar w.a
    let b := r.scalar w.b
    let m := r.mask w.a.toNat
    exec (.nop k w) s = .next (s.retired k r) ∧
    exec (.sli k w) s = .next (gives (w.imm.signExtend 64)) ∧
    exec (.slui k w) s = .next (gives ((r.scalar w.d <<< 20) ||| w.imm.zeroExtend 64)) ∧
    exec (.sadd k w) s = .next (gives (a + b)) ∧
    exec (.ssub k w) s = .next (gives (a - b)) ∧
    exec (.saddi k w) s = .next (gives (a + w.imm.signExtend 64)) ∧
    exec (.smul k w) s = .next (gives (a * b)) ∧
    exec (.sand k w) s = .next (gives (a &&& b)) ∧
    exec (.sor k w) s = .next (gives (a ||| b)) ∧
    exec (.sxor k w) s = .next (gives (a ^^^ b)) ∧
    exec (.sshl k w) s = .next (gives (a <<< (w.imm.toNat % 64))) ∧
    exec (.sshr k w) s = .next (gives (a >>> (w.imm.toNat % 64))) ∧
    exec (.ssra k w) s = .next (gives (a.sshiftRight (w.imm.toNat % 64))) ∧
    exec (.vext k w) s = .next (gives ((r.lane w.a (w.imm.toNat % 128)).zeroExtend 64)) ∧
    exec (.mpop k w) s = .next (gives (BitVec.ofNat 64 ((List.range 128).filter (fun i => m.getLsbD i)).length)) ∧
    exec (.mfirst k w) s = .next (gives (BitVec.ofNat 64 (((List.range 128).find? (fun i => m.getLsbD i)).getD 128)))

/-- R171, R174, R187: the instructions that write one mask register; bits of VCMP and VXCMP that are masked off take 0 with Z and
keep their value without (R169). -/
def Obligations.MaskInstructionsWriteTheirResult : Prop :=
  ∀ (k : Nat) (w : VWord) (s : State), k < 192 → (s.core k).running = true →
    let r := (s.core k).vec
    let gives (x : Word128) : State := s.retired k { r with m := Tbl.set 0 r.m (w.d.toNat % 8) x }
    let a := r.mask w.a.toNat
    let b := r.mask w.b.toNat
    exec (.mand k w) s = .next (gives (a &&& b)) ∧
    exec (.mor k w) s = .next (gives (a ||| b)) ∧
    exec (.mxor k w) s = .next (gives (a ^^^ b)) ∧
    exec (.mandn k w) s = .next (gives (a &&& ~~~b)) ∧
    exec (.mnot k w) s = .next (gives (~~~a)) ∧
    exec (.mfill k w) s = .next (gives (BitVec.ofNat 128 (2 ^ (w.imm.toNat % 256) - 1))) ∧
    exec (.vflg k w) s = .next (gives (match w.imm.toNat % 4 with
      | 0 => r.nv
      | 1 => r.ovf
      | 2 => r.uf
      | _ => r.range)) ∧
    exec (.vcmp k w) s = .next (gives (maskUnder r w (fun i =>
      laneCompare (laneFmt w) (w.imm.toNat % 8) (r.lane w.a i) (r.lane w.b i)))) ∧
    exec (.vxcmp k w) s = .next (gives (maskUnder r w (fun i =>
      exchangeBit (laneFmt w) (r.lane w.a) (w.imm.toNat % 8) (w.imm.toNat / 8 % 8) i)))

/-- R171 to R174, R177: lane arithmetic on every format of R168, under the mask, with its lane flags. -/
def Obligations.LaneArithmeticWritesEnabledLanes : Prop :=
  ∀ (k : Nat) (w : VWord) (s : State), k < 192 → (s.core k).running = true →
    let r := (s.core k).vec
    let f := laneFmt w
    let plain : ScaleInfo := { codebook := [], scale := 0x3C00, zeroPoint := 0 }
    exec (.vadd k w) s = .next (s.retiredLanes k w (fun i => laneAdd f (arithMode w) (r.lane w.a i) (r.lane w.b i))) ∧
    exec (.vsub k w) s = .next (s.retiredLanes k w (fun i => laneSub f (arithMode w) (r.lane w.a i) (r.lane w.b i))) ∧
    exec (.vmul k w) s = .next (s.retiredLanes k w (fun i => laneMul f (arithMode w) (r.lane w.a i) (r.lane w.b i))) ∧
    exec (.vfma k w) s = .next (s.retiredLanes k w
      (fun i => laneFma f (arithMode w) (r.lane w.a i) (r.lane w.b i) (r.lane w.c i))) ∧
    exec (.vmin k w) s = .next (s.retiredLanes k w (fun i => laneExtreme f false (r.lane w.a i) (r.lane w.b i))) ∧
    exec (.vmax k w) s = .next (s.retiredLanes k w (fun i => laneExtreme f true (r.lane w.a i) (r.lane w.b i))) ∧
    exec (.vabs k w) s = .next (s.retiredLanes k w (fun i => laneAbs f (r.lane w.a i))) ∧
    exec (.vneg k w) s = .next (s.retiredLanes k w (fun i => laneNeg f (r.lane w.a i))) ∧
    exec (.vcvt k w) s = .next (s.retiredLanes k w (fun i =>
      let x := convert f plain (otherFmt w) plain (roundMode w) 0 (r.lane w.a i).toNat
      (BitVec.ofNat 32 x.1, x.2)))

/-- R171: the lane instructions that move or combine bits; they raise no flag. VSEL and VXCHG read M as an operand and write every
lane (R169). -/
def Obligations.LaneMovesWriteEnabledLanes : Prop :=
  ∀ (k : Nat) (w : VWord) (s : State), k < 192 → (s.core k).running = true →
    let r := (s.core k).vec
    let gives (w : VWord) (x : Nat → Word32) : State := s.retiredLanes k w (fun i => (x i, flagNone))
    let a := r.lane w.a
    let b := r.lane w.b
    let m (i : Nat) := (r.mask w.m.toNat).getLsbD i
    let j := w.imm.toNat
    exec (.vand k w) s = .next (gives w (fun i => a i &&& b i)) ∧
    exec (.vor k w) s = .next (gives w (fun i => a i ||| b i)) ∧
    exec (.vxor k w) s = .next (gives w (fun i => a i ^^^ b i)) ∧
    exec (.vshl k w) s = .next (gives w (fun i => a i <<< ((b i).toNat % 32))) ∧
    exec (.vshr k w) s = .next (gives w (fun i => a i >>> ((b i).toNat % 32))) ∧
    exec (.vsra k w) s = .next (gives w (fun i => (a i).sshiftRight ((b i).toNat % 32))) ∧
    exec (.vbcast k w) s = .next (gives w (fun _ => (r.scalar w.a).truncate 32)) ∧
    exec (.viota k w) s = .next (gives w (fun i => BitVec.ofNat 32 i)) ∧
    exec (.vrev k w) s = .next (gives w (fun i => a (127 - i))) ∧
    exec (.vrot k w) s = .next (gives w (fun i => a ((i + j) % 128))) ∧
    exec (.vperm k w) s = .next (gives w (fun i => a ((b i).toNat % 128))) ∧
    exec (.vsel k w) s = .next (gives { w with masked := false } (fun i => if m i then a i else b i)) ∧
    exec (.vxchg k w) s = .next (gives { w with masked := false } (fun i => if m i then a (i ^^^ 2 ^ (j % 8)) else a i))

/-- R175: a reduction combines lanes as a fixed tree: lane i with lane i + 64, then i with i + 32, until lane 0 is left, a float sum rounding at every addition
in mode RM. An instruction's lanes are the enabled ones, a lane that is off giving the identity; the result goes to the scalar register and the flags to lane 0. -/
def Obligations.ReductionsCombineLanesAsAFixedTree : Prop :=
  ∀ (k : Nat) (w : VWord) (s : State), k < 192 → (s.core k).running = true →
    let f := laneFmt w
    let level (op : Word32 → Word32 → LaneOut) (h : Nat) (x : Nat → LaneOut) : Nat → LaneOut := fun i =>
      let r := op (x i).1 (x (i + h)).1
      (r.1, ((x i).2.join (x (i + h)).2).join r.2)
    let tree (op : Word32 → Word32 → LaneOut) (x : Nat → LaneOut) : LaneOut :=
      level op 1 (level op 2 (level op 4 (level op 8 (level op 16 (level op 32 (level op 64 x)))))) 0
    let gives (kind : Nat) (op : Word32 → Word32 → LaneOut) : State :=
      let out := tree op (fun i => (if (s.core k).vec.enabled w i then (s.core k).vec.lane w.a i else reduceIdentity f kind, flagNone))
      let flags (i : Nat) : NumFlags := if i = 0 then out.2 else flagNone
      (s.updCore k (fun c => { c with
        vec := { (c.vec.setScalar w.d (out.1.zeroExtend 64)).raise flags with pc := (c.vec.pc + 1) % 2 ^ 18 }
        vecStatus := c.vecStatus ||| BitVec.ofNat 6 (anyFlags flags).toNat
        retired := c.retired + 1
        stalls := c.stalls + s.free })).tookFree
    exec (.vrsum k w) s = .next (gives 0 (laneAdd f (arithMode w))) ∧
    exec (.vrmax k w) s = .next (gives 1 (laneExtreme f true)) ∧
    exec (.vrmin k w) s = .next (gives 2 (laneExtreme f false))

/-- R178, R179, R181, R182, R166: SEED, VFCLR, the loop instructions, VRDT once the verdict stands, FENCE once the units are done, and
END, which leaves the item to ITEM_RETIRE. -/
def Obligations.ControlInstructionsActOnTheEngine : Prop :=
  ∀ (k : Nat) (w : VWord) (s : State), k < 192 → (s.core k).running = true →
    let r := (s.core k).vec
    let n := loopCount r w
    let keep : Word128 := maskOf (fun i => !r.enabled w i)
    exec (.seed k w) s = .next (s.retired k { r with gens := (List.range 128).foldl (fun t i =>
      Tbl.set 1 t i (seedLane ((r.scalar w.a).truncate 32) ((r.scalar w.b).truncate 32) i)) r.gens }) ∧
    (∀ i, let now := match i with
        | some n => r.recent.getD n laneFlagsNone
        | none => laneFlagsNone
      exec (.vfclr k ⟨w, i⟩) s = .next (s.retired k { r with
        nv := if w.imm.getLsbD 0 then r.nv &&& keep ||| now.nv else r.nv
        ovf := if w.imm.getLsbD 1 then r.ovf &&& keep ||| now.ovf else r.ovf
        uf := if w.imm.getLsbD 2 then r.uf &&& keep ||| now.uf else r.uf
        range := if w.imm.getLsbD 3 then r.range &&& keep ||| now.range else r.range })) ∧
    (0 < n → exec (.loopOpen k w) s = .next (s.retired k { r with loops := { body := r.pc + 1, remaining := n } :: r.loops })) ∧
    (n = 0 → exec (.loopOpen k w) s = .next (s.retireTo k (findLoopEnd (s.opcodeAt k) 262144 (r.pc + 1) 0))) ∧
    (∀ f fs, r.loops = f :: fs → f.remaining ≤ 1 → exec (.loopClose k w) s = .next (s.retired k { r with loops := fs })) ∧
    (∀ f fs, r.loops = f :: fs → 1 < f.remaining → exec (.loopClose k w) s =
      .next ((s.setVec k { r with loops := { f with remaining := f.remaining - 1 } :: fs }).retireTo k f.body)) ∧
    exec (.coreEnd k w) s = .next (s.updCore k (fun c => { c with phase := .atEnd })) ∧
    (s.unitsDone k = true → exec (.fence k w) s = .next (s.retired k r)) ∧
    ((s.cluster ((s.core k).home k)).verdict (r.scalar w.a).toNat (w.imm.toNat % 4096) = 1 →
      exec (.vrdt k w) s = .next (s.retired k { r with m := Tbl.set 0 r.m (w.d.toNat % 8) 0 })) ∧
    ((s.cluster ((s.core k).home k)).verdict (r.scalar w.a).toNat (w.imm.toNat % 4096) = 2 →
      exec (.vrdt k w) s = .next (s.retired k { r with m := Tbl.set 0 r.m (w.d.toNat % 8) (BitVec.allOnes 128) }))

/-- R169, R176, R178, R288: the bin accesses of the vector engine, where the access lies in a region open to the core and no held
input is written. Loads write one register, stores write the bin and nothing else of memory. -/
def Obligations.BinAccessesLoadAndStore : Prop :=
  ∀ (k : Nat) (w : VWord) (s : State), k < 192 → (s.core k).running = true →
    let r := (s.core k).vec
    let g := otherFmt w
    let plain : ScaleInfo := { codebook := [], scale := 0x3C00, zeroPoint := 0 }
    let scaled := scaleInfoOf (s.clusterPlan (clusterOf k)) g (r.scalar w.b)
    let word (i : Nat) := (r.scalar w.a).toNat + 4 * (r.lane w.b i).toNat
    (∀ pl reg, s.binCheck k (r.address w) 8 false true = some (pl, reg) → exec (.sld k w .clean) s =
      .next (s.retired k (r.setScalar w.d (BitVec.ofNat 64 (leNat (s.binRead k pl 8)))))) ∧
    (∀ pl reg, s.binCheck k (r.address w) 8 true true = some (pl, reg) → s.heldInput k pl 8 = false → exec (.sst k w) s =
      .next ((s.binWrite k pl (natLE 8 (r.scalar w.b).toNat)).retireTo k (r.pc + 1))) ∧
    (∀ pl reg, s.binCheck k (r.address w) (bytesFor g 128) false true = some (pl, reg) → exec (.vld k w .clean) s =
      .next (s.retiredLanes k w (fun i =>
        let x := convert g scaled (laneFmt w) plain (roundMode w) 0 (elementOf g (s.binRead k pl (bytesFor g 128)) i)
        (BitVec.ofNat 32 x.1, x.2)))) ∧
    (∀ pl reg, s.binCheck k (r.address w) (bytesFor g 128) true true = some (pl, reg) → s.heldInput k pl (bytesFor g 128) = false →
      let draws := drawsInto g (roundMode w)
      let drawn (i : Nat) : Word32 := nextDrawState (r.gen i)
      let out (i : Nat) : Nat × NumFlags :=
        convert (laneFmt w) plain g scaled (roundMode w) (if draws then drawOf (drawn i) else 0) (r.lane w.c i).toNat
      let bytes := (List.range 128).foldl (fun bs i => if r.enabled w i then putElement g bs i (out i).1 else bs)
        (s.binRead k pl (bytesFor g 128))
      let flags (i : Nat) : NumFlags := if r.enabled w i then (out i).2 else flagNone
      let gens := if draws then (List.range 128).foldl (fun t i => if r.enabled w i then Tbl.set 1 t i (drawn i) else t) r.gens else r.gens
      exec (.vst k w) s = .next (((s.binWrite k pl bytes).updCore k (fun c => { c with
        vec := { ({ r with gens := gens }).raise flags with pc := (r.pc + 1) % 2 ^ 18 }
        vecStatus := c.vecStatus ||| BitVec.ofNat 6 (anyFlags flags).toNat
        retired := c.retired + 1
        stalls := c.stalls + s.free })).tookFree)) ∧
    ((∀ i < 128, r.enabled w i = true → (s.binCheck k (word i) 4 false true).isSome = true) → exec (.vgth k w .clean) s =
      .next (s.retiredLanes k w (fun i => match binPlace (word i) with
        | some pl => (BitVec.ofNat 32 (leNat (s.binRead k pl 4)), flagNone)
        | none => (0, flagNone))))

/-- R169: a unit instruction whose predicate bit is clear retires and does nothing. -/
def Obligations.PredicatedOffUnitInstructionsDoNothing : Prop :=
  ∀ (k : Nat) (w : VWord) (ecc : Ecc) (run : SfuRun) (s : State), k < 192 → (s.core k).running = true → w.masked = true →
    ((s.core k).vec.mask w.m.toNat).getLsbD 0 = false →
    let noop : Host.Outcome State Fault Refusal := .next (s.retired k (s.core k).vec)
    exec (.gtile k w ecc) s = noop ∧ exec (.gwait k w) s = noop ∧ exec (.wnw k w ecc) s = noop ∧ exec (.wwait k w) s = noop ∧
    exec (.sfu k w run) s = noop ∧ exec (.rowput k w ecc) s = noop ∧ exec (.sflush k w) s = noop ∧
    exec (.dmaq k w ecc) s = noop ∧ exec (.dmark k w) s = noop

/-- R141, R183 to R185, R191 to R193, R339, R354, R355: the unit instructions, where their descriptor passes its checks and the queue
has room. -/
def Obligations.UnitInstructionsHandTheirWorkOver : Prop :=
  ∀ (k : Nat) (w : VWord) (s : State), s.opens k w = true →
    let r := (s.core k).vec
    let next (t : State) : Host.Outcome State Fault Refusal := .next (t.retireTo k (r.pc + 1))
    let bytes (pl : BinPlace) (n : Nat) := s.binRead k pl n
    (∀ pl reg, (s.core k).grid.queue.length < 8 → (s.core k).grid.aborting = false → s.binCheck k (r.address w) 32 false true = some (pl, reg) →
      let t := parseTile (bytes pl 32)
      let entry := if t.streamed then s.streamEntry k (t.act % 2 ^ 12) else none
      entry.isSome = t.streamed → s.tileOk k t (fieldLE (bytes pl 32) 3 1) entry = true →
      exec (.gtile k w .clean) s = if t.rows = 0 then next s else next (s.updCore k (fun c =>
        let q := { c.grid with queue := c.grid.queue ++ [{ t with stream := entry.map parseStream }] }
        { c with grid := if t.start then q.updBank t.bank (fun b => { b with waiting := b.waiting + 1 }) else q }))) ∧
    ((s.core k).grid.aborting = false → ((s.core k).grid.bank (w.imm.toNat % 2)).mismatch = false → ((s.core k).grid.bank (w.imm.toNat % 2)).waiting = 0 →
      exec (.gwait k w) s = next s) ∧
    (∀ pl reg l, (s.core k).winnow.queue.length < 16 → s.binCheck k (r.address w) 32 false true = some (pl, reg) →
      s.layerAt (clusterOf k) (parseWinnow (bytes pl 32)).layer = some l →
      exec (.wnw k w .clean) s = next ((s.updCore k (fun c => { c with
        winnow := { c.winnow with queue := c.winnow.queue ++ [parseWinnow (bytes pl 32)] } })).holdInput k (parseWinnow (bytes pl 32)) l)) ∧
    ((s.core k).winnow.queue = [] → exec (.wwait k w) s = next s) ∧
    (∀ f clocks, w.imm.toNat % 128 < 64 → s.sfuFunction k (w.imm.toNat % 128) (sfuFormat w.g) = some (f, clocks) →
      exec (.sfu k w ⟨false, .clean⟩) s = next ((s.updCore k (fun c => { c with sfu := { c.sfu with
        ops := c.sfu.ops + 1, busy := c.sfu.busy + BitVec.ofNat 64 clocks } })).writeLanes k { w with masked := false } (fun i =>
          let out := f (laneValue (sfuFormat w.f) (r.lane w.a i))
          (BitVec.ofNat 32 out.1, out.2)))) ∧
    (∀ pl reg, s.binCheck k (r.address w) 16 false true = some (pl, reg) → heldRows (s.core k).held < 256 →
      exec (.rowput k w .clean) s = next (s.updCore k (fun c => { c with held := c.held ++ [.row (parseRow (bytes pl 16))] }))) ∧
    exec (.sflush k w) s = next (s.updCore k (fun c => { c with held := c.held ++ [.flush (w.imm.toNat % 64)] })) ∧
    (∀ pl reg i op, (s.core k).item = some i → s.binCheck k (r.address w) 128 false true = some (pl, reg) →
      let d := parseXfer op (bytes pl 128)
      let u := (s.fetchKeys k i d).1
      let x := { u.formXfer k i d with status := (s.fetchKeys k i d).2 }
      xferOpOf (fieldLE (bytes pl 128) 0 1) = some op → xferIsEmpty d (bytes pl 128) = false →
      descFault (s.planOf i.part) d (bytes pl 128) = false → ((op = .promote ∨ op = .demote) → s.isTiered i.ctx d.src.addr = true) →
      x.requests.length ≤ 4096 → u.xferExtents k i.ctx i.part d x.records.length = .ok →
      exec (.dmaq k w .clean) s = next ((u.updDma (clusterOf k) (fun e => { e with
        serial := x.serial, queues := Tbl.modify [] e.queues d.queue (· ++ [.xfer x]) })).noteEffects k (clusterOf k) x)) ∧
    (w.imm.toNat / 32 % 8 = 0 → w.imm.getLsbD 4 = true → exec (.dmark k w) s = next ((s.updCore k (fun c => { c with
        dmaMarks := Tbl.set 0 c.dmaMarks (w.imm.toNat % 16) (Tbl.get 0 c.dmaMarks (w.imm.toNat % 16) + 1) })).updDma (clusterOf k)
        (fun e => { e with queues := Tbl.modify [] e.queues (w.imm.toNat % 16) (· ++ [.barrier k]) })))

/-- R150, R151: a row that arrives joins the open sheaf of its stage and context, or opens one where fewer than 16 are open, its input
landing in a STAGING region of the stage, at a place that is a free value (log 67), with its IN rewritten; a flush, and the sheaf timer where a
row has a nonzero SHEAF_WAIT, close the open sheaf; at a retired cluster the former that takes its rows stands in its place (R538). -/
def Obligations.SheafFormerCollectsRows : Prop :=
  ∀ (c p ctx stage : Nat) (r : RowArg) (input : List Byte) (plan : Plan) (region : BinRegion) (o : OpenSheaf) (s : State), c < 24 →
    let bytes := input.take (64 * r.length)
    let off := region.offset * 4096 + 64 * ((Config.freeValue s.freeCtr).toNat % ((region.size * 4096 - bytes.length) / 64 + 1))
    let row : RowDesc :=
      { stage := stage, cls := r.cls, length := r.length, inAddr := 2 ^ 24 + off, tag := r.tag, marks := r.marks, arrival := s.devTime }
    let landed : ClusterState := { s.cluster c with bin := (s.cluster c).bin.put off bytes }
    let joined (o : OpenSheaf) : State := ({ s with freeCtr := s.freeCtr + 1 }).setCluster c { landed with
      openSheaves := landed.openSheaves.filter (fun (q : OpenSheaf) => !(q.ctx == ctx && q.stage == stage)) ++ [o]
      former := { landed.former with rows := landed.former.rows + 1 }
      nextOpened := landed.nextOpened + 1 }
    let lands : Prop := (s.cluster c).retired = false ∧ r.length ≠ 0 ∧ s.clusterPlan c = some plan ∧
      plan.binMap.find? (fun q => q.kind == 3 && q.scope == 1 && q.cluster == c && q.stage == stage) = some region
    (lands → (s.cluster c).openFor ctx stage = some o → o.rows.length < 127 →
      exec (.rowArrive c p ctx stage (some r) input) s = .next (joined { o with rows := o.rows ++ [row] })) ∧
    (lands → (s.cluster c).openFor ctx stage = none → (s.cluster c).openSheaves.length < 16 →
      exec (.rowArrive c p ctx stage (some r) input) s =
        .next (joined { part := p, ctx := ctx, stage := stage, rows := [row], opened := (s.cluster c).nextOpened })) ∧
    ((s.cluster c).retired = false → (s.cluster c).openFor ctx stage = some o →
      exec (.rowArrive c p ctx stage none input) s = .next (s.closeSheaf c o .flush)) ∧
    ((s.cluster c).retired = true → s.formerOf c p stage < 24 → (s.cluster (s.formerOf c p stage)).retired = false →
      ∀ row, exec (.rowArrive c p ctx stage row input) s = exec (.rowArrive (s.formerOf c p stage) p ctx stage row input) s) ∧
    ((s.cluster c).openFor ctx stage = some o → o.rows.any (s.timedRow o.part) = true →
      exec (.sheafTimer c ctx stage) s = .next (s.closeSheaf c o .timer))

/-- R152, R166, R189, R428, R435, R497: the retirement of an item that has reached END, the aborts of a sequencer and of a core, and the
two halves of a steal. -/
def Obligations.WorkItemsRetireAbortAndMove : Prop :=
  ∀ (k c ctx q : Nat) (i : WorkItem) (bytes : List Byte) (s : State), k < 192 → c < 24 →
    let core := s.core k
    let home := clusterOf k
    ((core.item = some i → core.phase = .atEnd → s.unitsDone k = true → i.failedCores = [] →
      let j := { i with marks := i.marks ||| (if core.vec.range = 0 then 0 else markRange) ||| (if i.preempted then markPreempted else 0) }
      let counted := s.updCore k (fun x => { x with retired := x.retired + 1 })
      let released := core.held.foldl (fun t h => t.release k j h) (counted.sendAll (releaseNotices core.held))
      exec (.itemRetire k) s =
        .next ((((released.sendAll (j.endNotices (s.rowsOf j) 0 codeOk)).freeRecord j).releasePins j).afterEnd k false)) ∧
    exec (.sequencerAbort c ctx (some q)) s =
      .next ((((s.abortRows c (fun _ r => tagQueue r.tag == q)).abortListed c (shareOfQueue q)).abortSaved c (shareOfQueue q)).send
        (.acknowledge 2 c q)) ∧
    exec (.sequencerAbort c ctx none) s =
      .next ((((s.abortRows c (fun o _ => o.ctx == ctx)).abortListed c (shareOfContext ctx)).abortSaved c (fun i => i.ctx == ctx)).send
        (.acknowledge 2 c (1024 + ctx))) ∧
    (core.item = none → exec (.coreAbort k) s = .next (s.send (.acknowledge 1 k 0))) ∧
    (core.item = some i → exec (.coreAbort k) s =
      .next ((((((s.chargeItem k).dropPreempt k).updCore k (fun x => { x with
        phase := .idle, item := none, held := [], vec := vecRegsReset, dmaMarks := [], winnow := { x.winnow with queue := [] } })).freeRecord
        i).releasePins i |>.send (.acknowledge 1 k 0)).takeNext k)) ∧
    (s.mayTake k = true → dieOfCluster c = dieOfCluster home → s.stealable k c = some i → exec (.stealRequest k c) s =
      .next ((s.updCluster c (fun x => { x.takeItem i with sched := { (x.takeItem i).sched with
        stealsOut := (x.takeItem i).sched.stealsOut + 1 } })).updCore k (fun x => { x with incoming := some (i,
          i.rows.flatMap (fun r => match binPlace r.inAddr with
            | some (.cluster off) => (s.cluster c).bin.bytes off (64 * r.length)
            | _ => zeroBytes (64 * r.length))) }))) ∧
    (core.incoming = some (i, bytes) →
      let off := ceilDiv i.record.length 64 * 64
      let base := match s.stagingSlot k with
        | some (b, _) => 2 ^ 24 + b + off
        | none => 0
      exec (.stealCopyDone k) s = .next ((((s.updCore k (fun x => { x with incoming := none })).writeStaging k off bytes).updCluster home
        (fun x => { x with sched := { x.sched with stealsIn := x.sched.stealsIn + 1 } })).startItem k { i with rows := relocateRows base i.rows })))

/-- R104 to R115: a finished winnow row writes its codes and its scale and leaves the queue; its clip count reaches the sheaf record. -/
def Obligations.WinnowRowsAreWrittenAndCounted : Prop :=
  ∀ (k : Nat) (s : State), k < 192 → (s.core k).phase = .running →
    let c := clusterOf k
    (∀ d rest plan l pl reg po ro ps rs, (s.core k).winnow.queue = d :: rest → s.clusterPlan c = some plan → s.layerAt c d.layer = some l →
      s.binCheck k d.inAddr (l.k * d.input.bits / 8) false false = some (pl, reg) →
      let plain : ScaleInfo := { codebook := [], scale := 0x3C00, zeroPoint := 0 }
      let x := (unpackElements d.input (s.binRead k pl (l.k * d.input.bits / 8)) l.k).map (fun e => (convert d.input plain .b32 plain .rne 0 e).1)
      let book := bookOf .bg4 { codebook := plan.codebookOf .bg4 l.aCodebook, scale := 0x3C00, zeroPoint := 0 }
      let row := winnowRow l plan.signVectors book (s.aqPair l) d.wide d.pos x
      let codes := packElements (l.actFmt d.wide) row.codes
      s.binCheck k d.outAddr codes.length true false = some (po, ro) → s.heldInput k po codes.length = false →
      s.binCheck k d.scaleAddr 2 true false = some (ps, rs) → s.heldInput k ps 2 = false →
      let counted := if d.wide ∨ (s.cluster ((s.core k).home k)).verdict d.sheaf d.layer ≠ 0 then 0 else row.clips
      let wrote := match row.scale with
        | some v => (s.binWrite k po codes).binWrite k ps (natLE 2 v)
        | none => s.binWrite k po codes
      exec (.winnowRowDone k .clean) s = .next (((wrote.winnowRetire k row counted).winnowReport k d row).pumpStalled ((s.core k).home k))) ∧
    (∀ cl sheaf pos layer count, cl < 24 → (s.cluster cl).verdict sheaf layer = 0 → exec (.clipCount cl sheaf pos layer count) s =
      .next (((s.updRecord cl sheaf (fun r => { r with counts := Tbl.set 0 r.counts (layer * 128 + pos % 128) (count + 1) })).takeVerdict
        cl sheaf layer).pumpStalled cl))

/-- R117, R136 to R147, R153 to R157, R161: the issue of a ready tile; a row that leaves the array, compared CLEAN or SKIPPED and accumulated, and drained for an END tile, unless its
chain is void, or MISMATCH; and the abort of a grid, which acknowledges at once where no row is in the array. -/
def Obligations.GridIssuesAccumulatesAndAborts : Prop :=
  ∀ (k : Nat) (s : State), k < 192 →
    let g := (s.core k).grid
    (∀ t rest plan l block, g.queue = t :: rest → s.clusterPlan (clusterOf k) = some plan → (s.core k).phase = .running →
      g.discard.contains (t.sheaf, t.layer) = false → s.narrowDropped k t = false → s.tileReady k t = true →
      s.layerAt (clusterOf k) t.layer = some l →
      let s0 := s.updCore k (fun c => { c with grid := c.grid.steer })
      let book (n : Nat) := bookOf .bg4 { codebook := plan.codebookOf .bg4 n, scale := 0x3C00, zeroPoint := 0 }
      let weightsOf (u : TileDesc) := match plan.layerOf u.layer with
        | some m => s0.tileWeights k u (book m.wCodebook)
        | none => []
      let held := t.reuse && (!(s0.core k).grid.reload || (binPlace t.weight).isNone)
      let weights := if held then (s0.core k).grid.active else (s0.core k).grid.shadow.getD (weightsOf t)
      exec (.tileIssue k block .clean) s = .next ((s0.updCore k (fun c => { c with
        grid := c.grid.issueTile t (s0.tileActs k t l (book l.aCodebook) block) weights (s0.aqPair l (128 * block)).scale })).preload k weightsOf)) ∧
    (∀ t rest upset, g.flight = t :: rest → (t.desc.isEnd = true → t.voided = false →
        ∀ pl, binPlace (t.desc.out + t.nextRow * t.desc.outStride * 4) = some pl → s.heldInput k pl (4 * t.desc.cols) = false) →
      let float := floatClass t.desc.pairing
      let acts := t.acts.getD t.nextRow []
      let sums := rowSums g float acts t.weights upset
      let check := compareRow float (rowSum float sums.1) sums.2.1 sums.2.2
      let skips := g.skips + (if check = .skipped then 1 else 0)
      (check = .mismatch → exec (.gridRowWrite k upset) s =
        .next (((s.reportMismatch k t t.nextRow (rowSum float sums.1) sums.2.1 acts).updCore k (fun x => { x with
          grid := (x.grid.mismatchRow t t.nextRow).rowLeft })).rowGone k)) ∧
      (check ≠ .mismatch → t.voided = true → exec (.gridRowWrite k upset) s =
        .next ((s.updCore k (fun x => { x with grid := { x.grid with skips := skips }.rowLeft })).rowGone k)) ∧
      (check ≠ .mismatch → t.voided = false →
        let olds := (List.range 128).map (fun j =>
          if t.desc.start then accZero else Tbl.get accZero (g.bank t.desc.bank).entries (entryKey t.nextRow j))
        let news := (olds.zip sums.1).map (fun e => accumulate float e.1 e.2)
        let wrote := s.updCore k (fun x => { x with
          grid := ({ x.grid with
              skips := skips
              before := if t.nextRow = 0 then (g.bank t.desc.bank).entries else x.grid.before
              status := if (olds.zip news).any (fun e => !e.1.sat && e.2.sat) then x.grid.status ||| 2 else x.grid.status }.updBank t.desc.bank
            (fun b => { b with entries := news.zipIdx.foldl (fun (u : Tbl AccEntry) (e : AccEntry × Nat) =>
              Tbl.set accZero u (entryKey t.nextRow e.2) e.1) b.entries })).rowLeft })
        exec (.gridRowWrite k upset) s = .next ((if t.desc.isEnd then wrote.drainRow k t t.nextRow news else wrote).rowGone k))) ∧
    let ended := s.updCore k (fun x => { x with grid := { g with aborting := false, queue := [], shadow := none, banks := [], discard := [] } })
    let aborted := s.updCore k (fun x => { x with grid := { g with aborting := true, queue := [], flight := g.abortFlight, shadow := none } })
    (g.flight = [] → exec (.gridAbort k) s = .next ((ended.send (.acknowledge 1 k 1)).takeNext k)) ∧
    (g.flight ≠ [] → exec (.gridAbort k) s = .next (aborted.takeNext k))

/-- R339 to R352, R354, R357, R258: what the DMA engine of a cluster does with a transfer that may be admitted: a COPY from bin to bin,
a REQUEST with no payload, a LOOKUP with keys for a gleaner, PROMOTE and DEMOTE; and records, END records and aborts that reach it. -/
def Obligations.DmaEngineRunsItsTransfers : Prop :=
  ∀ (c q : Nat) (x : Xfer) (s : State), c < 24 →
    let d := x.desc
    let seg := d.src.addr / 2 ^ 48 % 16
    let t := s.tier x.ctx seg
    ((s.dma c).admissible q = some x →
      (d.op = .copy → d.srcRow = false → d.dstRow = false → d.src.space = 0 → d.dst.space = 0 →
        s.destHeld x.core (d.dst.elements (2 ^ d.src.esize)) (2 ^ d.src.esize) = false →
        let size := 2 ^ d.src.esize
        let dests := d.dst.elements size
        (s.admitXfer c x).sourceEcc x ((d.src.elements size).headD 0) .clean = (s.admitXfer c x, true) →
        exec (.dmaCopy c q .clean) s = .next (((s.admitXfer c x).binElements x.core
          (dests.zip ((s.admitXfer c x).streamBytes x.core x.ctx d.src size).2)).completeXfer c { x with status := 0, marks := 0 }
          (size * dests.length + size * dests.length))) ∧
      (∀ g r, d.op = .request → d.src.isEmpty = true → s.defaultHeld c x = false → (s.admitXfer c x).requestOf c x = some (g, r) →
        exec (.dmaRequest c q .clean) s = .next ((((s.admitXfer c x).updXfer c x.serial (fun y => { y with
          parts := [(d.tag, g)] })).movedBytes c x.ctx d.binSource).send (.request g r))) ∧
      (d.op = .lookup → x.status = 0 → x.requests ≠ [] → exec (.dmaLookup c q) s = .next ((((s.admitXfer c x).updXfer c x.serial (fun _ => { x with
        parts := x.requests.map (fun e => (e.2.tag % 4096, e.1)) })).sendAll (x.requests.map (fun e => Out.request e.1 e.2))).movedBytes c x.ctx
          (if d.src.space = 0 then d.src.total * d.keyBytes else 0))) ∧
      let slotHere (b : Nat) : Bool := match s.planSegment x.ctx seg with
        | some g => (s.loftSlot g b).isSome
        | none => false
      (d.op = .promote →
        let need := x.baleRange.filter (fun b =>
          Tbl.get 0 t.resident b == 0 && !t.moves.any (fun m => m.bale == b && m.promote && !m.flipped) && !t.waiting.any (fun w => w.1 == b))
        s.tierRoom x.ctx seg need = true → need ≠ [] → need.all slotHere = true → exec (.dmaPromote c q) s =
          .next ((((s.admitXfer c x).updXfer c x.serial (fun _ => { x with bales := need })).setTier x.ctx seg { t with
            order := t.order.filter (fun b => !need.contains b) ++ need
            waiting := t.waiting ++ need.map (fun b => (b, c, x.serial)) }).pumpTier x.ctx seg)) ∧
      (d.op = .demote →
        let need := x.baleRange.filter (fun b =>
          Tbl.get 0 t.resident b != 0 && !t.moves.any (fun m => m.bale == b) && !t.leaving.any (fun w => w.1 == b) && slotHere b)
        s.tierRoom x.ctx seg need = true → need ≠ [] → exec (.dmaDemote c q) s =
          .next ((((s.admitXfer c x).updXfer c x.serial (fun y => { y with bales := need })).setTier x.ctx seg { t with
            leaving := t.leaving ++ need.map (fun b => (b, c, x.serial)) }).pumpTier x.ctx seg))) ∧
    (∀ ctx tag mask cause,
      let hit (x : Xfer) : Bool := x.aborted ctx tag mask
      exec (.dmaAbort c ctx tag mask cause) s = .next (((s.updDma c (fun e => { e with
        queues := e.queues.filterMap (fun q =>
          let rest := q.2.filter (fun e => match e with
            | .xfer x => !hit x
            | .barrier _ => true)
          if rest.isEmpty then none else some (q.1, rest))
        outstanding := e.outstanding.map (fun x => if hit x then { x with core := 255 } else x) })).sendAll
          (((s.dma c).outstanding.filter hit).flatMap (fun x => (x.parts.map Prod.snd).eraseDups.map (fun g =>
            Out.abort (gleanerUnit g).1 (gleanerUnit g).2 ctx (some c) x.tag 0xFFFFF000 cause)))).send (.acknowledge 3 c cause))) ∧
    let queued (serial : Nat) : Bool := (s.dma c).stalled.any (fun n => n.serial == serial)
    (∀ g m pl reg, g < 448 → s.xferOf c (m.tag / 4096) = some x → x.core ≠ 255 → queued (m.tag / 4096) = false → d.op ≠ .copy →
      let bytes := natLE 8 (m.record % 4096 + m.part % 256 * 2 ^ 16 + m.marks % 256 * 2 ^ 24 + m.count % 65536 * 2 ^ 32 +
        m.payload.length % 65536 * 2 ^ 48) ++ m.payload
      s.binCheck x.core m.addr bytes.length true false = some (pl, reg) → s.heldInput x.core pl bytes.length = false → exec (.recordReceive c g m) s =
        .next (((s.binWrite x.core pl bytes).movedBytes c x.ctx bytes.length).updXfer c x.serial (fun y => { y with
          marks := y.marks ||| m.marks
          records := match y.records[(m.addr - x.desc.returnAddr) / (8 * max 1 x.desc.stride)]? with
            | some r => y.records.set ((m.addr - x.desc.returnAddr) / (8 * max 1 x.desc.stride))
                { r with count := m.count, marks := m.marks, length := m.payload.length, arrived := true }
            | none => y.records }))) ∧
    (∀ g m, g < 448 → s.xferOf c (m.tag / 4096) = some x → x.parts = [(m.tag % 4096, g)] → queued (m.tag / 4096) = false → d.op ≠ .lookup →
      (d.op ≠ .copy ∨ x.rows = []) → exec (.endRecordReceive c g m) s =
      .next ((s.updXfer c x.serial (fun _ => { x with parts := [], status := max x.status m.status, marks := x.marks ||| m.marks })).completeXfer c
        { x with parts := [], status := max x.status m.status, marks := x.marks ||| m.marks } 0))

/-- R231, R256, R260, R262, R271 to R273, R280: a request that its gleaner serves at once takes its point and waits for the channel; an
INVOKE waits for a thread; a reserved kind ends INVALID. -/
def Obligations.GleanersServeRequests : Prop :=
  ∀ (g : Nat) (r : GReq) (ecc : Ecc) (s : State), g < 448 →
    let p := s.reqPart r
    let len := leNat (r.payload.take 4)
    let served (kind : Nat) : Prop := s.admission g { r with kind := kind } = .serve ∧
      (if r.forwarded then !(s.gleaner g).forwardQueue.isEmpty else (s.gleaner g).queueBlocks g { r with kind := kind }) = false
    (served 0 → r.target % 64 = 0 → r.payload.length = 4 → len % 64 = 0 → len ≠ 0 → len ≤ 16384 → r.target + len ≤ channelBytes (isLoft g) →
      (r.system || s.rangeAdmits g r.target len r.ctx false) = true → exec (.rawRead g r) s =
        .next ((if r.system then s else s.chargeUnits g r.ctx r.target len).pushOp g { plainOp { r with kind := 0 } 0 0 with
          data := (s.gleaner g).data.bytes r.target len, bad := (s.gleaner g).rangeBad r.target len })) ∧
    (served 1 → r.target % 64 = 0 → r.payload.length % 64 = 0 → r.payload.length ≠ 0 → r.payload.length ≤ 16384 →
      r.target + r.payload.length ≤ channelBytes (isLoft g) → (r.system || s.rangeAdmits g r.target r.payload.length r.ctx true) = true →
      exec (.rawWrite g r) s = .next (((s.putRaw g r.ctx r.tag r.target r.payload r.system).noteFrame g r.target r.payload.length).pushOp g (plainOp { r with kind := 1 } 0 0))) ∧
    (∀ t f, served 2 → (s.planOf p).bind (fun pl => pl.tableOf r.table) = some t → t.kind < 3 →
      s.findRow g p r.table r.target r.cls (if r.pinned then some r.epoch else none) = .row f →
      (r.system || s.fetchAdmits g r.ctx f) = true → exec (.rowRead g r) s =
        .next ((s.issueFetch g { r with kind := 2 } f).1.pushOp g { plainOp { r with kind := 2 } 0 0 with
          fetch := some (s.issueFetch g { r with kind := 2 } f).2 })) ∧
    (∀ t home off s1, served 3 → s.rowPlace g p r.table r.target = some (t, home, off) → r.payload.length = t.slot →
      (r.system || s.rangeAdmits g off t.slot r.ctx true) = true →
      (slotCheck r.payload = 0 ∨ slotCheck r.payload = rowCheck (slotScale r.payload) (slotElements r.payload t.elementBytes)) →
      s.rowWaits g p r.table r.target = false →
      s.replaceRow g p r.table r.target (slotScale r.payload) (slotFlags r.payload) (slotElements r.payload t.elementBytes) = .applied s1 →
      exec (.rowWrite g r) s = .next ((if r.system then s1 else s1.chargeReplaced g p r.table r.target r.ctx).pushOp g
        (plainOp { r with kind := 3 } 0 0))) ∧
    (∀ t home off s1 old fl, served 4 → s.rowPlace g p r.table r.target = some (t, home, off) →
      (r.system || s.rangeAdmits g off t.slot r.ctx true) = true → s.rowWaits g p r.table r.target = false →
      let h := leNat (r.payload.take 8)
      let n := bitsOf h 47 32
      let w := addendBytes (h % 256)
      r.payload.length = 8 + n * w → n ≠ 0 → n ≤ 4096 →
      s.modifyRow g p r.table r.target ecc true (some { r with kind := 4 }) (addToElements (h % 256) (bitsOf h 31 16)
        ((List.range n).map (fun i => fieldLE r.payload (8 + w * i) w))) = .done s1 old fl →
      exec (.rowAdd g r ecc) s = .next (s1.pushOp g (plainOp { r with kind := 4 } 0 (recordMarks (joinFlags fl))))) ∧
    (∀ t home off s1 old fl, served 5 → s.rowPlace g p r.table r.target = some (t, home, off) →
      (r.system || s.rangeAdmits g off t.slot r.ctx true) = true → s.rowWaits g p r.table r.target = false →
      r.payload.length = 24 → s.modifyRow g p r.table r.target ecc false (some { r with kind := 5 })
        (casElements (fieldLE r.payload 0 8) (fieldLE r.payload 8 8) (fieldLE r.payload 16 8)) = .done s1 old fl →
      exec (.rowCas g r ecc) s = .next (s1.pushOp g { plainOp { r with kind := 5 } 0 (recordMarks (joinFlags fl)) with
        data := (old.drop (fieldLE r.payload 0 8)).take 8 })) ∧
    exec (.invoke g r) s = .next (s.updGleaner g (fun x => if r.forwarded then { x with forwardQueue := x.forwardQueue ++ [{ r with kind := 6 }] }
      else { x with queue := x.queue ++ [{ r with kind := 6 }] })) ∧
    (7 ≤ r.kind → (s.gleaner g).holding = false →
      (if r.forwarded then !(s.gleaner g).forwardQueue.isEmpty else (s.gleaner g).queueBlocks g r) = false → exec (.reservedRequestKind g r) s = .next (s.refuseInvalid g r))

/-- R258 to R262, R269, R270, R278, R280, R299, R306: what reaches a gleaner beside requests: channel accesses, tags, aborts, arriving rows,
and the start and end of its threads. -/
def Obligations.GleanersCompleteAndRelease : Prop :=
  ∀ (g t n : Nat) (s : State), g < 448 →
    let x := s.gleaner g
    (∀ o, x.ops[n]? = some o → s.retrains g = false → o.fetch = none → o.req.kind = 0 → o.mirror = 0 → o.bad = false →
      exec (.channelAccessComplete g n .clean) s = .next ((s.updGleaner g (fun x => x.dropOp n)).answerOp g o.req 0 o.data)) ∧
    (∀ o, x.ops[n]? = some o → s.retrains g = false → o.fetch = none → o.req.kind ≠ 0 → o.req.kind ≠ 5 →
      exec (.channelAccessComplete g n .clean) s = .next ((s.updGleaner g (fun x => x.dropOp n)).endRequest g o.req o.status 0 o.marks)) ∧
    (∀ o f, x.ops[n]? = some o → o.fetch = some f → f.stubble = 1 → f.got = none →
      let a := s.stubbleAnswer o.req f .clean
      let b := a.1.fetchStubble g f a.2
      exec (.stubbleRowArrive g (8 + n) 0 .clean) s = .next (b.1.finishRowRead g n o b.2)) ∧
    (∀ o, x.ops[n]? = some o → o.fetch = none → o.mirror = 1 →
      exec (.mirrorReadReturn g (8 + n) 0 .clean) s = .next ((s.mirrorMeets g o.req .clean).finishRawMirror g n o)) ∧
    (∀ o f, x.ops[n]? = some o → o.fetch = some f →
      exec (.loftDeadline g (8 + n)) s = .next ((s.fetchExpires g f).1.finishRowRead g n o (s.fetchExpires g f).2)) ∧
    (∀ first count word ctx,
      let bales := (List.range count).map (fun i => first + i)
      exec (.tagWrite g first count word ctx) s = .next (s.updGleaner g (fun x => { x.writeTags bales word with
        tagChanges := x.tagChanges ++ [{ bales := bales, ctx := ctx, old := s.oldRequests g bales }] }))) ∧
    (∀ c rest, x.tagChanges = c :: rest → c.bales.any (fun b => x.busyBales.contains b) = false →
      c.old.any (fun r => x.waitingReqs.contains r) = false →
      exec (.tagWriteDrained g) s = .next ((s.updGleaner g (fun x => { x with tagChanges := rest })).send (.tagAck g c.ctx))) ∧
    (∀ ctx requester value mask cause,
      let hit := abortMatches ctx requester value mask
      let keep (rs : List GReq) : List GReq := rs.filter (fun r => !hit r || decide (16 ≤ r.kind))
      let dropped := s.updGleaner g (fun x => { x with
        queue := keep x.queue, forwardQueue := keep x.forwardQueue, waiting := keep x.waiting, held := keep x.held, heldBale := keep x.heldBale })
      let ended := (x.waitingReqs.filter (fun r => hit r && decide (r.kind < 16))).foldl (fun s r => s.endRequest g r 4 0 0) dropped
      exec (.gleanerAbort g ctx requester value mask cause) s = .next (((x.threads.foldl (fun s e =>
        match e.2 with
        | some t => if hit t.req then (s.freeThread g e.1).endRequest g t.req 4 t.sent (t.allMarks ||| t.marks) else s
        | none => s) ended).drainQueue g).send (.acknowledge (gleanerUnit g).1 (gleanerUnit g).2 cause))) ∧
    (∀ r, (x.queue.take 64).find? (fun r => r.kind == 6) = some r → (List.range 8).find? (fun t => (Tbl.get none x.threads t).isNone) = some t →
      x.holding = false → exec (.threadStart g) s =
        .next (((s.updGleaner g (fun x => { x with queue := x.queue.erase r })).putThread g t (threadOf r s.devTime)).drainQueue g)) ∧
    (∀ th, Tbl.get none x.threads t = some th → th.phase = .atEnd → th.pendingRows = [] →
      exec (.glnEndRetire g t) s = .next (((s.closeRecord g th).1.freeThread g t).endRequest g th.req 0 (s.closeRecord g th).2.sent
        (s.closeRecord g th).2.allMarks)) ∧
    (∀ th, Tbl.get none x.threads t = some th → th.phase = .running → issueLimit ≤ th.issued →
      exec (.requestOverrun g t) s = .next (s.stopThread g t th 3 0)) ∧
    (∀ th q, t < 8 → Tbl.get none x.threads t = some th → th.pendingRows[n]? = some q → q.second = none → q.fetch.arrived = false →
      s.retrains g = false →
      let a := s.fetchArrives g th.req q.fetch .clean
      let c := a.1.combineReady g { th with pendingRows := th.pendingRows.set n { q with fetch := a.2 } }
      exec (.gpoolRowArrive g t n .clean) s = .next (c.1.putThread g t c.2))

/-- R263 to R265, R270, R276: the scalar instructions of a gleaner thread write their one register; the pc and the count of issued
instructions advance. -/
def Obligations.GleanerScalarsWriteTheirResult : Prop :=
  ∀ (g t : Nat) (w : GWord) (th : Thread) (s : State), g < 448 → Tbl.get none (s.gleaner g).threads t = some th →
    th.phase = .running → th.issued < 2 ^ 20 →
    let gives (v : Word64) : State := s.putThread g t { th with
      s := Tbl.set 0 th.s w.d.toNat v, pc := th.pc + 1, issued := th.issued + 1 }
    let a := th.scalar w.a
    let b := th.scalar w.b
    exec (.glnNop g t w) s = .next (s.putThread g t { th with pc := th.pc + 1, issued := th.issued + 1 }) ∧
    exec (.glnSli g t w) s = .next (gives (w.imm.signExtend 64)) ∧
    exec (.glnSlui g t w) s = .next (gives ((th.scalar w.d <<< 32) ||| w.imm.zeroExtend 64)) ∧
    exec (.glnSadd g t w) s = .next (gives (a + b)) ∧
    exec (.glnSsub g t w) s = .next (gives (a - b)) ∧
    exec (.glnSaddi g t w) s = .next (gives (a + w.imm.signExtend 64)) ∧
    exec (.glnSmul g t w) s = .next (gives (a * b)) ∧
    exec (.smulh g t w) s = .next (gives (BitVec.ofNat 64 (a.toNat * b.toNat / 2 ^ 64))) ∧
    exec (.glnSand g t w) s = .next (gives (a &&& b)) ∧
    exec (.glnSor g t w) s = .next (gives (a ||| b)) ∧
    exec (.glnSxor g t w) s = .next (gives (a ^^^ b)) ∧
    exec (.glnSshl g t w) s = .next (gives (a <<< (w.imm.toNat % 64))) ∧
    exec (.glnSshr g t w) s = .next (gives (a >>> (w.imm.toNat % 64))) ∧
    (∀ bs, th.arg (a + w.imm.signExtend 64).toNat 8 = some bs → exec (.sarg g t w) s = .next (gives (BitVec.ofNat 64 (leNat bs)))) ∧
    (w.mode.getLsbD 2 = false → exec (.hash g t w) s = .next (gives (BitVec.ofNat 64 (hashKey a.toNat b.toNat (w.mode.toNat % 4)))))

/-- R267, R270: LOOP, ENDLOOP (which is not counted as issued) and END of a gleaner thread. -/
def Obligations.GleanerLoopsAndEnd : Prop :=
  ∀ (g t : Nat) (w : GWord) (th : Thread) (s : State), g < 448 → Tbl.get none (s.gleaner g).threads t = some th →
    th.phase = .running → th.issued < 2 ^ 20 →
    let n := min (if w.mode.getLsbD 0 then (th.scalar w.a).toNat else w.imm.toNat) 65535
    let ran := { th with pc := th.pc + 1, issued := th.issued + 1 }
    (0 < n → exec (.glnLoop g t w) s = .next (s.putThread g t { ran with loops := { body := th.pc + 1, remaining := n } :: th.loops })) ∧
    (n = 0 → exec (.glnLoop g t w) s = .next (s.putThread g t { ran with
      pc := findLoopEnd (fun i => (s.gleanerCode g th.req).getD i 0 % 256) 512 (th.pc + 1) 0 })) ∧
    (∀ f fs, th.loops = f :: fs → 1 < f.remaining → exec (.glnEndloop g t w) s =
      .next (s.putThread g t { th with pc := f.body, loops := { f with remaining := f.remaining - 1 } :: fs })) ∧
    (∀ f fs, th.loops = f :: fs → f.remaining ≤ 1 → exec (.glnEndloop g t w) s =
      .next (s.putThread g t { th with pc := th.pc + 1, loops := fs })) ∧
    exec (.glnEnd g t w) s = .next (s.putThread g t { ran with phase := .atEnd })

/-- R264 to R274: the instructions of a gleaner thread that work on its vector registers, its record, and rows, where no register they
use awaits a row. -/
def Obligations.GleanerVectorAndRowInstructions : Prop :=
  ∀ (g t : Nat) (w : GWord) (th : Thread) (s : State), g < 448 → Tbl.get none (s.gleaner g).threads t = some th →
    th.phase = .running → th.issued < 2 ^ 20 →
    let ran := { th with pc := th.pc + 1, issued := th.issued + 1 }
    let p := s.reqPart th.req
    let a := w.a.toNat
    let fmt := w.fmt.toNat
    let done (r : State × Thread) : Host.Outcome State Fault Refusal := .next (r.1.putThread g t r.2)
    let orders (row : Nat) : Nat := s.ordererOf g (tableKey p th.req.table) row
    let free (row : Nat) : Prop := s.rowHeld g th.req th.req.table row = false ∧
      (s.gleaner (orders row)).waiting.any (fun q => q.kind == progKind g t) = false ∧ s.rowWaits (orders row) p th.req.table row = false ∧
      s.stopsWrites (orders row) { th.req with kind := 4, target := row } = false
    (th.busy w.d.toNat = false → th.busy a = false → th.busy w.b.toNat = false →
      let f (i : Nat) : Word64 × NumFlags := match w.mode.toNat % 4 with
        | 0 => wideSum fmt (wideValue fmt (th.lane a i)) (wideValue fmt (th.lane w.b.toNat i))
        | 1 => wideProd fmt (wideValue fmt (th.lane a i)) (wideValue fmt (th.lane w.b.toNat i))
        | 2 => wideMax fmt (th.lane a i) (th.lane w.b.toNat i)
        | _ => (0, flagNone)
      exec (.vop g t w) s = done (raiseG s g (ran.setWide w.d.toNat (fun i => (f i).1)) ((List.range 128).map (fun i => (f i).2)))) ∧
    (∀ q, th.busy a = false → w.imm.toNat % 4 = 0 → th.arg w.imm.toNat 512 = some q → w.mode.getLsbD 0 = false →
      let prods := (List.range 128).map (fun i => mulValue (wideValue fmt (th.lane a i)) (valueB32 (fieldLE q (4 * i) 4)))
      let first : List LaneOut := (List.range 64).map (fun i =>
        let z := addValue .rne (prods.getD i (.nan, false)).1 (prods.getD (i + 64) (.nan, false)).1
        roundArith .b32 .rne (z.1, (prods.getD i (.nan, false)).2 || (prods.getD (i + 64) (.nan, false)).2 || z.2))
      let sum := ([32, 16, 8, 4, 2, 1].foldl (fun ys h => reduceLevel (laneAdd .b32 .rne) h ys) first).getD 0 (0, flagNone)
      exec (.dot g t w) s = done (raiseG s g (ran.setScalar w.d (sum.1.zeroExtend 64)) [sum.2])) ∧
    (w.mode.getLsbD 0 = false →
      let e := sfuBuiltin .exp .sf32 (valueB32 ((th.scalar w.a).toNat % 2 ^ 32))
      let sum := wideSum 1 (wideValue 1 (th.scalar w.d)) (decodeFloat .sf32 layoutSF32 e.1)
      exec (.expacc g t w) s = done (raiseG s g (ran.setScalar w.d sum.1) [e.2, sum.2])) ∧
    (∀ row weight tb f, (th.pendingRows.filter (fun q => q.vd == w.d.toNat % 8)).length < 32 → th.poolEntry w = some (row, weight) →
      (s.planOf p).bind (fun pl => pl.tableOf th.req.table) = some tb → tb.kind < 3 → wideInt fmt = false → w.mode.getLsbD 2 = false → s.poolHeld g th.req row = false →
      s.findRow g p th.req.table row th.req.cls (if th.req.pinned then some th.req.epoch else none) = .row f →
      (th.req.system || s.fetchAdmits g th.req.ctx f) = true →
      let i := s.issueFetch g th.req { f with expired := th.late }
      let row : PendingRow :=
        { fetch := i.2, second := none, vd := w.d.toNat % 8, block := w.imm.toNat % 32, comb := w.mode.toNat % 4, fmt := fmt, weight := weight }
      exec (.gpool g t w) s = done (i.1.combineReady g { ran with count := th.count + 1, pendingRows := th.pendingRows ++ [row] })) ∧
    (∀ ecc tb off s1 old fl, th.busy w.b.toNat = false → (s.planOf p).bind (fun pl => pl.tableOf th.req.table) = some tb →
      s.rowWritable g th.req (th.scalar w.a).toNat = some (true, off) → free (th.scalar w.a).toNat →
      s.modifyRow g p th.req.table (th.scalar w.a).toNat ecc true (some th.req) (addToElements fmt (128 * w.imm.toNat)
        ((List.range (min 128 (tb.elements - 128 * w.imm.toNat))).map (fun i =>
          if fmt = 11 then (th.lane w.b.toNat i).toNat else (th.lane w.b.toNat i).toNat % 2 ^ 32))) = .done s1 old fl →
      exec (.addm g t w ecc) s = done (s1, { ran with allMarks := th.allMarks ||| recordMarks (joinFlags fl), replaced := true })) ∧
    (∀ ecc off s1 old fl, s.rowWritable g th.req (th.scalar w.a).toNat = some (true, off) → free (th.scalar w.a).toNat →
      s.modifyRow g p th.req.table (th.scalar w.a).toNat ecc false (some th.req)
        (casElements w.imm.toNat (th.scalar w.b).toNat (th.scalar w.d).toNat) = .done s1 old fl →
      exec (.casm g t w ecc) s = done (s1, { ran.setScalar w.d (BitVec.ofNat 64 (fieldLE old w.imm.toNat 8)) with
        allMarks := th.allMarks ||| recordMarks (joinFlags fl), replaced := true })) ∧
    (th.busy a = false → w.mode.toNat % 4 = 0 → 1 ≤ w.imm.toNat → w.imm.toNat ≤ 128 → ∀ th1,
      let cells := (List.range w.imm.toNat).map (fun i => recordBytes fmt (th.lane a i))
      ran.append (cells.flatMap Prod.fst) = some th1 → exec (.emit g t w) s = done (raiseG s g th1 (cells.map Prod.snd))) ∧
    (∀ th1, ran.append (recordBytes fmt (th.scalar w.a)).1 = some th1 →
      exec (.emits g t w) s = done (raiseG s g th1 [(recordBytes fmt (th.scalar w.a)).2])) ∧
    (∀ tb off s1, (s.planOf p).bind (fun pl => pl.tableOf th.req.table) = some tb →
      s.rowWritable g th.req (th.scalar w.a).toNat = some (true, off) → free (th.scalar w.a).toNat → th.record.length = tb.elementBytes →
      let o := orders (th.scalar w.a).toNat
      s.replaceRow o p th.req.table (th.scalar w.a).toNat ((th.scalar w.b).toNat % 65536) 0 th.record = .applied s1 →
      exec (.wrow g t w) s = done (s1.chargeReplaced o p th.req.table (th.scalar w.a).toNat th.req.ctx,
        { ran with isOpen := false, record := [], marks := 0, count := 0, allMarks := th.allMarks ||| th.marks, replaced := true }))

/-- R233, R234, R236, R242, R243, R249, R251, R425: the table commands of a queue, once dispatched, and what they set off at the gleaners: writes of rows,
epoch advances with their distribution and acknowledgements, held pins, pin sets, and the end of a load window. -/
def Obligations.TableCommandsRun : Prop :=
  ∀ (q seq g table : Nat) (c : Cmd) (t : TableDesc) (s : State), q < 1024 → g < 448 →
    let p := (s.queue q).part
    let ctx := (s.queue q).context
    let plan (n : Nat) := (s.planOf p).bind (fun pl => pl.tableOf n)
    (∀ src, s.dispatched q seq 0x10 = some c → plan (c.field 0 2) = some t → (c.field 2 1).testBit 0 = false → (c.ref 0).form ≠ 0 →
      c.field 8 4 * t.slot ≤ (c.ref 0).len → ∀ u, s.ctxFetch ctx (tagOf q seq) (c.ref 0).addr (c.field 8 4 * t.slot) = (u, 0, src) →
      let outs := ((List.range (c.field 8 4)).map (fun i =>
        (u.routeRow (24 + (s.queue q).inst) p (c.field 0 2) (c.field 3 5 + i) false false).map (fun g =>
          Out.request g (rowWriteFor ctx (tagOf q seq) (s.queue q).inst (c.field 0 2) (c.field 3 5 + i)
            ((src.drop (i * t.slot)).take t.slot))))).filterMap (fun o => o)
      outs ≠ [] → outs.length = c.field 8 4 → exec (.tableWrite q seq) s =
        .next ((u.sendAll outs).updCmd q seq (fun c => { c with phase := .running, live := outs.length }))) ∧
    (s.dispatched q seq 0x11 = some c → plan (c.field 0 2) = some t →
      let e := ((s.board p (c.field 0 2)).epoch + 1) % 2 ^ 32
      let gs := s.tableGleaners p (c.field 0 2)
      (s.pinnedEpochs p (c.field 0 2)).length < 16 →
      (s.pinnedEpochs p (c.field 0 2)).any (fun d => decide (2 ^ 31 ≤ (e + 2 ^ 32 - d) % 2 ^ 32)) = false →
      (s.part p).advances.any (fun a => a.table == c.field 0 2) = false → gs ≠ [] →
      let u := (s.updPart p (fun x => { x with
        boards := Tbl.modify { epoch := 0, leases := [] } x.boards (c.field 0 2) (fun b => { b with epoch := e })
        advances := x.advances ++ [{ part := p, table := c.field 0 2, epoch := e, waiting := gs, queue := q, seq := seq }] })).updCmd q seq
          (fun c => { c with phase := .running })
      exec (.epochAdvance q seq) s = .next (u.sendAll (gs.map (fun g => .epoch g p (c.field 0 2) e (u.pinnedEpochs p (c.field 0 2)))))) ∧
    (∀ n epoch pins, n < 8 → exec (.epochDistribute g n table epoch pins) s = .next (((s.updGleaner g (fun x => { x with
      epochs := Tbl.set 0 x.epochs (tableKey n table) epoch, pinned := Tbl.set [] x.pinned (tableKey n table) pins })).retryWaiting g).send
        (.epochAck g n table))) ∧
    (∀ n a, n < 8 → (s.part n).advances.find? (fun a => a.table == table && a.waiting.contains g) = some a → a.waiting.erase g = [] →
      exec (.epochAck g n table) s = .next (s.finishEpoch { a with waiting := [] })) ∧
    (∀ i, s.dispatched q seq 0x12 = some c → plan (c.field 0 2) = some t → t.pinnable = true →
      (List.range 1024).find? (fun i => !(s.part p).heldPins.any (fun h => h.handle == i + 1)) = some i →
      let e := (s.board p (c.field 0 2)).epoch
      exec (.tablePin q seq) s = .next ((s.changePins p (c.field 0 2) (fun s => s.updPart p (fun x => { x with
        heldPins := x.heldPins ++ [{ handle := i + 1, table := c.field 0 2, epoch := e, ctx := ctx, queue := q }] }))).finishResult q c
          (c.ref 0) (natLE 4 (i + 1) ++ natLE 4 e))) ∧
    (s.dispatched q seq 0x13 = some c → (s.part p).heldPins.any (fun h => h.handle == c.field 0 2 && h.ctx == ctx) = true →
      exec (.tableUnpin q seq) s = .next ((s.dropPins p (fun h => h.handle == c.field 0 2 && h.ctx == ctx)).finishCmd q seq 0)) ∧
    (∀ n epochs, n < 8 → exec (.pinSetUpdate g n table epochs) s = .next ((s.updGleaner g (fun x => { x with
      pinned := Tbl.set [] x.pinned (tableKey n table) epochs })).retryWaiting g)) ∧
    let sent := (s.gleaner g).load.foldl (fun s e => s.emitLoad g e.1 e.2) s
    let recorded := sent.updGleaner g (fun x => { x with
      history := (x.history.map Prod.fst ++ x.load.map Prod.fst).eraseDups.foldl (fun h k =>
        let last := ((Tbl.get bayLoadZero x.load k).lookups :: Tbl.get [] x.history k).take 8
        Tbl.set [] h k (if last.all (fun n => n == 0) then [] else last)) x.history })
    exec (.loadWindow g) s = .next ((((recorded.settleReplicas g).replicateHot g).balance g).updGleaner g (fun x => { x with
      load := [], window := (x.window + 1) % 2 ^ 32 }))

/-- R244 to R249: a migration from its command to its last marker, at the bay map copies, the source and the destination. -/
def Obligations.MigrationsMoveARow : Prop :=
  ∀ (q seq g k tk row source : Nat) (d : Displaced) (s : State), q < 1024 → g < 448 → k < 28 →
    let p := tk / 4096
    let x := s.gleaner g
    let upd (f : Displaced → Displaced) : State := s.updGleaner g (fun x => { x with map := x.map.map (fun e => if e = d then f e else e) })
    (∀ c t src off dst o, s.dispatched q seq 0x14 = some c → (s.planOf (s.queue q).part).bind (fun pl => pl.tableOf (c.field 0 2)) = some t →
      s.moveCheck (s.queue q).part (c.field 0 2) (c.field 2 5) (c.field 7 4) = .inr (src, off, dst, o) →
      s.rolls src = false → s.rolls dst = false → exec (.migrate q seq) s =
        .next ((s.startMove (s.queue q).part (c.field 0 2) (c.field 2 5) (c.field 7 4) src off dst o (tagOf q seq)).updCmd q seq
          (fun c => { c with phase := .running }))) ∧
    (x.mapOf tk row = some d →
      (∀ slot, d.state = .taking → exec (.migrationCopy g source tk row slot true) s =
        .next ((s.updGleaner g (fun x => x.putSlot d.offset (slotForward slot false))).send (.moveAck source tk row))) ∧
      (∀ t, d.state = .copying → (s.planOf p).bind (fun pl => pl.tableOf (tk % 4096)) = some t → exec (.migrationCopyAck g tk row) s =
        .next (((s.updGleaner g (fun x => { x.forgetRow tk row with
          data := x.data.put d.offset (slotForward (x.slotAt d.offset t.slot) true)
          map := x.map.map (fun e => if e = d then { e with state := .forward, count := (s.copiesOfPart p).length } else e) })).send
            (.forwardStart d.peer tk row)).sendAll ((s.copiesOfPart p).map (fun k => .moveUpdate k tk row d.peer g)))) ∧
      (∀ h, d.state = .taking → s.rowHome p (tk % 4096) row = some h → d.bay ≠ h.2.2.1 → exec (.forwardStart g tk row) s =
        .next ((upd (fun e => { e with state := .ordering })).updGleaner g (fun x => { x with moved := x.moved ++ [(tk, row, d.offset)] }))) ∧
      (d.state = .forward → 1 < d.count → exec (.moveMarker g tk row k) s =
        .next ((s.send (.moveMarkerForward d.peer tk row k)).updGleaner g (fun x => { x with
          map := x.map.map (fun e => if e = d then { e with count := e.count - 1 } else e) }))) ∧
      (d.state = .ordering →
        let hit (r : GReq) : Bool := tableKey (s.reqPart r) r.table == tk && r.target == row && r.requester == k
        let marked := d.marked ||| 2 ^ k
        (s.copiesOfPart p).all (fun c => marked.testBit c) = true → exec (.moveMarkerForward g tk row k) s =
          .next (((((s.updGleaner g (fun x => { x with
            held := x.held.filter (fun r => !hit r)
            map := x.map.map (fun e => if e = d then { e with marked := marked } else e) })).takeHeld g (x.held.filter hit)).drainQueue
              g).updGleaner g (fun x => x.dropMap tk row)).finishMove d.tag 0))) ∧
    (∀ dest, s.rowHome p (tk % 4096) row = none → exec (.moveUpdate k tk row dest source) s =
      .next ((s.updCopyMap k (fun m => { m with
        moves := m.moves.filter (fun e => !(e.1 == tk && e.2.1 == row)) ++ [(tk, row, dest)] })).send (.moveMarker source tk row k)))

/-- R232, R250, R251, R299, R307, R309: replicas and stubble rows, the patrol scrub, the poison recheck, evacuation and the retraining of
a package's interface. -/
def Obligations.CopiesAndUpkeepOfChannels : Prop :=
  ∀ (q seq g tk row k stack : Nat) (s : State), q < 1024 → g < 448 → stack < 12 →
    let p := tk / 4096
    let x := s.gleaner g
    (∀ c t home hbay off, s.dispatched q seq 0x15 = some c → c.field 7 1 = 0 →
      let n := (s.queue q).part
      let table := c.field 0 2
      let target := c.field 2 5
      (s.planOf n).bind (fun pl => pl.tableOf table) = some t → s.holderOf n table target = some home →
      s.rowPlace home n table target = some (t, hbay, off) →
      (s.gleaner home).replicas.find? (fun r => r.table == tableKey n table && r.row == target) = none →
      (s.gleaner home).mapOf (tableKey n table) target = none →
      let places := s.replicaPlaces home n table t.slot (c.field 8 1)
      c.field 8 1 ≤ places.length → sumNat (s.gleaners.map (fun e => (e.2.replicas.filter (fun r => r.table / 4096 == n)).length)) < 16384 →
      let slot := (s.gleaner home).slotAt off t.slot
      let entry : ReplicaEntry := { table := tableKey n table, row := target, holders := places, quiet := 0 }
      let placed := (places.foldl (fun s g => s.placeReplica g (tableKey n table) target slot) s).updGleaner home (fun x => { x with
        data := x.data.put off (slotHot slot true), replicas := x.replicas ++ [entry] })
      exec (.replicate q seq) s = .next (((placed.copiesOfPart n).foldl (fun s k =>
        s.updCopyMap k (fun m => { m with replicas := m.replicas ++ [entry] })) placed).finishResult q c (c.ref 0) (natLE 4 0))) ∧
    (∀ slot, s.bayHere g p (tk % 4096) row 1 = none → exec (.replicaRefresh g tk row slot) s = .next (s.updGleaner g (fun x => { x with
      cache := x.cache.map (fun c => if c.table = tk ∧ c.row = row ∧ c.kind = 1 then { c with slot := slot } else c) }))) ∧
    (∀ slot t i b, s.bayHere g p (tk % 4096) row 2 = some (t, i, b) → exec (.stubbleRefresh g tk row slot) s =
      .next (s.updGleaner g (fun x => x.putSlot (s.baySlot b t (row - b.firstRow)) slot))) ∧
    (∀ c, x.cached tk row 1 = some c → c.withdrawing = true → exec (.replicaWithdrawMarker g tk row k) s =
      .next (s.updGleaner g (fun x => { x with
        cache := if (s.copiesOfPart p).all (fun j => (c.markers ||| 2 ^ k).testBit j) then x.cache.erase c
          else x.cache.map (fun e => if e = c then { e with markers := c.markers ||| 2 ^ k } else e) }))) ∧
    (x.unitBad x.scrubCursor = 0 →
      let last := x.scrubCursor + 1 == channelBytes (isLoft g) / 64
      exec (.patrolRead g .clean) s = .next (s.updGleaner g (fun x => { x with
        scrubCursor := if last then 0 else x.scrubCursor + 1, scrubLapped := x.scrubLapped || last }))) ∧
    (∀ bale, (x.tag bale).poison = true → x.rangeBad (65536 * bale) 65536 = false → exec (.poisonRecheck g bale) s =
      .next (s.updGleaner g (fun x => { x with
        tags := Tbl.set tagReset x.tags bale { x.tag bale with poison := false }, poisoned := x.poisoned - 1 }))) ∧
    (∀ n, (s.stack stack).evacuating = some n →
      let m := s.stack stack
      let old := stack * 32 + m.oldPhys
      let new := stack * 32 + m.phys.getD n n
      let u := if m.cursor = 0 then s else s.evacuationMarker old new (m.cursor - 1)
      let handed := (u.copyBale old new (65536 * m.cursor) (65536 * m.cursor) 2 (fun _ => true)).handRows old new (fun off => off / 65536 == m.cursor)
      (m.cursor = channelBytes false / 65536 →
        exec (.evacuateBale stack) s = .next (u.setStack stack { m with cursor := 0, evacuating := none })) ∧
      (m.cursor ≠ channelBytes false / 65536 → (u.gleaner old).map.any (fun d => d.offset / 65536 == m.cursor) = false →
        (u.gleaner old).stubs.length < 16 → exec (.evacuateBale stack) s = .next (((handed.updGleaner new (fun y => { y with
          tags := Tbl.set tagReset y.tags m.cursor { (u.gleaner old).tag m.cursor with poison := (y.tag m.cursor).poison }
          baleHold := y.baleHold ++ [m.cursor] })).updGleaner old (fun x => { x with
            stubs := x.stubs ++ [{ bale := m.cursor, dest := new, destBale := m.cursor }] })).setStack stack { m with cursor := m.cursor + 1 }))) ∧
    (∀ n, n < 16 → s.loft.retraining.testBit n = false → exec (.interfaceRetrainingStart n) s =
      .next { s with loft := { s.loft with retraining := s.loft.retraining ||| 2 ^ n } }.noteUnits) ∧
    (∀ n, n < 16 → s.loft.retraining.testBit n = true → exec (.interfaceRetrainingDone n) s =
      .next { s with loft := { s.loft with retraining := s.loft.retraining - 2 ^ n } }.noteUnits)

/-- R290 to R294: a bale of a TIERED segment flips to its new place, and its drain marker ends the move. -/
def Obligations.BalesFlipBetweenTiers : Prop :=
  ∀ (c seg bale : Nat) (g : Segment) (m : BaleMove) (lg lo fg fo : Nat) (s : State),
    s.planSegment c seg = some g → s.loftSlot g bale = some (lg, lo) → s.frameSlot g m.frame = some (fg, fo) →
    let t := s.tier c seg
    let from_ := if m.promote then (lg, lo) else (fg, fo)
    let dst := if m.promote then (fg, fo) else (lg, lo)
    (t.moves.find? (fun m => m.bale == bale && !m.flipped) = some m → (s.gleaner from_.1).stubs.length < 16 →
      let copied := s.copyBale from_.1 dst.1 from_.2 dst.2 0 (fun i => m.promote || Tbl.get false t.dirty (1024 * bale + i))
      let stubbed := (copied.updGleaner from_.1 (fun x => { x with
        stubs := x.stubs ++ [{ bale := from_.2 / 65536, dest := dst.1, destBale := dst.2 / 65536 }] })).updGleaner dst.1 (fun x => { x with
          baleHold := x.baleHold ++ [dst.2 / 65536] })
      let moved := stubbed.setTier c seg { t with
        resident := Tbl.set 0 t.resident bale (if m.promote then m.frame + 1 else 0)
        order := if m.promote then t.order else t.order.erase bale
        dirty := t.dirty.filter (fun e => e.1 / 1024 != bale)
        moves := t.moves.map (fun x => if x = m then { m with flipped := true, drains := s.translated c } else x) }
      exec (.baleFlip c seg bale) s = .next ({ moved with
        loft := if m.promote then { moved.loft with promoted := moved.loft.promoted + 1 }
          else { moved.loft with demoted := moved.loft.demoted + 1 } }.baleDone m.cluster m.serial bale).pumpTiers) ∧
    (t.moves.find? (fun m => m.bale == bale && m.flipped) = some m → m.drains.any (fun d => (s.xferOf d.1 d.2).isSome) = false →
      let unstub := s.updGleaner from_.1 (fun x => { x with stubs := x.stubs.filter (fun y => y.bale != from_.2 / 65536) })
      let freed := unstub.updGleaner dst.1 (fun x => { x with
        baleHold := x.baleHold.erase (dst.2 / 65536), heldBale := x.heldBale.filter (fun r => r.target / 65536 != dst.2 / 65536) })
      exec (.baleDrainMarker c seg bale) s = .next (((freed.setTier c seg { freed.tier c seg with moves := t.moves.erase m }).takeHeld dst.1
        ((unstub.gleaner dst.1).heldBale.filter (fun r => r.target / 65536 == dst.2 / 65536))).pumpTier c seg))

/-- R407 to R419, R449: doorbells, the fetch of a command in its queue's turn (or the wait for its seal), its dispatch, and the commands NOP, SEMSET and RUN. -/
def Obligations.FrontEndFetchesAndDispatches : Prop :=
  ∀ (f q seq : Nat) (s : State), f < 32 → q < 1024 → s.mgmt.ready = true →
    let x := s.queue q
    (∀ p tail head, s.partOfQueue q = some p → s.ownsPart f p = true →
      ((s.attOf f).isSome = true ∨ (List.range 32).any (fun a => (s.att a).state == 2 && (s.att a).fn == f) = false) → x.state = 1 →
      tail.any (fun t => ahead t x.head && decide (2 ^ x.slotsLog2 < aheadBy t x.head)) = false →
      exec (.doorbell f q tail head) s = .next (s.updQueue q (fun x => { x with
        tail := match tail with
          | some t => if ahead t x.tail then t % 2 ^ 32 else x.tail
          | none => x.tail
        cqHead := match head with
          | some h => if ahead h x.cqHead then h % 2 ^ 32 else x.cqHead
          | none => x.cqHead }))) ∧
    (∀ tail, exec (.adminDoorbell f tail) s = .next (s.updFn f (fun h => { h with adminTail := BitVec.ofNat 32 tail }))) ∧
    (∀ c, s.fetchStops q = false → x.waitSeal = none → s.headCommand q = (none, some c) →
      (s.fetchTurn x.inst = some q → exec (.commandFetch q) s = .next ((s.takeWork q c.1 c.2).passTurn q)) ∧
      (s.fetchTurn x.inst ≠ some q → exec (.commandFetch q) s = .next s)) ∧
    (∀ i, s.fetchStops q = false → x.waitSeal = none → s.headCommand q = (some i, none) → exec (.commandFetch q) s =
      .next ({ s with gfe := { s.gfe with early := s.gfe.early + 1, status := s.gfe.status ||| 4 } }.updQueue q (fun x => { x with
        waitSeal := some i }))) ∧
    (∀ c, s.fetchStops q = false → x.waitSeal.isSome = true → s.headCommand q = (none, some c) →
      exec (.sealRecheck q) s = .next (s.takeWork q c.1 c.2)) ∧
    (∀ i, s.fetchStops q = false → x.waitSeal = some i → s.headCommand q = (some i, none) → exec (.sealRecheck q) s = .next s) ∧
    (∀ c u, x.nextParsed = some c → x.state = 1 →
      (c.flags.testBit 0 && x.cmds.any (fun d => decide (d.seq < c.seq) && d.phase != CmdPhase.complete)) = false →
      s.workWait q c = .go u →
      let v (ph : CmdPhase) := (u.updQueue q (fun x => { x with waitEvent := false })).updCmd q c.seq (fun c => { c with
        granted := true, phase := ph })
      ((c.op ≠ 0x01 ∨ u.runHeld q c = false) → exec (.commandDispatch q) s = .next { v .dispatched with gfe := { (v .dispatched).gfe with
        dispatched := (v .dispatched).gfe.dispatched + 1 } }) ∧
      (c.op = 0x01 → u.runHeld q c = true → exec (.commandDispatch q) s = .next (v .parsed))) ∧
    (∀ c, s.dispatched q seq 0x00 = some c → exec (.cmdNop q seq) s = .next (s.finishCmd q seq 0)) ∧
    (∀ c, s.dispatched q seq 0x20 = some c → c.field 0 2 < s.semCount x.part → exec (.semSet q seq) s =
      .next (((s.updSem (s.semBase x.part + c.field 0 2) (fun m => { m with
        value := c.field 2 8, holder := none, revoked := false })).grantSem (s.semBase x.part + c.field 0 2)).finishCmd q seq 0)) ∧
    (∀ c d pl b pin, s.dispatched q seq 0x01 = some c → (s.part x.part).desc = some d → s.planOf x.part = some pl →
      pl.bindingOf (q - d.queues.1) = some b →
      let work := c.field 2 3
      let shares := work % 128 + 1
      let cls := if bitsOf work 10 7 = 15 then b.cls else bitsOf work 10 7
      let cs := (List.range 24).filter (fun n => !(s.cluster n).retired && (match pl.pool b.stage with
        | some pool => 0 < pool.coresIn n
        | none => false))
      s.pinOf x.part x.context (bitsOf work 21 11) = pin → cs ≠ [] →
      let share (i at_ : Nat) : WorkItem :=
        { kind := .share (shareRecord q i shares cls ((pin.map (fun h => h.epoch)).getD 0) c), part := x.part, ctx := x.context
          relCtx := x.context - d.contexts.1, stage := b.stage, tag := tagOf q seq, rows := [], marks := 0, priority := b.priority
          cls := cls, entered := s.devTime, order := at_, started := 0, pins := []
          heldPin := pin.map (fun h => (h.table, h.epoch)), added := false, wrote := false, preempted := false, units := 0
          staged := 0, failedCores := [], homeCluster := cs.getD (i % cs.length) 0, forced := false }
      exec (.run q seq) s = .next ((List.range shares).foldl (fun u i =>
        ({ u with gfe := { u.gfe with clock := u.gfe.clock + 1 } }).enlist (cs.getD (i % cs.length) 0)
          { share i u.gfe.clock with entered := u.devTime }) (s.updCmd q seq (fun c => { c with phase := .running, live := shares }))))

/-- R413, R422 to R428, R430: the end of a command's work, its completion record, the semaphore window, and the life of a queue. -/
def Obligations.QueuesCompleteAndClose : Prop :=
  ∀ (f q : Nat) (s : State), f < 32 → q < 1024 →
    let x := s.queue q
    (∀ (tag marks code ended released : Nat) c, s.cmdOfTag tag = some (q, c) → c.phase = .running →
      let live := c.live + released - ended
      let u := s.updCmd q c.seq (fun c => { c with live := live, marks := c.marks ||| marks, code := max c.code code })
      exec (.workEndNotice tag marks code ended released) s = .next (if live = 0 ∧ !c.stopped then u.finishCmd q c.seq 0 else u)) ∧
    (∀ c rest, x.cmds = c :: rest → x.state = 1 → c.phase = .complete → ahead c.seq (x.cqHead + 2 ^ x.recordsLog2) = false →
      s.queueChecked q = false → s.cstop q = false → (s.att x.attachment).withheld.any (fun k => k.queue == some q) = false →
      let w := s.recordWrite q c.seq (statusWord c.code c.marks false) c.userTag (if c.flags.testBit 1 then some x.vector else none)
      let u := s.updQueue q (fun x => { x with cmds := rest })
      exec (.completionRecordIssue q) s =
        .next ({ u with host := { u.host with cmirror := Tbl.set 0 u.host.cmirror q c.seq } }.issueCompletion q w)) ∧
    (∀ n, s.mgmt.ready = true → n < 65536 →
      (List.range 8).any (fun p => s.ownsPart f p && decide (s.semBase p ≤ n) && decide (n < s.semBase p + s.semCount p)) = true →
      let m := s.sem n
      exec (.semSelect f n) s = .next { s with gfe := { s.gfe with
        semSelect := BitVec.ofNat 16 n
        semState := BitVec.ofNat 32 ((m.holder.getD 0) % 256 + 256 * m.holder.isSome.toNat + 512 * m.revoked.toNat +
          65536 * (m.waiters.length % 2048))
        semValue := BitVec.ofNat 64 m.value } }) ∧
    (∀ c u p a d ring, s.runsAdmin f 0x83 c u → c.field 0 2 = q → u.adminResultOk f (c.field 16 8) 4 = true →
      u.partOfQueue q = some p → u.attOf f = some a → (u.part p).desc = some d → u.ownsPart f p = true → (u.queue q).state = 0 →
      (q = d.queues.1 ∨ (u.queue d.queues.1).state = 1) → c.field 2 1 ≤ 2 → c.field 3 1 < d.contexts.2 → 6 ≤ c.field 12 1 → c.field 12 1 ≤ 16 →
      4 ≤ c.field 13 1 → c.field 13 1 ≤ 16 → c.field 14 2 < 2048 → outAtt (fieldLE c.inline 0 8) = a →
      u.adminResultOk f (fieldLE c.inline 0 8) (16 * 2 ^ c.field 13 1) = true →
      let inst := if q = d.queues.1 then (u.part p).home else if c.field 2 1 = 2 then fnInst f else c.field 2 1
      u.ringPieces inst (d.contexts.1 + c.field 3 1) (c.field 4 8) (2 ^ c.field 12 1) = some ring →
      let v := u.updQueue q (fun _ => { queueReset with
        state := 1, inst := inst, attachment := a, part := p, context := d.contexts.1 + c.field 3 1, ring := ring
        ringOffset := c.field 4 8 % 65536, slotsLog2 := c.field 12 1, recordsLog2 := c.field 13 1, cq := fieldLE c.inline 0 8
        vector := c.field 14 2 })
      exec (.queueCreate f) s = .next (({ v with host := { v.host with cmirror := Tbl.set 0 v.host.cmirror q 0 } }.clearSeals q).answerAdmin f
        (c.field 16 8) (natLE 4 outDone))) ∧
    (∀ c u p d, s.runsAdmin f 0x84 c u → c.field 0 2 = q → u.adminResultOk f (c.field 2 8) 4 = true → u.partOfQueue q = some p →
      (u.part p).desc = some d → u.ownsPart f p = true → (u.queue q).state = 1 →
      (q ≠ d.queues.1 ∨ u.gfe.queues.any (fun e => e.1 != q && e.2.part == p && e.2.state != 0) = false) →
      let v := u.updQueue q (fun x => { x with
        state := 2, destroyer := some f, waitSeal := none, waitEvent := false
        cmds := x.cmds.map (fun c => { c with
          stopped := true, code := if c.stopped then c.code else codeAborted
          phase := if c.phase = CmdPhase.parsed then .complete else c.phase }) })
      let sems := Tbl.mapWhere semReset v.gfe.sems (fun _ (m : Semaphore) => m.waiters.contains q) (fun m => { m with
        waiters := m.waiters.filter (fun y => y != q) })
      let w := { v with gfe := { v.gfe with sems := sems } }.dropPins p (fun h => h.queue == q)
      exec (.queueDestroy f) s = .next ((w.sendAll (w.queueAborts q)).beginAdmin f)) ∧
    (x.state = 2 → s.queueBusy q = false → x.cmds = [] →
      let u := s.issueCompletion q (s.recordWrite q x.nextSeq (statusWord codeAborted 0 true) (2 ^ 32 - 1) none)
      let v := { u with host := { u.host with cmirror := Tbl.set 0 u.host.cmirror q x.nextSeq } }
      let z := { v with gfe := { v.gfe with queues := Tbl.set queueReset v.gfe.queues q queueReset } }
      (x.destroyer = none → exec (.queueDestroyFinal q) s = .next z) ∧
      (∀ n c, x.destroyer = some n → z.admin n = some c →
        exec (.queueDestroyFinal q) s = .next (z.answerAdmin n (c.field 2 8) (natLE 4 outDone))))

/-- R37 to R41, R65 to R70: partitions and the loader: PARTITION_DEFINE and the end of its scrub, PLAN_LOAD, and the start, decision and
installation of a load. -/
def Obligations.PartitionsAndLoadsProceed : Prop :=
  ∀ (f : Nat) (c : AdminCmd) (u s : State),
    (∀ d, s.runsAdmin f 0x80 c u → u.adminResultOk f (c.field 0 8) 64 = true → fieldLE c.inline 0 1 < 8 → fieldLE c.inline 1 3 = 0 →
      fieldLE c.inline 0xC0 64 = 0 → f % 16 = 0 → parseDesc c.inline = d →
      let p := fieldLE c.inline 0 1
      u.planOf p = none → u.loading p = false → u.loader.scrubs.any (fun x => x.part == p) = false → d.empty = false → u.conflict p d = none →
      let has (test : PartitionDesc → Bool) : Bool := match (u.part p).desc with
        | some o => test o
        | none => false
      let clusters := (bitsSet d.clusters 24).filter (fun n => !has (fun o => o.clusters.testBit n))
      let job : Scrub := { fn := f, result := c.field 0 8, part := p, clusters := sumNat (clusters.map (fun n => 2 ^ n))
                           channels := d.channels.filter (fun ch => !has (fun o => o.channels.contains ch)) }
      exec (.partitionDefine f) s = .next (((u.redefine p d f).updLoader (fun l => { l with scrubs := l.scrubs ++ [job] })).beginAdmin f)) ∧
    (∀ p job, p < 8 → s.loader.scrubs.find? (fun x => x.part == p) = some job →
      let gs := (job.channels.flatMap s.behind).eraseDups
      gs.any (fun g => (s.gleaner g).test.phase == 1) = false →
      let scrubbed := gs.foldl (fun s g => s.updGleaner g (fun x => x.scrub (if g < 384 then s.sysArea * 2 ^ 20 else 0))) s
      let cleared := (bitsSet job.clusters 24).foldl (fun s c => (List.range 8).foldl (fun s j =>
        s.updCore (8 * c + j) (fun x => { x with bin := [], codeBase := 0 })) (s.updCluster c (fun x => { x with bin := [] }))) scrubbed
      let done := (cleared.updLoader (fun l => { l with scrubs := l.scrubs.filter (fun x => x.part != p) })).putLoadSegment p
      exec (.partitionScrubDone p) s = .next (done.answerAdmin job.fn job.result (resultRecord (refuse 0) (done.part p).tag.toNat 0
        (s.devTime - ((s.admin job.fn).map (fun c => c.fetched)).getD s.devTime)))) ∧
    (∀ d, s.runsAdmin f 0x81 c u →
      let p := c.field 0 1
      let ctx := d.contexts.1 + c.field 2 1
      (u.part p).desc = some d → p < 8 → c.field 2 1 < d.contexts.2 → c.field 1 1 < 4 →
      (c.field 11 4 = 0 ∨ u.extentOk (24 + f / 16) ctx (c.field 3 8) (c.field 3 8 + c.field 11 4 - 1 : Nat) permRead = true) →
      u.extentOk (24 + f / 16) ctx (c.field 15 8) (c.field 15 8 + 63 : Nat) permWrite = true → u.ownsPart f p = true → u.loading p = false →
      (u.planOf p = none ∨ (c.field 1 1).testBit 1 = true) →
      let load : Load := { fn := f, part := p, mirror := (c.field 1 1).testBit 0, replace := (c.field 1 1).testBit 1
                           source := u.physRun ctx (c.field 3 8) (c.field 11 4), record := u.physRun ctx (c.field 15 8) 64, fetched := c.fetched
                           phase := .waiting, image := [], coreMap0 := [], stacks0 := [], loft0 := 0, sysArea0 := 0, decided := 0 }
      exec (.planLoad f) s = .next ((u.updLoader (fun x => { x with
        loads := x.loads.filter (fun m => decide (m.fetched ≤ c.fetched)) ++ [load] ++ x.loads.filter (fun m => decide (c.fetched < m.fetched)) })).beginAdmin
          f)) ∧
    (∀ l, s.loader.loads.find? (fun l => l.phase == LoadPhase.waiting) = some l →
      (s.loader.loads.filter (fun l => l.phase != LoadPhase.waiting)).length < 2 → s.earlierLoad l = false → exec .loadStart s = .next (s.updLoad l.part (fun l => { l with
        phase := .staged, image := s.physBytes l.source, coreMap0 := s.coreMap, stacks0 := s.stackMaps, loft0 := s.loft.out, sysArea0 := s.sysArea }))) ∧
    (∀ l, s.loader.loads.find? (fun l => l.phase == LoadPhase.staged) = some l → s.earlierLoad l = false →
      exec .loadDecide s = .next (match s.decision l, s.planOf l.part with
        | some r, _ => s.endLoad l r (s.devTime - l.fetched)
        | none, none => (s.raiseFloor l).updLoad l.part (fun l => { l with phase := .installing, decided := s.devTime })
        | none, some _ => (s.updLoad l.part (fun l => { l with phase := .draining, decided := s.devTime })).updPart l.part (fun x => { x with
            halted := true }))) ∧
    (∀ p l e, p < 8 → s.loader.loads.find? (fun l => l.part == p && (l.phase == LoadPhase.installing || l.phase == LoadPhase.installed)) = some l →
      l.phase = .installing → s.envOf l = some e → exec (.loadInstallDone p) s =
        .next ((s.install e).endLoad l (refuse 0) (l.decided - l.fetched)))

/-- R75, R78, R79: a replacement takes a drained partition over, and PLAN_UNLOAD takes its plan away. -/
def Obligations.PlansAreReplacedAndUnloaded : Prop :=
  ∀ (p f : Nat) (s : State), p < 8 →
    (∀ l e, s.loader.loads.find? (fun l => l.part == p && l.phase == LoadPhase.draining) = some l → s.drained p = true → s.envOf l = some e →
      e.counts = none → exec (.planSwitch p) s = .next (((((s.dropPins p (fun _ => true)).raiseFloor l).install e).updPart p (fun x => { x with
        halted := false, lapsedPins := x.lapsedPins ++ (s.part p).heldPins })).updLoad p (fun l => { l with phase := .installed }))) ∧
    (∀ c u pl, s.runsAdmin f 0x82 c u → u.adminResultOk f (c.field 2 8) 4 = true → c.field 0 1 = p → u.ownsPart f p = true →
      u.planOf p = some pl →
      let job : Unload := { fn := f, part := p, abort := c.field 1 1 == 1, result := c.field 2 8 }
      let v := (u.updLoader (fun l => { l with unloads := l.unloads ++ [job] })).updPart p (fun x => { x with halted := true })
      (c.field 1 1 = 0 → exec (.planUnload f) s = .next (v.beginAdmin f)) ∧
      (c.field 1 1 = 1 → exec (.planUnload f) s = .next (((v.rangeContexts p).foldl (fun s c => s.stopContext c codeAborted) v).beginAdmin f))) ∧
    (∀ job, s.loader.unloads.find? (fun u => u.part == p) = some job →
      (if job.abort then (s.rangeContexts p).any s.ctxBusy else !s.drained p) = false →
      let stopped := (s.rangeContexts p).foldl (fun s c => s.finishStopped c) s
      exec (.unloadComplete p) s = .next (((stopped.unloadPart p).updLoader (fun l => { l with
        unloads := l.unloads.filter (fun x => x.part != p) })).answerAdmin job.fn job.result (natLE 4 outDone)))

/-- R369 to R374: a segment change in either form begins, reaches the copies of its context, and its tags are acknowledged. -/
def Obligations.SegmentChangesReachEveryCopy : Prop :=
  ∀ (f n ctx : Nat) (s : State),
    (∀ op c u g, op = 0x85 ∨ op = 0x86 → s.runsAdmin f op c u → u.admin f = some c → c.op = op → u.adminResultOk f (c.field 11 8) 16 = true →
      u.changeWaits f u.xlt.changeQueue = false → u.changeCtx f = some ctx → (u.ctx ctx).state ≠ 2 →
      u.planSegment ctx (c.field 1 1) = some g →
      let new : SegCur := { limit := c.field 3 4 * 65536, perm := c.field 2 1 }
      let cur := u.segCur ctx (c.field 1 1)
      (new.perm ||| (g.perm ||| permValid)) = (g.perm ||| permValid) → new.limit ≤ g.limit → c.field 7 4 = (u.ctx ctx).version.toNat →
      (u.subscribers ctx).length ≤ 32 → (grants cur new && revoked cur new == cur) = false →
      let change : SegChange := { ctx := ctx, seg := c.field 1 1, between := revoked cur new, after := new, form := if op = 0x86 then 1 else 0
                                  drain := op == 0x86, phase := if op = 0x86 then .waiting else .revokeCopies, updated := 0, copies := 0
                                  marks := [], subs := [], stations := 0, fn := f }
      let began : State := (u.beginAdmin f).setChanges (u.xlt.changes ++ [change])
      (op = 0x85 → exec (.segWrite f) s = .next began) ∧ (op = 0x86 → exec (.segDrain f) s = .next began)) ∧
    (∀ ch, n < 30 → s.change ctx = some ch → ch.phase = .revokeCopies → ch.updated.testBit n = false →
      let held := s.copyCtx n ctx
      let mine : CopyCtx := { segs := putSeg held.segs ch.seg ch.between, gen := (s.ctx ctx).gen }
      let u := { s with xlt := { s.xlt with copies := Tbl.set copyReset s.xlt.copies (n * 256 + ctx) mine } }
      exec (.xltCopyUpdate n ctx) s = .next (u.putChange { ch with
        updated := ch.updated ||| 2 ^ n, marks := if n < 24 then Tbl.set 0 ch.marks n (u.dma n).serial else if 26 ≤ n ∧ n < 28 then Tbl.set 0 ch.marks n u.links.serial else ch.marks })) ∧
    (∀ ch, n < 30 → s.change ctx = some ch → ch.updated.testBit n = true → ch.copies.testBit n = false →
      (ch.phase = .grantCopies ∨ s.copySettled ch n = true) →
      let acked := { ch with copies := ch.copies ||| 2 ^ n }
      (acked.copies ≠ 2 ^ 30 - 1 → exec (.xltCopyAck n ctx) s = .next (s.putChange acked)) ∧
      (acked.copies = 2 ^ 30 - 1 → exec (.xltCopyAck n ctx) s =
        .next ((if ch.phase = .revokeCopies then (s.putChange acked).revokeTags acked else (s.putChange acked).endChange acked).pumpChanges))) ∧
    (∀ g ch, g < 448 → s.change ctx = some ch → ch.drain = false → ch.subs.contains g = true → s.tagsApplied ch g = true →
      let left := { ch with subs := ch.subs.filter (fun x => x != g) }
      exec (.subscriberAck g ctx) s =
        .next (if left.subs.isEmpty then ((s.putChange left).tagsDone left).pumpChanges else s.putChange left)) ∧
    (∀ ch, n < 14 → s.change ctx = some ch → ch.drain = true → (ch.phase = .revokeTags ∨ ch.phase = .grantTags) → ch.stations.testBit n = false →
      (stationGleaners n).all (fun g => s.tagsApplied ch g) = true →
      let heard := { ch with stations := ch.stations ||| 2 ^ n }
      exec (.stationTagAck n ctx) s =
        .next (if heard.stations = 2 ^ 14 - 1 then ((s.putChange heard).tagsDone heard).pumpChanges else s.putChange heard))

/-- R369, R379, R380: a window mapping changes within its plan's; the first Igrum engine's drain is noted, and with the second the change ends, the context's version advances and
the command is answered; the segment window captures an entry of a context that the function, or the reeve (32), may see, and zeros of any other. -/
def Obligations.WindowsChangeAndSegmentsAreRead : Prop :=
  ∀ (f : Nat) (s : State),
    (∀ c u ctx d pl m pm, s.runsAdmin f 0x87 c u → u.admin f = some c → c.op = 0x87 → u.adminResultOk f (c.field 19 8) 16 = true →
      u.changeWaits f u.xlt.changeQueue = false → u.changeCtx f = some ctx → (u.ctx ctx).state ≠ 2 →
      (u.part (u.changePart f)).desc = some d → u.planOf (u.changePart f) = some pl →
      let w := d.windows.1 + c.field 0 2
      let ms := Tbl.get [] u.xlt.windows w
      let n := c.field 2 1
      let clear := c.field 3 1 != 0
      let len := c.field 11 4 * 65536
      ms[n]? = some m → (pl.windows.filter (fun m => m.window == c.field 0 2))[n]? = some pm →
      (clear || (c.field 4 1 ||| pm.perm) == pm.perm && decide (len ≤ pm.length) && len != 0) = true → c.field 15 4 = (u.ctx ctx).version.toNat →
      let new : MappingCur := if clear then { m with cleared := true }
        else { m with perm := c.field 4 1, key := c.field 5 2, peer := c.field 7 4, length := len, cleared := false }
      let change : WindowChange := { window := w, mapping := n, ctx := ctx, acks := 0, mark := u.links.serial, fn := f }
      let v := u.beginAdmin f
      exec (.windowWrite f) s = .next { v with xlt := { v.xlt with
        windows := Tbl.set [] v.xlt.windows w (replaceAt ms n new), windowChanges := v.xlt.windowChanges ++ [change] } }) ∧
    (∀ e ctx w, e < 2 → s.xlt.windowChanges.find? (fun w => w.ctx == ctx) = some w →
      s.links.recv.any (fun r => r.ctx == ctx && r.inFlight && decide (r.serial < w.mark) && entryHome (s.peerEntry r.peer) == e &&
        fieldLE r.header 2 2 == w.window) = false →
      let left := s.xlt.windowChanges.filter (fun x => x.ctx != ctx)
      (w.acks ||| 2 ^ e ≠ 3 → exec (.windowDrainAck e ctx) s =
        .next { s with xlt := { s.xlt with windowChanges := left ++ [{ w with acks := w.acks ||| 2 ^ e }] } }) ∧
      (w.acks ||| 2 ^ e = 3 →
        let t := { s with xlt := { s.xlt with windowChanges := left } }
        let v := t.setCtx ctx { t.ctx ctx with version := (t.ctx ctx).version + 1 }
        exec (.windowDrainAck e ctx) s = .next (v.answerChange w.fn 0 0 (v.ctx ctx).version.toNat).pumpChanges)) ∧
    (∀ value : Word32, f ≤ 32 → s.served = true →
      let select : BitVec 12 := BitVec.ofNat 12 value.toNat
      let ctx := select.toNat % 256
      let seg := select.toNat / 256
      let captured (version : Word32) (bytes : List Byte) : State := { s with xlt := { s.xlt with captures := Tbl.set captureReset s.xlt.captures f {
        select := select, version := version, data := (List.range 12).map (fun i => BitVec.ofNat 32 (fieldLE bytes (4 * i) 4)) } } }
      (∀ p g, s.partOfCtx ctx = some p → (f = 32 ∨ s.ownsPart f p = true) → s.planSegment ctx seg = some g →
        exec (.xltSegSelect f value) s = .next (captured (s.ctx ctx).version (g.record (s.segCur ctx seg)))) ∧
      ((∀ p, s.partOfCtx ctx = some p → f ≠ 32 ∧ s.ownsPart f p = false) → exec (.xltSegSelect f value) s = .next (captured 0 [])))

/-- R384, R385, R396, R502: what the host does to a port or a function: resets take a capture and detach with the slots released (causes 0, 2 and 3), bus mastering off, D3hot
and a failed retraining detach with the slots kept (causes 1, 4 and 5), and a BAR2 size or Memory Space Enable reassigns the slots. -/
def Obligations.HostEventsDetachAndReassign : Prop :=
  ∀ (q f size : Nat) (clksel : Bool) (s : State), q < 2 → f < 32 →
    let fns := (List.range 16).map (fun i => 16 * q + i)
    let reset (cause : Nat) : State := (fns.foldl (fun s f => (s.detachFn f cause true).resetFn f) (s.captureFor 4 (fns.flatMap s.fnContexts).eraseDups)).updPort q
      (fun p => { p with up := false, retraining := false })
    exec (.hotReset q) s = .next (reset 2) ∧
    exec (.pcieLinkDown q) s = .next (reset 0) ∧
    exec (.perstAssert q) s = .next ((reset 2).updPort q (fun p => { p with perst := true })) ∧
    ((s.port q).perst = true → exec (.perstDeassert q clksel) s = .next (s.updPort q (fun p => { p with perst := false, clksel := clksel }))) ∧
    ((s.port q).up = true → exec (.pcieLinkRetrain q) s = .next (s.updPort q (fun p => { p with retraining := true }))) ∧
    ((s.port q).perst = false → exec (.pcieLinkL0 q) s = .next ((List.range 32).foldl (fun s a =>
      if (s.att a).state = 1 ∧ (s.att a).fn / 16 = q then s.freeWrites a else s)
        (s.updPort q (fun p => { p with up := true, retraining := false })))) ∧
    ((s.port q).retraining = true → exec (.pcieRetrainTimeout q) s = .next (fns.foldl (fun s f => s.detachFn f 1 false) s)) ∧
    exec (.flr f) s = .next (((s.captureFor 5 (s.fnContexts f)).detachFn f 3 true).resetFn f) ∧
    exec (.busMasterDisable f) s = .next ((s.detachFn f 4 false).updFn f (fun h => { h with busMaster := false })) ∧
    exec (.d3hotEntry f) s = .next ((s.detachFn f 5 false).updFn f (fun h => { h with d3hot := true })) ∧
    exec (.memSpaceEnable f) s = .next ((s.updFn f (fun h => { h with memSpace := true })).assignSlots f) ∧
    (size < 16 → exec (.bar2Resize f (2 ^ (21 + size))) s =
      .next ((s.releaseSlots f).updFn f (fun h => { h with bar2 := 2 ^ (21 + size) })))

/-- R395 to R400: an attachment is created, beats, is given up, is taken over under its credential, replays its journal and is ATTACHED
again with a new credential; four refused credentials lock it. -/
def Obligations.AttachmentsAreHeldAndTakenOver : Prop :=
  ∀ (f a n word : Nat) (s : State), f < 32 → a < 32 →
    let x := s.att a
    let old := (s.fn f).ctlAttachment.toNat
    let free (b : Nat) : Bool := (s.att b).state == 0
    let take (adopt : Bool) : State :=
      let u := (s.moveFunction x.fn f).updAtt a (fun x => { x with
        state := 3, fn := f, refusals := 0, adoptHold := adopt, beatAt := s.devTime
        handles := if adopt then x.handles.map (fun e => (e.1, e.2.map (fun h => { h with suspended := true }))) else x.handles })
      ((u.updFn f (fun h => { h with disabled := false })).attachResult f (if adopt then 2 else 1) a 1).pumpJournal a
    (s.mgmt.ready = true → s.attOf f = none → ∀ b, (if free f then some f else (List.range 32).find? free) = some b → exec (.attachNew f) s =
      .next ((((s.updAtt b (fun _ => { attReset with state := 1, fn := f, beatAt := s.devTime })).newCredential b).updFn f (fun h => { h with
        disabled := false })).attachResult f 0 old 1)) ∧
    (s.mgmt.ready = true → (s.attOf f).isSome = true → exec (.attachNew f) s = .next (s.attachResult f 0 old 5)) ∧
    (s.mgmt.ready = true → s.attOf f = none → x.locked = false → x.state = 2 → x.credential = (s.fn f).cred →
      exec (.attachResume f a) s = .next (take false) ∧ exec (.attachAdopt f a) s = .next (take true)) ∧
    (s.mgmt.ready = true → s.attOf f = none → x.locked = false → x.state = 2 → x.credential ≠ (s.fn f).cred → exec (.attachResume f a) s =
      .next ((s.updAtt a (fun x => { x with refusals := x.refusals + 1, locked := decide (4 ≤ x.refusals + 1) })).attachResult f 1 a 2)) ∧
    (x.locked = true → exec (.attachLockoutExpire a) s = .next (s.updAtt a (fun x => { x with locked := false, refusals := 0 }))) ∧
    (s.mgmt.ready = true → s.attOf f = some a →
      exec (.attachReplay f) s = .next ((s.updAtt a (fun x => { x with adoptHold := false })).pumpJournal a) ∧
      exec (.heartbeatBeat f a) s = .next (s.updAtt a (fun x => { x with beatAt := s.devTime })) ∧
      exec (.hostDetach f a) s = .next (s.detach a 7 false)) ∧
    (x.timeout ≠ 0 → exec (.heartbeatTimeout a) s = .next (s.detach a 6 false)) ∧
    (x.state ≠ 3 → exec (.tlpAcknowledge a n) s = .next (s.updAtt a (fun x => { x with unacked := x.unacked.drop n }))) ∧
    (x.state = 3 → exec (.tlpAcknowledge a n) s = .next ((s.updAtt a (fun x => { x with
      journal := x.journal.drop (min n x.journalSent), journalSent := x.journalSent - min n x.journalSent })).freeWrites a)) ∧
    (x.state = 3 → x.adoptHold = false → x.journal = [] → s.host.checks.any (fun c => c.att == a) = false → exec (.journalEmpty a) s =
      .next (((x.pendingVectors.foldl (fun s v => s.sendVector a v)
        (s.updAtt a (fun x => { x with state := 1, pendingVectors := [] }))).newCredential a).freeWrites a)) ∧
    (s.mgmt.ready = true → s.attOf f = some a → x.credRead = false → word < 4 → exec (.credRead f a word) s =
      .next ((if word = 3 then s.updAtt a (fun x => { x with credRead := true }) else s).send
        (.completion f (natLE 4 (x.credential.toNat / 2 ^ (32 * word) % 2 ^ 32)))))

/-- R386, R387, R389, R392 to R394: the window's writes go unit by unit, each checked; slots and handles are set; the check read of a
completion record lets its vector and what waited behind it go, or stops the queue's target until CSTOP is cleared. -/
def Obligations.WindowSlotsHandlesAndCheckReads : Prop :=
  ∀ (f q offset requester : Nat) (bytes : List (Option Byte)) (s : State), f < 32 → q < 1024 →
    exec (.bar2Write f offset requester bytes) s = .next ((windowUnits (bytes.length / 64 + 2) offset bytes).foldl (fun s u =>
      match s.windowCheck f u.1 requester true with
      | .failed slot check => s.windowRefused slot check
      | .ok e addr =>
        let t := (s.hostUnit e.context addr u.2).chargeHost e.context (u.2.filter Option.isSome).length
        match (if e.landingEn then s.attOf f else none) with
        | some a => (t.updAtt a (fun x => { x with landing := Tbl.modify 0 x.landing e.landing (· + 64) })).grantLanding a e.landing
        | none => t) s) ∧
    (∀ c u e, s.runsAdmin f 0x88 c u → u.adminResultOk f (c.field 0 8) 4 = true → fieldLE (c.inline.take 32) 0 2 < (u.fn f).slotCount →
      (∃ p, u.partOfCtx (fieldLE (c.inline.take 32) 3 1) = some p ∧ u.ownsPart f p = true) → parseSlotEntry (c.inline.take 32) = some e →
      exec (.slotMap f) s = .next (({ u with host := { u.host with
        slots := Tbl.set none u.host.slots ((u.fn f).slotBase + fieldLE (c.inline.take 32) 0 2) (some e) } }).answerAdmin f (c.field 0 8)
          (natLE 4 outDone))) ∧
    (∀ c u a e, s.runsAdmin f 0x89 c u → u.attOf f = some a → parseHandleEntry (c.inline.take 32) = some e →
      let v := u.updAtt a (fun x => { x with handles := Tbl.set none x.handles (fieldLE (c.inline.take 32) 0 2) (some e) })
      v.adminResultOk f (c.field 0 8) 4 = true → exec (.handleSet f) s = .next (v.answerAdmin f (c.field 0 8) (natLE 4 outDone))) ∧
    (∀ c, s.host.checks.find? (fun c => c.queue == q) = some c →
      let u := { s with host := { s.host with checks := s.host.checks.filter (fun k => k.queue != q) } }
      exec (.checkReadComplete q true) s = .next (((match c.vector with
        | some v => u.sendVector c.att v
        | none => u).drainWithheld c.att q).pumpJournal c.att) ∧
      exec (.checkReadComplete q false) s = .next (s.checkFailed q c) ∧
      exec (.checkReadTimeout q) s = .next (s.checkFailed q c)) ∧
    (s.mgmt.ready = true → s.attOf f = some (s.queue q).attachment → (s.queue q).cstop = true → exec (.cstopResume f q) s =
      .next ((s.updQueue q (fun x => { x with cstop := false })).drainWithheld (s.queue q).attachment q))

/-- R432, R439, R441 to R446: the inherited priorities of a partition, the test for a full pre-emption, the end of its quiesce, of its
save and of the resume. -/
def Obligations.FullPreEmptionRuns : Prop :=
  ∀ (p k : Nat) (s : State), p < 8 → k < 192 →
    let c := clusterOf k
    let x := s.core k
    (∀ d, (s.part p).desc = some d → exec (.priorityUpdate p) s = .next ((bitsSet d.clusters 24).foldl (fun s c => s.preemptCheck c)
      { s with inherited := ((List.range d.contexts.2).map (· + d.contexts.1)).foldl (fun (t : Tbl Nat) c =>
        Tbl.set 0 t c (Tbl.get 0 s.inheritance c)) s.inherited })) ∧
    exec (.preemptCheck c) s = .next ((((s.cluster c).ready.flatMap Prod.snd).mergeSort (fun a b => s.listKey a ≤ s.listKey b)).foldl
      (fun s i => s.tryPreempt c i) s) ∧
    (∀ q, (s.cluster c).preempts.find? (fun y => y.core == k) = some q → x.phase = .quiesce →
      (s.cluster c).dma.outstanding.any (fun t => t.core == k) = false →
      let u := s.updCluster c (fun y => { y with sched := { y.sched with saveNs := y.sched.saveNs + BitVec.ofNat 64 (s.devTime - q.since) } })
      let wanted : Prop := q.waiting = none ∨
        ∃ i y, q.waiting = some i ∧ s.stillWaiting c i = some y ∧ s.eligible k .quiesce y = true
      (wanted → exec (.preemptQuiesceDone k) s =
        .next ((u.updCore k (fun x => { x with phase := .saving, grid := x.grid.stopped })).updCluster c (fun y => { y with
          preempts := y.preempts.map (fun r => if r.core = k then { r with since := s.devTime } else r) }))) ∧
      (¬ wanted → exec (.preemptQuiesceDone k) s =
        .next (((u.updCore k (fun x => { x with phase := .running })).moveTransfers c k k false).updCluster c (fun y => { y with
          preempts := y.preempts.filter (fun r => r.core != k), sched := { y.sched with cancelled := true } })))) ∧
    (∀ q i s1 s2, (s.cluster c).preempts.find? (fun y => y.core == k) = some q → x.item = some i → x.phase = .saving →
      let by_ := q.waiting.map (fun w => w.ctx)
      let ns := s.devTime - q.since
      let s0 := (s.addSaveNs c ns).chargeItem k
      (match by_ with
        | some w => s0.chargeCore w ns
        | none => s0).saveState k i = (s1, false) → s1.saveUnits k i = (s2, false) →
      let s3 := s2.updCluster c (fun y => { y with
        preempts := y.preempts.filter (fun r => r.core != k), sched := { y.sched with fullCount := y.sched.fullCount + 1 } })
      let saved : SavedItem :=
        { item := { i with preempted := true, started := s.devTime }, priority := s.effPrio i, vec := x.vec, held := x.held
          winnowQueue := x.winnow.queue, grid := x.grid, dmaMarks := x.dmaMarks, restart := false, since := s.devTime, by_ := by_ }
      exec (.preemptSaveDone k) s = .next (((((s3.moveTransfers c k (k + 256) true).updCore k (fun y => { y with saved := some saved })).leaveCore k
        i).takeWaiting k q))) ∧
    (∀ v s2, x.saved = some v → x.phase = .resuming → v.restart = false →
      let ns := s.devTime - v.since
      let s0 := (s.addSaveNs c ns).chargeCore v.item.ctx (s.devTime - v.item.started)
      let s1 := match v.by_ with
        | some w => s0.chargeCore w ns
        | none => s0
      s1.restoreUnits k v.item = (s2, false) → s1.stateReadable k v.item = true →
      exec (.resumeDone k) s = .next (((s2.updCore k (fun x => { x with saved := none, phase := .idle })).updCore k (fun x => { x with
        phase := .running, item := some { v.item with started := s.devTime }, vec := v.vec, held := v.held, dmaMarks := v.dmaMarks
        winnow := { x.winnow with queue := v.winnowQueue }
        grid := { x.grid with
          queue := v.grid.queue, active := v.grid.active, shadow := v.grid.shadow, banks := v.grid.banks, discard := v.grid.discard } })).moveTransfers
            c (k + 256) k false))

/-- R451, R452: a commit attributes each context its pending energy times the factor, held between 0.80 and 1.25 in Q2.14, and the rest to
ACC_UNATTRIBUTED; a snapshot copies every counter at once. -/
def Obligations.EnergyIsAttributedAndSnapshotsTaken : Prop :=
  ∀ (measured idle : Nat) (pending : List (Nat × Nat)) (s : State), (∀ e ∈ pending, e.1 < 256) →
    let total := sumNat (pending.map Prod.snd)
    let raw := (measured - idle) * 2 ^ 14 / total
    let t := if total = 0 then s.acc.trim.toNat % 65536 else max 13107 (min 20480 raw)
    let clamped : Nat := if total ≠ 0 ∧ (raw < 13107 ∨ 20480 < raw) then 1 else 0
    let share (n : Nat) : Nat := n * t / 2 ^ 14
    let charged := (pending.map (fun e => (e.1, share e.2))).foldl (fun (s : State) (e : Nat × Nat) =>
      s.charge e.1 (fun x => { x with energy := x.energy + BitVec.ofNat 64 e.2 })) s
    let left : Int := (measured : Int) - (sumNat (pending.map (fun e => share e.2)) : Nat)
    exec (.energyCommit measured idle pending) s = .next { charged with acc := { charged.acc with
      trim := BitVec.ofNat 17 (t % 65536 + 65536 * clamped), unattributed := charged.acc.unattributed + BitVec.ofInt 64 left } } ∧
    (s.served = true → exec .accSnap s = .next { s with acc := { s.acc with snap := s.acc.ctxs } })

/-- R471, R472, R479: a DATA packet of each operation that is accepted. The one expected, with room for it, is taken: the operation gets it,
and it is acknowledged at once where it asks for that. A duplicate is acknowledged again, and one beyond a gap draws a NAK; neither reaches its operation. -/
def Obligations.DataPacketsAreDeliveredInOrder : Prop :=
  ∀ (p : Nat) (half : Bool) (frame : List Byte) (op k i : Nat) (ce : Bool) (pkt : List Byte) (u s : State), s.receives p half frame 0 op u k i ce pkt →
    let vc := fieldLE pkt 1 1
    let psn := fieldLE pkt 0x0C 3
    let flags := fieldLE pkt 0x16 2
    let st := u.stream k vc
    let path := u.pathEntry ((peerPath (u.peerEntry k) i).getD 0)
    let taken := u.updStream k vc (fun x => { x with
      expected := psnNext psn, ackDue := true, ackPath := i, echo := x.echo || ce
      reserved := Tbl.set false x.reserved (halfUnit (pathPort path) (pathHalf path)) true })
    let ack (t : State) : State := if flags.testBit 1 then t.sendAck k vc i 1 else t
    let node := fieldLE pkt 4 4
    let body := pkt.drop 32
    let runs (answer : State → Prop) : Prop :=
      (op = 0 → answer (taken.remoteWrite p half k vc node body)) ∧ (op = 1 → answer (taken.remoteRead p half k vc node body)) ∧
      (op = 2 ∨ op = 3 ∨ op = 4 ∨ op = 5 ∨ op = 6 → answer (taken.remoteRowOp p half k vc node body)) ∧
      (op = 0x80 → answer (taken.takeResponse k vc body))
    let command : Option Instr := match op with
      | 0 => some (.remoteWrite p half frame)
      | 1 => some (.remoteRead p half frame)
      | 2 => some (.remoteRowRead p half frame)
      | 3 => some (.remoteRowWrite p half frame)
      | 4 => some (.remoteRowAdd p half frame)
      | 5 => some (.remoteRowCas p half frame)
      | 6 => some (.remoteInvoke p half frame)
      | 0x80 => some (.remoteResp p half frame)
      | _ => none
    ∀ c, command = some c →
      (psn = st.expected → (flags.testBit 3 = true ∨ u.heldCells k vc + packetCells (pkt.length - 64) ≤ fieldLE (u.peerEntry k) 0x0A 2) →
        runs (fun t => exec c s = .next (ack t))) ∧
      (psn ≠ st.expected → psnBelow psn st.expected = true → exec c s = .next (ack (u.updStream k vc (fun x => { x with
        ackDue := true, ackPath := i, echo := x.echo || ce })))) ∧
      (psn ≠ st.expected → psnBelow psn st.expected = false → st.lastNak = none → exec c s =
        .next ((u.updStream k vc (fun x => { x with lastNak := some u.devTime, echo := x.echo || ce })).sendAck k vc i 2))

/-- R378, R479, R480, R481: what the operations do. A whole WRITE writes its bytes at the mapped address and is answered; a whole READ returns the bytes;
a row operation becomes the request of the same name at the gleaner that the engine's bay map routes it to; one refused at step n of R378 is counted and answered REFUSED. -/
def Obligations.RemoteOperationsActAndAnswer : Prop :=
  ∀ (p : Nat) (half : Bool) (frame : List Byte) (op k i : Nat) (ce : Bool) (pkt : List Byte) (u s : State), s.receives p half frame 0 op u k i ce pkt →
    let vc := fieldLE pkt 1 1
    let st := u.stream k vc
    let path := u.pathEntry ((peerPath (u.peerEntry k) i).getD 0)
    let flags := fieldLE pkt 0x16 2
    let oh := (pkt.drop 32).take 32
    let data := (pkt.drop 32).drop 32
    let whole := fieldLE oh 1 1 = 3
    fieldLE pkt 0x0C 3 = st.expected → flags.testBit 1 = false →
    (flags.testBit 3 = true ∨ u.heldCells k vc + packetCells (pkt.length - 64) ≤ fieldLE (u.peerEntry k) 0x0A 2) → whole →
    let taken := u.updStream k vc (fun x => { x with
      expected := psnNext (fieldLE pkt 0x0C 3), ackDue := true, ackPath := i, echo := x.echo || ce
      reserved := Tbl.set false x.reserved (halfUnit (pathPort path) (pathHalf path)) true })
    ∀ t r, taken.startRecv k vc oh = some (t, r) →
      let engine := 26 + entryHome (taken.peerEntry k)
      let maps (perm len : Nat) (ranged : Bool) := t.remoteMapping p half (fieldLE pkt 4 4) oh perm len ranged
      let a (m : MappingCur) : Nat := m.addr (fieldLE oh 0x10 8)
      let n := fieldLE oh 0x19 3
      (∀ m v, op = 0 → fieldLE oh 0x18 1 = 0 → maps 1 (fieldLE oh 0x0C 4) true = .inr m →
        t.extentOk engine m.context (a m) (a m + fieldLE oh 0x0C 4 - 1 : Nat) (permWrite ||| permRemote) = true →
        a m % 64 = 0 → fieldLE oh 0x0C 4 = data.length → data.length % 64 = 0 → t.ctxWrite m.context 0 (a m) data = (v, 0) →
        let r1 : RecvOp := { r with ctx := m.context, base := some (a m) }
        exec (.remoteWrite p half frame) s = .next (((v.chargeLink m.context data.length).putRecv r1).respond r1 [])) ∧
      (∀ m bs, op = 1 → maps 0 n true = .inr m → t.extentOk engine m.context (a m) (a m + n - 1 : Nat) (permRead ||| permRemote) = true →
        a m % 64 = 0 → n % 64 = 0 → ∀ v, t.ctxFetch m.context 0 (a m) n = (v, 0, bs) →
        exec (.remoteRead p half frame) s = .next (v.respond { r with ctx := m.context } bs)) ∧
      (∀ step, op = 1 → maps 0 n true = .inl step →
        exec (.remoteRead p half frame) s = .next ((t.countRefused (fieldLE oh 2 2) step).respond { r with status := 1, detail := step } []))

/-- R465, R472, R473, R482, R484: acknowledgements, NAKs, probes and probe replies. -/
def Obligations.AcknowledgementsAndProbesAreTaken : Prop :=
  ∀ (p : Nat) (half : Bool) (frame : List Byte) (type k i : Nat) (ce : Bool) (pkt : List Byte) (u s : State), s.receives p half frame type 0 u k i ce pkt →
    let vc := fieldLE pkt 1 1
    let st := s.peer k
    (type = 1 → exec (.igrumAck p half frame) s = .next u) ∧
    (type = 2 → exec (.igrumNak p half frame) s = .next (u.resend k vc)) ∧
    (type = 3 →
      let e := fieldLE pkt 0x0F 1
      let v := (peerVcs (u.peerEntry k)).foldl (fun s v => s.updStream k v (fun x => { x with
        reserved := Tbl.set false x.reserved (halfUnit p half) true })) u
      let q := v.peer k
      (q.down = true → exec (.igrumProbe p half frame) s =
        .next ((v.updPeer k (fun q => { q with proposal := some e })).sendReplies k i ((q.epoch + 1) % 256))) ∧
      (q.down = false → e = q.epoch → exec (.igrumProbe p half frame) s = .next (v.sendReplies k i q.epoch))) ∧
    (type = 4 → st.probing = some i → exec (.igrumProbeReply p half frame) s =
      .next ((u.updPeer k (fun q => { q with probing := none, active := i })).resend k vc)) ∧
    (type = 4 → st.probing ≠ some i → st.pathsUp.testBit i = true → st.active = i → fieldLE pkt 0x0F 1 = st.epoch →
      exec (.igrumProbeReply p half frame) s = .next (u.resend k vc))

/-- R456 to R458, R463: what an Ethernet port does with its mode, its links, other frames and pauses. -/
def Obligations.EthernetPortsFollowTheirLinks : Prop :=
  ∀ (f p : Nat) (half fcs : Bool) (value : Word32) (priority enabled corrected uncorrected : Nat) (times : List Nat) (frame : List Byte) (s : State),
    f < 32 → p < 8 →
    let e := s.eth p
    let base : Nat := if half then 8 else 0
    (∀ q, s.mgmt.ready = true → s.portOwner p = some q → s.ownsPart f q = true → value.toNat % 4 ≠ 3 → s.modeFits p (value.toNat % 4) = true →
      let u := s.updEth p (fun e => { e with
        mode := BitVec.ofNat 2 (value.toNat % 4), pmd := BitVec.ofNat 2 (value.toNat / 4 % 4), pfcEn := value.getLsbD 4 })
      exec (.portModeWrite f p value) s =
        .next (if value.toNat % 4 = e.mode.toNat ∧ value.toNat / 4 % 4 = e.pmd.toNat then u else (u.captureFor 4 []).linksDown p [false, true])) ∧
    exec (.ethLinkDown p half) s = .next (s.linksDown p [half]) ∧
    (e.mode ≠ 0 → (half = true → e.mode = 2) →
      exec (.ethLinkUp p half) s = .next (s.updEth p (fun e => if half then { e with linkB := true } else { e with linkA := true }))) ∧
    (e.up half = true → fcs = true → 64 ≤ frame.length + 4 → frame.length + 4 ≤ 9216 → beNat ((frame.drop 12).take 2) ≠ 0x8808 →
      s.matchFrame frame = none → exec (.ethFrameReceive p half fcs corrected uncorrected frame) s =
        .next ((s.updEth p (fun e => { e with
          fecCorrected := e.fecCorrected + BitVec.ofNat 32 corrected, fecUncorrected := e.fecUncorrected + BitVec.ofNat 32 uncorrected })).updEth p
            (fun e => { e with rxDropped := e.rxDropped + 1 }))) ∧
    (e.up half = true → e.pfcEn = true → exec (.pfcFrame p half enabled times) s = .next (s.updEth p (fun e => { e with
      paused := (List.range 8).foldl (fun m i =>
        if !enabled.testBit i then m
        else if times.getD i 0 = 0 then m &&& ~~~(BitVec.ofNat 16 (2 ^ (base + i)))
        else m ||| BitVec.ofNat 16 (2 ^ (base + i))) e.paused }))) ∧
    exec (.pfcPauseExpire p half priority) s = .next (s.updEth p (fun e => { e with
      paused := e.paused &&& ~~~(BitVec.ofNat 16 (2 ^ (base + priority % 8))) }))

/-- R465, R472 to R474, R482, R484: the timers of streams and paths. -/
def Obligations.StreamAndPathTimersAct : Prop :=
  ∀ (k vc i p : Nat) (half : Bool) (s : State), k < 128 → vc < 8 →
    let st := s.stream k vc
    let x := s.peer k
    (st.ackDue = true → exec (.ackTimer k vc) s = .next (s.sendAck k vc st.ackPath 1)) ∧
    (st.unacked ≠ [] → x.down = false → x.probing = none →
      (st.retries < 3 → exec (.retxTimer k vc) s = .next ((s.updStream k vc (fun y => { y with retries := y.retries + 1 })).resend k vc)) ∧
      (3 ≤ st.retries → exec (.retxTimer k vc) s = .next ((s.updStream k vc (fun y => { y with retries := 0 })).failPath k x.active))) ∧
    (x.probing = some i → exec (.probeTimeout k) s = .next (s.failPath k i)) ∧
    (entryValid (s.peerEntry k) = true → (peerPath (s.peerEntry k) i).isSome = true → x.pathsUp.testBit i = false → i < 4 →
      exec (.pathProbeTimer k i) s = .next ((s.updPeer k (fun q => { q with
        replies := if q.probed.testBit i then Tbl.set 0 q.replies i 0 else q.replies, probed := q.probed ||| 2 ^ i })).sendProbe k i)) ∧
    exec (.pacingTimer k vc) s = .next (s.updStream k vc (fun y => { y with rate := min (y.rate + 2 ^ 32 / 32) (2 ^ 32) })) ∧
    (s.heldCells k vc = 0 → exec (.rxReservationRelease k vc p half) s = .next (s.updStream k vc (fun y => { y with
      reserved := Tbl.set false y.reserved (2 * p + half.toNat) false })))

/-- R461, R475 to R478, R487: a polled slot becomes an operation or completes at once, an operation sends its packets, and the entries are read and
written through IGT_ENTRY_SELECT. -/
def Obligations.RingsSendAndEntriesAreWritten : Prop :=
  ∀ (n k vc f : Nat) (value : Word32) (s : State), n < 128 → k < 128 → vc < 8 → f < 32 →
    let e := s.ringEntry n
    let ctx := entryCtx e
    let r := s.ring n
    let slots := 2 ^ fieldLE e 2 1
    let slot := s.physBytes (s.physRun ctx (fieldLE e 8 8 + 64 * (r.next % slots)) 64)
    let u := s.updRing n (fun r => { r with next := r.next + 1, lastYield := s.devTime })
    (entryValid e = true → s.torn ctx = false → slot.length = 64 → slotSealed slots r.next slot = true →
      (∀ st, u.slotFault e slot = some st → exec (.sendRingPoll n) s = .next (u.ringComplete n r.next slot st 0 0 0)) ∧
      (u.slotFault e slot = none → (u.peer (fieldLE slot 2 1)).down = true →
        exec (.sendRingPoll n) s = .next (u.ringComplete n r.next slot 5 0 0 0)) ∧
      (u.slotFault e slot = none → (u.peer (fieldLE slot 2 1)).down = false →
        let o : SendOp := { serial := u.links.serial, ring := n, index := r.next, ctx := ctx, slot := slot, tag := u.links.serial % 2 ^ 32
                            nextPacket := 0, sent := false, respCells := 0, got := 0, status := 0, aborted := false }
        let v := u.updStream (fieldLE slot 2 1) (fieldLE slot 1 1 / 4 % 8) (fun x => { x with ops := x.ops ++ [o] })
        exec (.sendRingPoll n) s = .next { v with links := { v.links with serial := v.links.serial + 1 } })) ∧
    (∀ o, (s.stream k vc).ops.find? (fun o => !o.sent) = some o →
      let path := s.pathEntry ((peerPath (s.peerEntry k) (s.peer k).active).getD 0)
      (s.peer k).down = false → (s.peer k).probing = none → s.links.regs.node ≠ 0 → (s.eth (pathPort path)).up (pathHalf path) = true →
      s.vcPaused vc path = false → (fieldLE o.slot 1 1).testBit 0 = false →
      (o.nextPacket ≠ 0 ∨ (s.stream k vc).responseCells + responseCells o.slot + s.heldCells k vc ≤ fieldLE (s.peerEntry k) 0x0A 2) →
      exec (.sendOperation k vc) s = .next (sendPackets 17 s k vc o)) ∧
    (s.mgmt.ready = true →
      let kind := value.toNat % 4
      let m := value.toNat / 4 % 256
      let selected (result : Nat) (v : State) : State := v.updIgt (fun r => { r with selResult := BitVec.ofNat 3 result })
      let u := s.updIgt (fun r => { r with selKind := BitVec.ofNat 2 value.toNat, selIndex := BitVec.ofNat 8 (value.toNat / 4), selResult := 0 })
      let held := if kind = 0 then s.peerEntry m else if kind = 1 then s.pathEntry m else s.ringEntry m
      let new := s.links.regs.entry
      (value.getLsbD 10 = true → kind ≠ 3 → (kind = 1 ∨ m < 128) → s.ownsEntry f kind m = true → exec (.igtEntryRead f value) s =
        .next (selected 1 (u.updIgt (fun r => { r with
          data := Tbl.setRun 0 r.data 0 ((List.range 16).map (fun i => BitVec.ofNat 32 (fieldLE held (4 * i) 4))) })))) ∧
      (value.getLsbD 11 = true → kind = 2 → m < 128 → s.ownsCtx f (entryCtx new) = true →
        (entryValid (s.ringEntry m) = false ∨ s.ownsCtx f (entryCtx (s.ringEntry m)) = true) → s.ringFieldsOk m new = true →
        exec (.igtEntryWrite f value) s = .next (selected 1 (u.applyEntry kind m new))) ∧
      (value.getLsbD 11 = true → kind = 0 → m < 128 → s.ownsCtx f (entryCtx new) = true →
        (entryValid (s.peerEntry m) = false ∨ s.ownsCtx f (entryCtx (s.peerEntry m)) = true) →
        (entryValid (s.peerEntry m) = false ∨ entryValid new = false) → s.peerFieldsOk new = true → s.peerPortsHeld new = true →
        (entryValid new = false ∨ s.peerCreditsOk m new = true) →
        exec (.igtEntryWrite f value) s = .next (selected 1 (u.applyEntry kind m new))))

/-- R26, R27: a flit that is in order is delivered and the next is expected; one that fails its CRC, and the loss of a module, ask for a replay. -/
def Obligations.DieLinksDeliverInOrder : Prop :=
  ∀ (l d module seq : Nat) (payload : List Byte) (s : State), l < 15 → d < 2 →
    let x := s.flitPath l d
    let out := Tbl.get 0 s.mgmt.modulesOut l
    let kept (n : Nat) : List (Nat × List Byte) :=
      if n < x.expected ∨ x.retry.any (fun e => e.1 == n) then x.retry else x.retry ++ [(n, payload)]
    (payload.length = 240 → exec (.d2dFlitReceive l d x.expected true payload) s = .next ((s.setFlitPath l d {
      expected := x.expected + 1, replaying := false, replays := x.replays + bit01 x.replaying
      retry := (kept x.expected).filter (fun e => decide (x.expected < e.1)) }).send
        (.flit l d (((x.retry.find? (fun e => e.1 == x.expected)).map Prod.snd).getD payload)))) ∧
    (payload.length = 240 → x.replaying = false ∨ seq = x.expected → exec (.d2dFlitReceive l d seq false payload) s =
      .next ((s.setFlitPath l d { x with replaying := true, retry := kept seq }).send (.flitReplay l d x.expected))) ∧
    (module < (if l < 3 then 25 else 8) → out.testBit module = false → exec (.d2dModuleFail l module) s =
      .next (((((s.updMgmt (fun m => { m with modulesOut := Tbl.set 0 m.modulesOut l (out + 2 ^ module) })).replayFlits l 0).replayFlits l 1).send
        (.fault { faultOf 0x0309 8 l with detail := module }))))

/-- R12 to R16, R599 to R601: accesses to BAR0's 16 MiB. A write of fewer than four bytes, and an access where no register lies, is an access error; a read of NAME_LO
captures the whole pair and the next read of NAME_HI takes it, a read of 1 to 4 bytes returning the addressed bytes; an aligned 8-byte read returns both halves; a write of NAME_HI writes the pair with the held low half; a 1 clears a W1C bit. -/
def Obligations.RegisterAccessesReadAndWrite : Prop :=
  ∀ (f off : Nat) (value : Word32) (words : List Word32) (s : State), f < 32 → off < 2 ^ 24 →
    let failed := s.updFn f (fun h => { h with
      accessErr := BitVec.ofNat 32 (min (h.accessErr.toNat % 256 + 1) 255 + 256 * (off % 2 ^ 24)) })
    let capture := f * 2 ^ 24 + off
    let hold (key : Nat) (h : Option PairHold) (t : State) : State := t.updMgmt (fun m => { m with pairs := Tbl.set none m.pairs key h })
    let single := (s.regPair f off).isSome = false ∧ (off < 4 ∨ (s.regPair f (off - 4)).isSome = false)
    exec (.registerWrite f off words true) s = .next failed ∧
    (s.regWord f off = none → exec (.registerWrite f off [value] false) s = .next failed) ∧
    (s.served = true → (s.regWord f off).isSome = true → single →
      exec (.registerWrite f off [value] false) s = .next (s.writeSingle f off value.toNat)) ∧
    (s.served = true → (s.regWord f 0x10000).isSome = true → (s.regPair f 0x10000).isSome = false → (s.regPair f 0xFFFC).isSome = false →
      exec (.registerWrite f 0x10000 [value] false) s = .next (s.clearing (fun s => { s with gfe := { s.gfe with
        status := s.gfe.status &&& ~~~(BitVec.ofNat _ value.toNat) } }))) ∧
    (s.served = true → (s.regWord f off).isSome = true → (s.regPair f off).isSome = true → exec (.registerWrite f off [value] false) s =
      .next (hold (capture + 2 ^ 40) (some { offset := off, write := true, value := value }) (hold capture none s))) ∧
    (∀ pair, s.mgmt.ready = true → s.regPair f off = some pair →
      let low := match Tbl.get none s.mgmt.pairs (capture + 2 ^ 40) with
        | some h => h.value.toNat
        | none => pair % 2 ^ 32
      exec (.pairHiWrite f (off + 4) value) s = .next
        ((hold (capture + 2 ^ 40) none (hold capture none s)).writePair f off (value.toNat * 2 ^ 32 + low))) ∧
    (credOffset off = false → off % 8 = 0 → (s.regPair f off).isSome = true → exec (.pairLoRead f ⟨off, 8⟩) s =
      .next (s.send (.completion f (natLE 4 ((s.barWord f off).getD 0) ++ natLE 4 ((s.barWord f (off + 4)).getD 0))))) ∧
    (∀ i n, off % 4 = 0 → 0 < n → i + n ≤ 4 →
      let answers (t : State) (v : Nat) : State := t.send (.completion f (((natLE 4 v).drop i).take n))
      (credOffset (off + i) = false → s.barWord f off = none → exec (.pairLoRead f ⟨off + i, n⟩) s = .next (answers (s.accessError f (off + i)) 0)) ∧
      (∀ v, credOffset (off + i) = false → s.barWord f off = some v → (s.regPair f off).isSome = true → exec (.pairLoRead f ⟨off + i, n⟩) s =
        .next (answers (hold capture (some { offset := off, write := false, value := BitVec.ofNat 32 ((s.barWord f (off + 4)).getD 0) }) s) v)) ∧
      (∀ v h, off + 4 < 2 ^ 24 → credOffset (off + 4 + i) = false → s.barWord f (off + 4) = some v → (s.regPair f (off + 4)).isSome = false →
        (s.regPair f off).isSome = true → Tbl.get none s.mgmt.pairs capture = some h → exec (.pairLoRead f ⟨off + 4 + i, n⟩) s =
          .next (answers (hold capture none s) h.value.toNat)) ∧
      (∀ v, credOffset (off + i) = false → s.barWord f off = some v → single → exec (.pairLoRead f ⟨off + i, n⟩) s = .next (answers s v)))

/-- R601, R604, R605: CLEAR sets every function's access error count to 0; a write of DEV_INT_CTL sends the vector once where it enables a summary bit that
is set already. -/
def Obligations.AccessErrorsAndInterruptControl : Prop :=
  ∀ (f : Nat) (value : Word32) (s : State), f < 32 → f % 16 = 0 → s.mgmt.ready = true →
    let u := s.settleInts
    let old := (Tbl.get intReset u.mgmt.ints f).ctl
    let ctl : BitVec 22 := BitVec.ofNat 22 value.toNat
    let written := u.updMgmt (fun m => { m with ints := Tbl.modify intReset m.ints f (fun i => { i with ctl := ctl }) })
    let sends (c : BitVec 22) (n : Nat) : Bool := c.getLsbD 0 && c.getLsbD (12 + n)
    (value.getLsbD 0 = true → exec (.accessClear f value) s =
      .next ((List.range 32).foldl (fun s g => s.updFn g (fun h => { h with accessErr := 0 })) s)) ∧
    (∀ n, n ∈ bitsSet (u.intSummary f) 10 → sends ctl n = true → sends old n = false →
      exec (.intCtlWrite f value) s = .next (written.fnVector f (ctl.toNat / 2 % 2048))) ∧
    ((∀ n ∈ bitsSet (u.intSummary f) 10, sends ctl n = true → sends old n = true) → exec (.intCtlWrite f value) s = .next written)

/-- R494 to R497, R514: a context's fault opens its teardown and is held for the merge window, after which its record is due; FLT_TAIL consumes records;
FLT_TEARDOWN is the host's own cause; a teardown that has been captured and has drained stops the context. -/
def Obligations.FaultsAreRecordedAndContextsTornDown : Prop :=
  ∀ (f c e : Nat) (r : FaultReport) (v : Word32) (s : State), f < 32 → c < 256 → e < 2 →
    let s0 := s.updFaults (fun x => { x with serial := x.serial + 1 })
    let isDown (c : Nat) : Bool := s.faults.teardowns.any (fun t => t.ctx == c) || decide ((s.ctx c).state = 2)
    let torn (c : Nat) (r : FaultReport) : State :=
      if isDown c then s0.holdFault { r with action := 2, domain := 0 } s.faults.serial 0xFFFF
      else (s0.updFaults (fun x => { x with
        captureHead := x.captureHead + 1
        teardowns := x.teardowns ++ [{ ctx := c, code := codeTornDown, slot := s.faults.captureHead.toNat, captured := false }] })).holdFault
          { r with action := 2, domain := 0 } s.faults.serial s.faults.captureHead.toNat
    (r.kind / 256 = 1 → r.ctx = some c → exec (.faultReport r) s = .next (torn c r)) ∧
    (r.kind / 256 ≠ 1 → recoveryOf r = none → exec (.faultReport r) s = .next ((s0.channelsLost r).holdFault r s.faults.serial 0xFFFF)) ∧
    (∀ p, s.mgmt.ready = true → s.partOfCtx c = some p → s.ownsPart f p = true →
      exec (.fltTeardown f c) s = .next (torn c { faultOf 0x0105 0 0 with ctx := some c, part := p, detail := f })) ∧
    (∀ h, s.faults.merge.find? (fun h => s.engineOf h.report.unitKind h.report.unit == e) = some h → exec (.mergeWindowExpire e) s =
      .next ((((s.updFaults (fun x => { x with merge := x.merge.erase h })).recordDue h).countEvents h).discardPatterns)) ∧
    (s.mgmt.ready = true → f % 16 = 0 → (v - s.faults.tail).toNat ≤ (s.faults.head - s.faults.tail).toNat → exec (.fltTailWrite f v) s =
      .next (s.clearing (fun s =>
        let u := s.updFaults (fun x => { x with tail := v })
        if u.faults.unread = 0 then u.releaseOverflow else u.releaseOverflow.faultVectors))) ∧
    (∀ t, s.faults.teardowns.find? (fun t => t.ctx == c) = some t → t.captured = true → s.ctxBusy c = false →
      let u := (s.sendContextTags c).finishStopped c
      let w := u.setCtx c { u.ctx c with state := 2 }
      exec (.teardownComplete c) s = .next { w with faults := { w.faults with
        teardowns := w.faults.teardowns.filter (fun t => t.ctx != c)
        ctxs := Tbl.set ctxFaultsReset w.faults.ctxs c { Tbl.get ctxFaultsReset w.faults.ctxs c with stopped := true } } })

/-- R499 to R512: captures come before resets, recoveries run four at a time in each engine, a reset unit returns, progress is sampled, and the loss of a
die's clock or of an engine is taken up. -/
def Obligations.RecoveriesCaptureResetAndReturn : Prop :=
  ∀ (e die slot unit : Nat) (written passed : Bool) (s : State), e < 2 → die < 4 →
    (∀ t, s.faults.teardowns.find? (fun t => t.slot == slot && !t.captured) = some t →
      exec (.captureDone slot written) s = .next (((s.writeCapture slot 0 0 0 (some t.ctx) written).updFaults (fun f => { f with
        teardowns := f.teardowns.map (fun x => if x.ctx = t.ctx then { x with captured := true } else x) })).stopContext t.ctx t.code)) ∧
    (∀ r, s.faults.teardowns.find? (fun t => t.slot == slot && !t.captured) = none →
      s.faults.recoveries.find? (fun r => r.slot == slot && r.running && !r.captured) = some r →
      exec (.captureDone slot written) s = .next (((s.writeCapture slot r.domain r.unitKind r.unit r.ctx written).updFaults (fun f => { f with
        recoveries := f.recoveries.map (fun x => if x = r then { x with captured := true } else x) })).performReset r)) ∧
    (∀ n, (s.faults.recoveries.filter (fun x => x.engine == e && x.running)).length < 4 →
      findIdxFrom (fun (x : Recovery) => x.engine == e && !x.running) s.faults.recoveries 0 = some n →
      exec (.recoveryStart e) s = .next (s.updFaults (fun f => { f with
        recoveries := f.recoveries.modify n (fun x => { x with running := true }) }))) ∧
    (s.faults.recoveries.any (fun r => r.unitKind == 1 && r.unit == unit && r.captured) = true →
      exec (.unitResetDone 1 unit passed) s = .next ((s.closeRecovery 1 unit).coresReturn (clusterOf unit))) ∧
    (s.faults.recoveries.any (fun r => r.unitKind == 2 && r.unit == unit && r.captured) = true →
      exec (.unitResetDone 2 unit passed) s =
        .next ((((s.closeRecovery 2 unit).updCluster unit (fun x => { x with stopped := false })).coresReturn unit).dispatch unit)) ∧
    exec (.diePllLoss die) s = .next (s.openDieReset die) ∧
    (s.mgmt.down.testBit die = true →
      let u (kind : Nat) : State := (s.updMgmt (fun m => { m with down := clearBit m.down die }.retrainLinks die)).closeRecovery kind (die % 2)
      (die < 2 → exec (.warmResetDone die) s = .next (u 15)) ∧
      (2 ≤ die → exec (.warmResetDone die) s = .next ((u 16).updFaults (fun f => { f with lost := clearBit f.lost (die - 2) })))) ∧
    (s.faults.lost = 0 → exec (.engineHeartbeatTimeout e) s = .next ((s.updFaults (fun f => { f with
      lost := 2 ^ (1 - e), status := f.status ||| 4, recoveries := f.recoveries.map (fun r => { r with engine := e }) })).report
        { faultOf 0x030C 9 (1 - e) with detail := e })) ∧
    exec (.progressSample e) s = .next ((s.sampled e).foldl (fun t x => t.judgeStall x.1 x.2)
      ((s.sampled e).foldl (fun t x => t.sampleOne x.1 x.2) s))

/-- R519 to R541: a mismatch in lockstep, failed self tests, diagnoses, the harrow's passes of a core, the history's writes to flash, service time and the
traffic test of a channel. -/
def Obligations.IntegrityChecksAct : Prop :=
  ∀ (k c n f entry g errors : Nat) (differ : List (Nat × Int)) (ok : Bool) (s : State), k < 192 → c < 24 → g < 448 → f < 32 →
    let x := s.core k
    let now := s.mgmt.service
    ((x.phase ≠ .stopped) → exec (.coreLockstep k n) s = .next ((s.updCluster (clusterOf k) (fun y => { y with
      integrity := { y.integrity with lockstepCore := y.integrity.lockstepCore + 1 } })).coreFailed k 0x0301 n)) ∧
    ((s.cluster c).stopped = false → (s.cluster c).retired = false → exec (.clusterLockstep c) s = .next ((s.updCluster c (fun y => { y with
      stopped := true, integrity := { y.integrity with lockstepCluster := y.integrity.lockstepCluster + 1 } })).send
        (.fault (faultOf 0x0302 2 c)))) ∧
    (exec (.clusterSelftestDone c none) s = .next s ∧ ((s.cluster c).retired = false → exec (.clusterSelftestDone c (some n)) s =
      .next (((s.histEvent 2 6 c n 0 (HistEntry.permanent now)).histEvent 2 0 c 0 0 (HistEntry.permanent now)).retireCluster c))) ∧
    (x.phase = .idle → x.item = none → x.harrow.phase ≠ 2 → s.patterns.any (fun p => p.core == k && p.confirmed) = true →
      exec (.columnDiagnosis k) s = .next (s.updCore k (fun y => { y with harrow := { y.harrow with diagnosing := true } }))) ∧
    (x.harrow.diagnosing = true → exec (.diagnosisDone k differ ok) s = .next (((s.updCore k (fun y => { y with
      harrow := { y.harrow with diagnosing := false } })).diagnose k differ ok |>.coreCleared k).dispatch (clusterOf k))) ∧
    (s.mgmt.harrowEnable = true → x.harrow.permanent = false → x.harrow.phase = 0 → exec (.harrowDue k) s =
      .next (s.updCore k (fun y => { y with harrow := { y.harrow with phase := 1 } }))) ∧
    ((x.harrow.phase = 1 ∨ x.harrow.phase = 3) → x.phase = .idle → x.item = none → x.incoming = none → x.harrow.diagnosing = false →
      (List.range 8).any (fun j => (s.core (8 * clusterOf k + j)).harrow.phase == 2) = false → s.betweenPlans (clusterOf k) = false →
      exec (.harrowStart k) s = .next (s.updCore k (fun y => { y with harrow := { y.harrow with phase := 2 } }))) ∧
    (∀ i a pool b, x.item = some i → s.poolOf k = some (a, pool, b) → x.harrow.phase = 1 →
      ((pool.fullPreempt = false ∨ (s.cluster (clusterOf k)).sched.fullDisable = true ∨ x.saved.isSome = true) → exec (.harrowDeferExpire k) s =
        .next (s.updCore k (fun y => { y with harrow := { y.harrow with phase := 3 } }))) ∧
      (pool.fullPreempt = true → (s.cluster (clusterOf k)).sched.fullDisable = false → x.saved = none → x.phase = .running →
        (s.cluster (clusterOf k)).preempts.length < 2 → exec (.harrowDeferExpire k) s = .next (s.startQuiesce k none))) ∧
    (x.harrow.phase = 2 → x.harrow.suspect = false → x.harrow.permanent = false → x.saved = none →
      let passed := s.updCore k (fun y => { y with harrow := { y.harrow with
        phase := 0, lastFailed := false, passedAt := now, passes := y.harrow.passes + 1 } })
      let cleared := (passed.diagnose k differ ok).coreCleared k
      (passed.core k).harrow.permanent = false → (cleared.core k).saved = none →
      exec (.harrowComplete k none differ ok) s = .next (cleared.dispatch (clusterOf k))) ∧
    (∀ e, s.mgmt.hist.entries[entry]? = some e → s.mgmt.hist.pending.any (fun p => p.entry == entry) = true →
      let h := s.mgmt.hist
      let seqs := (h.pending.filter (fun p => p.entry == entry)).map (fun p => Tbl.get 0 s.faults.sequences p.serial)
      let written := s.updHist (fun h => { h with
        flash := (s.mgmt.hist.flash ++ List.replicate (entry + 1 - s.mgmt.hist.flash.length) (histBlank 0 0 0 0)).set entry e
        pending := s.mgmt.hist.pending.filter (fun p => p.entry != entry) })
      let mine (_ : Nat) (b : List Byte) : Bool := fieldLE b 0 4 != 0 && seqs.contains (fieldLE b 0 4)
      exec (.historyWriteDone entry) s = .next (written.updFaults (fun f => { f with
        records := Tbl.mapWhere [] f.records mine (fun b => b.set 7 (b.getD 7 0 ||| 16)) }))) ∧
    (exec .serviceTimeTick s = .next { (s.updMgmt (fun m => { m with service := m.service + 60, serviceFlash := m.service + 60 })) with
      gleaners :=
        let aged (x : GleanerState) : GleanerState := { x with test := { x.test with recent := (0 :: x.test.recent).take 60 } }
        Tbl.mapWhere gleanerReset s.gleaners (fun _ x => !x.test.recent.isEmpty) aged }) ∧
    (s.mgmt.ready = true → f % 16 = 0 → n < 4096 →
      exec (.histSelect f n) s = .next (s.updHist (fun h => { h with select := n, window := h.entries[n]? }))) ∧
    ((s.gleaner g).test.phase = 1 → (s.gleaner g).test.mode < 2 → g < 384 → exec (.trafficTestDone g 0) s =
      .next (s.updGleaner g (fun x => { x with test := { x.test with
        phase := 2, suspect := x.test.suspect && !(x.test.mode == 1) } }))) ∧
    ((s.gleaner g).test.phase = 1 → (s.gleaner g).test.mode < 2 → 0 < errors →
      let u := s.updGleaner g (fun x => { x with test := { x.test with
        phase := 3, errors := x.test.errors + BitVec.ofNat 32 errors, failedSeen := true } })
      exec (.trafficTestDone g errors) s = .next (if u.mappedOut g then u else u.mapOut g true))

/-- R543, R544, R556 to R559: a maintenance command that the reeve takes is judged by the ordered checks; one that fails a check is answered with its outcome and,
from the third check on, uses up the nonce; one that passes them has its effect. -/
def Obligations.MaintenanceCommandsAreJudgedThenRun : Prop :=
  ∀ (ep g : Nat) (msg : List Byte) (rows : List Nat) (resources passed : Bool) (s : State), g < 448 → s.mgmt.reeve = true →
    let p := maintPayload msg
    let u := s.dropNonce ep
    let judged (t : State) (outcome : Nat) (data : List Byte) : State := match s.maintCheck ep msg with
      | 0 => t.manage ep outcome data
      | n => (if n = 2 ∨ n = 4 then s else u).manage ep n []
    let done (t : State) : State := judged t 0 []
    (∀ k, isMaint 1 msg = true → u.keySlot (fieldLE p 0 1) (fieldLE p 1 1) = some k → k.state ≠ 1 → p.length = 103 →
      exec (.keyEnroll ep msg) s = .next (done (u.setKeySlot (fieldLE p 0 1) (fieldLE p 1 1) {
        state := 1, key := beNat ((p.drop 2).take 97), floor := if fieldLE p 0 1 = 0 then max (fieldLE p 99 4) k.floor else 0 }))) ∧
    (∀ k, isMaint 2 msg = true → u.keySlot (fieldLE p 0 1) (fieldLE p 1 1) = some k →
      ¬ (fieldLE p 0 1 = 1 ∧ k.state = 1 ∧ u.maintActive = 1) →
      exec (.keyRevoke ep msg) s = .next (done (u.setKeySlot (fieldLE p 0 1) (fieldLE p 1 1) { k with state := 2 }))) ∧
    (isMaint 3 msg = true →
      (u.isOut g = false → exec (.stackRepair ep msg g rows resources passed) s = .next (judged u 5 (natLE 1 3))) ∧
      (u.isOut g = true → resources = false → exec (.stackRepair ep msg g rows resources passed) s = .next (judged u 0 (natLE 1 1))) ∧
      (u.isOut g = true → resources = true → passed = false → exec (.stackRepair ep msg g rows resources passed) s =
        .next (judged (u.updGleaner g (fun x => { x with test := { x.test with phase := 3, mode := 3, failedSeen := true } })) 0 (natLE 1 2))) ∧
      (u.isOut g = true → resources = true → passed = true →
        let named := if rows.isEmpty then (u.gleaner g).test.hardRows else rows
        let mended := u.updGleaner g (fun x => { x with test := { x.test with
          phase := 2, mode := 3, suspect := false, hardRows := x.test.hardRows.filter (fun r => !named.contains r), found := [] } })
        let noted := mended.editHist (fun _ e => e.unitKind == (gleanerUnit g).1 && e.part == 5 && e.unit == (gleanerUnit g).2 &&
          named.contains e.index) (fun e => { e with state := 3 })
        exec (.stackRepair ep msg g rows resources passed) s = .next (judged (noted.returnChannel g) 0 (natLE 1 0)))) ∧
    (isMaint 4 msg = true → (fieldLE p 0 2 = 0xFFFF ∨ fieldLE p 0 2 < u.mgmt.hist.entries.length) → exec (.historyClear ep msg) s =
      .next (done ((u.editHist (fun i e => if fieldLE p 0 2 = 0xFFFF then e.unitKind == fieldLE p 2 1 && e.unit == fieldLE p 3 2
        else i == fieldLE p 0 2) HistEntry.cleared).updHist (fun h => { h with full := false })))) ∧
    (isMaint 5 msg = true → fieldLE p 0 2 < 448 → fieldLE p 2 1 < 4 → (u.gleaner (fieldLE p 0 2)).test.phase ≠ 1 →
      exec (.testStart ep msg) s = .next (done (u.updGleaner (fieldLE p 0 2) (fun x => { x with
        test := { x.test with phase := 1, mode := fieldLE p 2 1 } })))) ∧
    (isMaint 6 msg = true → p.length = 1 → fieldLE p 0 1 < 2 →
      exec (.imagePrefer ep msg) s = .next (done (u.updMgmt (fun m => { m with prefer := fieldLE p 0 1 })))) ∧
    (isMaint 7 msg = true → u.mgmt.debugLock = false →
      exec (.debugUnlock ep msg) s = .next (done (u.updMgmt (fun m => { m with debugOpen := true })))) ∧
    (isMaint 8 msg = true → exec (.debugLockBlow ep msg) s = .next (done (u.updMgmt (fun m => { m with debugLock := true, debugOpen := false }))))

/-- R553, R554, R557 to R559, R565, R566: nonces, the reeve's unsigned messages, and the take-over and restart of a reeve. -/
def Obligations.ManagementMessagesAreAnswered : Prop :=
  ∀ (ep kind index off words d : Nat) (cap c0 c1 : Option Nat) (s : State), s.mgmt.reeve = true → d < 4 →
    let answered (t : State) (bs : List Byte) : State := t.send (.management ep 0 bs)
    let nonce := (Config.freeCredential s.freeCtr).toNat
    let u := (s.dropNonce ep).tookFree
    exec (.getNonce ep) s = .next (answered (u.updMgmt (fun m => { m with
      nonces := m.nonces.drop (m.nonces.length - 3) ++ [{ endpoint := ep, value := nonce }] })) (natLE 16 nonce)) ∧
    exec (.nonceExpire ep) s = .next (s.updMgmt (fun m => { m with nonces := m.nonces.filter (fun n => n.endpoint != ep) })) ∧
    exec (.mgmtRead ep kind index off words) s = .next (answered (s.mgmtWords kind index words off).1 (s.mgmtWords kind index words off).2) ∧
    exec (.mgmtReset ep none) s = .next (answered (s.openRecovery (faultOf 0 0 0) 0 0 7).1 []) ∧
    exec (.mgmtReset ep (some d)) s = .next (answered (s.openDieReset d) []) ∧
    (let capped (t : State) : State := match cap with
      | some v => t.setBmcCap v
      | none => t
     let at_ (c : Option Nat) (die : Nat) (t : State) : State := match c with
      | some k => t.setBmcCeiling die k
      | none => t
     exec (.mgmtCap ep cap c0 c1) s = .next (answered (at_ c1 1 (at_ c0 0 (capped s))) [])) ∧
    (s.mgmt.standby = true →
      let v := s.updMgmt (fun m => { m with activeReeve := 1 - s.mgmt.activeReeve, standby := false })
      let lost := v.loader.loads.filter (fun l => l.phase == LoadPhase.waiting || l.phase == LoadPhase.staged)
      exec .reeveTakeover s = .next ((lost.foldl (fun s l => s.endLoad l (refuse 0x0506) (s.devTime - l.fetched)) v).send
        (.fault (faultOf 0x030D 14 s.mgmt.activeReeve)))) ∧
    (s.mgmt.standby = false →
      exec .reeveRestart s = .next (if s.bootImage.isNone then s else s.updMgmt (fun m => { m with standby := true })))

/-- R570 to R574: MCTP control, sensors and effecters, firmware received and activated in service, step by step. -/
def Obligations.ManagementEndpointAndActivation : Prop :=
  ∀ (ep n value binding : Nat) (smbus : Bool) (image : FwImage) (data : List Byte) (failed : List Nat) (s : State), binding < 3 →
    let m := s.mgmt
    let tells (t : State) (kind : Nat) (bs : List Byte) : State := t.send (.pldm ep kind bs)
    (m.reeve = true → exec (.mctpControl binding 1 data) s = .next ((s.updMgmt (fun m => { m with
        eids := Tbl.set 0 m.eids binding (fieldLE data 1 1) })).send (.pldm binding 0 (natLE 1 1 ++ ([0, 0] ++ natLE 1 (fieldLE data 1 1) ++ [0])))) ∧
      exec (.mctpControl binding 2 data) s = .next (s.send (.pldm binding 0 (natLE 1 2 ++ ([0] ++ natLE 1 (Tbl.get 0 m.eids binding) ++ [0, 0]))))) ∧
    (∀ v, m.reeve = true → s.sensorValue n = some v → exec (.pldmGetSensor ep n) s = .next (tells s 1 (natLE 2 n ++ natLE 8 v))) ∧
    (m.reeve = true → exec (.pldmSetEffecter ep 100 value) s = .next (tells (s.setBmcCap value) 3 (natLE 2 100)) ∧
      exec (.pldmSetEffecter ep 101 value) s = .next (tells (s.setBmcCeiling 0 (pointOf value)) 3 (natLE 2 101)) ∧
      exec (.pldmSetEffecter ep 102 value) s = .next (tells (s.setBmcCeiling 1 (pointOf value)) 3 (natLE 2 102))) ∧
    (s.updates smbus = true → m.activation = none →
      let u := s.updMgmt (fun m => { m with images := Tbl.set none m.images m.spareSlot (some image) })
      exec (.pldmFwTransfer ep smbus image) s = .next (tells u 4 [BitVec.ofNat 8 (bit01 (u.imageValid u.mgmt.spareSlot))])) ∧
    (s.updates smbus = true → m.activation = none →
      let cold := ((Tbl.get none m.images m.spareSlot).map (fun i => i.coldOnly)).getD true || !m.reeve
      exec (.pldmActivateFirmware ep smbus) s = .next (if s.imageValid m.spareSlot then tells (s.updMgmt (fun m => { m with
        prefer := s.mgmt.spareSlot, activation := if cold then none else some { done := 0 } })) 5 [BitVec.ofNat 8 (bit01 cold)] else s)) ∧
    (∀ a, m.activation = some a →
      let step (t : State) : State := t.updMgmt (fun m => { m with activation := some { done := a.done + 1 } })
      (a.done = 0 → exec .activationStep s = .next (step (s.updMgmt (fun m => { m with standby := true })))) ∧
      (a.done = 1 → s.undecided = false → exec .activationStep s = .next (step (s.updMgmt (fun m => { m with
        activeReeve := 1 - m.activeReeve, image := s.mgmt.spareSlot, standby := false })))) ∧
      (a.done = 4 → exec .activationStep s = .next (step (s.updMgmt (fun m => { m with roll := some 0, rolling := false }))))) ∧
    (∀ r, m.roll = some r → m.rolling = false → exec .microcodeRollStep s = .next ((rollGleaners r).foldl
      (fun s g => s.updGleaner g (fun x => { x with holding := true })) (s.updMgmt (fun m => { m with rolling := true })))) ∧
    (∀ r, m.roll = some r → m.rolling = true → r < 27 → (rollGleaners r).all s.quiet = true →
      let u := s.updMgmt (fun m => { m with rolling := false, roll := some (r + 1) })
      let v := (rollGleaners r).foldl (fun s g => (s.updGleaner g (fun x => { x with
        holding := s.inRecovery (gleanerUnit g).1 (gleanerUnit g).2 })).drainQueue g) u
      exec (.microcodeLoad failed) s = .next (v.sendAll (((rollGleaners r).filter (fun g => failed.contains g)).map (fun g =>
        Out.fault (faultOf 0x030A (gleanerUnit g).1 (gleanerUnit g).2)))))

/-- R560 to R566: bring-up, step by step, from POWER_ON to READY. -/
def Obligations.BringUpReachesReady : Prop :=
  ∀ (absent : Nat) (failed cores clusters : List Nat) (rows : List (Nat × Nat)) (s : State),
    (s.mgmt.phase = .off → s.mgmt.thermTrip = false → exec .powerOn s = .next (s.updMgmt (fun m => { m with
      phase := .bootRom, untested := (2 ^ 64 - 1) ^^^ (s.loft.out % 2 ^ 64) }))) ∧
    (s.mgmt.phase ≠ .off → s.mgmt.dipping = false → exec .pwrGoodRise s = .next (s.updMgmt (fun m => { m with powerGood := true }))) ∧
    (s.mgmt.phase = .bootRom → exec .imageVerifyDone s = .next (match s.bootImage with
      | some n => s.updMgmt (fun m => { m with phase := .firmware, reeve := true, standby := true, image := n, activeReeve := 0 })
      | none => (s.updMgmt (fun m => { m with phase := .failed, failed := true, error := 1 })).noteReady)) ∧
    (s.mgmt.phase = .firmware → exec (.diePowerUpDone absent) s = .next (s.updMgmt (fun m => { m with
      phase := .training, absent := absent % 4, error := if absent % 4 = 0 then m.error else 2 })
      |>.startFaults ((bitsSet (absent % 4) 2).map (faultOf 0 15)))) ∧
    (s.mgmt.phase = .training → exec (.hbmTrainingDone failed) s =
      .next ((s.trainingFailed (failed.filter (fun g => decide (g < 384)))).startGranaryTests.updMgmt (fun m => { m with
        phase := .hbmTrained }))) ∧
    (s.mgmt.phase = .hbmTrained →
      let u := s.trainingFailed ((failed.filter (fun n => decide (n < 64))).map (fun n => 384 + n))
      let packageLost := (List.range 32).all (fun i => u.loft.out.testBit i) || (List.range 32).all (fun i => u.loft.out.testBit (32 + i))
      exec (.lpddrTrainingDone failed) s = .next (u.updMgmt (fun m => { m with
        phase := .trained, trained := true, error := if packageLost then 3 else m.error }))) ∧
    (s.mgmt.phase = .trained →
      let now := s.mgmt.service
      let u := s.mgmt.hist.flash.foldl (fun s e => s.applyHist e) s
      let v := (cores.filter (fun k => decide (k < 192))).foldl (fun s k => (s.histEvent 1 0 k 0 0 (HistEntry.permanent now)).retireCore k) u
      let w := (clusters.filter (fun c => decide (c < 24))).foldl (fun s c =>
        (s.histEvent 2 0 c 0 0 (HistEntry.permanent now)).retireCluster c) v
      let x := (rows.filter (fun e => decide (e.1 < 192))).foldl (fun s e => s.spareRow e.1 e.2) w
      let y := ((List.range 24).filter (fun c => x.mgmt.absent.testBit (c / 12))).foldl (fun s c => s.retireCluster c) x
      let dead := [0, 1].filter (fun d => (List.range 12).all (fun i => (y.mapOf (12 * d + i)).present == 0))
      let z := y.startFaults (bistFaults (cores.filter (fun k => decide (k < 192))) (clusters.filter (fun c => decide (c < 24)))
        (rows.filter (fun e => decide (e.1 < 192))) (dead.filter (fun d => !y.mgmt.absent.testBit d)))
      exec (.bistDone cores clusters rows) s = .next (z.updMgmt (fun m => { m with
        phase := .ready, bist := true, ready := true, error := if dead.isEmpty then m.error else 2 })).raiseFwFloor.startTests.noteReady)

/-- R565 to R569, R588, R589: the power loop's tick, the clocks' steps, the hardware's own reactions to a current limit, a thermal trip and a dip of the input, and the loss
of power. -/
def Obligations.PowerFollowsItsLimits : Prop :=
  ∀ (power average volts watts0 watts1 d n : Nat) (temps : List Nat) (s : State), d < 2 →
    (s.mgmt.reeve = true →
      let u := temps.zipIdx.foldl (fun s (e : Nat × Nat) =>
        if e.2 < 34 then s.updSensor (e.2 + 1) (fun x => { x with temp := e.1 % 256, above := decide (throttleOf (e.2 + 1) ≤ e.1) }) else s) s
      let v := u.updMgmt (fun m => { m with
        lastMs := power % 65536, lastS := average % 65536, volts := volts % 65536, energy := m.energy + BitVec.ofNat 64 power
        calm := if 100 * power < 97 * m.cap then min 10 (m.calm + 1) else 0
        dipHold := if m.dipping then 10 else m.dipHold - 1 })
      exec (.powerLoopTick power average volts watts0 watts1 temps) s =
        .next ((v.updDie 0 (fun x => { x with watts := watts0 % 65536, tempMax := (v.sensor 1).temp })).updDie 1 (fun x => { x with
          watts := watts1 % 65536, tempMax := (v.sensor 2).temp })).powerDecision) ∧
    exec (.clockStepDone d) s = .next (s.updDie d (fun x => match x.stepTo with
      | some k => { x with current := k, stepTo := none }
      | none => x)) ∧
    exec (.currentLimitTrip d) s = .next (s.updDie d DieClock.drop) ∧
    (s.mgmt.phase ≠ .off → exec .inputDip s = .next (((s.updMgmt (fun m => { m with
      dip := true, dipping := true, dipHold := 10 })).updDie 0 DieClock.drop).updDie 1 DieClock.drop)) ∧
    exec .inputRestored s = .next (s.updMgmt (fun m => { m with dipping := false })) ∧
    (s.mgmt.dipping = true → exec .dipTimeout s = .next (s.powerDown false)) ∧
    (s.mgmt.phase ≠ .off → exec .inputCollapse s = .next (s.powerDown false)) ∧
    (s.mgmt.phase ≠ .off → exec .powerLoss s = .next ((s.powerDown false).updMgmt (fun m => { m with thermTrip := false }))) ∧
    (s.mgmt.phase ≠ .off → s.mgmt.reeve = false → 1 ≤ n → n ≤ 32 →
      exec (.thermalTrip n) s = .next ((s.powerDown false).updMgmt (fun m => { m with thermTrip := true }))) ∧
    (1 ≤ n → n ≤ 34 → exec (.thresholdCrossing n) s =
      .next ((s.updSensor n (fun x => { x with above := true, seen := true })).send (.pldm 0 2 (natLE 1 n))))
end

