-- ==== Sys2Proof/Laws/Kept.lean ====
section
/-!
SUPPORT. What no operation of the model changes but the few that say so: the queue of waiting commands and the fuses (R555, R576). `State.kept`
gathers them; beside it stand the ways in which an operation's answer keeps them.
-/

namespace Sys2Proof.Machine

/-- DEBUG_LOCK and the port that it shuts, FW_FLOOR, the serial number and the root key's digest. -/
def MgmtState.fuses (m : MgmtState) : Bool × Bool × Nat × Nat × Nat := (m.debugLock, m.debugOpen, m.fwFloor, m.serial, m.rootKeyHash)
/-- The queue and the fuses. -/
def State.kept (s : State) : List Instr × Bool × Bool × Nat × Nat × Nat := (s.pending, s.mgmt.fuses)

theorem kept_mk (pending freeCtr devTime out parts coreMap cores clusters gleaners stackMaps loft sysArea inherited patterns xlt copyMaps host gfe links
    loader faults acc mgmt) : State.kept ⟨pending, freeCtr, devTime, out, parts, coreMap, cores, clusters, gleaners, stackMaps, loft, sysArea, inherited,
      patterns, xlt, copyMaps, host, gfe, links, loader, faults, acc, mgmt⟩ = (pending, mgmt.fuses) := rfl
theorem kept_pair (s : State) : (s.pending, s.mgmt.fuses) = s.kept := rfl
theorem fuses_eta (m : MgmtState) : (m.debugLock, m.debugOpen, m.fwFloor, m.serial, m.rootKeyHash) = m.fuses := rfl

/-- An answer that is a next state keeps `K`. -/
def keeps (K : List Instr × Bool × Bool × Nat × Nat × Nat) : Answer → Prop
  | .next t => t.kept = K
  | _ => True
/-- An issue keeps `K` in whatever state it leaves. -/
def Issue.keeps (K : List Instr × Bool × Bool × Nat × Nat × Nat) : Issue → Prop
  | .done t => t.kept = K
  | .jump t _ => t.kept = K
  | .wait t => t.kept = K
  | .ended t => t.kept = K
/-- A gleaner instruction keeps `K`. -/
def GStep.keeps (K : List Instr × Bool × Bool × Nat × Nat × Nat) : GStep → Prop
  | .done t _ => t.kept = K
  | .wait => True
  | .held t => t.kept = K
  | .stop t _ _ => t.kept = K
/-- A read-modify-write of a row keeps `K`. -/
def RowOpEnd.keeps (K : List Instr × Bool × Bool × Nat × Nat × Nat) : RowOpEnd → Prop
  | .done t _ _ => t.kept = K
  | _ => True
/-- A wait that is over keeps `K`. -/
def WaitEnd.keeps (K : List Instr × Bool × Bool × Nat × Nat × Nat) : WaitEnd → Prop
  | .go t => t.kept = K
  | _ => True
/-- A replacement keeps `K`. -/
def Replaced.keeps (K : List Instr × Bool × Bool × Nat × Nat × Nat) : Replaced → Prop
  | .applied t => t.kept = K
  | _ => True
/-- What becomes of a frame keeps `K`. -/
def Accepted.keeps (K : List Instr × Bool × Bool × Nat × Nat × Nat) : Accepted → Prop
  | .dropped t => t.kept = K
  | .packet t _ _ _ _ => t.kept = K
/-- A state that may be absent keeps `K`. -/
def keepsSome (K : List Instr × Bool × Bool × Nat × Nat × Nat) : Option State → Prop
  | some t => t.kept = K
  | none => True
/-- A state with more, that may be absent, keeps `K`. -/
def keepsSomeFst {β : Type} (K : List Instr × Bool × Bool × Nat × Nat × Nat) : Option (State × β) → Prop
  | some t => t.1.kept = K
  | none => True

section
variable {K : List Instr × Bool × Bool × Nat × Nat × Nat} {t : State}

theorem keeps_next : keeps K (.next t) = (t.kept = K) := rfl
theorem keeps_fault {f : Fault} : keeps K (.fault f) = True := rfl
theorem keeps_refused {r : Refusal} : keeps K (.refused r) = True := rfl
theorem issue_keeps_done : (Issue.done t).keeps K = (t.kept = K) := rfl
theorem issue_keeps_jump {n : Nat} : (Issue.jump t n).keeps K = (t.kept = K) := rfl
theorem issue_keeps_wait : (Issue.wait t).keeps K = (t.kept = K) := rfl
theorem issue_keeps_ended : (Issue.ended t).keeps K = (t.kept = K) := rfl
theorem gstep_keeps_done {th : Thread} : (GStep.done t th).keeps K = (t.kept = K) := rfl
theorem gstep_keeps_wait : GStep.wait.keeps K = True := rfl
theorem gstep_keeps_held : (GStep.held t).keeps K = (t.kept = K) := rfl
theorem gstep_keeps_stop {a b : Nat} : (GStep.stop t a b).keeps K = (t.kept = K) := rfl
theorem rowop_keeps_done {a : List Byte} {b : List NumFlags} : (RowOpEnd.done t a b).keeps K = (t.kept = K) := rfl
theorem rowop_keeps_waits : RowOpEnd.waits.keeps K = True := rfl
theorem rowop_keeps_lost : RowOpEnd.lost.keeps K = True := rfl
theorem rowop_keeps_invalid : RowOpEnd.invalid.keeps K = True := rfl
theorem wait_keeps_go : (WaitEnd.go t).keeps K = (t.kept = K) := rfl
theorem wait_keeps_waits : WaitEnd.waits.keeps K = True := rfl
theorem wait_keeps_abandoned : WaitEnd.abandoned.keeps K = True := rfl
theorem replaced_keeps_applied : (Replaced.applied t).keeps K = (t.kept = K) := rfl
theorem replaced_keeps_waits : Replaced.waits.keeps K = True := rfl
theorem replaced_keeps_lost : Replaced.lost.keeps K = True := rfl
theorem accepted_keeps_dropped : (Accepted.dropped t).keeps K = (t.kept = K) := rfl
theorem accepted_keeps_packet {a b : Nat} {c : Bool} {d : List Byte} : (Accepted.packet t a b c d).keeps K = (t.kept = K) := rfl
theorem keeps_some : keepsSome K (some t) = (t.kept = K) := rfl
theorem keeps_none : keepsSome K none = True := rfl
theorem keeps_some_fst {β : Type} {b : β} : keepsSomeFst K (some (t, b)) = (t.kept = K) := rfl
theorem keeps_none_fst {β : Type} : keepsSomeFst (β := β) K none = True := rfl

theorem kept_of_pair {β : Type} {p : State × β} {b : β} (h : p = (t, b)) (hp : p.1.kept = K) : t.kept = K := by rw [h] at hp; exact hp
theorem kept_of_next {a : Answer} (h : a = .next t) (ha : keeps K a) : t.kept = K := by rw [h] at ha; exact ha
theorem kept_of_done {i : Issue} (h : i = .done t) (ha : i.keeps K) : t.kept = K := by rw [h] at ha; exact ha
theorem kept_of_jump {i : Issue} {n : Nat} (h : i = .jump t n) (ha : i.keeps K) : t.kept = K := by rw [h] at ha; exact ha
theorem kept_of_wait {i : Issue} (h : i = .wait t) (ha : i.keeps K) : t.kept = K := by rw [h] at ha; exact ha
theorem kept_of_ended {i : Issue} (h : i = .ended t) (ha : i.keeps K) : t.kept = K := by rw [h] at ha; exact ha
theorem kept_of_gdone {i : GStep} {th : Thread} (h : i = .done t th) (ha : i.keeps K) : t.kept = K := by rw [h] at ha; exact ha
theorem kept_of_gstop {i : GStep} {a b : Nat} (h : i = .stop t a b) (ha : i.keeps K) : t.kept = K := by rw [h] at ha; exact ha
theorem kept_of_gheld {i : GStep} (h : i = .held t) (ha : i.keeps K) : t.kept = K := by rw [h] at ha; exact ha
theorem kept_of_rowop {i : RowOpEnd} {a : List Byte} {b : List NumFlags} (h : i = .done t a b) (ha : i.keeps K) : t.kept = K := by rw [h] at ha; exact ha
theorem kept_of_go {i : WaitEnd} (h : i = .go t) (ha : i.keeps K) : t.kept = K := by rw [h] at ha; exact ha
theorem kept_of_applied {i : Replaced} (h : i = .applied t) (ha : i.keeps K) : t.kept = K := by rw [h] at ha; exact ha
theorem kept_of_dropped {i : Accepted} (h : i = .dropped t) (ha : i.keeps K) : t.kept = K := by rw [h] at ha; exact ha
theorem kept_of_packet {i : Accepted} {a b : Nat} {c : Bool} {d : List Byte} (h : i = .packet t a b c d) (ha : i.keeps K) : t.kept = K := by
  rw [h] at ha; exact ha
theorem kept_of_some {o : Option State} (h : o = some t) (ho : keepsSome K o) : t.kept = K := by rw [h] at ho; exact ho
theorem kept_of_some_fst {β : Type} {o : Option (State × β)} {b : β} (h : o = some (t, b)) (ho : keepsSomeFst K o) : t.kept = K := by
  rw [h] at ho; exact ho

theorem kept_foldl {α : Type} {g : State → α → State} {l : List α} {s : State} (hg : ∀ u a, (g u a).kept = u.kept) (hs : s.kept = K) :
    (l.foldl g s).kept = K := by
  induction l generalizing s with
  | nil => exact hs
  | cons a l ih => exact ih ((hg s a).trans hs)
theorem kept_foldl_eq {α : Type} {g : State → α → State} {l : List α} {s : State} (hg : ∀ u a, (g u a).kept = u.kept) : (l.foldl g s).kept = s.kept :=
  kept_foldl hg rfl
theorem kept_ite {c : Prop} [Decidable c] {a b : State} : (if c then a else b).kept = if c then a.kept else b.kept := by split <;> rfl
theorem kept_foldl_fst {α β : Type} {g : State × β → α → State × β} {l : List α} {p : State × β} (hg : ∀ u a, (g u a).1.kept = u.1.kept)
    (hp : p.1.kept = K) : (l.foldl g p).1.kept = K := by
  induction l generalizing p with
  | nil => exact hp
  | cons a l ih => exact ih ((hg p a).trans hp)
end

end Sys2Proof.Machine
end

