-- ==== Sys2Proof/Laws/Tbl.lean ====
section
/-!
SUPPORT. The laws of sparse tables and of byte memories: a read after a write, and that every operation keeps the
canonical form.
-/

namespace Sys2Proof.Machine

variable {α : Type}

@[simp] theorem Tbl.get_nil (d : α) (k : Nat) : Tbl.get d [] k = d := rfl

theorem Tbl.get_cons (d : α) (e : Nat × α) (t : Tbl α) (k : Nat) :
    Tbl.get d (e :: t) k = if e.1 = k then e.2 else Tbl.get d t k := rfl

theorem Tbl.drop_cons (e : Nat × α) (t : Tbl α) (k : Nat) :
    Tbl.drop (e :: t) k = if e.1 = k then Tbl.drop t k else e :: Tbl.drop t k := by
  unfold Tbl.drop
  by_cases h : e.1 = k <;> simp [h]

theorem Tbl.get_drop_same (d : α) (t : Tbl α) (k : Nat) : Tbl.get d (Tbl.drop t k) k = d := by
  induction t with
  | nil => rfl
  | cons e t ih =>
    rw [Tbl.drop_cons]
    split
    · exact ih
    · rename_i h
      simp [Tbl.get_cons, h, ih]

theorem Tbl.get_drop_other (d : α) (t : Tbl α) (k j : Nat) (h : j ≠ k) :
    Tbl.get d (Tbl.drop t k) j = Tbl.get d t j := by
  induction t with
  | nil => rfl
  | cons e t ih =>
    rw [Tbl.drop_cons, Tbl.get_cons]
    split
    · rename_i he
      have : e.1 ≠ j := by omega
      simp [this, ih]
    · simp [Tbl.get_cons, ih]

theorem Tbl.get_place_same (d : α) (t : Tbl α) (k : Nat) (v : α) (h : Tbl.drop t k = t) :
    Tbl.get d (Tbl.place k v t) k = v := by
  induction t with
  | nil => simp [Tbl.place, Tbl.get_cons]
  | cons e t ih =>
    obtain ⟨j, x⟩ := e
    have hne : j ≠ k := by
      intro he
      have := congrArg List.length h
      simp only [Tbl.drop_cons, he, if_true, List.length_cons] at this
      have hl : (Tbl.drop t k).length ≤ t.length := List.length_filter_le _ _
      omega
    simp only [Tbl.drop_cons, hne, if_false, List.cons.injEq, true_and] at h
    unfold Tbl.place
    split
    · simp [Tbl.get_cons]
    · simp [Tbl.get_cons, hne, ih h]

theorem Tbl.get_place_other (d : α) (t : Tbl α) (k j : Nat) (v : α) (h : j ≠ k) :
    Tbl.get d (Tbl.place k v t) j = Tbl.get d t j := by
  have h' : k ≠ j := fun e => h e.symm
  induction t with
  | nil => simp [Tbl.place, Tbl.get_cons, h']
  | cons e t ih =>
    obtain ⟨i, x⟩ := e
    unfold Tbl.place
    split
    · simp [Tbl.get_cons, h']
    · simp [Tbl.get_cons, ih]

theorem Tbl.drop_drop (t : Tbl α) (k : Nat) : Tbl.drop (Tbl.drop t k) k = Tbl.drop t k := by
  simp [Tbl.drop, List.filter_filter]

theorem Tbl.drop_place (t : Tbl α) (k : Nat) (v : α) : Tbl.drop (Tbl.place k v t) k = Tbl.drop t k := by
  induction t with
  | nil => simp [Tbl.place, Tbl.drop]
  | cons e t ih =>
    obtain ⟨j, x⟩ := e
    unfold Tbl.place
    split
    · simp [Tbl.drop_cons]
    · simp [Tbl.drop_cons, ih]

theorem Tbl.sorted_cons_iff (e : Nat × α) (t : Tbl α) :
    Tbl.sorted (e :: t) = true ↔ (∀ f ∈ t, e.1 < f.1) ∧ Tbl.sorted t = true := by
  induction t generalizing e with
  | nil => simp [Tbl.sorted]
  | cons f t ih =>
    simp only [Tbl.sorted, Bool.and_eq_true, decide_eq_true_eq, List.mem_cons, forall_eq_or_imp]
    constructor
    · rintro ⟨h, ht⟩
      exact ⟨⟨h, fun g hg => by have := ((ih f).1 ht).1 g hg; omega⟩, ht⟩
    · rintro ⟨⟨h, -⟩, ht⟩
      exact ⟨h, ht⟩

theorem Tbl.sorted_drop (t : Tbl α) (k : Nat) (h : Tbl.sorted t = true) : Tbl.sorted (Tbl.drop t k) = true := by
  induction t with
  | nil => rfl
  | cons e t ih =>
    rw [Tbl.sorted_cons_iff] at h
    rw [Tbl.drop_cons]
    split
    · exact ih h.2
    · rw [Tbl.sorted_cons_iff]
      exact ⟨fun f hf => h.1 f (List.mem_filter.1 hf).1, ih h.2⟩

theorem Tbl.mem_place (t : Tbl α) (k : Nat) (v : α) (f : Nat × α) : f ∈ Tbl.place k v t ↔ f = (k, v) ∨ f ∈ t := by
  induction t with
  | nil => simp [Tbl.place]
  | cons e t ih =>
    obtain ⟨j, x⟩ := e
    unfold Tbl.place
    split
    · simp
    · simp only [List.mem_cons, ih]
      exact or_left_comm

theorem Tbl.sorted_place (t : Tbl α) (k : Nat) (v : α) (h : Tbl.sorted t = true) (hk : ∀ f ∈ t, f.1 ≠ k) :
    Tbl.sorted (Tbl.place k v t) = true := by
  induction t with
  | nil => rfl
  | cons e t ih =>
    obtain ⟨j, x⟩ := e
    have h0 := h
    rw [Tbl.sorted_cons_iff] at h
    have hj : j ≠ k := hk (j, x) (List.mem_cons_self ..)
    unfold Tbl.place
    split
    · rename_i hlt
      rw [Tbl.sorted_cons_iff]
      refine ⟨fun f hf => ?_, h0⟩
      rcases List.mem_cons.1 hf with rfl | hf
      · exact hlt
      · exact Nat.lt_trans hlt (h.1 f hf)
    · rw [Tbl.sorted_cons_iff]
      refine ⟨fun f hf => ?_, ih h.2 (fun f hf => hk f (List.mem_cons_of_mem _ hf))⟩
      rcases (Tbl.mem_place t k v f).1 hf with rfl | hf
      · show j < k
        omega
      · exact h.1 f hf

variable [DecidableEq α]

/-- A read of the key just written gives the value written. -/
@[simp] theorem Tbl.get_set_same (d : α) (t : Tbl α) (k : Nat) (v : α) : Tbl.get d (Tbl.set d t k v) k = v := by
  unfold Tbl.set
  split
  · rename_i h
    rw [Tbl.get_drop_same, h]
  · exact Tbl.get_place_same d _ k v (Tbl.drop_drop t k)

/-- A write leaves every other key alone. -/
theorem Tbl.get_set_other (d : α) (t : Tbl α) (k j : Nat) (v : α) (h : j ≠ k) :
    Tbl.get d (Tbl.set d t k v) j = Tbl.get d t j := by
  unfold Tbl.set
  split
  · exact Tbl.get_drop_other d t k j h
  · rw [Tbl.get_place_other d _ k j v h, Tbl.get_drop_other d t k j h]

/-- A later write of a key hides an earlier one. -/
@[simp] theorem Tbl.set_set (d : α) (t : Tbl α) (k : Nat) (v w : α) :
    Tbl.set d (Tbl.set d t k v) k w = Tbl.set d t k w := by
  have h : Tbl.drop (Tbl.set d t k v) k = Tbl.drop t k := by
    unfold Tbl.set
    split
    · exact Tbl.drop_drop t k
    · rw [Tbl.drop_place, Tbl.drop_drop]
  rw [Tbl.set, h]
  rfl

/-- A write keeps the canonical form. -/
theorem Tbl.wf_set (d : α) (t : Tbl α) (k : Nat) (v : α) (h : Tbl.wf d t = true) : Tbl.wf d (Tbl.set d t k v) = true := by
  simp only [Tbl.wf, Bool.and_eq_true, List.all_eq_true, decide_eq_true_eq] at h ⊢
  unfold Tbl.set
  split
  · exact ⟨Tbl.sorted_drop t k h.1, fun e he => h.2 e (List.mem_filter.1 he).1⟩
  · rename_i hv
    refine ⟨Tbl.sorted_place _ k v (Tbl.sorted_drop t k h.1) (fun f hf => ?_), fun e he => ?_⟩
    · simpa [Tbl.drop] using (List.mem_filter.1 hf).2
    · rcases (Tbl.mem_place _ k v e).1 he with rfl | he
      · exact hv
      · exact h.2 e (List.mem_filter.1 he).1

/-- A change of one entry keeps the canonical form. -/
theorem Tbl.wf_modify (d : α) (t : Tbl α) (k : Nat) (f : α → α) (h : Tbl.wf d t = true) :
    Tbl.wf d (Tbl.modify d t k f) = true := Tbl.wf_set d t k _ h

/-- Writing a run keeps the canonical form. -/
theorem Tbl.wf_setRun (d : α) (t : Tbl α) (k : Nat) (vs : List α) (h : Tbl.wf d t = true) :
    Tbl.wf d (Tbl.setRun d t k vs) = true := by
  induction vs generalizing t k with
  | nil => exact h
  | cons v vs ih => exact ih _ _ (Tbl.wf_set d t k v h)

/-- Every write of bytes keeps a memory's canonical form. -/
theorem Mem.wf_put (m : Mem) (a : Nat) (bs : List Byte) (h : m.wf = true) : (m.put a bs).wf = true :=
  Tbl.wf_setRun _ _ _ _ h

/-- Every write of a number keeps a memory's canonical form. -/
theorem Mem.wf_putNat (m : Mem) (a n v : Nat) (h : m.wf = true) : (m.putNat a n v).wf = true := Mem.wf_put m a _ h

/-- A write of bytes leaves every byte outside it alone. -/
theorem Mem.byte_put_other (m : Mem) (a b : Nat) (bs : List Byte) (h : b < a ∨ a + bs.length ≤ b) :
    (m.put a bs).byte b = m.byte b := by
  unfold Mem.put Mem.byte
  induction bs generalizing m a with
  | nil => rfl
  | cons x xs ih =>
    simp only [List.length_cons] at h
    rw [Tbl.setRun, ih _ _ (by omega), Tbl.get_set_other _ _ _ _ _ (by omega)]

/-- A read of a byte just written gives the byte written. -/
theorem Mem.byte_put_same (m : Mem) (a i : Nat) (bs : List Byte) (h : i < bs.length) :
    (m.put a bs).byte (a + i) = bs[i] := by
  induction bs generalizing m a i with
  | nil => simp at h
  | cons x xs ih =>
    cases i with
    | zero =>
      have := Mem.byte_put_other (Tbl.set unlistedByte m a x) (a + 1) a xs (by omega)
      simpa [Mem.put, Tbl.setRun, Mem.byte] using this
    | succ i =>
      have := ih (Tbl.set unlistedByte m a x) (a + 1) i (by simpa using h)
      simpa [Mem.put, Tbl.setRun, Nat.add_assoc, Nat.add_comm 1 i] using this

end Sys2Proof.Machine
end

