-- ==== Sys2Proof/Laws/State.lean ====
section
/-!
SUPPORT. What each elementary update of the state leaves alone, one lemma for each field that it does not touch, and what is read back from it.
-/

set_option linter.unusedVariables false

namespace Sys2Proof.Machine

/-! ### `State.charge` -/

@[simp] theorem charge_pending (s : State) (c : Nat) (f : Charges → Charges) : (s.charge c f).pending = s.pending := rfl
@[simp] theorem charge_freeCtr (s : State) (c : Nat) (f : Charges → Charges) : (s.charge c f).freeCtr = s.freeCtr := rfl
@[simp] theorem charge_devTime (s : State) (c : Nat) (f : Charges → Charges) : (s.charge c f).devTime = s.devTime := rfl
@[simp] theorem charge_out (s : State) (c : Nat) (f : Charges → Charges) : (s.charge c f).out = s.out := rfl
@[simp] theorem charge_parts (s : State) (c : Nat) (f : Charges → Charges) : (s.charge c f).parts = s.parts := rfl
@[simp] theorem charge_coreMap (s : State) (c : Nat) (f : Charges → Charges) : (s.charge c f).coreMap = s.coreMap := rfl
@[simp] theorem charge_cores (s : State) (c : Nat) (f : Charges → Charges) : (s.charge c f).cores = s.cores := rfl
@[simp] theorem charge_clusters (s : State) (c : Nat) (f : Charges → Charges) : (s.charge c f).clusters = s.clusters := rfl
@[simp] theorem charge_gleaners (s : State) (c : Nat) (f : Charges → Charges) : (s.charge c f).gleaners = s.gleaners := rfl
@[simp] theorem charge_stackMaps (s : State) (c : Nat) (f : Charges → Charges) : (s.charge c f).stackMaps = s.stackMaps := rfl
@[simp] theorem charge_loft (s : State) (c : Nat) (f : Charges → Charges) : (s.charge c f).loft = s.loft := rfl
@[simp] theorem charge_sysArea (s : State) (c : Nat) (f : Charges → Charges) : (s.charge c f).sysArea = s.sysArea := rfl
@[simp] theorem charge_inherited (s : State) (c : Nat) (f : Charges → Charges) : (s.charge c f).inherited = s.inherited := rfl
@[simp] theorem charge_patterns (s : State) (c : Nat) (f : Charges → Charges) : (s.charge c f).patterns = s.patterns := rfl
@[simp] theorem charge_xlt (s : State) (c : Nat) (f : Charges → Charges) : (s.charge c f).xlt = s.xlt := rfl
@[simp] theorem charge_copyMaps (s : State) (c : Nat) (f : Charges → Charges) : (s.charge c f).copyMaps = s.copyMaps := rfl
@[simp] theorem charge_host (s : State) (c : Nat) (f : Charges → Charges) : (s.charge c f).host = s.host := rfl
@[simp] theorem charge_gfe (s : State) (c : Nat) (f : Charges → Charges) : (s.charge c f).gfe = s.gfe := rfl
@[simp] theorem charge_links (s : State) (c : Nat) (f : Charges → Charges) : (s.charge c f).links = s.links := rfl
@[simp] theorem charge_loader (s : State) (c : Nat) (f : Charges → Charges) : (s.charge c f).loader = s.loader := rfl
@[simp] theorem charge_faults (s : State) (c : Nat) (f : Charges → Charges) : (s.charge c f).faults = s.faults := rfl
@[simp] theorem charge_mgmt (s : State) (c : Nat) (f : Charges → Charges) : (s.charge c f).mgmt = s.mgmt := rfl

/-! ### `State.noteReady` -/

@[simp] theorem noteReady_pending (s : State) : (s.noteReady).pending = s.pending := rfl
@[simp] theorem noteReady_freeCtr (s : State) : (s.noteReady).freeCtr = s.freeCtr := rfl
@[simp] theorem noteReady_devTime (s : State) : (s.noteReady).devTime = s.devTime := rfl
@[simp] theorem noteReady_out (s : State) : (s.noteReady).out = s.out := rfl
@[simp] theorem noteReady_parts (s : State) : (s.noteReady).parts = s.parts := rfl
@[simp] theorem noteReady_coreMap (s : State) : (s.noteReady).coreMap = s.coreMap := rfl
@[simp] theorem noteReady_cores (s : State) : (s.noteReady).cores = s.cores := rfl
@[simp] theorem noteReady_clusters (s : State) : (s.noteReady).clusters = s.clusters := rfl
@[simp] theorem noteReady_gleaners (s : State) : (s.noteReady).gleaners = s.gleaners := rfl
@[simp] theorem noteReady_stackMaps (s : State) : (s.noteReady).stackMaps = s.stackMaps := rfl
@[simp] theorem noteReady_loft (s : State) : (s.noteReady).loft = s.loft := rfl
@[simp] theorem noteReady_sysArea (s : State) : (s.noteReady).sysArea = s.sysArea := rfl
@[simp] theorem noteReady_inherited (s : State) : (s.noteReady).inherited = s.inherited := rfl
@[simp] theorem noteReady_patterns (s : State) : (s.noteReady).patterns = s.patterns := rfl
@[simp] theorem noteReady_xlt (s : State) : (s.noteReady).xlt = s.xlt := rfl
@[simp] theorem noteReady_copyMaps (s : State) : (s.noteReady).copyMaps = s.copyMaps := rfl
@[simp] theorem noteReady_host (s : State) : (s.noteReady).host = s.host := rfl
@[simp] theorem noteReady_gfe (s : State) : (s.noteReady).gfe = s.gfe := rfl
@[simp] theorem noteReady_links (s : State) : (s.noteReady).links = s.links := rfl
@[simp] theorem noteReady_loader (s : State) : (s.noteReady).loader = s.loader := rfl
@[simp] theorem noteReady_faults (s : State) : (s.noteReady).faults = s.faults := rfl
@[simp] theorem noteReady_acc (s : State) : (s.noteReady).acc = s.acc := rfl

/-! ### `State.noteUnits` -/

@[simp] theorem noteUnits_pending (s : State) : (s.noteUnits).pending = s.pending := rfl
@[simp] theorem noteUnits_freeCtr (s : State) : (s.noteUnits).freeCtr = s.freeCtr := rfl
@[simp] theorem noteUnits_devTime (s : State) : (s.noteUnits).devTime = s.devTime := rfl
@[simp] theorem noteUnits_out (s : State) : (s.noteUnits).out = s.out := rfl
@[simp] theorem noteUnits_parts (s : State) : (s.noteUnits).parts = s.parts := rfl
@[simp] theorem noteUnits_coreMap (s : State) : (s.noteUnits).coreMap = s.coreMap := rfl
@[simp] theorem noteUnits_cores (s : State) : (s.noteUnits).cores = s.cores := rfl
@[simp] theorem noteUnits_clusters (s : State) : (s.noteUnits).clusters = s.clusters := rfl
@[simp] theorem noteUnits_gleaners (s : State) : (s.noteUnits).gleaners = s.gleaners := rfl
@[simp] theorem noteUnits_stackMaps (s : State) : (s.noteUnits).stackMaps = s.stackMaps := rfl
@[simp] theorem noteUnits_loft (s : State) : (s.noteUnits).loft = s.loft := rfl
@[simp] theorem noteUnits_sysArea (s : State) : (s.noteUnits).sysArea = s.sysArea := rfl
@[simp] theorem noteUnits_inherited (s : State) : (s.noteUnits).inherited = s.inherited := rfl
@[simp] theorem noteUnits_patterns (s : State) : (s.noteUnits).patterns = s.patterns := rfl
@[simp] theorem noteUnits_xlt (s : State) : (s.noteUnits).xlt = s.xlt := rfl
@[simp] theorem noteUnits_copyMaps (s : State) : (s.noteUnits).copyMaps = s.copyMaps := rfl
@[simp] theorem noteUnits_host (s : State) : (s.noteUnits).host = s.host := rfl
@[simp] theorem noteUnits_gfe (s : State) : (s.noteUnits).gfe = s.gfe := rfl
@[simp] theorem noteUnits_links (s : State) : (s.noteUnits).links = s.links := rfl
@[simp] theorem noteUnits_loader (s : State) : (s.noteUnits).loader = s.loader := rfl
@[simp] theorem noteUnits_faults (s : State) : (s.noteUnits).faults = s.faults := rfl
@[simp] theorem noteUnits_acc (s : State) : (s.noteUnits).acc = s.acc := rfl

/-! ### `State.send` -/

@[simp] theorem send_pending (s : State) (o : Out) : (s.send o).pending = s.pending := rfl
@[simp] theorem send_freeCtr (s : State) (o : Out) : (s.send o).freeCtr = s.freeCtr := rfl
@[simp] theorem send_devTime (s : State) (o : Out) : (s.send o).devTime = s.devTime := rfl
@[simp] theorem send_parts (s : State) (o : Out) : (s.send o).parts = s.parts := rfl
@[simp] theorem send_coreMap (s : State) (o : Out) : (s.send o).coreMap = s.coreMap := rfl
@[simp] theorem send_cores (s : State) (o : Out) : (s.send o).cores = s.cores := rfl
@[simp] theorem send_clusters (s : State) (o : Out) : (s.send o).clusters = s.clusters := rfl
@[simp] theorem send_gleaners (s : State) (o : Out) : (s.send o).gleaners = s.gleaners := rfl
@[simp] theorem send_stackMaps (s : State) (o : Out) : (s.send o).stackMaps = s.stackMaps := rfl
@[simp] theorem send_loft (s : State) (o : Out) : (s.send o).loft = s.loft := rfl
@[simp] theorem send_sysArea (s : State) (o : Out) : (s.send o).sysArea = s.sysArea := rfl
@[simp] theorem send_inherited (s : State) (o : Out) : (s.send o).inherited = s.inherited := rfl
@[simp] theorem send_patterns (s : State) (o : Out) : (s.send o).patterns = s.patterns := rfl
@[simp] theorem send_xlt (s : State) (o : Out) : (s.send o).xlt = s.xlt := rfl
@[simp] theorem send_copyMaps (s : State) (o : Out) : (s.send o).copyMaps = s.copyMaps := rfl
@[simp] theorem send_host (s : State) (o : Out) : (s.send o).host = s.host := rfl
@[simp] theorem send_gfe (s : State) (o : Out) : (s.send o).gfe = s.gfe := rfl
@[simp] theorem send_links (s : State) (o : Out) : (s.send o).links = s.links := rfl
@[simp] theorem send_loader (s : State) (o : Out) : (s.send o).loader = s.loader := rfl
@[simp] theorem send_faults (s : State) (o : Out) : (s.send o).faults = s.faults := rfl
@[simp] theorem send_acc (s : State) (o : Out) : (s.send o).acc = s.acc := rfl
@[simp] theorem send_mgmt (s : State) (o : Out) : (s.send o).mgmt = s.mgmt := rfl

/-! ### `State.sendAll` -/

@[simp] theorem sendAll_pending (s : State) (os : List Out) : (s.sendAll os).pending = s.pending := rfl
@[simp] theorem sendAll_freeCtr (s : State) (os : List Out) : (s.sendAll os).freeCtr = s.freeCtr := rfl
@[simp] theorem sendAll_devTime (s : State) (os : List Out) : (s.sendAll os).devTime = s.devTime := rfl
@[simp] theorem sendAll_parts (s : State) (os : List Out) : (s.sendAll os).parts = s.parts := rfl
@[simp] theorem sendAll_coreMap (s : State) (os : List Out) : (s.sendAll os).coreMap = s.coreMap := rfl
@[simp] theorem sendAll_cores (s : State) (os : List Out) : (s.sendAll os).cores = s.cores := rfl
@[simp] theorem sendAll_clusters (s : State) (os : List Out) : (s.sendAll os).clusters = s.clusters := rfl
@[simp] theorem sendAll_gleaners (s : State) (os : List Out) : (s.sendAll os).gleaners = s.gleaners := rfl
@[simp] theorem sendAll_stackMaps (s : State) (os : List Out) : (s.sendAll os).stackMaps = s.stackMaps := rfl
@[simp] theorem sendAll_loft (s : State) (os : List Out) : (s.sendAll os).loft = s.loft := rfl
@[simp] theorem sendAll_sysArea (s : State) (os : List Out) : (s.sendAll os).sysArea = s.sysArea := rfl
@[simp] theorem sendAll_inherited (s : State) (os : List Out) : (s.sendAll os).inherited = s.inherited := rfl
@[simp] theorem sendAll_patterns (s : State) (os : List Out) : (s.sendAll os).patterns = s.patterns := rfl
@[simp] theorem sendAll_xlt (s : State) (os : List Out) : (s.sendAll os).xlt = s.xlt := rfl
@[simp] theorem sendAll_copyMaps (s : State) (os : List Out) : (s.sendAll os).copyMaps = s.copyMaps := rfl
@[simp] theorem sendAll_host (s : State) (os : List Out) : (s.sendAll os).host = s.host := rfl
@[simp] theorem sendAll_gfe (s : State) (os : List Out) : (s.sendAll os).gfe = s.gfe := rfl
@[simp] theorem sendAll_links (s : State) (os : List Out) : (s.sendAll os).links = s.links := rfl
@[simp] theorem sendAll_loader (s : State) (os : List Out) : (s.sendAll os).loader = s.loader := rfl
@[simp] theorem sendAll_faults (s : State) (os : List Out) : (s.sendAll os).faults = s.faults := rfl
@[simp] theorem sendAll_acc (s : State) (os : List Out) : (s.sendAll os).acc = s.acc := rfl
@[simp] theorem sendAll_mgmt (s : State) (os : List Out) : (s.sendAll os).mgmt = s.mgmt := rfl

/-! ### `State.setCluster` -/

@[simp] theorem setCluster_pending (s : State) (c : Nat) (x : ClusterState) : (s.setCluster c x).pending = s.pending := rfl
@[simp] theorem setCluster_freeCtr (s : State) (c : Nat) (x : ClusterState) : (s.setCluster c x).freeCtr = s.freeCtr := rfl
@[simp] theorem setCluster_devTime (s : State) (c : Nat) (x : ClusterState) : (s.setCluster c x).devTime = s.devTime := rfl
@[simp] theorem setCluster_out (s : State) (c : Nat) (x : ClusterState) : (s.setCluster c x).out = s.out := rfl
@[simp] theorem setCluster_parts (s : State) (c : Nat) (x : ClusterState) : (s.setCluster c x).parts = s.parts := rfl
@[simp] theorem setCluster_coreMap (s : State) (c : Nat) (x : ClusterState) : (s.setCluster c x).coreMap = s.coreMap := rfl
@[simp] theorem setCluster_cores (s : State) (c : Nat) (x : ClusterState) : (s.setCluster c x).cores = s.cores := rfl
@[simp] theorem setCluster_gleaners (s : State) (c : Nat) (x : ClusterState) : (s.setCluster c x).gleaners = s.gleaners := rfl
@[simp] theorem setCluster_stackMaps (s : State) (c : Nat) (x : ClusterState) : (s.setCluster c x).stackMaps = s.stackMaps := rfl
@[simp] theorem setCluster_loft (s : State) (c : Nat) (x : ClusterState) : (s.setCluster c x).loft = s.loft := rfl
@[simp] theorem setCluster_sysArea (s : State) (c : Nat) (x : ClusterState) : (s.setCluster c x).sysArea = s.sysArea := rfl
@[simp] theorem setCluster_inherited (s : State) (c : Nat) (x : ClusterState) : (s.setCluster c x).inherited = s.inherited := rfl
@[simp] theorem setCluster_patterns (s : State) (c : Nat) (x : ClusterState) : (s.setCluster c x).patterns = s.patterns := rfl
@[simp] theorem setCluster_xlt (s : State) (c : Nat) (x : ClusterState) : (s.setCluster c x).xlt = s.xlt := rfl
@[simp] theorem setCluster_copyMaps (s : State) (c : Nat) (x : ClusterState) : (s.setCluster c x).copyMaps = s.copyMaps := rfl
@[simp] theorem setCluster_host (s : State) (c : Nat) (x : ClusterState) : (s.setCluster c x).host = s.host := rfl
@[simp] theorem setCluster_gfe (s : State) (c : Nat) (x : ClusterState) : (s.setCluster c x).gfe = s.gfe := rfl
@[simp] theorem setCluster_links (s : State) (c : Nat) (x : ClusterState) : (s.setCluster c x).links = s.links := rfl
@[simp] theorem setCluster_loader (s : State) (c : Nat) (x : ClusterState) : (s.setCluster c x).loader = s.loader := rfl
@[simp] theorem setCluster_faults (s : State) (c : Nat) (x : ClusterState) : (s.setCluster c x).faults = s.faults := rfl
@[simp] theorem setCluster_acc (s : State) (c : Nat) (x : ClusterState) : (s.setCluster c x).acc = s.acc := rfl
@[simp] theorem setCluster_mgmt (s : State) (c : Nat) (x : ClusterState) : (s.setCluster c x).mgmt = s.mgmt := rfl

/-! ### `State.setCore` -/

@[simp] theorem setCore_pending (s : State) (k : Nat) (c : CoreState) : (s.setCore k c).pending = s.pending := rfl
@[simp] theorem setCore_freeCtr (s : State) (k : Nat) (c : CoreState) : (s.setCore k c).freeCtr = s.freeCtr := rfl
@[simp] theorem setCore_devTime (s : State) (k : Nat) (c : CoreState) : (s.setCore k c).devTime = s.devTime := rfl
@[simp] theorem setCore_out (s : State) (k : Nat) (c : CoreState) : (s.setCore k c).out = s.out := rfl
@[simp] theorem setCore_parts (s : State) (k : Nat) (c : CoreState) : (s.setCore k c).parts = s.parts := rfl
@[simp] theorem setCore_coreMap (s : State) (k : Nat) (c : CoreState) : (s.setCore k c).coreMap = s.coreMap := rfl
@[simp] theorem setCore_clusters (s : State) (k : Nat) (c : CoreState) : (s.setCore k c).clusters = s.clusters := rfl
@[simp] theorem setCore_gleaners (s : State) (k : Nat) (c : CoreState) : (s.setCore k c).gleaners = s.gleaners := rfl
@[simp] theorem setCore_stackMaps (s : State) (k : Nat) (c : CoreState) : (s.setCore k c).stackMaps = s.stackMaps := rfl
@[simp] theorem setCore_loft (s : State) (k : Nat) (c : CoreState) : (s.setCore k c).loft = s.loft := rfl
@[simp] theorem setCore_sysArea (s : State) (k : Nat) (c : CoreState) : (s.setCore k c).sysArea = s.sysArea := rfl
@[simp] theorem setCore_inherited (s : State) (k : Nat) (c : CoreState) : (s.setCore k c).inherited = s.inherited := rfl
@[simp] theorem setCore_patterns (s : State) (k : Nat) (c : CoreState) : (s.setCore k c).patterns = s.patterns := rfl
@[simp] theorem setCore_xlt (s : State) (k : Nat) (c : CoreState) : (s.setCore k c).xlt = s.xlt := rfl
@[simp] theorem setCore_copyMaps (s : State) (k : Nat) (c : CoreState) : (s.setCore k c).copyMaps = s.copyMaps := rfl
@[simp] theorem setCore_host (s : State) (k : Nat) (c : CoreState) : (s.setCore k c).host = s.host := rfl
@[simp] theorem setCore_gfe (s : State) (k : Nat) (c : CoreState) : (s.setCore k c).gfe = s.gfe := rfl
@[simp] theorem setCore_links (s : State) (k : Nat) (c : CoreState) : (s.setCore k c).links = s.links := rfl
@[simp] theorem setCore_loader (s : State) (k : Nat) (c : CoreState) : (s.setCore k c).loader = s.loader := rfl
@[simp] theorem setCore_faults (s : State) (k : Nat) (c : CoreState) : (s.setCore k c).faults = s.faults := rfl
@[simp] theorem setCore_acc (s : State) (k : Nat) (c : CoreState) : (s.setCore k c).acc = s.acc := rfl
@[simp] theorem setCore_mgmt (s : State) (k : Nat) (c : CoreState) : (s.setCore k c).mgmt = s.mgmt := rfl

/-! ### `State.setPart` -/

@[simp] theorem setPart_pending (s : State) (p : Nat) (x : PartState) : (s.setPart p x).pending = s.pending := rfl
@[simp] theorem setPart_freeCtr (s : State) (p : Nat) (x : PartState) : (s.setPart p x).freeCtr = s.freeCtr := rfl
@[simp] theorem setPart_devTime (s : State) (p : Nat) (x : PartState) : (s.setPart p x).devTime = s.devTime := rfl
@[simp] theorem setPart_out (s : State) (p : Nat) (x : PartState) : (s.setPart p x).out = s.out := rfl
@[simp] theorem setPart_coreMap (s : State) (p : Nat) (x : PartState) : (s.setPart p x).coreMap = s.coreMap := rfl
@[simp] theorem setPart_cores (s : State) (p : Nat) (x : PartState) : (s.setPart p x).cores = s.cores := rfl
@[simp] theorem setPart_clusters (s : State) (p : Nat) (x : PartState) : (s.setPart p x).clusters = s.clusters := rfl
@[simp] theorem setPart_gleaners (s : State) (p : Nat) (x : PartState) : (s.setPart p x).gleaners = s.gleaners := rfl
@[simp] theorem setPart_stackMaps (s : State) (p : Nat) (x : PartState) : (s.setPart p x).stackMaps = s.stackMaps := rfl
@[simp] theorem setPart_loft (s : State) (p : Nat) (x : PartState) : (s.setPart p x).loft = s.loft := rfl
@[simp] theorem setPart_sysArea (s : State) (p : Nat) (x : PartState) : (s.setPart p x).sysArea = s.sysArea := rfl
@[simp] theorem setPart_inherited (s : State) (p : Nat) (x : PartState) : (s.setPart p x).inherited = s.inherited := rfl
@[simp] theorem setPart_patterns (s : State) (p : Nat) (x : PartState) : (s.setPart p x).patterns = s.patterns := rfl
@[simp] theorem setPart_xlt (s : State) (p : Nat) (x : PartState) : (s.setPart p x).xlt = s.xlt := rfl
@[simp] theorem setPart_copyMaps (s : State) (p : Nat) (x : PartState) : (s.setPart p x).copyMaps = s.copyMaps := rfl
@[simp] theorem setPart_host (s : State) (p : Nat) (x : PartState) : (s.setPart p x).host = s.host := rfl
@[simp] theorem setPart_gfe (s : State) (p : Nat) (x : PartState) : (s.setPart p x).gfe = s.gfe := rfl
@[simp] theorem setPart_links (s : State) (p : Nat) (x : PartState) : (s.setPart p x).links = s.links := rfl
@[simp] theorem setPart_loader (s : State) (p : Nat) (x : PartState) : (s.setPart p x).loader = s.loader := rfl
@[simp] theorem setPart_faults (s : State) (p : Nat) (x : PartState) : (s.setPart p x).faults = s.faults := rfl
@[simp] theorem setPart_acc (s : State) (p : Nat) (x : PartState) : (s.setPart p x).acc = s.acc := rfl
@[simp] theorem setPart_mgmt (s : State) (p : Nat) (x : PartState) : (s.setPart p x).mgmt = s.mgmt := rfl

/-! ### `State.tookFree` -/

@[simp] theorem tookFree_pending (s : State) : (s.tookFree).pending = s.pending := rfl
@[simp] theorem tookFree_devTime (s : State) : (s.tookFree).devTime = s.devTime := rfl
@[simp] theorem tookFree_out (s : State) : (s.tookFree).out = s.out := rfl
@[simp] theorem tookFree_parts (s : State) : (s.tookFree).parts = s.parts := rfl
@[simp] theorem tookFree_coreMap (s : State) : (s.tookFree).coreMap = s.coreMap := rfl
@[simp] theorem tookFree_cores (s : State) : (s.tookFree).cores = s.cores := rfl
@[simp] theorem tookFree_clusters (s : State) : (s.tookFree).clusters = s.clusters := rfl
@[simp] theorem tookFree_gleaners (s : State) : (s.tookFree).gleaners = s.gleaners := rfl
@[simp] theorem tookFree_stackMaps (s : State) : (s.tookFree).stackMaps = s.stackMaps := rfl
@[simp] theorem tookFree_loft (s : State) : (s.tookFree).loft = s.loft := rfl
@[simp] theorem tookFree_sysArea (s : State) : (s.tookFree).sysArea = s.sysArea := rfl
@[simp] theorem tookFree_inherited (s : State) : (s.tookFree).inherited = s.inherited := rfl
@[simp] theorem tookFree_patterns (s : State) : (s.tookFree).patterns = s.patterns := rfl
@[simp] theorem tookFree_xlt (s : State) : (s.tookFree).xlt = s.xlt := rfl
@[simp] theorem tookFree_copyMaps (s : State) : (s.tookFree).copyMaps = s.copyMaps := rfl
@[simp] theorem tookFree_host (s : State) : (s.tookFree).host = s.host := rfl
@[simp] theorem tookFree_gfe (s : State) : (s.tookFree).gfe = s.gfe := rfl
@[simp] theorem tookFree_links (s : State) : (s.tookFree).links = s.links := rfl
@[simp] theorem tookFree_loader (s : State) : (s.tookFree).loader = s.loader := rfl
@[simp] theorem tookFree_faults (s : State) : (s.tookFree).faults = s.faults := rfl
@[simp] theorem tookFree_acc (s : State) : (s.tookFree).acc = s.acc := rfl
@[simp] theorem tookFree_mgmt (s : State) : (s.tookFree).mgmt = s.mgmt := rfl

/-! ### `State.updCluster` -/

@[simp] theorem updCluster_pending (s : State) (c : Nat) (f : ClusterState → ClusterState) : (s.updCluster c f).pending = s.pending := rfl
@[simp] theorem updCluster_freeCtr (s : State) (c : Nat) (f : ClusterState → ClusterState) : (s.updCluster c f).freeCtr = s.freeCtr := rfl
@[simp] theorem updCluster_devTime (s : State) (c : Nat) (f : ClusterState → ClusterState) : (s.updCluster c f).devTime = s.devTime := rfl
@[simp] theorem updCluster_out (s : State) (c : Nat) (f : ClusterState → ClusterState) : (s.updCluster c f).out = s.out := rfl
@[simp] theorem updCluster_parts (s : State) (c : Nat) (f : ClusterState → ClusterState) : (s.updCluster c f).parts = s.parts := rfl
@[simp] theorem updCluster_coreMap (s : State) (c : Nat) (f : ClusterState → ClusterState) : (s.updCluster c f).coreMap = s.coreMap := rfl
@[simp] theorem updCluster_cores (s : State) (c : Nat) (f : ClusterState → ClusterState) : (s.updCluster c f).cores = s.cores := rfl
@[simp] theorem updCluster_gleaners (s : State) (c : Nat) (f : ClusterState → ClusterState) : (s.updCluster c f).gleaners = s.gleaners := rfl
@[simp] theorem updCluster_stackMaps (s : State) (c : Nat) (f : ClusterState → ClusterState) : (s.updCluster c f).stackMaps = s.stackMaps := rfl
@[simp] theorem updCluster_loft (s : State) (c : Nat) (f : ClusterState → ClusterState) : (s.updCluster c f).loft = s.loft := rfl
@[simp] theorem updCluster_sysArea (s : State) (c : Nat) (f : ClusterState → ClusterState) : (s.updCluster c f).sysArea = s.sysArea := rfl
@[simp] theorem updCluster_inherited (s : State) (c : Nat) (f : ClusterState → ClusterState) : (s.updCluster c f).inherited = s.inherited := rfl
@[simp] theorem updCluster_patterns (s : State) (c : Nat) (f : ClusterState → ClusterState) : (s.updCluster c f).patterns = s.patterns := rfl
@[simp] theorem updCluster_xlt (s : State) (c : Nat) (f : ClusterState → ClusterState) : (s.updCluster c f).xlt = s.xlt := rfl
@[simp] theorem updCluster_copyMaps (s : State) (c : Nat) (f : ClusterState → ClusterState) : (s.updCluster c f).copyMaps = s.copyMaps := rfl
@[simp] theorem updCluster_host (s : State) (c : Nat) (f : ClusterState → ClusterState) : (s.updCluster c f).host = s.host := rfl
@[simp] theorem updCluster_gfe (s : State) (c : Nat) (f : ClusterState → ClusterState) : (s.updCluster c f).gfe = s.gfe := rfl
@[simp] theorem updCluster_links (s : State) (c : Nat) (f : ClusterState → ClusterState) : (s.updCluster c f).links = s.links := rfl
@[simp] theorem updCluster_loader (s : State) (c : Nat) (f : ClusterState → ClusterState) : (s.updCluster c f).loader = s.loader := rfl
@[simp] theorem updCluster_faults (s : State) (c : Nat) (f : ClusterState → ClusterState) : (s.updCluster c f).faults = s.faults := rfl
@[simp] theorem updCluster_acc (s : State) (c : Nat) (f : ClusterState → ClusterState) : (s.updCluster c f).acc = s.acc := rfl
@[simp] theorem updCluster_mgmt (s : State) (c : Nat) (f : ClusterState → ClusterState) : (s.updCluster c f).mgmt = s.mgmt := rfl

/-! ### `State.updCore` -/

@[simp] theorem updCore_pending (s : State) (k : Nat) (f : CoreState → CoreState) : (s.updCore k f).pending = s.pending := rfl
@[simp] theorem updCore_freeCtr (s : State) (k : Nat) (f : CoreState → CoreState) : (s.updCore k f).freeCtr = s.freeCtr := rfl
@[simp] theorem updCore_devTime (s : State) (k : Nat) (f : CoreState → CoreState) : (s.updCore k f).devTime = s.devTime := rfl
@[simp] theorem updCore_out (s : State) (k : Nat) (f : CoreState → CoreState) : (s.updCore k f).out = s.out := rfl
@[simp] theorem updCore_parts (s : State) (k : Nat) (f : CoreState → CoreState) : (s.updCore k f).parts = s.parts := rfl
@[simp] theorem updCore_coreMap (s : State) (k : Nat) (f : CoreState → CoreState) : (s.updCore k f).coreMap = s.coreMap := rfl
@[simp] theorem updCore_clusters (s : State) (k : Nat) (f : CoreState → CoreState) : (s.updCore k f).clusters = s.clusters := rfl
@[simp] theorem updCore_gleaners (s : State) (k : Nat) (f : CoreState → CoreState) : (s.updCore k f).gleaners = s.gleaners := rfl
@[simp] theorem updCore_stackMaps (s : State) (k : Nat) (f : CoreState → CoreState) : (s.updCore k f).stackMaps = s.stackMaps := rfl
@[simp] theorem updCore_loft (s : State) (k : Nat) (f : CoreState → CoreState) : (s.updCore k f).loft = s.loft := rfl
@[simp] theorem updCore_sysArea (s : State) (k : Nat) (f : CoreState → CoreState) : (s.updCore k f).sysArea = s.sysArea := rfl
@[simp] theorem updCore_inherited (s : State) (k : Nat) (f : CoreState → CoreState) : (s.updCore k f).inherited = s.inherited := rfl
@[simp] theorem updCore_patterns (s : State) (k : Nat) (f : CoreState → CoreState) : (s.updCore k f).patterns = s.patterns := rfl
@[simp] theorem updCore_xlt (s : State) (k : Nat) (f : CoreState → CoreState) : (s.updCore k f).xlt = s.xlt := rfl
@[simp] theorem updCore_copyMaps (s : State) (k : Nat) (f : CoreState → CoreState) : (s.updCore k f).copyMaps = s.copyMaps := rfl
@[simp] theorem updCore_host (s : State) (k : Nat) (f : CoreState → CoreState) : (s.updCore k f).host = s.host := rfl
@[simp] theorem updCore_gfe (s : State) (k : Nat) (f : CoreState → CoreState) : (s.updCore k f).gfe = s.gfe := rfl
@[simp] theorem updCore_links (s : State) (k : Nat) (f : CoreState → CoreState) : (s.updCore k f).links = s.links := rfl
@[simp] theorem updCore_loader (s : State) (k : Nat) (f : CoreState → CoreState) : (s.updCore k f).loader = s.loader := rfl
@[simp] theorem updCore_faults (s : State) (k : Nat) (f : CoreState → CoreState) : (s.updCore k f).faults = s.faults := rfl
@[simp] theorem updCore_acc (s : State) (k : Nat) (f : CoreState → CoreState) : (s.updCore k f).acc = s.acc := rfl
@[simp] theorem updCore_mgmt (s : State) (k : Nat) (f : CoreState → CoreState) : (s.updCore k f).mgmt = s.mgmt := rfl

/-! ### `State.updPart` -/

@[simp] theorem updPart_pending (s : State) (p : Nat) (f : PartState → PartState) : (s.updPart p f).pending = s.pending := rfl
@[simp] theorem updPart_freeCtr (s : State) (p : Nat) (f : PartState → PartState) : (s.updPart p f).freeCtr = s.freeCtr := rfl
@[simp] theorem updPart_devTime (s : State) (p : Nat) (f : PartState → PartState) : (s.updPart p f).devTime = s.devTime := rfl
@[simp] theorem updPart_out (s : State) (p : Nat) (f : PartState → PartState) : (s.updPart p f).out = s.out := rfl
@[simp] theorem updPart_coreMap (s : State) (p : Nat) (f : PartState → PartState) : (s.updPart p f).coreMap = s.coreMap := rfl
@[simp] theorem updPart_cores (s : State) (p : Nat) (f : PartState → PartState) : (s.updPart p f).cores = s.cores := rfl
@[simp] theorem updPart_clusters (s : State) (p : Nat) (f : PartState → PartState) : (s.updPart p f).clusters = s.clusters := rfl
@[simp] theorem updPart_gleaners (s : State) (p : Nat) (f : PartState → PartState) : (s.updPart p f).gleaners = s.gleaners := rfl
@[simp] theorem updPart_stackMaps (s : State) (p : Nat) (f : PartState → PartState) : (s.updPart p f).stackMaps = s.stackMaps := rfl
@[simp] theorem updPart_loft (s : State) (p : Nat) (f : PartState → PartState) : (s.updPart p f).loft = s.loft := rfl
@[simp] theorem updPart_sysArea (s : State) (p : Nat) (f : PartState → PartState) : (s.updPart p f).sysArea = s.sysArea := rfl
@[simp] theorem updPart_inherited (s : State) (p : Nat) (f : PartState → PartState) : (s.updPart p f).inherited = s.inherited := rfl
@[simp] theorem updPart_patterns (s : State) (p : Nat) (f : PartState → PartState) : (s.updPart p f).patterns = s.patterns := rfl
@[simp] theorem updPart_xlt (s : State) (p : Nat) (f : PartState → PartState) : (s.updPart p f).xlt = s.xlt := rfl
@[simp] theorem updPart_copyMaps (s : State) (p : Nat) (f : PartState → PartState) : (s.updPart p f).copyMaps = s.copyMaps := rfl
@[simp] theorem updPart_host (s : State) (p : Nat) (f : PartState → PartState) : (s.updPart p f).host = s.host := rfl
@[simp] theorem updPart_gfe (s : State) (p : Nat) (f : PartState → PartState) : (s.updPart p f).gfe = s.gfe := rfl
@[simp] theorem updPart_links (s : State) (p : Nat) (f : PartState → PartState) : (s.updPart p f).links = s.links := rfl
@[simp] theorem updPart_loader (s : State) (p : Nat) (f : PartState → PartState) : (s.updPart p f).loader = s.loader := rfl
@[simp] theorem updPart_faults (s : State) (p : Nat) (f : PartState → PartState) : (s.updPart p f).faults = s.faults := rfl
@[simp] theorem updPart_acc (s : State) (p : Nat) (f : PartState → PartState) : (s.updPart p f).acc = s.acc := rfl
@[simp] theorem updPart_mgmt (s : State) (p : Nat) (f : PartState → PartState) : (s.updPart p f).mgmt = s.mgmt := rfl

/-! ### `State.setCtx` -/

@[simp] theorem setCtx_pending (s : State) (c : Nat) (x : CtxState) : (s.setCtx c x).pending = s.pending := rfl
@[simp] theorem setCtx_freeCtr (s : State) (c : Nat) (x : CtxState) : (s.setCtx c x).freeCtr = s.freeCtr := rfl
@[simp] theorem setCtx_devTime (s : State) (c : Nat) (x : CtxState) : (s.setCtx c x).devTime = s.devTime := rfl
@[simp] theorem setCtx_out (s : State) (c : Nat) (x : CtxState) : (s.setCtx c x).out = s.out := rfl
@[simp] theorem setCtx_parts (s : State) (c : Nat) (x : CtxState) : (s.setCtx c x).parts = s.parts := rfl
@[simp] theorem setCtx_coreMap (s : State) (c : Nat) (x : CtxState) : (s.setCtx c x).coreMap = s.coreMap := rfl
@[simp] theorem setCtx_cores (s : State) (c : Nat) (x : CtxState) : (s.setCtx c x).cores = s.cores := rfl
@[simp] theorem setCtx_clusters (s : State) (c : Nat) (x : CtxState) : (s.setCtx c x).clusters = s.clusters := rfl
@[simp] theorem setCtx_gleaners (s : State) (c : Nat) (x : CtxState) : (s.setCtx c x).gleaners = s.gleaners := rfl
@[simp] theorem setCtx_stackMaps (s : State) (c : Nat) (x : CtxState) : (s.setCtx c x).stackMaps = s.stackMaps := rfl
@[simp] theorem setCtx_loft (s : State) (c : Nat) (x : CtxState) : (s.setCtx c x).loft = s.loft := rfl
@[simp] theorem setCtx_sysArea (s : State) (c : Nat) (x : CtxState) : (s.setCtx c x).sysArea = s.sysArea := rfl
@[simp] theorem setCtx_inherited (s : State) (c : Nat) (x : CtxState) : (s.setCtx c x).inherited = s.inherited := rfl
@[simp] theorem setCtx_patterns (s : State) (c : Nat) (x : CtxState) : (s.setCtx c x).patterns = s.patterns := rfl
@[simp] theorem setCtx_copyMaps (s : State) (c : Nat) (x : CtxState) : (s.setCtx c x).copyMaps = s.copyMaps := rfl
@[simp] theorem setCtx_host (s : State) (c : Nat) (x : CtxState) : (s.setCtx c x).host = s.host := rfl
@[simp] theorem setCtx_gfe (s : State) (c : Nat) (x : CtxState) : (s.setCtx c x).gfe = s.gfe := rfl
@[simp] theorem setCtx_links (s : State) (c : Nat) (x : CtxState) : (s.setCtx c x).links = s.links := rfl
@[simp] theorem setCtx_loader (s : State) (c : Nat) (x : CtxState) : (s.setCtx c x).loader = s.loader := rfl
@[simp] theorem setCtx_faults (s : State) (c : Nat) (x : CtxState) : (s.setCtx c x).faults = s.faults := rfl
@[simp] theorem setCtx_acc (s : State) (c : Nat) (x : CtxState) : (s.setCtx c x).acc = s.acc := rfl
@[simp] theorem setCtx_mgmt (s : State) (c : Nat) (x : CtxState) : (s.setCtx c x).mgmt = s.mgmt := rfl

/-! ### `State.setGleaner` -/

@[simp] theorem setGleaner_pending (s : State) (g : Nat) (x : GleanerState) : (s.setGleaner g x).pending = s.pending := rfl
@[simp] theorem setGleaner_freeCtr (s : State) (g : Nat) (x : GleanerState) : (s.setGleaner g x).freeCtr = s.freeCtr := rfl
@[simp] theorem setGleaner_devTime (s : State) (g : Nat) (x : GleanerState) : (s.setGleaner g x).devTime = s.devTime := rfl
@[simp] theorem setGleaner_out (s : State) (g : Nat) (x : GleanerState) : (s.setGleaner g x).out = s.out := rfl
@[simp] theorem setGleaner_parts (s : State) (g : Nat) (x : GleanerState) : (s.setGleaner g x).parts = s.parts := rfl
@[simp] theorem setGleaner_coreMap (s : State) (g : Nat) (x : GleanerState) : (s.setGleaner g x).coreMap = s.coreMap := rfl
@[simp] theorem setGleaner_cores (s : State) (g : Nat) (x : GleanerState) : (s.setGleaner g x).cores = s.cores := rfl
@[simp] theorem setGleaner_clusters (s : State) (g : Nat) (x : GleanerState) : (s.setGleaner g x).clusters = s.clusters := rfl
@[simp] theorem setGleaner_stackMaps (s : State) (g : Nat) (x : GleanerState) : (s.setGleaner g x).stackMaps = s.stackMaps := rfl
@[simp] theorem setGleaner_loft (s : State) (g : Nat) (x : GleanerState) : (s.setGleaner g x).loft = s.loft := rfl
@[simp] theorem setGleaner_sysArea (s : State) (g : Nat) (x : GleanerState) : (s.setGleaner g x).sysArea = s.sysArea := rfl
@[simp] theorem setGleaner_inherited (s : State) (g : Nat) (x : GleanerState) : (s.setGleaner g x).inherited = s.inherited := rfl
@[simp] theorem setGleaner_patterns (s : State) (g : Nat) (x : GleanerState) : (s.setGleaner g x).patterns = s.patterns := rfl
@[simp] theorem setGleaner_xlt (s : State) (g : Nat) (x : GleanerState) : (s.setGleaner g x).xlt = s.xlt := rfl
@[simp] theorem setGleaner_copyMaps (s : State) (g : Nat) (x : GleanerState) : (s.setGleaner g x).copyMaps = s.copyMaps := rfl
@[simp] theorem setGleaner_host (s : State) (g : Nat) (x : GleanerState) : (s.setGleaner g x).host = s.host := rfl
@[simp] theorem setGleaner_gfe (s : State) (g : Nat) (x : GleanerState) : (s.setGleaner g x).gfe = s.gfe := rfl
@[simp] theorem setGleaner_links (s : State) (g : Nat) (x : GleanerState) : (s.setGleaner g x).links = s.links := rfl
@[simp] theorem setGleaner_loader (s : State) (g : Nat) (x : GleanerState) : (s.setGleaner g x).loader = s.loader := rfl
@[simp] theorem setGleaner_faults (s : State) (g : Nat) (x : GleanerState) : (s.setGleaner g x).faults = s.faults := rfl
@[simp] theorem setGleaner_acc (s : State) (g : Nat) (x : GleanerState) : (s.setGleaner g x).acc = s.acc := rfl
@[simp] theorem setGleaner_mgmt (s : State) (g : Nat) (x : GleanerState) : (s.setGleaner g x).mgmt = s.mgmt := rfl

/-! ### `State.setTier` -/

@[simp] theorem setTier_pending (s : State) (c seg : Nat) (t : TieredSeg) : (s.setTier c seg t).pending = s.pending := rfl
@[simp] theorem setTier_freeCtr (s : State) (c seg : Nat) (t : TieredSeg) : (s.setTier c seg t).freeCtr = s.freeCtr := rfl
@[simp] theorem setTier_devTime (s : State) (c seg : Nat) (t : TieredSeg) : (s.setTier c seg t).devTime = s.devTime := rfl
@[simp] theorem setTier_out (s : State) (c seg : Nat) (t : TieredSeg) : (s.setTier c seg t).out = s.out := rfl
@[simp] theorem setTier_parts (s : State) (c seg : Nat) (t : TieredSeg) : (s.setTier c seg t).parts = s.parts := rfl
@[simp] theorem setTier_coreMap (s : State) (c seg : Nat) (t : TieredSeg) : (s.setTier c seg t).coreMap = s.coreMap := rfl
@[simp] theorem setTier_cores (s : State) (c seg : Nat) (t : TieredSeg) : (s.setTier c seg t).cores = s.cores := rfl
@[simp] theorem setTier_clusters (s : State) (c seg : Nat) (t : TieredSeg) : (s.setTier c seg t).clusters = s.clusters := rfl
@[simp] theorem setTier_gleaners (s : State) (c seg : Nat) (t : TieredSeg) : (s.setTier c seg t).gleaners = s.gleaners := rfl
@[simp] theorem setTier_stackMaps (s : State) (c seg : Nat) (t : TieredSeg) : (s.setTier c seg t).stackMaps = s.stackMaps := rfl
@[simp] theorem setTier_loft (s : State) (c seg : Nat) (t : TieredSeg) : (s.setTier c seg t).loft = s.loft := rfl
@[simp] theorem setTier_sysArea (s : State) (c seg : Nat) (t : TieredSeg) : (s.setTier c seg t).sysArea = s.sysArea := rfl
@[simp] theorem setTier_inherited (s : State) (c seg : Nat) (t : TieredSeg) : (s.setTier c seg t).inherited = s.inherited := rfl
@[simp] theorem setTier_patterns (s : State) (c seg : Nat) (t : TieredSeg) : (s.setTier c seg t).patterns = s.patterns := rfl
@[simp] theorem setTier_copyMaps (s : State) (c seg : Nat) (t : TieredSeg) : (s.setTier c seg t).copyMaps = s.copyMaps := rfl
@[simp] theorem setTier_host (s : State) (c seg : Nat) (t : TieredSeg) : (s.setTier c seg t).host = s.host := rfl
@[simp] theorem setTier_gfe (s : State) (c seg : Nat) (t : TieredSeg) : (s.setTier c seg t).gfe = s.gfe := rfl
@[simp] theorem setTier_links (s : State) (c seg : Nat) (t : TieredSeg) : (s.setTier c seg t).links = s.links := rfl
@[simp] theorem setTier_loader (s : State) (c seg : Nat) (t : TieredSeg) : (s.setTier c seg t).loader = s.loader := rfl
@[simp] theorem setTier_faults (s : State) (c seg : Nat) (t : TieredSeg) : (s.setTier c seg t).faults = s.faults := rfl
@[simp] theorem setTier_acc (s : State) (c seg : Nat) (t : TieredSeg) : (s.setTier c seg t).acc = s.acc := rfl
@[simp] theorem setTier_mgmt (s : State) (c seg : Nat) (t : TieredSeg) : (s.setTier c seg t).mgmt = s.mgmt := rfl

/-! ### `State.updGleaner` -/

@[simp] theorem updGleaner_pending (s : State) (g : Nat) (f : GleanerState → GleanerState) : (s.updGleaner g f).pending = s.pending := rfl
@[simp] theorem updGleaner_freeCtr (s : State) (g : Nat) (f : GleanerState → GleanerState) : (s.updGleaner g f).freeCtr = s.freeCtr := rfl
@[simp] theorem updGleaner_devTime (s : State) (g : Nat) (f : GleanerState → GleanerState) : (s.updGleaner g f).devTime = s.devTime := rfl
@[simp] theorem updGleaner_out (s : State) (g : Nat) (f : GleanerState → GleanerState) : (s.updGleaner g f).out = s.out := rfl
@[simp] theorem updGleaner_parts (s : State) (g : Nat) (f : GleanerState → GleanerState) : (s.updGleaner g f).parts = s.parts := rfl
@[simp] theorem updGleaner_coreMap (s : State) (g : Nat) (f : GleanerState → GleanerState) : (s.updGleaner g f).coreMap = s.coreMap := rfl
@[simp] theorem updGleaner_cores (s : State) (g : Nat) (f : GleanerState → GleanerState) : (s.updGleaner g f).cores = s.cores := rfl
@[simp] theorem updGleaner_clusters (s : State) (g : Nat) (f : GleanerState → GleanerState) : (s.updGleaner g f).clusters = s.clusters := rfl
@[simp] theorem updGleaner_stackMaps (s : State) (g : Nat) (f : GleanerState → GleanerState) : (s.updGleaner g f).stackMaps = s.stackMaps := rfl
@[simp] theorem updGleaner_loft (s : State) (g : Nat) (f : GleanerState → GleanerState) : (s.updGleaner g f).loft = s.loft := rfl
@[simp] theorem updGleaner_sysArea (s : State) (g : Nat) (f : GleanerState → GleanerState) : (s.updGleaner g f).sysArea = s.sysArea := rfl
@[simp] theorem updGleaner_inherited (s : State) (g : Nat) (f : GleanerState → GleanerState) : (s.updGleaner g f).inherited = s.inherited := rfl
@[simp] theorem updGleaner_patterns (s : State) (g : Nat) (f : GleanerState → GleanerState) : (s.updGleaner g f).patterns = s.patterns := rfl
@[simp] theorem updGleaner_xlt (s : State) (g : Nat) (f : GleanerState → GleanerState) : (s.updGleaner g f).xlt = s.xlt := rfl
@[simp] theorem updGleaner_copyMaps (s : State) (g : Nat) (f : GleanerState → GleanerState) : (s.updGleaner g f).copyMaps = s.copyMaps := rfl
@[simp] theorem updGleaner_host (s : State) (g : Nat) (f : GleanerState → GleanerState) : (s.updGleaner g f).host = s.host := rfl
@[simp] theorem updGleaner_gfe (s : State) (g : Nat) (f : GleanerState → GleanerState) : (s.updGleaner g f).gfe = s.gfe := rfl
@[simp] theorem updGleaner_links (s : State) (g : Nat) (f : GleanerState → GleanerState) : (s.updGleaner g f).links = s.links := rfl
@[simp] theorem updGleaner_loader (s : State) (g : Nat) (f : GleanerState → GleanerState) : (s.updGleaner g f).loader = s.loader := rfl
@[simp] theorem updGleaner_faults (s : State) (g : Nat) (f : GleanerState → GleanerState) : (s.updGleaner g f).faults = s.faults := rfl
@[simp] theorem updGleaner_acc (s : State) (g : Nat) (f : GleanerState → GleanerState) : (s.updGleaner g f).acc = s.acc := rfl
@[simp] theorem updGleaner_mgmt (s : State) (g : Nat) (f : GleanerState → GleanerState) : (s.updGleaner g f).mgmt = s.mgmt := rfl

/-! ### `State.updAtt` -/

@[simp] theorem updAtt_pending (s : State) (a : Nat) (h : Attachment → Attachment) : (s.updAtt a h).pending = s.pending := rfl
@[simp] theorem updAtt_freeCtr (s : State) (a : Nat) (h : Attachment → Attachment) : (s.updAtt a h).freeCtr = s.freeCtr := rfl
@[simp] theorem updAtt_devTime (s : State) (a : Nat) (h : Attachment → Attachment) : (s.updAtt a h).devTime = s.devTime := rfl
@[simp] theorem updAtt_out (s : State) (a : Nat) (h : Attachment → Attachment) : (s.updAtt a h).out = s.out := rfl
@[simp] theorem updAtt_parts (s : State) (a : Nat) (h : Attachment → Attachment) : (s.updAtt a h).parts = s.parts := rfl
@[simp] theorem updAtt_coreMap (s : State) (a : Nat) (h : Attachment → Attachment) : (s.updAtt a h).coreMap = s.coreMap := rfl
@[simp] theorem updAtt_cores (s : State) (a : Nat) (h : Attachment → Attachment) : (s.updAtt a h).cores = s.cores := rfl
@[simp] theorem updAtt_clusters (s : State) (a : Nat) (h : Attachment → Attachment) : (s.updAtt a h).clusters = s.clusters := rfl
@[simp] theorem updAtt_gleaners (s : State) (a : Nat) (h : Attachment → Attachment) : (s.updAtt a h).gleaners = s.gleaners := rfl
@[simp] theorem updAtt_stackMaps (s : State) (a : Nat) (h : Attachment → Attachment) : (s.updAtt a h).stackMaps = s.stackMaps := rfl
@[simp] theorem updAtt_loft (s : State) (a : Nat) (h : Attachment → Attachment) : (s.updAtt a h).loft = s.loft := rfl
@[simp] theorem updAtt_sysArea (s : State) (a : Nat) (h : Attachment → Attachment) : (s.updAtt a h).sysArea = s.sysArea := rfl
@[simp] theorem updAtt_inherited (s : State) (a : Nat) (h : Attachment → Attachment) : (s.updAtt a h).inherited = s.inherited := rfl
@[simp] theorem updAtt_patterns (s : State) (a : Nat) (h : Attachment → Attachment) : (s.updAtt a h).patterns = s.patterns := rfl
@[simp] theorem updAtt_xlt (s : State) (a : Nat) (h : Attachment → Attachment) : (s.updAtt a h).xlt = s.xlt := rfl
@[simp] theorem updAtt_copyMaps (s : State) (a : Nat) (h : Attachment → Attachment) : (s.updAtt a h).copyMaps = s.copyMaps := rfl
@[simp] theorem updAtt_gfe (s : State) (a : Nat) (h : Attachment → Attachment) : (s.updAtt a h).gfe = s.gfe := rfl
@[simp] theorem updAtt_links (s : State) (a : Nat) (h : Attachment → Attachment) : (s.updAtt a h).links = s.links := rfl
@[simp] theorem updAtt_loader (s : State) (a : Nat) (h : Attachment → Attachment) : (s.updAtt a h).loader = s.loader := rfl
@[simp] theorem updAtt_faults (s : State) (a : Nat) (h : Attachment → Attachment) : (s.updAtt a h).faults = s.faults := rfl
@[simp] theorem updAtt_acc (s : State) (a : Nat) (h : Attachment → Attachment) : (s.updAtt a h).acc = s.acc := rfl
@[simp] theorem updAtt_mgmt (s : State) (a : Nat) (h : Attachment → Attachment) : (s.updAtt a h).mgmt = s.mgmt := rfl

/-! ### `State.updFn` -/

@[simp] theorem updFn_pending (s : State) (f : Nat) (h : HostFn → HostFn) : (s.updFn f h).pending = s.pending := rfl
@[simp] theorem updFn_freeCtr (s : State) (f : Nat) (h : HostFn → HostFn) : (s.updFn f h).freeCtr = s.freeCtr := rfl
@[simp] theorem updFn_devTime (s : State) (f : Nat) (h : HostFn → HostFn) : (s.updFn f h).devTime = s.devTime := rfl
@[simp] theorem updFn_out (s : State) (f : Nat) (h : HostFn → HostFn) : (s.updFn f h).out = s.out := rfl
@[simp] theorem updFn_parts (s : State) (f : Nat) (h : HostFn → HostFn) : (s.updFn f h).parts = s.parts := rfl
@[simp] theorem updFn_coreMap (s : State) (f : Nat) (h : HostFn → HostFn) : (s.updFn f h).coreMap = s.coreMap := rfl
@[simp] theorem updFn_cores (s : State) (f : Nat) (h : HostFn → HostFn) : (s.updFn f h).cores = s.cores := rfl
@[simp] theorem updFn_clusters (s : State) (f : Nat) (h : HostFn → HostFn) : (s.updFn f h).clusters = s.clusters := rfl
@[simp] theorem updFn_gleaners (s : State) (f : Nat) (h : HostFn → HostFn) : (s.updFn f h).gleaners = s.gleaners := rfl
@[simp] theorem updFn_stackMaps (s : State) (f : Nat) (h : HostFn → HostFn) : (s.updFn f h).stackMaps = s.stackMaps := rfl
@[simp] theorem updFn_loft (s : State) (f : Nat) (h : HostFn → HostFn) : (s.updFn f h).loft = s.loft := rfl
@[simp] theorem updFn_sysArea (s : State) (f : Nat) (h : HostFn → HostFn) : (s.updFn f h).sysArea = s.sysArea := rfl
@[simp] theorem updFn_inherited (s : State) (f : Nat) (h : HostFn → HostFn) : (s.updFn f h).inherited = s.inherited := rfl
@[simp] theorem updFn_patterns (s : State) (f : Nat) (h : HostFn → HostFn) : (s.updFn f h).patterns = s.patterns := rfl
@[simp] theorem updFn_xlt (s : State) (f : Nat) (h : HostFn → HostFn) : (s.updFn f h).xlt = s.xlt := rfl
@[simp] theorem updFn_copyMaps (s : State) (f : Nat) (h : HostFn → HostFn) : (s.updFn f h).copyMaps = s.copyMaps := rfl
@[simp] theorem updFn_gfe (s : State) (f : Nat) (h : HostFn → HostFn) : (s.updFn f h).gfe = s.gfe := rfl
@[simp] theorem updFn_links (s : State) (f : Nat) (h : HostFn → HostFn) : (s.updFn f h).links = s.links := rfl
@[simp] theorem updFn_loader (s : State) (f : Nat) (h : HostFn → HostFn) : (s.updFn f h).loader = s.loader := rfl
@[simp] theorem updFn_faults (s : State) (f : Nat) (h : HostFn → HostFn) : (s.updFn f h).faults = s.faults := rfl
@[simp] theorem updFn_acc (s : State) (f : Nat) (h : HostFn → HostFn) : (s.updFn f h).acc = s.acc := rfl
@[simp] theorem updFn_mgmt (s : State) (f : Nat) (h : HostFn → HostFn) : (s.updFn f h).mgmt = s.mgmt := rfl

/-! ### `State.updPort` -/

@[simp] theorem updPort_pending (s : State) (q : Nat) (h : HostPort → HostPort) : (s.updPort q h).pending = s.pending := rfl
@[simp] theorem updPort_freeCtr (s : State) (q : Nat) (h : HostPort → HostPort) : (s.updPort q h).freeCtr = s.freeCtr := rfl
@[simp] theorem updPort_devTime (s : State) (q : Nat) (h : HostPort → HostPort) : (s.updPort q h).devTime = s.devTime := rfl
@[simp] theorem updPort_out (s : State) (q : Nat) (h : HostPort → HostPort) : (s.updPort q h).out = s.out := rfl
@[simp] theorem updPort_parts (s : State) (q : Nat) (h : HostPort → HostPort) : (s.updPort q h).parts = s.parts := rfl
@[simp] theorem updPort_coreMap (s : State) (q : Nat) (h : HostPort → HostPort) : (s.updPort q h).coreMap = s.coreMap := rfl
@[simp] theorem updPort_cores (s : State) (q : Nat) (h : HostPort → HostPort) : (s.updPort q h).cores = s.cores := rfl
@[simp] theorem updPort_clusters (s : State) (q : Nat) (h : HostPort → HostPort) : (s.updPort q h).clusters = s.clusters := rfl
@[simp] theorem updPort_gleaners (s : State) (q : Nat) (h : HostPort → HostPort) : (s.updPort q h).gleaners = s.gleaners := rfl
@[simp] theorem updPort_stackMaps (s : State) (q : Nat) (h : HostPort → HostPort) : (s.updPort q h).stackMaps = s.stackMaps := rfl
@[simp] theorem updPort_loft (s : State) (q : Nat) (h : HostPort → HostPort) : (s.updPort q h).loft = s.loft := rfl
@[simp] theorem updPort_sysArea (s : State) (q : Nat) (h : HostPort → HostPort) : (s.updPort q h).sysArea = s.sysArea := rfl
@[simp] theorem updPort_inherited (s : State) (q : Nat) (h : HostPort → HostPort) : (s.updPort q h).inherited = s.inherited := rfl
@[simp] theorem updPort_patterns (s : State) (q : Nat) (h : HostPort → HostPort) : (s.updPort q h).patterns = s.patterns := rfl
@[simp] theorem updPort_xlt (s : State) (q : Nat) (h : HostPort → HostPort) : (s.updPort q h).xlt = s.xlt := rfl
@[simp] theorem updPort_copyMaps (s : State) (q : Nat) (h : HostPort → HostPort) : (s.updPort q h).copyMaps = s.copyMaps := rfl
@[simp] theorem updPort_gfe (s : State) (q : Nat) (h : HostPort → HostPort) : (s.updPort q h).gfe = s.gfe := rfl
@[simp] theorem updPort_links (s : State) (q : Nat) (h : HostPort → HostPort) : (s.updPort q h).links = s.links := rfl
@[simp] theorem updPort_loader (s : State) (q : Nat) (h : HostPort → HostPort) : (s.updPort q h).loader = s.loader := rfl
@[simp] theorem updPort_faults (s : State) (q : Nat) (h : HostPort → HostPort) : (s.updPort q h).faults = s.faults := rfl
@[simp] theorem updPort_acc (s : State) (q : Nat) (h : HostPort → HostPort) : (s.updPort q h).acc = s.acc := rfl
@[simp] theorem updPort_mgmt (s : State) (q : Nat) (h : HostPort → HostPort) : (s.updPort q h).mgmt = s.mgmt := rfl

/-! ### `State.setVec` -/

@[simp] theorem setVec_pending (s : State) (k : Nat) (r : VecRegs) : (s.setVec k r).pending = s.pending := rfl
@[simp] theorem setVec_freeCtr (s : State) (k : Nat) (r : VecRegs) : (s.setVec k r).freeCtr = s.freeCtr := rfl
@[simp] theorem setVec_devTime (s : State) (k : Nat) (r : VecRegs) : (s.setVec k r).devTime = s.devTime := rfl
@[simp] theorem setVec_out (s : State) (k : Nat) (r : VecRegs) : (s.setVec k r).out = s.out := rfl
@[simp] theorem setVec_parts (s : State) (k : Nat) (r : VecRegs) : (s.setVec k r).parts = s.parts := rfl
@[simp] theorem setVec_coreMap (s : State) (k : Nat) (r : VecRegs) : (s.setVec k r).coreMap = s.coreMap := rfl
@[simp] theorem setVec_clusters (s : State) (k : Nat) (r : VecRegs) : (s.setVec k r).clusters = s.clusters := rfl
@[simp] theorem setVec_gleaners (s : State) (k : Nat) (r : VecRegs) : (s.setVec k r).gleaners = s.gleaners := rfl
@[simp] theorem setVec_stackMaps (s : State) (k : Nat) (r : VecRegs) : (s.setVec k r).stackMaps = s.stackMaps := rfl
@[simp] theorem setVec_loft (s : State) (k : Nat) (r : VecRegs) : (s.setVec k r).loft = s.loft := rfl
@[simp] theorem setVec_sysArea (s : State) (k : Nat) (r : VecRegs) : (s.setVec k r).sysArea = s.sysArea := rfl
@[simp] theorem setVec_inherited (s : State) (k : Nat) (r : VecRegs) : (s.setVec k r).inherited = s.inherited := rfl
@[simp] theorem setVec_patterns (s : State) (k : Nat) (r : VecRegs) : (s.setVec k r).patterns = s.patterns := rfl
@[simp] theorem setVec_xlt (s : State) (k : Nat) (r : VecRegs) : (s.setVec k r).xlt = s.xlt := rfl
@[simp] theorem setVec_copyMaps (s : State) (k : Nat) (r : VecRegs) : (s.setVec k r).copyMaps = s.copyMaps := rfl
@[simp] theorem setVec_host (s : State) (k : Nat) (r : VecRegs) : (s.setVec k r).host = s.host := rfl
@[simp] theorem setVec_gfe (s : State) (k : Nat) (r : VecRegs) : (s.setVec k r).gfe = s.gfe := rfl
@[simp] theorem setVec_links (s : State) (k : Nat) (r : VecRegs) : (s.setVec k r).links = s.links := rfl
@[simp] theorem setVec_loader (s : State) (k : Nat) (r : VecRegs) : (s.setVec k r).loader = s.loader := rfl
@[simp] theorem setVec_faults (s : State) (k : Nat) (r : VecRegs) : (s.setVec k r).faults = s.faults := rfl
@[simp] theorem setVec_acc (s : State) (k : Nat) (r : VecRegs) : (s.setVec k r).acc = s.acc := rfl
@[simp] theorem setVec_mgmt (s : State) (k : Nat) (r : VecRegs) : (s.setVec k r).mgmt = s.mgmt := rfl

/-! ### `State.setAdmin` -/

@[simp] theorem setAdmin_pending (s : State) (f : Nat) (c : Option AdminCmd) : (s.setAdmin f c).pending = s.pending := rfl
@[simp] theorem setAdmin_freeCtr (s : State) (f : Nat) (c : Option AdminCmd) : (s.setAdmin f c).freeCtr = s.freeCtr := rfl
@[simp] theorem setAdmin_devTime (s : State) (f : Nat) (c : Option AdminCmd) : (s.setAdmin f c).devTime = s.devTime := rfl
@[simp] theorem setAdmin_out (s : State) (f : Nat) (c : Option AdminCmd) : (s.setAdmin f c).out = s.out := rfl
@[simp] theorem setAdmin_parts (s : State) (f : Nat) (c : Option AdminCmd) : (s.setAdmin f c).parts = s.parts := rfl
@[simp] theorem setAdmin_coreMap (s : State) (f : Nat) (c : Option AdminCmd) : (s.setAdmin f c).coreMap = s.coreMap := rfl
@[simp] theorem setAdmin_cores (s : State) (f : Nat) (c : Option AdminCmd) : (s.setAdmin f c).cores = s.cores := rfl
@[simp] theorem setAdmin_clusters (s : State) (f : Nat) (c : Option AdminCmd) : (s.setAdmin f c).clusters = s.clusters := rfl
@[simp] theorem setAdmin_gleaners (s : State) (f : Nat) (c : Option AdminCmd) : (s.setAdmin f c).gleaners = s.gleaners := rfl
@[simp] theorem setAdmin_stackMaps (s : State) (f : Nat) (c : Option AdminCmd) : (s.setAdmin f c).stackMaps = s.stackMaps := rfl
@[simp] theorem setAdmin_loft (s : State) (f : Nat) (c : Option AdminCmd) : (s.setAdmin f c).loft = s.loft := rfl
@[simp] theorem setAdmin_sysArea (s : State) (f : Nat) (c : Option AdminCmd) : (s.setAdmin f c).sysArea = s.sysArea := rfl
@[simp] theorem setAdmin_inherited (s : State) (f : Nat) (c : Option AdminCmd) : (s.setAdmin f c).inherited = s.inherited := rfl
@[simp] theorem setAdmin_patterns (s : State) (f : Nat) (c : Option AdminCmd) : (s.setAdmin f c).patterns = s.patterns := rfl
@[simp] theorem setAdmin_xlt (s : State) (f : Nat) (c : Option AdminCmd) : (s.setAdmin f c).xlt = s.xlt := rfl
@[simp] theorem setAdmin_copyMaps (s : State) (f : Nat) (c : Option AdminCmd) : (s.setAdmin f c).copyMaps = s.copyMaps := rfl
@[simp] theorem setAdmin_host (s : State) (f : Nat) (c : Option AdminCmd) : (s.setAdmin f c).host = s.host := rfl
@[simp] theorem setAdmin_links (s : State) (f : Nat) (c : Option AdminCmd) : (s.setAdmin f c).links = s.links := rfl
@[simp] theorem setAdmin_loader (s : State) (f : Nat) (c : Option AdminCmd) : (s.setAdmin f c).loader = s.loader := rfl
@[simp] theorem setAdmin_faults (s : State) (f : Nat) (c : Option AdminCmd) : (s.setAdmin f c).faults = s.faults := rfl
@[simp] theorem setAdmin_acc (s : State) (f : Nat) (c : Option AdminCmd) : (s.setAdmin f c).acc = s.acc := rfl
@[simp] theorem setAdmin_mgmt (s : State) (f : Nat) (c : Option AdminCmd) : (s.setAdmin f c).mgmt = s.mgmt := rfl

/-! ### `State.updCmd` -/

@[simp] theorem updCmd_pending (s : State) (q seq : Nat) (f : Cmd → Cmd) : (s.updCmd q seq f).pending = s.pending := rfl
@[simp] theorem updCmd_freeCtr (s : State) (q seq : Nat) (f : Cmd → Cmd) : (s.updCmd q seq f).freeCtr = s.freeCtr := rfl
@[simp] theorem updCmd_devTime (s : State) (q seq : Nat) (f : Cmd → Cmd) : (s.updCmd q seq f).devTime = s.devTime := rfl
@[simp] theorem updCmd_out (s : State) (q seq : Nat) (f : Cmd → Cmd) : (s.updCmd q seq f).out = s.out := rfl
@[simp] theorem updCmd_parts (s : State) (q seq : Nat) (f : Cmd → Cmd) : (s.updCmd q seq f).parts = s.parts := rfl
@[simp] theorem updCmd_coreMap (s : State) (q seq : Nat) (f : Cmd → Cmd) : (s.updCmd q seq f).coreMap = s.coreMap := rfl
@[simp] theorem updCmd_cores (s : State) (q seq : Nat) (f : Cmd → Cmd) : (s.updCmd q seq f).cores = s.cores := rfl
@[simp] theorem updCmd_clusters (s : State) (q seq : Nat) (f : Cmd → Cmd) : (s.updCmd q seq f).clusters = s.clusters := rfl
@[simp] theorem updCmd_gleaners (s : State) (q seq : Nat) (f : Cmd → Cmd) : (s.updCmd q seq f).gleaners = s.gleaners := rfl
@[simp] theorem updCmd_stackMaps (s : State) (q seq : Nat) (f : Cmd → Cmd) : (s.updCmd q seq f).stackMaps = s.stackMaps := rfl
@[simp] theorem updCmd_loft (s : State) (q seq : Nat) (f : Cmd → Cmd) : (s.updCmd q seq f).loft = s.loft := rfl
@[simp] theorem updCmd_sysArea (s : State) (q seq : Nat) (f : Cmd → Cmd) : (s.updCmd q seq f).sysArea = s.sysArea := rfl
@[simp] theorem updCmd_inherited (s : State) (q seq : Nat) (f : Cmd → Cmd) : (s.updCmd q seq f).inherited = s.inherited := rfl
@[simp] theorem updCmd_patterns (s : State) (q seq : Nat) (f : Cmd → Cmd) : (s.updCmd q seq f).patterns = s.patterns := rfl
@[simp] theorem updCmd_xlt (s : State) (q seq : Nat) (f : Cmd → Cmd) : (s.updCmd q seq f).xlt = s.xlt := rfl
@[simp] theorem updCmd_copyMaps (s : State) (q seq : Nat) (f : Cmd → Cmd) : (s.updCmd q seq f).copyMaps = s.copyMaps := rfl
@[simp] theorem updCmd_host (s : State) (q seq : Nat) (f : Cmd → Cmd) : (s.updCmd q seq f).host = s.host := rfl
@[simp] theorem updCmd_links (s : State) (q seq : Nat) (f : Cmd → Cmd) : (s.updCmd q seq f).links = s.links := rfl
@[simp] theorem updCmd_loader (s : State) (q seq : Nat) (f : Cmd → Cmd) : (s.updCmd q seq f).loader = s.loader := rfl
@[simp] theorem updCmd_faults (s : State) (q seq : Nat) (f : Cmd → Cmd) : (s.updCmd q seq f).faults = s.faults := rfl
@[simp] theorem updCmd_acc (s : State) (q seq : Nat) (f : Cmd → Cmd) : (s.updCmd q seq f).acc = s.acc := rfl
@[simp] theorem updCmd_mgmt (s : State) (q seq : Nat) (f : Cmd → Cmd) : (s.updCmd q seq f).mgmt = s.mgmt := rfl

/-! ### `State.updQueue` -/

@[simp] theorem updQueue_pending (s : State) (q : Nat) (f : QueueState → QueueState) : (s.updQueue q f).pending = s.pending := rfl
@[simp] theorem updQueue_freeCtr (s : State) (q : Nat) (f : QueueState → QueueState) : (s.updQueue q f).freeCtr = s.freeCtr := rfl
@[simp] theorem updQueue_devTime (s : State) (q : Nat) (f : QueueState → QueueState) : (s.updQueue q f).devTime = s.devTime := rfl
@[simp] theorem updQueue_out (s : State) (q : Nat) (f : QueueState → QueueState) : (s.updQueue q f).out = s.out := rfl
@[simp] theorem updQueue_parts (s : State) (q : Nat) (f : QueueState → QueueState) : (s.updQueue q f).parts = s.parts := rfl
@[simp] theorem updQueue_coreMap (s : State) (q : Nat) (f : QueueState → QueueState) : (s.updQueue q f).coreMap = s.coreMap := rfl
@[simp] theorem updQueue_cores (s : State) (q : Nat) (f : QueueState → QueueState) : (s.updQueue q f).cores = s.cores := rfl
@[simp] theorem updQueue_clusters (s : State) (q : Nat) (f : QueueState → QueueState) : (s.updQueue q f).clusters = s.clusters := rfl
@[simp] theorem updQueue_gleaners (s : State) (q : Nat) (f : QueueState → QueueState) : (s.updQueue q f).gleaners = s.gleaners := rfl
@[simp] theorem updQueue_stackMaps (s : State) (q : Nat) (f : QueueState → QueueState) : (s.updQueue q f).stackMaps = s.stackMaps := rfl
@[simp] theorem updQueue_loft (s : State) (q : Nat) (f : QueueState → QueueState) : (s.updQueue q f).loft = s.loft := rfl
@[simp] theorem updQueue_sysArea (s : State) (q : Nat) (f : QueueState → QueueState) : (s.updQueue q f).sysArea = s.sysArea := rfl
@[simp] theorem updQueue_inherited (s : State) (q : Nat) (f : QueueState → QueueState) : (s.updQueue q f).inherited = s.inherited := rfl
@[simp] theorem updQueue_patterns (s : State) (q : Nat) (f : QueueState → QueueState) : (s.updQueue q f).patterns = s.patterns := rfl
@[simp] theorem updQueue_xlt (s : State) (q : Nat) (f : QueueState → QueueState) : (s.updQueue q f).xlt = s.xlt := rfl
@[simp] theorem updQueue_copyMaps (s : State) (q : Nat) (f : QueueState → QueueState) : (s.updQueue q f).copyMaps = s.copyMaps := rfl
@[simp] theorem updQueue_host (s : State) (q : Nat) (f : QueueState → QueueState) : (s.updQueue q f).host = s.host := rfl
@[simp] theorem updQueue_links (s : State) (q : Nat) (f : QueueState → QueueState) : (s.updQueue q f).links = s.links := rfl
@[simp] theorem updQueue_loader (s : State) (q : Nat) (f : QueueState → QueueState) : (s.updQueue q f).loader = s.loader := rfl
@[simp] theorem updQueue_faults (s : State) (q : Nat) (f : QueueState → QueueState) : (s.updQueue q f).faults = s.faults := rfl
@[simp] theorem updQueue_acc (s : State) (q : Nat) (f : QueueState → QueueState) : (s.updQueue q f).acc = s.acc := rfl
@[simp] theorem updQueue_mgmt (s : State) (q : Nat) (f : QueueState → QueueState) : (s.updQueue q f).mgmt = s.mgmt := rfl

/-! ### `State.updSem` -/

@[simp] theorem updSem_pending (s : State) (n : Nat) (f : Semaphore → Semaphore) : (s.updSem n f).pending = s.pending := rfl
@[simp] theorem updSem_freeCtr (s : State) (n : Nat) (f : Semaphore → Semaphore) : (s.updSem n f).freeCtr = s.freeCtr := rfl
@[simp] theorem updSem_devTime (s : State) (n : Nat) (f : Semaphore → Semaphore) : (s.updSem n f).devTime = s.devTime := rfl
@[simp] theorem updSem_out (s : State) (n : Nat) (f : Semaphore → Semaphore) : (s.updSem n f).out = s.out := rfl
@[simp] theorem updSem_parts (s : State) (n : Nat) (f : Semaphore → Semaphore) : (s.updSem n f).parts = s.parts := rfl
@[simp] theorem updSem_coreMap (s : State) (n : Nat) (f : Semaphore → Semaphore) : (s.updSem n f).coreMap = s.coreMap := rfl
@[simp] theorem updSem_cores (s : State) (n : Nat) (f : Semaphore → Semaphore) : (s.updSem n f).cores = s.cores := rfl
@[simp] theorem updSem_clusters (s : State) (n : Nat) (f : Semaphore → Semaphore) : (s.updSem n f).clusters = s.clusters := rfl
@[simp] theorem updSem_gleaners (s : State) (n : Nat) (f : Semaphore → Semaphore) : (s.updSem n f).gleaners = s.gleaners := rfl
@[simp] theorem updSem_stackMaps (s : State) (n : Nat) (f : Semaphore → Semaphore) : (s.updSem n f).stackMaps = s.stackMaps := rfl
@[simp] theorem updSem_loft (s : State) (n : Nat) (f : Semaphore → Semaphore) : (s.updSem n f).loft = s.loft := rfl
@[simp] theorem updSem_sysArea (s : State) (n : Nat) (f : Semaphore → Semaphore) : (s.updSem n f).sysArea = s.sysArea := rfl
@[simp] theorem updSem_inherited (s : State) (n : Nat) (f : Semaphore → Semaphore) : (s.updSem n f).inherited = s.inherited := rfl
@[simp] theorem updSem_patterns (s : State) (n : Nat) (f : Semaphore → Semaphore) : (s.updSem n f).patterns = s.patterns := rfl
@[simp] theorem updSem_xlt (s : State) (n : Nat) (f : Semaphore → Semaphore) : (s.updSem n f).xlt = s.xlt := rfl
@[simp] theorem updSem_copyMaps (s : State) (n : Nat) (f : Semaphore → Semaphore) : (s.updSem n f).copyMaps = s.copyMaps := rfl
@[simp] theorem updSem_host (s : State) (n : Nat) (f : Semaphore → Semaphore) : (s.updSem n f).host = s.host := rfl
@[simp] theorem updSem_links (s : State) (n : Nat) (f : Semaphore → Semaphore) : (s.updSem n f).links = s.links := rfl
@[simp] theorem updSem_loader (s : State) (n : Nat) (f : Semaphore → Semaphore) : (s.updSem n f).loader = s.loader := rfl
@[simp] theorem updSem_faults (s : State) (n : Nat) (f : Semaphore → Semaphore) : (s.updSem n f).faults = s.faults := rfl
@[simp] theorem updSem_acc (s : State) (n : Nat) (f : Semaphore → Semaphore) : (s.updSem n f).acc = s.acc := rfl
@[simp] theorem updSem_mgmt (s : State) (n : Nat) (f : Semaphore → Semaphore) : (s.updSem n f).mgmt = s.mgmt := rfl

/-! ### `State.updFaults` -/

@[simp] theorem updFaults_pending (s : State) (f : FaultState → FaultState) : (s.updFaults f).pending = s.pending := rfl
@[simp] theorem updFaults_freeCtr (s : State) (f : FaultState → FaultState) : (s.updFaults f).freeCtr = s.freeCtr := rfl
@[simp] theorem updFaults_devTime (s : State) (f : FaultState → FaultState) : (s.updFaults f).devTime = s.devTime := rfl
@[simp] theorem updFaults_out (s : State) (f : FaultState → FaultState) : (s.updFaults f).out = s.out := rfl
@[simp] theorem updFaults_parts (s : State) (f : FaultState → FaultState) : (s.updFaults f).parts = s.parts := rfl
@[simp] theorem updFaults_coreMap (s : State) (f : FaultState → FaultState) : (s.updFaults f).coreMap = s.coreMap := rfl
@[simp] theorem updFaults_cores (s : State) (f : FaultState → FaultState) : (s.updFaults f).cores = s.cores := rfl
@[simp] theorem updFaults_clusters (s : State) (f : FaultState → FaultState) : (s.updFaults f).clusters = s.clusters := rfl
@[simp] theorem updFaults_gleaners (s : State) (f : FaultState → FaultState) : (s.updFaults f).gleaners = s.gleaners := rfl
@[simp] theorem updFaults_stackMaps (s : State) (f : FaultState → FaultState) : (s.updFaults f).stackMaps = s.stackMaps := rfl
@[simp] theorem updFaults_loft (s : State) (f : FaultState → FaultState) : (s.updFaults f).loft = s.loft := rfl
@[simp] theorem updFaults_sysArea (s : State) (f : FaultState → FaultState) : (s.updFaults f).sysArea = s.sysArea := rfl
@[simp] theorem updFaults_inherited (s : State) (f : FaultState → FaultState) : (s.updFaults f).inherited = s.inherited := rfl
@[simp] theorem updFaults_patterns (s : State) (f : FaultState → FaultState) : (s.updFaults f).patterns = s.patterns := rfl
@[simp] theorem updFaults_xlt (s : State) (f : FaultState → FaultState) : (s.updFaults f).xlt = s.xlt := rfl
@[simp] theorem updFaults_copyMaps (s : State) (f : FaultState → FaultState) : (s.updFaults f).copyMaps = s.copyMaps := rfl
@[simp] theorem updFaults_host (s : State) (f : FaultState → FaultState) : (s.updFaults f).host = s.host := rfl
@[simp] theorem updFaults_gfe (s : State) (f : FaultState → FaultState) : (s.updFaults f).gfe = s.gfe := rfl
@[simp] theorem updFaults_links (s : State) (f : FaultState → FaultState) : (s.updFaults f).links = s.links := rfl
@[simp] theorem updFaults_loader (s : State) (f : FaultState → FaultState) : (s.updFaults f).loader = s.loader := rfl
@[simp] theorem updFaults_acc (s : State) (f : FaultState → FaultState) : (s.updFaults f).acc = s.acc := rfl
@[simp] theorem updFaults_mgmt (s : State) (f : FaultState → FaultState) : (s.updFaults f).mgmt = s.mgmt := rfl

/-! ### `State.updCopyMap` -/

@[simp] theorem updCopyMap_pending (s : State) (k : Nat) (f : BayMapCopy → BayMapCopy) : (s.updCopyMap k f).pending = s.pending := rfl
@[simp] theorem updCopyMap_freeCtr (s : State) (k : Nat) (f : BayMapCopy → BayMapCopy) : (s.updCopyMap k f).freeCtr = s.freeCtr := rfl
@[simp] theorem updCopyMap_devTime (s : State) (k : Nat) (f : BayMapCopy → BayMapCopy) : (s.updCopyMap k f).devTime = s.devTime := rfl
@[simp] theorem updCopyMap_out (s : State) (k : Nat) (f : BayMapCopy → BayMapCopy) : (s.updCopyMap k f).out = s.out := rfl
@[simp] theorem updCopyMap_parts (s : State) (k : Nat) (f : BayMapCopy → BayMapCopy) : (s.updCopyMap k f).parts = s.parts := rfl
@[simp] theorem updCopyMap_coreMap (s : State) (k : Nat) (f : BayMapCopy → BayMapCopy) : (s.updCopyMap k f).coreMap = s.coreMap := rfl
@[simp] theorem updCopyMap_cores (s : State) (k : Nat) (f : BayMapCopy → BayMapCopy) : (s.updCopyMap k f).cores = s.cores := rfl
@[simp] theorem updCopyMap_clusters (s : State) (k : Nat) (f : BayMapCopy → BayMapCopy) : (s.updCopyMap k f).clusters = s.clusters := rfl
@[simp] theorem updCopyMap_gleaners (s : State) (k : Nat) (f : BayMapCopy → BayMapCopy) : (s.updCopyMap k f).gleaners = s.gleaners := rfl
@[simp] theorem updCopyMap_stackMaps (s : State) (k : Nat) (f : BayMapCopy → BayMapCopy) : (s.updCopyMap k f).stackMaps = s.stackMaps := rfl
@[simp] theorem updCopyMap_loft (s : State) (k : Nat) (f : BayMapCopy → BayMapCopy) : (s.updCopyMap k f).loft = s.loft := rfl
@[simp] theorem updCopyMap_sysArea (s : State) (k : Nat) (f : BayMapCopy → BayMapCopy) : (s.updCopyMap k f).sysArea = s.sysArea := rfl
@[simp] theorem updCopyMap_inherited (s : State) (k : Nat) (f : BayMapCopy → BayMapCopy) : (s.updCopyMap k f).inherited = s.inherited := rfl
@[simp] theorem updCopyMap_patterns (s : State) (k : Nat) (f : BayMapCopy → BayMapCopy) : (s.updCopyMap k f).patterns = s.patterns := rfl
@[simp] theorem updCopyMap_xlt (s : State) (k : Nat) (f : BayMapCopy → BayMapCopy) : (s.updCopyMap k f).xlt = s.xlt := rfl
@[simp] theorem updCopyMap_host (s : State) (k : Nat) (f : BayMapCopy → BayMapCopy) : (s.updCopyMap k f).host = s.host := rfl
@[simp] theorem updCopyMap_gfe (s : State) (k : Nat) (f : BayMapCopy → BayMapCopy) : (s.updCopyMap k f).gfe = s.gfe := rfl
@[simp] theorem updCopyMap_links (s : State) (k : Nat) (f : BayMapCopy → BayMapCopy) : (s.updCopyMap k f).links = s.links := rfl
@[simp] theorem updCopyMap_loader (s : State) (k : Nat) (f : BayMapCopy → BayMapCopy) : (s.updCopyMap k f).loader = s.loader := rfl
@[simp] theorem updCopyMap_faults (s : State) (k : Nat) (f : BayMapCopy → BayMapCopy) : (s.updCopyMap k f).faults = s.faults := rfl
@[simp] theorem updCopyMap_acc (s : State) (k : Nat) (f : BayMapCopy → BayMapCopy) : (s.updCopyMap k f).acc = s.acc := rfl
@[simp] theorem updCopyMap_mgmt (s : State) (k : Nat) (f : BayMapCopy → BayMapCopy) : (s.updCopyMap k f).mgmt = s.mgmt := rfl

/-! ### `State.updDma` -/

@[simp] theorem updDma_pending (s : State) (c : Nat) (f : DmaEngine → DmaEngine) : (s.updDma c f).pending = s.pending := rfl
@[simp] theorem updDma_freeCtr (s : State) (c : Nat) (f : DmaEngine → DmaEngine) : (s.updDma c f).freeCtr = s.freeCtr := rfl
@[simp] theorem updDma_devTime (s : State) (c : Nat) (f : DmaEngine → DmaEngine) : (s.updDma c f).devTime = s.devTime := rfl
@[simp] theorem updDma_out (s : State) (c : Nat) (f : DmaEngine → DmaEngine) : (s.updDma c f).out = s.out := rfl
@[simp] theorem updDma_parts (s : State) (c : Nat) (f : DmaEngine → DmaEngine) : (s.updDma c f).parts = s.parts := rfl
@[simp] theorem updDma_coreMap (s : State) (c : Nat) (f : DmaEngine → DmaEngine) : (s.updDma c f).coreMap = s.coreMap := rfl
@[simp] theorem updDma_cores (s : State) (c : Nat) (f : DmaEngine → DmaEngine) : (s.updDma c f).cores = s.cores := rfl
@[simp] theorem updDma_gleaners (s : State) (c : Nat) (f : DmaEngine → DmaEngine) : (s.updDma c f).gleaners = s.gleaners := rfl
@[simp] theorem updDma_stackMaps (s : State) (c : Nat) (f : DmaEngine → DmaEngine) : (s.updDma c f).stackMaps = s.stackMaps := rfl
@[simp] theorem updDma_loft (s : State) (c : Nat) (f : DmaEngine → DmaEngine) : (s.updDma c f).loft = s.loft := rfl
@[simp] theorem updDma_sysArea (s : State) (c : Nat) (f : DmaEngine → DmaEngine) : (s.updDma c f).sysArea = s.sysArea := rfl
@[simp] theorem updDma_inherited (s : State) (c : Nat) (f : DmaEngine → DmaEngine) : (s.updDma c f).inherited = s.inherited := rfl
@[simp] theorem updDma_patterns (s : State) (c : Nat) (f : DmaEngine → DmaEngine) : (s.updDma c f).patterns = s.patterns := rfl
@[simp] theorem updDma_xlt (s : State) (c : Nat) (f : DmaEngine → DmaEngine) : (s.updDma c f).xlt = s.xlt := rfl
@[simp] theorem updDma_copyMaps (s : State) (c : Nat) (f : DmaEngine → DmaEngine) : (s.updDma c f).copyMaps = s.copyMaps := rfl
@[simp] theorem updDma_host (s : State) (c : Nat) (f : DmaEngine → DmaEngine) : (s.updDma c f).host = s.host := rfl
@[simp] theorem updDma_gfe (s : State) (c : Nat) (f : DmaEngine → DmaEngine) : (s.updDma c f).gfe = s.gfe := rfl
@[simp] theorem updDma_links (s : State) (c : Nat) (f : DmaEngine → DmaEngine) : (s.updDma c f).links = s.links := rfl
@[simp] theorem updDma_loader (s : State) (c : Nat) (f : DmaEngine → DmaEngine) : (s.updDma c f).loader = s.loader := rfl
@[simp] theorem updDma_faults (s : State) (c : Nat) (f : DmaEngine → DmaEngine) : (s.updDma c f).faults = s.faults := rfl
@[simp] theorem updDma_acc (s : State) (c : Nat) (f : DmaEngine → DmaEngine) : (s.updDma c f).acc = s.acc := rfl
@[simp] theorem updDma_mgmt (s : State) (c : Nat) (f : DmaEngine → DmaEngine) : (s.updDma c f).mgmt = s.mgmt := rfl

/-! ### `State.updEth` -/

@[simp] theorem updEth_pending (s : State) (p : Nat) (f : EthPort → EthPort) : (s.updEth p f).pending = s.pending := rfl
@[simp] theorem updEth_freeCtr (s : State) (p : Nat) (f : EthPort → EthPort) : (s.updEth p f).freeCtr = s.freeCtr := rfl
@[simp] theorem updEth_devTime (s : State) (p : Nat) (f : EthPort → EthPort) : (s.updEth p f).devTime = s.devTime := rfl
@[simp] theorem updEth_out (s : State) (p : Nat) (f : EthPort → EthPort) : (s.updEth p f).out = s.out := rfl
@[simp] theorem updEth_parts (s : State) (p : Nat) (f : EthPort → EthPort) : (s.updEth p f).parts = s.parts := rfl
@[simp] theorem updEth_coreMap (s : State) (p : Nat) (f : EthPort → EthPort) : (s.updEth p f).coreMap = s.coreMap := rfl
@[simp] theorem updEth_cores (s : State) (p : Nat) (f : EthPort → EthPort) : (s.updEth p f).cores = s.cores := rfl
@[simp] theorem updEth_clusters (s : State) (p : Nat) (f : EthPort → EthPort) : (s.updEth p f).clusters = s.clusters := rfl
@[simp] theorem updEth_gleaners (s : State) (p : Nat) (f : EthPort → EthPort) : (s.updEth p f).gleaners = s.gleaners := rfl
@[simp] theorem updEth_stackMaps (s : State) (p : Nat) (f : EthPort → EthPort) : (s.updEth p f).stackMaps = s.stackMaps := rfl
@[simp] theorem updEth_loft (s : State) (p : Nat) (f : EthPort → EthPort) : (s.updEth p f).loft = s.loft := rfl
@[simp] theorem updEth_sysArea (s : State) (p : Nat) (f : EthPort → EthPort) : (s.updEth p f).sysArea = s.sysArea := rfl
@[simp] theorem updEth_inherited (s : State) (p : Nat) (f : EthPort → EthPort) : (s.updEth p f).inherited = s.inherited := rfl
@[simp] theorem updEth_patterns (s : State) (p : Nat) (f : EthPort → EthPort) : (s.updEth p f).patterns = s.patterns := rfl
@[simp] theorem updEth_xlt (s : State) (p : Nat) (f : EthPort → EthPort) : (s.updEth p f).xlt = s.xlt := rfl
@[simp] theorem updEth_copyMaps (s : State) (p : Nat) (f : EthPort → EthPort) : (s.updEth p f).copyMaps = s.copyMaps := rfl
@[simp] theorem updEth_host (s : State) (p : Nat) (f : EthPort → EthPort) : (s.updEth p f).host = s.host := rfl
@[simp] theorem updEth_gfe (s : State) (p : Nat) (f : EthPort → EthPort) : (s.updEth p f).gfe = s.gfe := rfl
@[simp] theorem updEth_loader (s : State) (p : Nat) (f : EthPort → EthPort) : (s.updEth p f).loader = s.loader := rfl
@[simp] theorem updEth_faults (s : State) (p : Nat) (f : EthPort → EthPort) : (s.updEth p f).faults = s.faults := rfl
@[simp] theorem updEth_acc (s : State) (p : Nat) (f : EthPort → EthPort) : (s.updEth p f).acc = s.acc := rfl
@[simp] theorem updEth_mgmt (s : State) (p : Nat) (f : EthPort → EthPort) : (s.updEth p f).mgmt = s.mgmt := rfl

/-! ### `State.updIgt` -/

@[simp] theorem updIgt_pending (s : State) (f : IgtRegs → IgtRegs) : (s.updIgt f).pending = s.pending := rfl
@[simp] theorem updIgt_freeCtr (s : State) (f : IgtRegs → IgtRegs) : (s.updIgt f).freeCtr = s.freeCtr := rfl
@[simp] theorem updIgt_devTime (s : State) (f : IgtRegs → IgtRegs) : (s.updIgt f).devTime = s.devTime := rfl
@[simp] theorem updIgt_out (s : State) (f : IgtRegs → IgtRegs) : (s.updIgt f).out = s.out := rfl
@[simp] theorem updIgt_parts (s : State) (f : IgtRegs → IgtRegs) : (s.updIgt f).parts = s.parts := rfl
@[simp] theorem updIgt_coreMap (s : State) (f : IgtRegs → IgtRegs) : (s.updIgt f).coreMap = s.coreMap := rfl
@[simp] theorem updIgt_cores (s : State) (f : IgtRegs → IgtRegs) : (s.updIgt f).cores = s.cores := rfl
@[simp] theorem updIgt_clusters (s : State) (f : IgtRegs → IgtRegs) : (s.updIgt f).clusters = s.clusters := rfl
@[simp] theorem updIgt_gleaners (s : State) (f : IgtRegs → IgtRegs) : (s.updIgt f).gleaners = s.gleaners := rfl
@[simp] theorem updIgt_stackMaps (s : State) (f : IgtRegs → IgtRegs) : (s.updIgt f).stackMaps = s.stackMaps := rfl
@[simp] theorem updIgt_loft (s : State) (f : IgtRegs → IgtRegs) : (s.updIgt f).loft = s.loft := rfl
@[simp] theorem updIgt_sysArea (s : State) (f : IgtRegs → IgtRegs) : (s.updIgt f).sysArea = s.sysArea := rfl
@[simp] theorem updIgt_inherited (s : State) (f : IgtRegs → IgtRegs) : (s.updIgt f).inherited = s.inherited := rfl
@[simp] theorem updIgt_patterns (s : State) (f : IgtRegs → IgtRegs) : (s.updIgt f).patterns = s.patterns := rfl
@[simp] theorem updIgt_xlt (s : State) (f : IgtRegs → IgtRegs) : (s.updIgt f).xlt = s.xlt := rfl
@[simp] theorem updIgt_copyMaps (s : State) (f : IgtRegs → IgtRegs) : (s.updIgt f).copyMaps = s.copyMaps := rfl
@[simp] theorem updIgt_host (s : State) (f : IgtRegs → IgtRegs) : (s.updIgt f).host = s.host := rfl
@[simp] theorem updIgt_gfe (s : State) (f : IgtRegs → IgtRegs) : (s.updIgt f).gfe = s.gfe := rfl
@[simp] theorem updIgt_loader (s : State) (f : IgtRegs → IgtRegs) : (s.updIgt f).loader = s.loader := rfl
@[simp] theorem updIgt_faults (s : State) (f : IgtRegs → IgtRegs) : (s.updIgt f).faults = s.faults := rfl
@[simp] theorem updIgt_acc (s : State) (f : IgtRegs → IgtRegs) : (s.updIgt f).acc = s.acc := rfl
@[simp] theorem updIgt_mgmt (s : State) (f : IgtRegs → IgtRegs) : (s.updIgt f).mgmt = s.mgmt := rfl

/-! ### `State.updPeer` -/

@[simp] theorem updPeer_pending (s : State) (k : Nat) (f : PeerState → PeerState) : (s.updPeer k f).pending = s.pending := rfl
@[simp] theorem updPeer_freeCtr (s : State) (k : Nat) (f : PeerState → PeerState) : (s.updPeer k f).freeCtr = s.freeCtr := rfl
@[simp] theorem updPeer_devTime (s : State) (k : Nat) (f : PeerState → PeerState) : (s.updPeer k f).devTime = s.devTime := rfl
@[simp] theorem updPeer_out (s : State) (k : Nat) (f : PeerState → PeerState) : (s.updPeer k f).out = s.out := rfl
@[simp] theorem updPeer_parts (s : State) (k : Nat) (f : PeerState → PeerState) : (s.updPeer k f).parts = s.parts := rfl
@[simp] theorem updPeer_coreMap (s : State) (k : Nat) (f : PeerState → PeerState) : (s.updPeer k f).coreMap = s.coreMap := rfl
@[simp] theorem updPeer_cores (s : State) (k : Nat) (f : PeerState → PeerState) : (s.updPeer k f).cores = s.cores := rfl
@[simp] theorem updPeer_clusters (s : State) (k : Nat) (f : PeerState → PeerState) : (s.updPeer k f).clusters = s.clusters := rfl
@[simp] theorem updPeer_gleaners (s : State) (k : Nat) (f : PeerState → PeerState) : (s.updPeer k f).gleaners = s.gleaners := rfl
@[simp] theorem updPeer_stackMaps (s : State) (k : Nat) (f : PeerState → PeerState) : (s.updPeer k f).stackMaps = s.stackMaps := rfl
@[simp] theorem updPeer_loft (s : State) (k : Nat) (f : PeerState → PeerState) : (s.updPeer k f).loft = s.loft := rfl
@[simp] theorem updPeer_sysArea (s : State) (k : Nat) (f : PeerState → PeerState) : (s.updPeer k f).sysArea = s.sysArea := rfl
@[simp] theorem updPeer_inherited (s : State) (k : Nat) (f : PeerState → PeerState) : (s.updPeer k f).inherited = s.inherited := rfl
@[simp] theorem updPeer_patterns (s : State) (k : Nat) (f : PeerState → PeerState) : (s.updPeer k f).patterns = s.patterns := rfl
@[simp] theorem updPeer_xlt (s : State) (k : Nat) (f : PeerState → PeerState) : (s.updPeer k f).xlt = s.xlt := rfl
@[simp] theorem updPeer_copyMaps (s : State) (k : Nat) (f : PeerState → PeerState) : (s.updPeer k f).copyMaps = s.copyMaps := rfl
@[simp] theorem updPeer_host (s : State) (k : Nat) (f : PeerState → PeerState) : (s.updPeer k f).host = s.host := rfl
@[simp] theorem updPeer_gfe (s : State) (k : Nat) (f : PeerState → PeerState) : (s.updPeer k f).gfe = s.gfe := rfl
@[simp] theorem updPeer_loader (s : State) (k : Nat) (f : PeerState → PeerState) : (s.updPeer k f).loader = s.loader := rfl
@[simp] theorem updPeer_faults (s : State) (k : Nat) (f : PeerState → PeerState) : (s.updPeer k f).faults = s.faults := rfl
@[simp] theorem updPeer_acc (s : State) (k : Nat) (f : PeerState → PeerState) : (s.updPeer k f).acc = s.acc := rfl
@[simp] theorem updPeer_mgmt (s : State) (k : Nat) (f : PeerState → PeerState) : (s.updPeer k f).mgmt = s.mgmt := rfl

/-! ### `State.updRing` -/

@[simp] theorem updRing_pending (s : State) (n : Nat) (f : RingState → RingState) : (s.updRing n f).pending = s.pending := rfl
@[simp] theorem updRing_freeCtr (s : State) (n : Nat) (f : RingState → RingState) : (s.updRing n f).freeCtr = s.freeCtr := rfl
@[simp] theorem updRing_devTime (s : State) (n : Nat) (f : RingState → RingState) : (s.updRing n f).devTime = s.devTime := rfl
@[simp] theorem updRing_out (s : State) (n : Nat) (f : RingState → RingState) : (s.updRing n f).out = s.out := rfl
@[simp] theorem updRing_parts (s : State) (n : Nat) (f : RingState → RingState) : (s.updRing n f).parts = s.parts := rfl
@[simp] theorem updRing_coreMap (s : State) (n : Nat) (f : RingState → RingState) : (s.updRing n f).coreMap = s.coreMap := rfl
@[simp] theorem updRing_cores (s : State) (n : Nat) (f : RingState → RingState) : (s.updRing n f).cores = s.cores := rfl
@[simp] theorem updRing_clusters (s : State) (n : Nat) (f : RingState → RingState) : (s.updRing n f).clusters = s.clusters := rfl
@[simp] theorem updRing_gleaners (s : State) (n : Nat) (f : RingState → RingState) : (s.updRing n f).gleaners = s.gleaners := rfl
@[simp] theorem updRing_stackMaps (s : State) (n : Nat) (f : RingState → RingState) : (s.updRing n f).stackMaps = s.stackMaps := rfl
@[simp] theorem updRing_loft (s : State) (n : Nat) (f : RingState → RingState) : (s.updRing n f).loft = s.loft := rfl
@[simp] theorem updRing_sysArea (s : State) (n : Nat) (f : RingState → RingState) : (s.updRing n f).sysArea = s.sysArea := rfl
@[simp] theorem updRing_inherited (s : State) (n : Nat) (f : RingState → RingState) : (s.updRing n f).inherited = s.inherited := rfl
@[simp] theorem updRing_patterns (s : State) (n : Nat) (f : RingState → RingState) : (s.updRing n f).patterns = s.patterns := rfl
@[simp] theorem updRing_xlt (s : State) (n : Nat) (f : RingState → RingState) : (s.updRing n f).xlt = s.xlt := rfl
@[simp] theorem updRing_copyMaps (s : State) (n : Nat) (f : RingState → RingState) : (s.updRing n f).copyMaps = s.copyMaps := rfl
@[simp] theorem updRing_host (s : State) (n : Nat) (f : RingState → RingState) : (s.updRing n f).host = s.host := rfl
@[simp] theorem updRing_gfe (s : State) (n : Nat) (f : RingState → RingState) : (s.updRing n f).gfe = s.gfe := rfl
@[simp] theorem updRing_loader (s : State) (n : Nat) (f : RingState → RingState) : (s.updRing n f).loader = s.loader := rfl
@[simp] theorem updRing_faults (s : State) (n : Nat) (f : RingState → RingState) : (s.updRing n f).faults = s.faults := rfl
@[simp] theorem updRing_acc (s : State) (n : Nat) (f : RingState → RingState) : (s.updRing n f).acc = s.acc := rfl
@[simp] theorem updRing_mgmt (s : State) (n : Nat) (f : RingState → RingState) : (s.updRing n f).mgmt = s.mgmt := rfl

/-! ### `State.updStream` -/

@[simp] theorem updStream_pending (s : State) (k vc : Nat) (f : Stream → Stream) : (s.updStream k vc f).pending = s.pending := rfl
@[simp] theorem updStream_freeCtr (s : State) (k vc : Nat) (f : Stream → Stream) : (s.updStream k vc f).freeCtr = s.freeCtr := rfl
@[simp] theorem updStream_devTime (s : State) (k vc : Nat) (f : Stream → Stream) : (s.updStream k vc f).devTime = s.devTime := rfl
@[simp] theorem updStream_out (s : State) (k vc : Nat) (f : Stream → Stream) : (s.updStream k vc f).out = s.out := rfl
@[simp] theorem updStream_parts (s : State) (k vc : Nat) (f : Stream → Stream) : (s.updStream k vc f).parts = s.parts := rfl
@[simp] theorem updStream_coreMap (s : State) (k vc : Nat) (f : Stream → Stream) : (s.updStream k vc f).coreMap = s.coreMap := rfl
@[simp] theorem updStream_cores (s : State) (k vc : Nat) (f : Stream → Stream) : (s.updStream k vc f).cores = s.cores := rfl
@[simp] theorem updStream_clusters (s : State) (k vc : Nat) (f : Stream → Stream) : (s.updStream k vc f).clusters = s.clusters := rfl
@[simp] theorem updStream_gleaners (s : State) (k vc : Nat) (f : Stream → Stream) : (s.updStream k vc f).gleaners = s.gleaners := rfl
@[simp] theorem updStream_stackMaps (s : State) (k vc : Nat) (f : Stream → Stream) : (s.updStream k vc f).stackMaps = s.stackMaps := rfl
@[simp] theorem updStream_loft (s : State) (k vc : Nat) (f : Stream → Stream) : (s.updStream k vc f).loft = s.loft := rfl
@[simp] theorem updStream_sysArea (s : State) (k vc : Nat) (f : Stream → Stream) : (s.updStream k vc f).sysArea = s.sysArea := rfl
@[simp] theorem updStream_inherited (s : State) (k vc : Nat) (f : Stream → Stream) : (s.updStream k vc f).inherited = s.inherited := rfl
@[simp] theorem updStream_patterns (s : State) (k vc : Nat) (f : Stream → Stream) : (s.updStream k vc f).patterns = s.patterns := rfl
@[simp] theorem updStream_xlt (s : State) (k vc : Nat) (f : Stream → Stream) : (s.updStream k vc f).xlt = s.xlt := rfl
@[simp] theorem updStream_copyMaps (s : State) (k vc : Nat) (f : Stream → Stream) : (s.updStream k vc f).copyMaps = s.copyMaps := rfl
@[simp] theorem updStream_host (s : State) (k vc : Nat) (f : Stream → Stream) : (s.updStream k vc f).host = s.host := rfl
@[simp] theorem updStream_gfe (s : State) (k vc : Nat) (f : Stream → Stream) : (s.updStream k vc f).gfe = s.gfe := rfl
@[simp] theorem updStream_loader (s : State) (k vc : Nat) (f : Stream → Stream) : (s.updStream k vc f).loader = s.loader := rfl
@[simp] theorem updStream_faults (s : State) (k vc : Nat) (f : Stream → Stream) : (s.updStream k vc f).faults = s.faults := rfl
@[simp] theorem updStream_acc (s : State) (k vc : Nat) (f : Stream → Stream) : (s.updStream k vc f).acc = s.acc := rfl
@[simp] theorem updStream_mgmt (s : State) (k vc : Nat) (f : Stream → Stream) : (s.updStream k vc f).mgmt = s.mgmt := rfl

/-! ### `State.countEarly` -/

@[simp] theorem countEarly_pending (s : State) : (s.countEarly).pending = s.pending := rfl
@[simp] theorem countEarly_freeCtr (s : State) : (s.countEarly).freeCtr = s.freeCtr := rfl
@[simp] theorem countEarly_devTime (s : State) : (s.countEarly).devTime = s.devTime := rfl
@[simp] theorem countEarly_out (s : State) : (s.countEarly).out = s.out := rfl
@[simp] theorem countEarly_parts (s : State) : (s.countEarly).parts = s.parts := rfl
@[simp] theorem countEarly_coreMap (s : State) : (s.countEarly).coreMap = s.coreMap := rfl
@[simp] theorem countEarly_cores (s : State) : (s.countEarly).cores = s.cores := rfl
@[simp] theorem countEarly_clusters (s : State) : (s.countEarly).clusters = s.clusters := rfl
@[simp] theorem countEarly_gleaners (s : State) : (s.countEarly).gleaners = s.gleaners := rfl
@[simp] theorem countEarly_stackMaps (s : State) : (s.countEarly).stackMaps = s.stackMaps := rfl
@[simp] theorem countEarly_loft (s : State) : (s.countEarly).loft = s.loft := rfl
@[simp] theorem countEarly_sysArea (s : State) : (s.countEarly).sysArea = s.sysArea := rfl
@[simp] theorem countEarly_inherited (s : State) : (s.countEarly).inherited = s.inherited := rfl
@[simp] theorem countEarly_patterns (s : State) : (s.countEarly).patterns = s.patterns := rfl
@[simp] theorem countEarly_xlt (s : State) : (s.countEarly).xlt = s.xlt := rfl
@[simp] theorem countEarly_copyMaps (s : State) : (s.countEarly).copyMaps = s.copyMaps := rfl
@[simp] theorem countEarly_host (s : State) : (s.countEarly).host = s.host := rfl
@[simp] theorem countEarly_links (s : State) : (s.countEarly).links = s.links := rfl
@[simp] theorem countEarly_loader (s : State) : (s.countEarly).loader = s.loader := rfl
@[simp] theorem countEarly_faults (s : State) : (s.countEarly).faults = s.faults := rfl
@[simp] theorem countEarly_acc (s : State) : (s.countEarly).acc = s.acc := rfl
@[simp] theorem countEarly_mgmt (s : State) : (s.countEarly).mgmt = s.mgmt := rfl

/-! ### `State.setChanges` -/

@[simp] theorem setChanges_pending (s : State) (cs : List SegChange) : (s.setChanges cs).pending = s.pending := rfl
@[simp] theorem setChanges_freeCtr (s : State) (cs : List SegChange) : (s.setChanges cs).freeCtr = s.freeCtr := rfl
@[simp] theorem setChanges_devTime (s : State) (cs : List SegChange) : (s.setChanges cs).devTime = s.devTime := rfl
@[simp] theorem setChanges_out (s : State) (cs : List SegChange) : (s.setChanges cs).out = s.out := rfl
@[simp] theorem setChanges_parts (s : State) (cs : List SegChange) : (s.setChanges cs).parts = s.parts := rfl
@[simp] theorem setChanges_coreMap (s : State) (cs : List SegChange) : (s.setChanges cs).coreMap = s.coreMap := rfl
@[simp] theorem setChanges_cores (s : State) (cs : List SegChange) : (s.setChanges cs).cores = s.cores := rfl
@[simp] theorem setChanges_clusters (s : State) (cs : List SegChange) : (s.setChanges cs).clusters = s.clusters := rfl
@[simp] theorem setChanges_gleaners (s : State) (cs : List SegChange) : (s.setChanges cs).gleaners = s.gleaners := rfl
@[simp] theorem setChanges_stackMaps (s : State) (cs : List SegChange) : (s.setChanges cs).stackMaps = s.stackMaps := rfl
@[simp] theorem setChanges_loft (s : State) (cs : List SegChange) : (s.setChanges cs).loft = s.loft := rfl
@[simp] theorem setChanges_sysArea (s : State) (cs : List SegChange) : (s.setChanges cs).sysArea = s.sysArea := rfl
@[simp] theorem setChanges_inherited (s : State) (cs : List SegChange) : (s.setChanges cs).inherited = s.inherited := rfl
@[simp] theorem setChanges_patterns (s : State) (cs : List SegChange) : (s.setChanges cs).patterns = s.patterns := rfl
@[simp] theorem setChanges_copyMaps (s : State) (cs : List SegChange) : (s.setChanges cs).copyMaps = s.copyMaps := rfl
@[simp] theorem setChanges_host (s : State) (cs : List SegChange) : (s.setChanges cs).host = s.host := rfl
@[simp] theorem setChanges_gfe (s : State) (cs : List SegChange) : (s.setChanges cs).gfe = s.gfe := rfl
@[simp] theorem setChanges_links (s : State) (cs : List SegChange) : (s.setChanges cs).links = s.links := rfl
@[simp] theorem setChanges_loader (s : State) (cs : List SegChange) : (s.setChanges cs).loader = s.loader := rfl
@[simp] theorem setChanges_faults (s : State) (cs : List SegChange) : (s.setChanges cs).faults = s.faults := rfl
@[simp] theorem setChanges_acc (s : State) (cs : List SegChange) : (s.setChanges cs).acc = s.acc := rfl
@[simp] theorem setChanges_mgmt (s : State) (cs : List SegChange) : (s.setChanges cs).mgmt = s.mgmt := rfl

/-! ### `State.updLoader` -/

@[simp] theorem updLoader_pending (s : State) (f : LoaderState → LoaderState) : (s.updLoader f).pending = s.pending := rfl
@[simp] theorem updLoader_freeCtr (s : State) (f : LoaderState → LoaderState) : (s.updLoader f).freeCtr = s.freeCtr := rfl
@[simp] theorem updLoader_devTime (s : State) (f : LoaderState → LoaderState) : (s.updLoader f).devTime = s.devTime := rfl
@[simp] theorem updLoader_out (s : State) (f : LoaderState → LoaderState) : (s.updLoader f).out = s.out := rfl
@[simp] theorem updLoader_parts (s : State) (f : LoaderState → LoaderState) : (s.updLoader f).parts = s.parts := rfl
@[simp] theorem updLoader_coreMap (s : State) (f : LoaderState → LoaderState) : (s.updLoader f).coreMap = s.coreMap := rfl
@[simp] theorem updLoader_cores (s : State) (f : LoaderState → LoaderState) : (s.updLoader f).cores = s.cores := rfl
@[simp] theorem updLoader_clusters (s : State) (f : LoaderState → LoaderState) : (s.updLoader f).clusters = s.clusters := rfl
@[simp] theorem updLoader_gleaners (s : State) (f : LoaderState → LoaderState) : (s.updLoader f).gleaners = s.gleaners := rfl
@[simp] theorem updLoader_stackMaps (s : State) (f : LoaderState → LoaderState) : (s.updLoader f).stackMaps = s.stackMaps := rfl
@[simp] theorem updLoader_loft (s : State) (f : LoaderState → LoaderState) : (s.updLoader f).loft = s.loft := rfl
@[simp] theorem updLoader_sysArea (s : State) (f : LoaderState → LoaderState) : (s.updLoader f).sysArea = s.sysArea := rfl
@[simp] theorem updLoader_inherited (s : State) (f : LoaderState → LoaderState) : (s.updLoader f).inherited = s.inherited := rfl
@[simp] theorem updLoader_patterns (s : State) (f : LoaderState → LoaderState) : (s.updLoader f).patterns = s.patterns := rfl
@[simp] theorem updLoader_xlt (s : State) (f : LoaderState → LoaderState) : (s.updLoader f).xlt = s.xlt := rfl
@[simp] theorem updLoader_copyMaps (s : State) (f : LoaderState → LoaderState) : (s.updLoader f).copyMaps = s.copyMaps := rfl
@[simp] theorem updLoader_host (s : State) (f : LoaderState → LoaderState) : (s.updLoader f).host = s.host := rfl
@[simp] theorem updLoader_gfe (s : State) (f : LoaderState → LoaderState) : (s.updLoader f).gfe = s.gfe := rfl
@[simp] theorem updLoader_links (s : State) (f : LoaderState → LoaderState) : (s.updLoader f).links = s.links := rfl
@[simp] theorem updLoader_faults (s : State) (f : LoaderState → LoaderState) : (s.updLoader f).faults = s.faults := rfl
@[simp] theorem updLoader_acc (s : State) (f : LoaderState → LoaderState) : (s.updLoader f).acc = s.acc := rfl
@[simp] theorem updLoader_mgmt (s : State) (f : LoaderState → LoaderState) : (s.updLoader f).mgmt = s.mgmt := rfl

/-! ### `State.setMap` -/

@[simp] theorem setMap_pending (s : State) (c : Nat) (m : CoreMap) : (s.setMap c m).pending = s.pending := rfl
@[simp] theorem setMap_freeCtr (s : State) (c : Nat) (m : CoreMap) : (s.setMap c m).freeCtr = s.freeCtr := rfl
@[simp] theorem setMap_devTime (s : State) (c : Nat) (m : CoreMap) : (s.setMap c m).devTime = s.devTime := rfl
@[simp] theorem setMap_out (s : State) (c : Nat) (m : CoreMap) : (s.setMap c m).out = s.out := rfl
@[simp] theorem setMap_parts (s : State) (c : Nat) (m : CoreMap) : (s.setMap c m).parts = s.parts := rfl
@[simp] theorem setMap_cores (s : State) (c : Nat) (m : CoreMap) : (s.setMap c m).cores = s.cores := rfl
@[simp] theorem setMap_clusters (s : State) (c : Nat) (m : CoreMap) : (s.setMap c m).clusters = s.clusters := rfl
@[simp] theorem setMap_gleaners (s : State) (c : Nat) (m : CoreMap) : (s.setMap c m).gleaners = s.gleaners := rfl
@[simp] theorem setMap_stackMaps (s : State) (c : Nat) (m : CoreMap) : (s.setMap c m).stackMaps = s.stackMaps := rfl
@[simp] theorem setMap_loft (s : State) (c : Nat) (m : CoreMap) : (s.setMap c m).loft = s.loft := rfl
@[simp] theorem setMap_sysArea (s : State) (c : Nat) (m : CoreMap) : (s.setMap c m).sysArea = s.sysArea := rfl
@[simp] theorem setMap_inherited (s : State) (c : Nat) (m : CoreMap) : (s.setMap c m).inherited = s.inherited := rfl
@[simp] theorem setMap_patterns (s : State) (c : Nat) (m : CoreMap) : (s.setMap c m).patterns = s.patterns := rfl
@[simp] theorem setMap_xlt (s : State) (c : Nat) (m : CoreMap) : (s.setMap c m).xlt = s.xlt := rfl
@[simp] theorem setMap_copyMaps (s : State) (c : Nat) (m : CoreMap) : (s.setMap c m).copyMaps = s.copyMaps := rfl
@[simp] theorem setMap_host (s : State) (c : Nat) (m : CoreMap) : (s.setMap c m).host = s.host := rfl
@[simp] theorem setMap_gfe (s : State) (c : Nat) (m : CoreMap) : (s.setMap c m).gfe = s.gfe := rfl
@[simp] theorem setMap_links (s : State) (c : Nat) (m : CoreMap) : (s.setMap c m).links = s.links := rfl
@[simp] theorem setMap_loader (s : State) (c : Nat) (m : CoreMap) : (s.setMap c m).loader = s.loader := rfl
@[simp] theorem setMap_faults (s : State) (c : Nat) (m : CoreMap) : (s.setMap c m).faults = s.faults := rfl
@[simp] theorem setMap_acc (s : State) (c : Nat) (m : CoreMap) : (s.setMap c m).acc = s.acc := rfl

/-! ### `State.updHist` -/

@[simp] theorem updHist_pending (s : State) (f : History → History) : (s.updHist f).pending = s.pending := rfl
@[simp] theorem updHist_freeCtr (s : State) (f : History → History) : (s.updHist f).freeCtr = s.freeCtr := rfl
@[simp] theorem updHist_devTime (s : State) (f : History → History) : (s.updHist f).devTime = s.devTime := rfl
@[simp] theorem updHist_out (s : State) (f : History → History) : (s.updHist f).out = s.out := rfl
@[simp] theorem updHist_parts (s : State) (f : History → History) : (s.updHist f).parts = s.parts := rfl
@[simp] theorem updHist_coreMap (s : State) (f : History → History) : (s.updHist f).coreMap = s.coreMap := rfl
@[simp] theorem updHist_cores (s : State) (f : History → History) : (s.updHist f).cores = s.cores := rfl
@[simp] theorem updHist_clusters (s : State) (f : History → History) : (s.updHist f).clusters = s.clusters := rfl
@[simp] theorem updHist_gleaners (s : State) (f : History → History) : (s.updHist f).gleaners = s.gleaners := rfl
@[simp] theorem updHist_stackMaps (s : State) (f : History → History) : (s.updHist f).stackMaps = s.stackMaps := rfl
@[simp] theorem updHist_loft (s : State) (f : History → History) : (s.updHist f).loft = s.loft := rfl
@[simp] theorem updHist_sysArea (s : State) (f : History → History) : (s.updHist f).sysArea = s.sysArea := rfl
@[simp] theorem updHist_inherited (s : State) (f : History → History) : (s.updHist f).inherited = s.inherited := rfl
@[simp] theorem updHist_patterns (s : State) (f : History → History) : (s.updHist f).patterns = s.patterns := rfl
@[simp] theorem updHist_xlt (s : State) (f : History → History) : (s.updHist f).xlt = s.xlt := rfl
@[simp] theorem updHist_copyMaps (s : State) (f : History → History) : (s.updHist f).copyMaps = s.copyMaps := rfl
@[simp] theorem updHist_host (s : State) (f : History → History) : (s.updHist f).host = s.host := rfl
@[simp] theorem updHist_gfe (s : State) (f : History → History) : (s.updHist f).gfe = s.gfe := rfl
@[simp] theorem updHist_links (s : State) (f : History → History) : (s.updHist f).links = s.links := rfl
@[simp] theorem updHist_loader (s : State) (f : History → History) : (s.updHist f).loader = s.loader := rfl
@[simp] theorem updHist_faults (s : State) (f : History → History) : (s.updHist f).faults = s.faults := rfl
@[simp] theorem updHist_acc (s : State) (f : History → History) : (s.updHist f).acc = s.acc := rfl

/-! ### `State.updMgmt` -/

@[simp] theorem updMgmt_pending (s : State) (f : MgmtState → MgmtState) : (s.updMgmt f).pending = s.pending := rfl
@[simp] theorem updMgmt_freeCtr (s : State) (f : MgmtState → MgmtState) : (s.updMgmt f).freeCtr = s.freeCtr := rfl
@[simp] theorem updMgmt_devTime (s : State) (f : MgmtState → MgmtState) : (s.updMgmt f).devTime = s.devTime := rfl
@[simp] theorem updMgmt_out (s : State) (f : MgmtState → MgmtState) : (s.updMgmt f).out = s.out := rfl
@[simp] theorem updMgmt_parts (s : State) (f : MgmtState → MgmtState) : (s.updMgmt f).parts = s.parts := rfl
@[simp] theorem updMgmt_coreMap (s : State) (f : MgmtState → MgmtState) : (s.updMgmt f).coreMap = s.coreMap := rfl
@[simp] theorem updMgmt_cores (s : State) (f : MgmtState → MgmtState) : (s.updMgmt f).cores = s.cores := rfl
@[simp] theorem updMgmt_clusters (s : State) (f : MgmtState → MgmtState) : (s.updMgmt f).clusters = s.clusters := rfl
@[simp] theorem updMgmt_gleaners (s : State) (f : MgmtState → MgmtState) : (s.updMgmt f).gleaners = s.gleaners := rfl
@[simp] theorem updMgmt_stackMaps (s : State) (f : MgmtState → MgmtState) : (s.updMgmt f).stackMaps = s.stackMaps := rfl
@[simp] theorem updMgmt_loft (s : State) (f : MgmtState → MgmtState) : (s.updMgmt f).loft = s.loft := rfl
@[simp] theorem updMgmt_sysArea (s : State) (f : MgmtState → MgmtState) : (s.updMgmt f).sysArea = s.sysArea := rfl
@[simp] theorem updMgmt_inherited (s : State) (f : MgmtState → MgmtState) : (s.updMgmt f).inherited = s.inherited := rfl
@[simp] theorem updMgmt_patterns (s : State) (f : MgmtState → MgmtState) : (s.updMgmt f).patterns = s.patterns := rfl
@[simp] theorem updMgmt_xlt (s : State) (f : MgmtState → MgmtState) : (s.updMgmt f).xlt = s.xlt := rfl
@[simp] theorem updMgmt_copyMaps (s : State) (f : MgmtState → MgmtState) : (s.updMgmt f).copyMaps = s.copyMaps := rfl
@[simp] theorem updMgmt_host (s : State) (f : MgmtState → MgmtState) : (s.updMgmt f).host = s.host := rfl
@[simp] theorem updMgmt_gfe (s : State) (f : MgmtState → MgmtState) : (s.updMgmt f).gfe = s.gfe := rfl
@[simp] theorem updMgmt_links (s : State) (f : MgmtState → MgmtState) : (s.updMgmt f).links = s.links := rfl
@[simp] theorem updMgmt_loader (s : State) (f : MgmtState → MgmtState) : (s.updMgmt f).loader = s.loader := rfl
@[simp] theorem updMgmt_faults (s : State) (f : MgmtState → MgmtState) : (s.updMgmt f).faults = s.faults := rfl
@[simp] theorem updMgmt_acc (s : State) (f : MgmtState → MgmtState) : (s.updMgmt f).acc = s.acc := rfl

/-! ### `State.updDie` -/

@[simp] theorem updDie_pending (s : State) (d : Nat) (f : DieClock → DieClock) : (s.updDie d f).pending = s.pending := rfl
@[simp] theorem updDie_freeCtr (s : State) (d : Nat) (f : DieClock → DieClock) : (s.updDie d f).freeCtr = s.freeCtr := rfl
@[simp] theorem updDie_devTime (s : State) (d : Nat) (f : DieClock → DieClock) : (s.updDie d f).devTime = s.devTime := rfl
@[simp] theorem updDie_out (s : State) (d : Nat) (f : DieClock → DieClock) : (s.updDie d f).out = s.out := rfl
@[simp] theorem updDie_parts (s : State) (d : Nat) (f : DieClock → DieClock) : (s.updDie d f).parts = s.parts := rfl
@[simp] theorem updDie_coreMap (s : State) (d : Nat) (f : DieClock → DieClock) : (s.updDie d f).coreMap = s.coreMap := rfl
@[simp] theorem updDie_cores (s : State) (d : Nat) (f : DieClock → DieClock) : (s.updDie d f).cores = s.cores := rfl
@[simp] theorem updDie_clusters (s : State) (d : Nat) (f : DieClock → DieClock) : (s.updDie d f).clusters = s.clusters := rfl
@[simp] theorem updDie_gleaners (s : State) (d : Nat) (f : DieClock → DieClock) : (s.updDie d f).gleaners = s.gleaners := rfl
@[simp] theorem updDie_stackMaps (s : State) (d : Nat) (f : DieClock → DieClock) : (s.updDie d f).stackMaps = s.stackMaps := rfl
@[simp] theorem updDie_loft (s : State) (d : Nat) (f : DieClock → DieClock) : (s.updDie d f).loft = s.loft := rfl
@[simp] theorem updDie_sysArea (s : State) (d : Nat) (f : DieClock → DieClock) : (s.updDie d f).sysArea = s.sysArea := rfl
@[simp] theorem updDie_inherited (s : State) (d : Nat) (f : DieClock → DieClock) : (s.updDie d f).inherited = s.inherited := rfl
@[simp] theorem updDie_patterns (s : State) (d : Nat) (f : DieClock → DieClock) : (s.updDie d f).patterns = s.patterns := rfl
@[simp] theorem updDie_xlt (s : State) (d : Nat) (f : DieClock → DieClock) : (s.updDie d f).xlt = s.xlt := rfl
@[simp] theorem updDie_copyMaps (s : State) (d : Nat) (f : DieClock → DieClock) : (s.updDie d f).copyMaps = s.copyMaps := rfl
@[simp] theorem updDie_host (s : State) (d : Nat) (f : DieClock → DieClock) : (s.updDie d f).host = s.host := rfl
@[simp] theorem updDie_gfe (s : State) (d : Nat) (f : DieClock → DieClock) : (s.updDie d f).gfe = s.gfe := rfl
@[simp] theorem updDie_links (s : State) (d : Nat) (f : DieClock → DieClock) : (s.updDie d f).links = s.links := rfl
@[simp] theorem updDie_loader (s : State) (d : Nat) (f : DieClock → DieClock) : (s.updDie d f).loader = s.loader := rfl
@[simp] theorem updDie_faults (s : State) (d : Nat) (f : DieClock → DieClock) : (s.updDie d f).faults = s.faults := rfl
@[simp] theorem updDie_acc (s : State) (d : Nat) (f : DieClock → DieClock) : (s.updDie d f).acc = s.acc := rfl

/-! ### `State.updSensor` -/

@[simp] theorem updSensor_pending (s : State) (n : Nat) (f : Sensor → Sensor) : (s.updSensor n f).pending = s.pending := rfl
@[simp] theorem updSensor_freeCtr (s : State) (n : Nat) (f : Sensor → Sensor) : (s.updSensor n f).freeCtr = s.freeCtr := rfl
@[simp] theorem updSensor_devTime (s : State) (n : Nat) (f : Sensor → Sensor) : (s.updSensor n f).devTime = s.devTime := rfl
@[simp] theorem updSensor_out (s : State) (n : Nat) (f : Sensor → Sensor) : (s.updSensor n f).out = s.out := rfl
@[simp] theorem updSensor_parts (s : State) (n : Nat) (f : Sensor → Sensor) : (s.updSensor n f).parts = s.parts := rfl
@[simp] theorem updSensor_coreMap (s : State) (n : Nat) (f : Sensor → Sensor) : (s.updSensor n f).coreMap = s.coreMap := rfl
@[simp] theorem updSensor_cores (s : State) (n : Nat) (f : Sensor → Sensor) : (s.updSensor n f).cores = s.cores := rfl
@[simp] theorem updSensor_clusters (s : State) (n : Nat) (f : Sensor → Sensor) : (s.updSensor n f).clusters = s.clusters := rfl
@[simp] theorem updSensor_gleaners (s : State) (n : Nat) (f : Sensor → Sensor) : (s.updSensor n f).gleaners = s.gleaners := rfl
@[simp] theorem updSensor_stackMaps (s : State) (n : Nat) (f : Sensor → Sensor) : (s.updSensor n f).stackMaps = s.stackMaps := rfl
@[simp] theorem updSensor_loft (s : State) (n : Nat) (f : Sensor → Sensor) : (s.updSensor n f).loft = s.loft := rfl
@[simp] theorem updSensor_sysArea (s : State) (n : Nat) (f : Sensor → Sensor) : (s.updSensor n f).sysArea = s.sysArea := rfl
@[simp] theorem updSensor_inherited (s : State) (n : Nat) (f : Sensor → Sensor) : (s.updSensor n f).inherited = s.inherited := rfl
@[simp] theorem updSensor_patterns (s : State) (n : Nat) (f : Sensor → Sensor) : (s.updSensor n f).patterns = s.patterns := rfl
@[simp] theorem updSensor_xlt (s : State) (n : Nat) (f : Sensor → Sensor) : (s.updSensor n f).xlt = s.xlt := rfl
@[simp] theorem updSensor_copyMaps (s : State) (n : Nat) (f : Sensor → Sensor) : (s.updSensor n f).copyMaps = s.copyMaps := rfl
@[simp] theorem updSensor_host (s : State) (n : Nat) (f : Sensor → Sensor) : (s.updSensor n f).host = s.host := rfl
@[simp] theorem updSensor_gfe (s : State) (n : Nat) (f : Sensor → Sensor) : (s.updSensor n f).gfe = s.gfe := rfl
@[simp] theorem updSensor_links (s : State) (n : Nat) (f : Sensor → Sensor) : (s.updSensor n f).links = s.links := rfl
@[simp] theorem updSensor_loader (s : State) (n : Nat) (f : Sensor → Sensor) : (s.updSensor n f).loader = s.loader := rfl
@[simp] theorem updSensor_faults (s : State) (n : Nat) (f : Sensor → Sensor) : (s.updSensor n f).faults = s.faults := rfl
@[simp] theorem updSensor_acc (s : State) (n : Nat) (f : Sensor → Sensor) : (s.updSensor n f).acc = s.acc := rfl

/-! ### `State.setPair` -/

@[simp] theorem setPair_pending (s : State) (k : Nat) (h : Option PairHold) : (s.setPair k h).pending = s.pending := rfl
@[simp] theorem setPair_freeCtr (s : State) (k : Nat) (h : Option PairHold) : (s.setPair k h).freeCtr = s.freeCtr := rfl
@[simp] theorem setPair_devTime (s : State) (k : Nat) (h : Option PairHold) : (s.setPair k h).devTime = s.devTime := rfl
@[simp] theorem setPair_out (s : State) (k : Nat) (h : Option PairHold) : (s.setPair k h).out = s.out := rfl
@[simp] theorem setPair_parts (s : State) (k : Nat) (h : Option PairHold) : (s.setPair k h).parts = s.parts := rfl
@[simp] theorem setPair_coreMap (s : State) (k : Nat) (h : Option PairHold) : (s.setPair k h).coreMap = s.coreMap := rfl
@[simp] theorem setPair_cores (s : State) (k : Nat) (h : Option PairHold) : (s.setPair k h).cores = s.cores := rfl
@[simp] theorem setPair_clusters (s : State) (k : Nat) (h : Option PairHold) : (s.setPair k h).clusters = s.clusters := rfl
@[simp] theorem setPair_gleaners (s : State) (k : Nat) (h : Option PairHold) : (s.setPair k h).gleaners = s.gleaners := rfl
@[simp] theorem setPair_stackMaps (s : State) (k : Nat) (h : Option PairHold) : (s.setPair k h).stackMaps = s.stackMaps := rfl
@[simp] theorem setPair_loft (s : State) (k : Nat) (h : Option PairHold) : (s.setPair k h).loft = s.loft := rfl
@[simp] theorem setPair_sysArea (s : State) (k : Nat) (h : Option PairHold) : (s.setPair k h).sysArea = s.sysArea := rfl
@[simp] theorem setPair_inherited (s : State) (k : Nat) (h : Option PairHold) : (s.setPair k h).inherited = s.inherited := rfl
@[simp] theorem setPair_patterns (s : State) (k : Nat) (h : Option PairHold) : (s.setPair k h).patterns = s.patterns := rfl
@[simp] theorem setPair_xlt (s : State) (k : Nat) (h : Option PairHold) : (s.setPair k h).xlt = s.xlt := rfl
@[simp] theorem setPair_copyMaps (s : State) (k : Nat) (h : Option PairHold) : (s.setPair k h).copyMaps = s.copyMaps := rfl
@[simp] theorem setPair_host (s : State) (k : Nat) (h : Option PairHold) : (s.setPair k h).host = s.host := rfl
@[simp] theorem setPair_gfe (s : State) (k : Nat) (h : Option PairHold) : (s.setPair k h).gfe = s.gfe := rfl
@[simp] theorem setPair_links (s : State) (k : Nat) (h : Option PairHold) : (s.setPair k h).links = s.links := rfl
@[simp] theorem setPair_loader (s : State) (k : Nat) (h : Option PairHold) : (s.setPair k h).loader = s.loader := rfl
@[simp] theorem setPair_faults (s : State) (k : Nat) (h : Option PairHold) : (s.setPair k h).faults = s.faults := rfl
@[simp] theorem setPair_acc (s : State) (k : Nat) (h : Option PairHold) : (s.setPair k h).acc = s.acc := rfl

/-! ### What is read back -/

@[simp] theorem core_setCore_same (s : State) (k : Nat) (x : CoreState) : (s.setCore k x).core k = x := Tbl.get_set_same _ _ _ _
theorem core_setCore_other (s : State) (k j : Nat) (x : CoreState) (h : j ≠ k) : (s.setCore k x).core j = s.core j := Tbl.get_set_other _ _ _ _ _ h
@[simp] theorem setCore_setCore (s : State) (k : Nat) (x y : CoreState) : (s.setCore k x).setCore k y = s.setCore k y := by simp [State.setCore]
@[simp] theorem cluster_setCluster_same (s : State) (k : Nat) (x : ClusterState) : (s.setCluster k x).cluster k = x := Tbl.get_set_same _ _ _ _
theorem cluster_setCluster_other (s : State) (k j : Nat) (x : ClusterState) (h : j ≠ k) : (s.setCluster k x).cluster j = s.cluster j := Tbl.get_set_other _ _ _ _ _ h
@[simp] theorem setCluster_setCluster (s : State) (k : Nat) (x y : ClusterState) : (s.setCluster k x).setCluster k y = s.setCluster k y := by simp [State.setCluster]
@[simp] theorem part_setPart_same (s : State) (k : Nat) (x : PartState) : (s.setPart k x).part k = x := Tbl.get_set_same _ _ _ _
theorem part_setPart_other (s : State) (k j : Nat) (x : PartState) (h : j ≠ k) : (s.setPart k x).part j = s.part j := Tbl.get_set_other _ _ _ _ _ h
@[simp] theorem setPart_setPart (s : State) (k : Nat) (x y : PartState) : (s.setPart k x).setPart k y = s.setPart k y := by simp [State.setPart]
@[simp] theorem gleaner_setGleaner_same (s : State) (k : Nat) (x : GleanerState) : (s.setGleaner k x).gleaner k = x := Tbl.get_set_same _ _ _ _
theorem gleaner_setGleaner_other (s : State) (k j : Nat) (x : GleanerState) (h : j ≠ k) : (s.setGleaner k x).gleaner j = s.gleaner j := Tbl.get_set_other _ _ _ _ _ h
@[simp] theorem setGleaner_setGleaner (s : State) (k : Nat) (x y : GleanerState) : (s.setGleaner k x).setGleaner k y = s.setGleaner k y := by simp [State.setGleaner]
@[simp] theorem core_updCore_same (s : State) (k : Nat) (f : CoreState → CoreState) : (s.updCore k f).core k = f (s.core k) := Tbl.get_set_same _ _ _ _
theorem core_updCore_other (s : State) (k j : Nat) (f : CoreState → CoreState) (h : j ≠ k) : (s.updCore k f).core j = s.core j := Tbl.get_set_other _ _ _ _ _ h
@[simp] theorem cluster_updCluster_same (s : State) (k : Nat) (f : ClusterState → ClusterState) : (s.updCluster k f).cluster k = f (s.cluster k) := Tbl.get_set_same _ _ _ _
theorem cluster_updCluster_other (s : State) (k j : Nat) (f : ClusterState → ClusterState) (h : j ≠ k) : (s.updCluster k f).cluster j = s.cluster j := Tbl.get_set_other _ _ _ _ _ h
@[simp] theorem part_updPart_same (s : State) (k : Nat) (f : PartState → PartState) : (s.updPart k f).part k = f (s.part k) := Tbl.get_set_same _ _ _ _
theorem part_updPart_other (s : State) (k j : Nat) (f : PartState → PartState) (h : j ≠ k) : (s.updPart k f).part j = s.part j := Tbl.get_set_other _ _ _ _ _ h
@[simp] theorem gleaner_updGleaner_same (s : State) (k : Nat) (f : GleanerState → GleanerState) : (s.updGleaner k f).gleaner k = f (s.gleaner k) := Tbl.get_set_same _ _ _ _
theorem gleaner_updGleaner_other (s : State) (k j : Nat) (f : GleanerState → GleanerState) (h : j ≠ k) : (s.updGleaner k f).gleaner j = s.gleaner j := Tbl.get_set_other _ _ _ _ _ h
@[simp] theorem fn_updFn_same (s : State) (k : Nat) (f : HostFn → HostFn) : (s.updFn k f).fn k = f (s.fn k) := Tbl.get_set_same _ _ _ _
theorem fn_updFn_other (s : State) (k j : Nat) (f : HostFn → HostFn) (h : j ≠ k) : (s.updFn k f).fn j = s.fn j := Tbl.get_set_other _ _ _ _ _ h
@[simp] theorem att_updAtt_same (s : State) (k : Nat) (f : Attachment → Attachment) : (s.updAtt k f).att k = f (s.att k) := Tbl.get_set_same _ _ _ _
theorem att_updAtt_other (s : State) (k j : Nat) (f : Attachment → Attachment) (h : j ≠ k) : (s.updAtt k f).att j = s.att j := Tbl.get_set_other _ _ _ _ _ h
@[simp] theorem queue_updQueue_same (s : State) (k : Nat) (f : QueueState → QueueState) : (s.updQueue k f).queue k = f (s.queue k) := Tbl.get_set_same _ _ _ _
theorem queue_updQueue_other (s : State) (k j : Nat) (f : QueueState → QueueState) (h : j ≠ k) : (s.updQueue k f).queue j = s.queue j := Tbl.get_set_other _ _ _ _ _ h
@[simp] theorem eth_updEth_same (s : State) (k : Nat) (f : EthPort → EthPort) : (s.updEth k f).eth k = f (s.eth k) := Tbl.get_set_same _ _ _ _
theorem eth_updEth_other (s : State) (k j : Nat) (f : EthPort → EthPort) (h : j ≠ k) : (s.updEth k f).eth j = s.eth j := Tbl.get_set_other _ _ _ _ _ h
@[simp] theorem peer_updPeer_same (s : State) (k : Nat) (f : PeerState → PeerState) : (s.updPeer k f).peer k = f (s.peer k) := Tbl.get_set_same _ _ _ _
theorem peer_updPeer_other (s : State) (k j : Nat) (f : PeerState → PeerState) (h : j ≠ k) : (s.updPeer k f).peer j = s.peer j := Tbl.get_set_other _ _ _ _ _ h

end Sys2Proof.Machine
end

