-- ==== Sys2Proof/Laws/Ops.lean ====
section
/-!
SUPPORT. What the shared operations do: the guards on unit numbers, the issue of an instruction of a core or of a gleaner thread, the
administrative commands, maintenance, and the packets of remote operations.
-/

namespace Sys2Proof.Machine

/-! ### Unit numbers (R6) -/

theorem onCore_runs {k : Nat} {s : State} {f : State → Answer} (h : k < 192) : onCore k s f = f s := by simp [onCore, h]
theorem onCore_absent {k : Nat} {s : State} {f : State → Answer} (h : 192 ≤ k) : onCore k s f = .fault .noSuchUnit := by
  simp [onCore, Nat.not_lt.2 h]
theorem onCluster_runs {k : Nat} {s : State} {f : State → Answer} (h : k < 24) : onCluster k s f = f s := by simp [onCluster, h]
theorem onCluster_absent {k : Nat} {s : State} {f : State → Answer} (h : 24 ≤ k) : onCluster k s f = .fault .noSuchUnit := by
  simp [onCluster, Nat.not_lt.2 h]
theorem onPart_runs {k : Nat} {s : State} {f : State → Answer} (h : k < 8) : onPart k s f = f s := by simp [onPart, h]
theorem onPart_absent {k : Nat} {s : State} {f : State → Answer} (h : 8 ≤ k) : onPart k s f = .fault .noSuchUnit := by
  simp [onPart, Nat.not_lt.2 h]
theorem onGleaner_runs {k : Nat} {s : State} {f : State → Answer} (h : k < 448) : onGleaner k s f = f s := by simp [onGleaner, h]
theorem onGleaner_absent {k : Nat} {s : State} {f : State → Answer} (h : 448 ≤ k) : onGleaner k s f = .fault .noSuchUnit := by
  simp [onGleaner, Nat.not_lt.2 h]
theorem onCopy_runs {k : Nat} {s : State} {f : State → Answer} (h : k < 30) : onCopy k s f = f s := by simp [onCopy, h]
theorem onCopy_absent {k : Nat} {s : State} {f : State → Answer} (h : 30 ≤ k) : onCopy k s f = .fault .noSuchUnit := by
  simp [onCopy, Nat.not_lt.2 h]
theorem onFn_runs {k : Nat} {s : State} {f : State → Answer} (h : k < 32) : onFn k s f = f s := by simp [onFn, h]
theorem onFn_absent {k : Nat} {s : State} {f : State → Answer} (h : 32 ≤ k) : onFn k s f = .fault .noSuchUnit := by
  simp [onFn, Nat.not_lt.2 h]
theorem onAtt_runs {k : Nat} {s : State} {f : State → Answer} (h : k < 32) : onAtt k s f = f s := by simp [onAtt, h]
theorem onAtt_absent {k : Nat} {s : State} {f : State → Answer} (h : 32 ≤ k) : onAtt k s f = .fault .noSuchUnit := by
  simp [onAtt, Nat.not_lt.2 h]
theorem onPort_runs {k : Nat} {s : State} {f : State → Answer} (h : k < 2) : onPort k s f = f s := by simp [onPort, h]
theorem onPort_absent {k : Nat} {s : State} {f : State → Answer} (h : 2 ≤ k) : onPort k s f = .fault .noSuchUnit := by
  simp [onPort, Nat.not_lt.2 h]
theorem onQueue_runs {k : Nat} {s : State} {f : State → Answer} (h : k < 1024) : onQueue k s f = f s := by simp [onQueue, h]
theorem onQueue_absent {k : Nat} {s : State} {f : State → Answer} (h : 1024 ≤ k) : onQueue k s f = .fault .noSuchUnit := by
  simp [onQueue, Nat.not_lt.2 h]
theorem onEth_runs {k : Nat} {s : State} {f : State → Answer} (h : k < 8) : onEth k s f = f s := by simp [onEth, h]
theorem onEth_absent {k : Nat} {s : State} {f : State → Answer} (h : 8 ≤ k) : onEth k s f = .fault .noSuchUnit := by
  simp [onEth, Nat.not_lt.2 h]
theorem onPeer_runs {k : Nat} {s : State} {f : State → Answer} (h : k < 128) : onPeer k s f = f s := by simp [onPeer, h]
theorem onPeer_absent {k : Nat} {s : State} {f : State → Answer} (h : 128 ≤ k) : onPeer k s f = .fault .noSuchUnit := by
  simp [onPeer, Nat.not_lt.2 h]
theorem onPackage_runs {k : Nat} {s : State} {f : State → Answer} (h : k < 16) : onPackage k s f = f s := by simp [onPackage, h]
theorem onPackage_absent {k : Nat} {s : State} {f : State → Answer} (h : 16 ≤ k) : onPackage k s f = .fault .noSuchUnit := by
  simp [onPackage, Nat.not_lt.2 h]
theorem onGleanerPart_runs {g p : Nat} {s : State} {f : State → Answer} (h : g < 448) (h2 : p < 8) : onGleanerPart g p s f = f s := by
  simp [onGleanerPart, onGleaner, onPart, h, h2]
theorem onStream_runs {k v : Nat} {s : State} {f : State → Answer} (h : k < 128) (h2 : v < 8) : onStream k v s f = f s := by simp [onStream, h, h2]
/-- BAR0 is served from READY on (R560). -/
theorem onBar0_runs {f : Nat} {s : State} {b : State → Answer} (h : f < 32) (hr : s.mgmt.ready = true) : onBar0 f s b = b s := by
  simp [onBar0, onFn, h, State.served, hr]
theorem onReeve_runs {s : State} {f : State → State} (h : s.mgmt.reeve = true) : onReeve s f = .next (f s) := by simp [onReeve, h]

/-! ### The vector engine -/

theorem issue_runs (k : Nat) (body : State → CoreState → Issue) (s : State) (h : k < 192) (hr : (s.core k).running = true) :
    issue k body s = .next (finishIssue k (s.core k).vec.pc (body s (s.core k))) := by
  unfold issue; rw [onCore_runs h]; exact if_pos hr
/-- An instruction that only writes registers retires with them. -/
theorem issueRegs_runs (k : Nat) (f : VecRegs → VecRegs) (s : State) (h : k < 192) (hr : (s.core k).running = true) :
    issueRegs k f s = .next (s.retired k (f (s.core k).vec)) := by
  unfold issueRegs; rw [issue_runs k _ s h hr]
  simp only [finishIssue, State.retireTo, State.setVec, State.updCore, core_setCore_same, setCore_setCore, State.retired, State.free, setCore_freeCtr]
/-- A lane instruction retires with its lanes and flags. -/
theorem issueLanes_runs (k : Nat) (w : VWord) (f : VecRegs → Nat → LaneOut) (s : State) (h : k < 192) (hr : (s.core k).running = true) :
    issueLanes k w f s = .next (s.retiredLanes k w (f (s.core k).vec)) := by
  unfold issueLanes; rw [issue_runs k _ s h hr]
  simp only [finishIssue, State.retireTo, State.writeLanes, State.raiseLanes, State.setVec, State.updCore, core_setCore_same, setCore_setCore,
    State.retiredLanes, State.free, setCore_freeCtr]
  rfl

/-! ### Gleaner threads -/

/-- An instruction of a running thread that has not reached its limit (R270). -/
theorem issueG_runs {g t n : Nat} {body : State → Thread → GStep} {s : State} {th : Thread} (h : g < 448)
    (e : Tbl.get none (s.gleaner g).threads t = some th) (hp : th.phase = .running) (hi : th.issued < 2 ^ 20) (hn : n ≤ 1) :
    issueG g t n body s = (match body s { th with pc := th.pc + 1, issued := th.issued + n } with
      | .done s1 th1 => .next (s1.putThread g t th1)
      | .wait => .next s
      | .held s1 => .next s1
      | .stop s1 st off => .next (s1.stopThread g t { th with issued := th.issued + n } st off)) := by
  unfold issueG; rw [onGleaner_runs h]; simp only [e]; rw [if_neg (by simp [hp, issueLimit] <;> omega)] <;> rfl

/-! ### Transfers -/

/-- The transfer that a DMA queue may admit runs its operation (R339, R355). -/
theorem onAdmissible_runs {c q : Nat} {op : XferOp} {s : State} {f : State → Xfer → State} {x : Xfer} (h : c < 24)
    (h2 : (s.dma c).admissible q = some x) (h3 : x.desc.op = op) : onAdmissible c q op s f = .next (f s x) := by
  unfold onAdmissible; rw [onCluster_runs h, h2]; simp [h3]

/-! ### Administrative commands -/

theorem onAdminRaw_runs {f op : Nat} {s u : State} {c : AdminCmd} {b : State → AdminCmd → State} (h : s.runsAdmin f op c u) :
    onAdminRaw f op s b = .next (b u c) := by
  unfold onAdminRaw; rw [onFn_runs h.1]; simp [h.2.1, h.2.2]
theorem onAdmin_runs {f op a : Nat} {s u : State} {c : AdminCmd} {b : State → AdminCmd → State} (h : s.runsAdmin f op c u)
    (h2 : u.adminResultOk f (c.field a 8) 4 = true) : onAdmin f op a s b = .next (b u c) := by
  unfold onAdmin; rw [onAdminRaw_runs h, if_pos h2]

/-! ### Maintenance (R557) -/

/-- A maintenance command that the reeve takes runs where every check passes, and otherwise is answered with the outcome of the first that
fails, the nonce used up from the third check on. -/
theorem maintenance_runs {command ep : Nat} {msg : List Byte} {s : State} {body : State → List Byte → State × Nat × List Byte}
    (h : s.mgmt.reeve = true) (h2 : isMaint command msg = true) :
    maintenance command ep msg s body = .next (match s.maintCheck ep msg with
      | 0 => (body (s.dropNonce ep) (maintPayload msg)).1.manage ep (body (s.dropNonce ep) (maintPayload msg)).2.1
          (body (s.dropNonce ep) (maintPayload msg)).2.2
      | n => (if n = 2 ∨ n = 4 then s else s.dropNonce ep).manage ep n []) := by
  unfold maintenance; rw [if_neg (by simp [h, h2])]; split <;> simp_all

/-! ### Igrum packets (R470 to R472, R479) -/

theorem onFrame_receives {p : Nat} {half : Bool} {frame : List Byte} {type op : Nat} {u s : State} {k i : Nat} {ce : Bool} {pkt : List Byte}
    {f : State → Nat → Nat → Bool → List Byte → State} (h : s.receives p half frame type op u k i ce pkt) :
    onFrame p half frame type op s f = .next (f u k i ce pkt) := by
  obtain ⟨hp, ⟨v, hv, hu⟩, encap, src, mark, raw, hm, hf, ht, ho⟩ := h
  unfold onFrame onEth
  rw [if_pos hp]
  simp only [hm, hv, hu, hf, ht]
  rw [if_neg]
  simp
  intro h; exact ho h
theorem onRequest_receives {p : Nat} {half : Bool} {frame : List Byte} {op : Nat} {u s : State} {k i : Nat} {ce : Bool} {pkt : List Byte}
    {f : State → Nat → Bool → Nat → Nat → Nat → List Byte → State} (h : s.receives p half frame 0 op u k i ce pkt) :
    onRequest p half frame op s f =
      .next (u.deliver k i ce pkt (fun s => f s p half k (fieldLE pkt 1 1) (fieldLE pkt 4 4) (pkt.drop 32))) := by
  unfold onRequest; rw [onFrame_receives h]
/-- The packet that a stream expects, with room for it, is taken (R471, R472). -/
theorem deliver_expected {u : State} {k i : Nat} {ce : Bool} {pkt : List Byte} {f : State → State}
    (h1 : fieldLE pkt 0x0C 3 = (u.stream k (fieldLE pkt 1 1)).expected)
    (h2 : (fieldLE pkt 0x16 2).testBit 3 = true ∨
      u.heldCells k (fieldLE pkt 1 1) + packetCells (pkt.length - 64) ≤ fieldLE (u.peerEntry k) 0x0A 2) :
    u.deliver k i ce pkt f = (let vc := fieldLE pkt 1 1
      let path := u.pathEntry ((peerPath (u.peerEntry k) i).getD 0)
      let t := f (u.updStream k vc (fun x => { x with
        expected := psnNext (fieldLE pkt 0x0C 3), ackDue := true, ackPath := i, echo := x.echo || ce
        reserved := Tbl.set false x.reserved (halfUnit (pathPort path) (pathHalf path)) true }))
      if (fieldLE pkt 0x16 2).testBit 1 then t.sendAck k vc i 1 else t) := by
  unfold State.deliver
  rw [if_pos h1, if_neg]
  rintro ⟨a, b⟩
  rcases h2 with h2 | h2
  · simp [h2] at a
  · omega
/-- A whole WRITE that every check lets pass writes its bytes and is answered (R479, R480). -/
theorem remoteWrite_writes {s t v : State} {p k vc node : Nat} {half : Bool} {body : List Byte} {r : RecvOp} {m : MappingCur}
    (hr : s.startRecv k vc (body.take 32) = some (t, r)) (hh : r.header = body.take 32) (hz : fieldLE (body.take 32) 0x18 1 = 0)
    (hm : t.remoteMapping p half node (body.take 32) 1 (fieldLE (body.take 32) 0x0C 4) true = .inr m)
    (he : t.extentOk (26 + entryHome (t.peerEntry k)) m.context (m.addr (fieldLE (body.take 32) 0x10 8))
      (m.addr (fieldLE (body.take 32) 0x10 8) + fieldLE (body.take 32) 0x0C 4 - 1 : Nat) (permWrite ||| permRemote) = true)
    (ha : m.addr (fieldLE (body.take 32) 0x10 8) % 64 = 0) (hn : fieldLE (body.take 32) 0x0C 4 = (body.drop 32).length) (hl : (body.drop 32).length % 64 = 0)
    (hc : t.ctxWrite m.context 0 (m.addr (fieldLE (body.take 32) 0x10 8)) (body.drop 32) = (v, 0))
    (hb : fieldLE (body.take 32) 1 1 = 3) :
    s.remoteWrite p half k vc node body =
      ((v.chargeLink m.context (body.drop 32).length).putRecv
        { r with ctx := m.context, base := some (m.addr (fieldLE (body.take 32) 0x10 8)) }).respond
        { r with ctx := m.context, base := some (m.addr (fieldLE (body.take 32) 0x10 8)) } [] := by
  unfold State.remoteWrite State.admitWrite State.writePacket
  have ha' : m.addr (fieldLE (body.take 32) 0x10 8) + 4096 * 0 = m.addr (fieldLE (body.take 32) 0x10 8) := rfl
  have first : (3 : Nat).testBit 0 = true ∧ (3 : Nat).testBit 1 = true := by decide
  have hl' : fieldLE (body.take 32) 0x0C 4 % 64 = 0 := hn ▸ hl
  have fits : ¬ (fieldLE (body.take 32) 0x0C 4 < 0 + (body.drop 32).length ∨ (body.drop 32).length % 64 ≠ 0) := by omega
  simp only [hr, hb, hm, hz, hh, he, ha, ha', hl', hc, fits, first, Nat.mul_zero, Bool.not_true, Bool.false_eq_true, if_true, if_false, ne_eq,
    not_true_eq_false, or_self]
/-- A READ that every check lets pass returns the bytes (R479, R480). -/
theorem remoteRead_reads {s t v : State} {p k vc node : Nat} {half : Bool} {body : List Byte} {r : RecvOp} {m : MappingCur} {bs : List Byte}
    (hr : s.startRecv k vc (body.take 32) = some (t, r))
    (hm : t.remoteMapping p half node (body.take 32) 0 (fieldLE (body.take 32) 0x19 3) true = .inr m)
    (he : t.extentOk (26 + entryHome (s.peerEntry k)) m.context (m.addr (fieldLE (body.take 32) 0x10 8))
      (m.addr (fieldLE (body.take 32) 0x10 8) + fieldLE (body.take 32) 0x19 3 - 1 : Nat) (permRead ||| permRemote) = true)
    (ha : m.addr (fieldLE (body.take 32) 0x10 8) % 64 = 0) (hl : fieldLE (body.take 32) 0x19 3 % 64 = 0)
    (hc : t.ctxFetch m.context 0 (m.addr (fieldLE (body.take 32) 0x10 8)) (fieldLE (body.take 32) 0x19 3) = (v, 0, bs)) :
    s.remoteRead p half k vc node body = v.respond { r with ctx := m.context } bs := by
  unfold State.remoteRead
  simp only [hr, hm, he, ha, hl, hc]
  simp
/-- A READ that fails a step of R378 is counted and answered REFUSED with the step. -/
theorem remoteRead_refused {s t : State} {p k vc node step : Nat} {half : Bool} {body : List Byte} {r : RecvOp}
    (hr : s.startRecv k vc (body.take 32) = some (t, r))
    (hm : t.remoteMapping p half node (body.take 32) 0 (fieldLE (body.take 32) 0x19 3) true = .inl step) :
    s.remoteRead p half k vc node body =
      (t.countRefused (fieldLE (body.take 32) 2 2) step).respond { r with status := 1, detail := step } [] := by
  unfold State.remoteRead
  simp only [hr, hm, RecvOp.refuse]

/-! ### A core's grid -/

/-- Loading the next tile's weights touches the shadow registers of core `k` alone. -/
theorem preload_keeps (s : State) (k : Nat) (w : TileDesc → List (List Int)) :
    ((s.preload k w).core k).grid.queue = (s.core k).grid.queue ∧ ((s.preload k w).core k).grid.tiles = (s.core k).grid.tiles ∧
      ((s.preload k w).core k).grid.banks = (s.core k).grid.banks ∧ ((s.preload k w).core k).grid.flight = (s.core k).grid.flight ∧
      (∀ j, j ≠ k → (s.preload k w).core j = s.core j) ∧ (s.preload k w).clusters = s.clusters ∧ (s.preload k w).gleaners = s.gleaners := by
  unfold State.preload
  refine ⟨?_, ?_, ?_, ?_, fun j h => core_updCore_other _ _ _ _ h, rfl, rfl⟩ <;>
    rw [core_updCore_same] <;> split <;> (try split) <;> rfl

/-- Repair steering leaves a grid's queue, its counters, its banks and what is in flight. -/
theorem steer_keeps (g : Grid) : g.steer.queue = g.queue ∧ g.steer.tiles = g.tiles ∧ g.steer.banks = g.banks ∧ g.steer.flight = g.flight := by
  unfold Grid.steer
  split <;> (try split) <;> exact ⟨rfl, rfl, rfl, rfl⟩

end Sys2Proof.Machine
end

