-- ==== Sys2Proof/Laws/Sfu.lean ====
section
/-!
SUPPORT. R201 of the built-in functions' tables: whatever table the model admits, its segments meet as R201 says and each segment is monotone.
-/

namespace Sys2Proof.Machine

/-- A table point lies within the slack of its exact value. -/
theorem sfuDeviation_bounds (f : SfuFn) (i : Nat) : -(sfuSlack f : Int) ≤ sfuDeviation f i ∧ sfuDeviation f i ≤ sfuSlack f := by
  unfold sfuDeviation; have : (0:Int) ≤ sfuSlack f := by omega
  simp only []; omega

theorem sfuPoint_bounds (f i) : sfuExact f i - sfuSlack f ≤ sfuPoint f i ∧ sfuPoint f i ≤ sfuExact f i + sfuSlack f := by
  have := sfuDeviation_bounds f i; unfold sfuPoint; split <;> omega

/-- The end points of EXP, RCP and RSQRT are exact. -/
theorem sfuPoint_ends (f) (h : f ≠ .log) : sfuPoint f 0 = sfuExact f 0 ∧ sfuPoint f 256 = sfuExact f 256 := by simp [sfuPoint, h]

/-- EXP's exact points rise at both ends of a segment by more than the slack can undo. -/
theorem sfuExact_exp_rises : ∀ j < 128, 8*2^41 ≤ -3 * sfuExact .exp (2*j) + 4 * sfuExact .exp (2*j+1) - sfuExact .exp (2*j+2) ∧
  8*2^41 ≤ sfuExact .exp (2*j) - 4 * sfuExact .exp (2*j+1) + 3*sfuExact .exp (2*j+2) := by decide +kernel

/-- RCP's and RSQRT's exact points fall so. -/
theorem sfuExact_falls : ∀ j < 128, ∀ f, f = .rcp ∨ f = .rsqrt → -3 * sfuExact f (2*j) + 4 * sfuExact f (2*j+1) - sfuExact f (2*j+2) ≤ -(8*2^41) ∧
  sfuExact f (2*j) - 4 * sfuExact f (2*j+1) + 3*sfuExact f (2*j+2) ≤ -(8*2^41) := by
  have h : ∀ j < 128, (-3 * sfuExact .rcp (2*j) + 4 * sfuExact .rcp (2*j+1) - sfuExact .rcp (2*j+2) ≤ -(8*2^41) ∧
  sfuExact .rcp (2*j) - 4 * sfuExact .rcp (2*j+1) + 3*sfuExact .rcp (2*j+2) ≤ -(8*2^41)) ∧ (-3 * sfuExact .rsqrt (2*j) + 4 * sfuExact .rsqrt (2*j+1) - sfuExact .rsqrt (2*j+2) ≤ -(8*2^41) ∧
  sfuExact .rsqrt (2*j) - 4 * sfuExact .rsqrt (2*j+1) + 3*sfuExact .rsqrt (2*j+2) ≤ -(8*2^41)) := by decide +kernel
  rintro j hj f (rfl | rfl)
  · exact (h j hj).1
  · exact (h j hj).2

/-- LOG's exact point at the left end of a segment, the seam at 64 taken from its right side. -/
def logRight (j i : Nat) : Int := if j = 64 ∧ i = 128 then 4 * (Config.lnTwo : Int) - 2 * sfuExact .log 128 else sfuExact .log i

/-- LOG's points are large beside the slopes of its segments. -/
theorem logRight_slopes : ∀ j < 128, 59*10^18 ≤ logRight j (2*j) ∧ abs (-3 * logRight j (2*j) + 4 * logRight j (2*j+1) - logRight j (2*j+2)) ≤ 3*10^17 ∧
  abs (logRight j (2*j) - 4 * logRight j (2*j+1) + 3*logRight j (2*j+2)) ≤ 3*10^17 := by
  have : ∀ j < 128, (59*10^18 ≤ logRight j (2*j) ∧ -3*10^17 ≤ (-3 * logRight j (2*j) + 4 * logRight j (2*j+1) - logRight j (2*j+2)) ∧ (-3 * logRight j (2*j) + 4 * logRight j (2*j+1) - logRight j (2*j+2)) ≤ 3*10^17) ∧
  -3*10^17 ≤ (logRight j (2*j) - 4 * logRight j (2*j+1) + 3*logRight j (2*j+2)) ∧ (logRight j (2*j) - 4 * logRight j (2*j+1) + 3*logRight j (2*j+2)) ≤ 3*10^17 := by decide +kernel
  intro j hj; have := this j hj
  simp only [abs_le]; omega

theorem sfuC0_log_near (j) (h : j < 128): logRight j (2*j) - 2*2^41 ≤ sfuC0 .log j ∧ sfuC0 .log j ≤ logRight j (2*j) + 2*2^41 := by
  have a := sfuPoint_bounds .log 128; have b := sfuPoint_bounds .log (2*j)
  have : (sfuSlack .log : Int) = 2^41 := by decide
  unfold sfuC0 logRight
  by_cases e : j = 64
  · subst e; simp only [if_true, and_self]; omega
  · rw [if_neg (by simp [e]), if_neg (by simp [e])]; omega

/-- R201: every table of the built-in functions that the model admits keeps the equalities of R201, and the signs that make each function
monotone within a segment: the derivative's at both ends of a segment for EXP, RCP and RSQRT, and LOG's cubic (m′ − 1) × p_j(u) rising at every
u = un/ud of a segment. -/
theorem sfu_tables_keep_equalities_and_signs :
  let atOne (f : SfuFn) (j : Nat) : Int := sfuC0 f j + sfuC1 f j + sfuC2 f j
  (∀ f j, j < 127 → ¬(f = .log ∧ j = 63) → atOne f j = sfuC0 f (j + 1)) ∧
  (∀ f, f ≠ .log → sfuC0 f 0 = 2 ^ 66) ∧
  atOne .exp 127 = 2 * 2 ^ 66 ∧ 2 * atOne .rcp 127 = 2 ^ 66 ∧ 2 * atOne .rsqrt 127 = 2 ^ 66 ∧
  sfuC0 .log 64 = 4 * (Config.lnTwo : Int) - 2 * atOne .log 63 ∧
  (∀ j < 128, 0 ≤ sfuC1 .exp j ∧ 0 ≤ sfuC1 .exp j + 2 * sfuC2 .exp j) ∧
  (∀ j < 128, ∀ f, f = .rcp ∨ f = .rsqrt → sfuC1 f j ≤ 0 ∧ sfuC1 f j + 2 * sfuC2 f j ≤ 0) ∧
  (∀ j : Nat, j < 128 → ∀ un ud : Nat, un ≤ ud → 0 < ud →
    let t : Int := (if j < 64 then (j : Int) else (j : Int) - 128) * ud + un
    0 < polyNum (sfuC0 .log j) (sfuC1 .log j) (sfuC2 .log j) un ud + t * (sfuC1 .log j * ud + 2 * sfuC2 .log j * un)) := by
  have sE : (sfuSlack .exp : Int) = 2^41 := by decide
  have sL : (sfuSlack .log : Int) = 2^41 := by decide
  have sR : ∀ f, f = .rcp ∨ f = .rsqrt → (sfuSlack f : Int) ≤ 2^41 := by rintro f (rfl|rfl) <;> decide
  refine ⟨?_, ?_, ?_, ?_, ?_, ?_, ?_, ?_, ?_⟩
  · intro f j hj h
    simp only [sfuC1]; rw [show sfuC0 f (j+1) = sfuPoint f (2*j+2) by unfold sfuC0; rw [if_neg (by rintro ⟨rfl, e⟩; exact h ⟨rfl, by omega⟩)]; rfl]; omega
  · intro f h; rw [show sfuC0 f 0 = sfuPoint f 0 by simp [sfuC0]]; rw [(sfuPoint_ends f h).1]; revert f; intro f _; cases f <;> decide +kernel
  · simp only [sfuC1]; have := (sfuPoint_ends .exp (by decide)).2; have e : sfuExact .exp 256 = 2*2^66 := by decide +kernel
    norm_num at *; omega
  · simp only [sfuC1]; have := (sfuPoint_ends .rcp (by decide)).2; have e : 2*sfuExact .rcp 256 = 2^66 := by decide +kernel
    norm_num at *; omega
  · simp only [sfuC1]; have := (sfuPoint_ends .rsqrt (by decide)).2; have e : 2*sfuExact .rsqrt 256 = 2^66 := by decide +kernel
    norm_num at *; omega
  · simp only [sfuC1]; rw [show sfuC0 .log 64 = 4 * (Config.lnTwo : Int) - 2 * sfuPoint .log 128 by simp [sfuC0]]; norm_num; omega
  · intro j hj
    have a := sfuPoint_bounds .exp (2*j); have b := sfuPoint_bounds .exp (2*j+1); have c := sfuPoint_bounds .exp (2*j+2)
    have h := sfuExact_exp_rises j hj
    have e : sfuC0 .exp j = sfuPoint .exp (2*j) := by simp [sfuC0]
    simp only [sfuC1, sfuC2, e]; omega
  · intro j hj f hf
    have a := sfuPoint_bounds f (2*j); have b := sfuPoint_bounds f (2*j+1); have c := sfuPoint_bounds f (2*j+2)
    have h := sfuExact_falls j hj f hf
    have e : sfuC0 f j = sfuPoint f (2*j) := by unfold sfuC0; rw [if_neg (by rcases hf with rfl|rfl <;> simp)]
    have := sR f hf
    simp only [sfuC1, sfuC2, e]; omega
  · intro j hj un ud hu hd
    have c0 := sfuC0_log_near j hj
    have b := sfuPoint_bounds .log (2*j+1); have c := sfuPoint_bounds .log (2*j+2)
    have h := logRight_slopes j hj
    simp only [abs_le] at h
    have e1 : logRight j (2*j+1) = sfuExact .log (2*j+1) := by unfold logRight; rw [if_neg (by omega)]
    have e2 : logRight j (2*j+2) = sfuExact .log (2*j+2) := by unfold logRight; rw [if_neg (by omega)]
    rw [e1, e2] at h
    have q1 : -(4*10^17) ≤ sfuC1 .log j ∧ sfuC1 .log j ≤ 4*10^17 := by simp only [sfuC1, sfuC2]; omega
    have q2 : -(4*10^17) ≤ sfuC1 .log j + 2 * sfuC2 .log j ∧ sfuC1 .log j + 2 * sfuC2 .log j ≤ 4*10^17 := by simp only [sfuC1, sfuC2]; omega
    have q0 : 58*10^18 ≤ sfuC0 .log j := by omega
    unfold polyNum
    generalize sfuC1 .log j = x1 at *
    generalize hx2 : sfuC2 .log j = x2 at *
    generalize sfuC0 .log j = x0 at *
    push_cast
    have hU : (0:Int) ≤ un := by omega
    have hUD : (un:Int) ≤ ud := by omega
    have hD : (0:Int) < ud := by omega
    -- derivative numerator
    have d : -(4*10^17) * (ud:Int) ≤ x1 * ud + 2*x2*un ∧ x1 * ud + 2*x2*un ≤ 4*10^17 * (ud:Int) := by
      have e : x1 * ud + 2*x2*un = x1 * ((ud:Int) - un) + (x1 + 2*x2) * un := by ring
      have w : (0:Int) ≤ ud - un := by linarith
      rw [e]
      constructor
      · linarith [mul_le_mul_of_nonneg_right q1.1 w, mul_le_mul_of_nonneg_right q2.1 hU]
      · linarith [mul_le_mul_of_nonneg_right q1.2 w, mul_le_mul_of_nonneg_right q2.2 hU]
    have tb : -64 * (ud:Int) ≤ (if j < 64 then (j:Int) else (j : Int) - 128) * ud + un ∧ (if j < 64 then (j:Int) else (j : Int) - 128) * ud + un ≤ 64 * (ud:Int) := by
      have k : -64 ≤ (if j < 64 then (j:Int) else (j : Int) - 128) ∧ (if j < 64 then (j:Int) else (j : Int) - 128) ≤ 63 := by split <;> omega
      constructor
      · linarith [mul_le_mul_of_nonneg_right k.1 hD.le]
      · linarith [mul_le_mul_of_nonneg_right k.2 hD.le]
    generalize (if j < 64 then (j:Int) else (j : Int) - 128) * ud + un = t at *
    generalize hy : x1 * ud + 2*x2*un = y at *
    have m : -(64 * (ud:Int)) * (4*10^17 * ud) ≤ t * y := by
      have := abs_le.2 (⟨by linarith [tb.1], tb.2⟩ : -(64 * (ud:Int)) ≤ t ∧ t ≤ 64*ud)
      have h2 := abs_le.2 (⟨by linarith [d.1], d.2⟩ : -(4*10^17 * (ud:Int)) ≤ y ∧ y ≤ 4*10^17*ud)
      have h3 : abs (t*y) ≤ 64*ud*(4*10^17*ud) := by rw [abs_mul]; exact mul_le_mul this h2 (abs_nonneg _) (by positivity)
      have := neg_abs_le (t*y); linarith
    have px : 57*10^18 * ((ud:Int)*ud) ≤ x0*(ud*ud) + x1*(un*ud) + x2*(un*un) := by
      have a1 : 58*10^18 * ((ud:Int)*ud) ≤ x0 * (ud*ud) := by apply mul_le_mul_of_nonneg_right q0; positivity
      have s1 : (un:Int)*ud ≤ ud*ud := mul_le_mul_of_nonneg_right hUD hD.le
      have s2 : un*un ≤ (ud:Int)*ud := mul_le_mul hUD hUD hU hD.le
      have s3 : 0 ≤ (un:Int)*ud := mul_nonneg hU hD.le
      have s4 : 0 ≤ (un:Int)*un := mul_nonneg hU hU
      have r2 : -(4*10^17) ≤ x2 := by omega
      have a2 := mul_le_mul_of_nonneg_right q1.1 s3
      have a3 := mul_le_mul_of_nonneg_right r2 s4
      linarith
    linarith [mul_pos hD hD]

end Sys2Proof.Machine
end

