-- ==== Sys2Proof/Laws/Words.lean ====
section
/-!
SUPPORT. R167, R171, R263, R265: the fields of an instruction word of a stage program and of a gleaner program, and the command the word spells.
-/

namespace Sys2Proof.Machine

/-- R167, R171, R263, R265: an instruction word spells the command of its opcode with its fields, on the core or thread that runs it: a word of
a stage program, and one of a gleaner program, built from their fields. -/
theorem program_words_spell_their_commands :
  ∀ (op : BitVec 8) (d a b c : BitVec 5) (m : BitVec 3) (masked z : Bool) (rm : BitVec 3) (f g : BitVec 4) (imm : BitVec 20)
      (imm32 : BitVec 32) (k t : Nat) (ecc : Ecc),
    let low : BitVec 28 := c ++ b ++ a ++ d ++ op
    let word : BitVec 64 := imm ++ g ++ f ++ rm ++ BitVec.ofBool z ++ BitVec.ofBool masked ++ m ++ low
    let v : VWord := { d := d, a := a, b := b, c := c, m := m, masked := masked, z := z, rm := rm, f := f, g := g, imm := imm }
    let gword : BitVec 64 := imm32 ++ (0 : BitVec 1) ++ f ++ g ++ b ++ a ++ d ++ op
    let gv : GWord := { d := d, a := a, b := b, mode := g, fmt := f, imm := imm32 }
    decodeVecWord k word ecc = vecCommandOf k op.toNat v ecc ∧
    decodeGlnWord k t gword ecc = glnCommandOf k t op.toNat gv ecc ∧
    vecCommandOf k 0x20 v ecc = some (.vadd k v) ∧ vecCommandOf k 0x58 v ecc = some (.vld k v ecc) ∧
    vecCommandOf k 0x64 v ecc = some (.sfu k v ⟨false, ecc⟩) ∧ vecCommandOf k 0x0F v ecc = none ∧
    glnCommandOf k t 0x20 gv ecc = some (.gpool k t gv) ∧ glnCommandOf k t 0x30 gv ecc = some (.addm k t gv ecc) ∧
    glnCommandOf k t 0x42 gv ecc = some (.wrow k t gv) ∧ glnCommandOf k t 0x0E gv ecc = none := by
  intro op d a b c m masked z rm f g imm imm32 k t ecc low word v gword gv
  refine ⟨?_, ?_, rfl, rfl, rfl, rfl, rfl, rfl, rfl, rfl⟩
  · have e : vecWordOf word = v := by
      simp only [vecWordOf, v, word, low, VWord.mk.injEq]
      refine ⟨?_,?_,?_,?_,?_,?_,?_,?_,?_,?_,?_⟩ <;> first
        | (apply BitVec.eq_of_getLsbD_eq; intro i hi; simp only [BitVec.getLsbD_extractLsb', BitVec.getLsbD_append]; interval_cases i <;> simp)
        | (simp only [BitVec.getLsbD_append]; simp)
    have e2 : word.extractLsb' 0 8 = op := by
      apply BitVec.eq_of_getLsbD_eq; intro i hi; simp only [word, low, BitVec.getLsbD_extractLsb', BitVec.getLsbD_append]; interval_cases i <;> simp
    unfold decodeVecWord; rw [e, e2]
  · have e : glnWordOf gword = gv := by
      simp only [glnWordOf, gv, gword, GWord.mk.injEq]
      refine ⟨?_,?_,?_,?_,?_,?_⟩ <;>
        (apply BitVec.eq_of_getLsbD_eq; intro i hi; simp only [BitVec.getLsbD_extractLsb', BitVec.getLsbD_append]; interval_cases i <;> simp)
    have e2 : gword.extractLsb' 0 8 = op := by
      apply BitVec.eq_of_getLsbD_eq; intro i hi; simp only [gword, BitVec.getLsbD_extractLsb', BitVec.getLsbD_append]; interval_cases i <;> simp
    unfold decodeGlnWord; rw [e, e2]

end Sys2Proof.Machine
end

