-- ==== Sys2Proof/Tests/Slice0.lean ====
section
/-!
SUPPORT. Tests: worked examples of the spec, ill-formed commands, and for every statement that has hypotheses a state and operands that meet
them, at the boundary of their ranges.
-/

set_option Elab.async false

namespace Sys2Proof.Machine

/-! ### A small machine -/

def exPlace : Placement := { tier := 0, channel := 0, stripe := 1, length := 16, offset := 1048576 }
def exSegment : Segment := { limit := 1048576, policy := 0, perm := 15, frames := 0, placement := exPlace, framePlacement := exPlace }
def exTiered : Segment := { exSegment with policy := 2, frames := 4, placement := { exPlace with tier := 1, offset := 0 } }
def exLayer : Layer :=
  { layer := 5, stage := 0, rotate := false, perChannel := false, twinResident := true, actFormat := 0, weightFormat := 0, wideFormat := 0
    round := 0, k := 128, n := 128, threshold := 0, signFirst := 0, wCodebook := 0, aCodebook := 0, ceiling := 0, aq8Scale := 0, aq8Zero := 0
    weights := exPlace, wideTwin := exPlace, mirror := exPlace, wideMirror := exPlace, seed := 0 }
/-- Table 4095 has rows of eight INT64: rows 0 to 7 in loft channel 63, 8 to 15 in logical granary channel 382, and stubble rows of the first. -/
def exTable : TableDesc :=
  { table := 4095, kind := 0, rowFormat := 6, elements := 8, hash := 0, combine := 0, rows := 16, seed := 0, tableId := 9, flags := 10
    codebook := 0, stubCodebook := 0, quotient := 0, remainder := 0, bayFirst := 0, bayCount := 3, pinnedStages := 0, hotFactor := 0
    replMax := 0, replThreshold := 0, loadRing := 0, loadRingLength := 0, loadContext := 0, defaultRow := [] }
def exBay : Bay := { table := 4095, tier := 1, role := 0, channel := 63, spare := 1, firstRow := 0, rows := 8, offset := 0, ref := 0 }
def exBays : List Bay :=
  [exBay, { exBay with tier := 0, channel := 382, firstRow := 8 }, { exBay with tier := 0, channel := 382, role := 2, offset := 1 }]
def exPlan : Plan :=
  { planId := 1, build := 1, mirrored := false
    pools := [{ stage := 0, fullPreempt := true, sfuFirst := 0, sfuCount := 0, compat := 0, cores := List.replicate 24 7, codeOffset := 0, codeLength := 1 }]
    stageCode := [], routes := []
    binMap := [{ stage := 0, scope := 0, kind := 1, cluster := 23, core := 0xFF, offset := 0, size := 512 },
      { stage := 0xFFFF, scope := 1, kind := 3, cluster := 23, core := 0xFF, offset := 0, size := 7 }]
    saveMap := [], contexts := [{ context := 0, used := 3, segments := [exSegment, exTiered] }], bindings := [], classes := [{ cls := 7, fallback := 0, sheafWait := 1, deadline := 1 }], tables := [exTable], bays := exBays
    layers := [exLayer], codebooks := [], signVectors := [], gleanerPrograms := [], gleanerPlacement := [], sfuPrograms := [], linkCredits := []
    reserves := [], windows := [] }
def exDesc : PartitionDesc :=
  { clusters := 2 ^ 23, granary := List.replicate 12 (0, 31), loft := 2 ^ 64 - 1, queues := (0, 1024), semaphores := (0, 256), contexts := (248, 8)
    windows := (0, 256), ports := 0xFFFF, functions := 2 ^ 31, d2dCredits := [], igrumCredits := [] }
/-- Partition 7 holds cluster 23 and a plan; core 191 is logical core 6 of its cluster. -/
def ex : State :=
  { State.reset with
    parts := [(7, { partReset with desc := some exDesc, plan := some exPlan })]
    xlt := { xltReset with ctxs := [(248, { ctxReset with state := 1, part := 7 })] }
    coreMap := [(23, { phys := [1, 2, 3, 4, 5, 6, 7], present := 127, spare := 0, spareFree := true })] }
def exItem : WorkItem :=
  { kind := .share [], part := 7, ctx := 248, relCtx := 0, stage := 0, tag := 1, rows := [], marks := 0, priority := 0, cls := 0, entered := 0
    order := 0, started := 0, pins := [], heldPin := none, added := false, wrote := false, preempted := false, units := 0, staged := 0
    failedCores := [], homeCluster := 23, forced := false }
def exWord : VWord := { d := 31, a := 31, b := 31, c := 31, m := 7, masked := false, z := false, rm := 0, f := 1, g := 1, imm := 0 }
/-- Core 191 runs an item, with registers and more set as given. -/
def run (f : CoreState → CoreState) : State := ex.updCore 191 (fun c => f { c with phase := .running, item := some exItem })
/-! ### The vector engine -/

theorem witness_step_queue : (State.reset.withCommand (.nop 0 exWord)).pending = .nop 0 exWord :: [] ∧ State.reset.pending = [] := by decide +kernel
/-- One powered state for each case of the TAP: PERST# of both ports asserted or not, DEBUG_LOCK blown. -/
theorem witness_tap :
    let on := State.reset.updMgmt (fun m => { m with phase := .firmware, debugLock := true })
    let up := on.updPort 1 (fun p => { p with perst := false })
    on.mgmt.phase ≠ .off ∧ on.bothPerst = true ∧ up.mgmt.phase ≠ .off ∧ up.bothPerst = false ∧ on.mgmt.debugLock = true ∧ (5 : Nat) < 6 := by decide +kernel
theorem witness_core_runs : 191 < 192 ∧ ((run id).core 191).running = true := by decide +kernel
theorem witness_fuses_legal : State.reset.fusesLegal = true ∧ (match step State.reset with
    | .next _ => true
    | _ => false) = true := by decide +kernel

def exRegion : BinRegion := { stage := 0, scope := 0, kind := 1, cluster := 23, core := 0xFF, offset := 0, size := 512 }
def exStaging : BinRegion := { stage := 0xFFFF, scope := 1, kind := 3, cluster := 23, core := 0xFF, offset := 0, size := 7 }
/-- Core 191 with s31's neighbour s15 holding an address. -/
def at_ (a : Nat) : State := run (fun c => { c with vec := { c.vec with x := [(15, BitVec.ofNat 64 a)] } })

/-- The last 8 bytes of the core bin, the last 512 too, and the cluster bin's staging region. -/
theorem witness_bin_stores :
    let top := at_ (2 ^ 21 - 8)
    let wide := at_ (2 ^ 21 - 512)
    let staged := at_ (2 ^ 24)
    top.binCheck 191 ((top.core 191).vec.address exWord) 8 true true = some (.core (2 ^ 21 - 8), exRegion) ∧
    top.heldInput 191 (.core (2 ^ 21 - 8)) 8 = false ∧ bytesFor (otherFmt { exWord with g := 2 }) 128 = 512 ∧
    wide.binCheck 191 ((wide.core 191).vec.address exWord) 512 true true = some (.core (2 ^ 21 - 512), exRegion) ∧
    wide.heldInput 191 (.core (2 ^ 21 - 512)) 512 = false ∧
    staged.binCheck 191 ((staged.core 191).vec.address exWord) 8 true true = some (.cluster 0, exStaging) := by decide +kernel
theorem witness_loads :
    let top := at_ (2 ^ 21 - 8)
    let wide := at_ (2 ^ 21 - 512)
    top.binCheck 191 ((top.core 191).vec.address exWord) 8 false true = some (.core (2 ^ 21 - 8), exRegion) ∧
    wide.binCheck 191 ((wide.core 191).vec.address exWord) 512 false true = some (.core (2 ^ 21 - 512), exRegion) ∧
    ∀ i < 128, ((run id).core 191).vec.enabled exWord i = true ∧
      ((run id).binCheck 191 ((((run id).core 191).vec.scalar exWord.a).toNat + 4 * (((run id).core 191).vec.lane exWord.b i).toNat) 4 false true).isSome = true := by
  decide +kernel

/-- A loop of one run, of none, a body on its last run and one before it; units done; a verdict of either kind. -/
theorem witness_control :
    let looped (n : Nat) := run (fun c => { c with vec := { c.vec with loops := [{ body := 1, remaining := n }] } })
    let ruled (v : Nat) := (run id).updCluster 23 (fun c => { c with records := [(0, some
      { part := 7, ctx := 248, stage := 0, rows := [], counts := [], verdicts := [(0, v)], wideRows := [], nonFinite := [], held := [] })] })
    0 < loopCount ((run id).core 191).vec { exWord with imm := 1 } ∧ loopCount ((run id).core 191).vec exWord = 0 ∧
    ((looped 1).core 191).vec.loops = [{ body := 1, remaining := 1 }] ∧ ((looped 2).core 191).vec.loops = [{ body := 1, remaining := 2 }] ∧
    (run id).unitsDone 191 = true ∧
    ((ruled 1).cluster (((ruled 1).core 191).home 191)).verdict 0 0 = 1 ∧ ((ruled 2).cluster (((ruled 2).core 191).home 191)).verdict 0 0 = 2 := by
  decide +kernel
theorem witness_predicated_off : ((run id).core 191).running = true ∧ { exWord with masked := true }.masked = true ∧
    (((run id).core 191).vec.mask exWord.m.toNat).getLsbD 0 = false := by decide +kernel

/-! ### Unit instructions -/

/-- A tile descriptor of layer 5: pairing 0, START and END, one row, no verdict, its operands apart in the core bin. -/
def exTile : List Byte :=
  natLE 2 5 ++ natLE 1 ((exLayer.pairing false).getD 0) ++ natLE 1 3 ++ natLE 1 1 ++ natLE 1 0 ++ natLE 2 0xFFFF ++ natLE 4 4096 ++ natLE 4 8192 ++
    natLE 4 65536 ++ natLE 4 69632 ++ natLE 4 73728 ++ natLE 2 128 ++ natLE 2 128
/-- Core 191 with bytes at the start of its bin. -/
def with_ (bs : List Byte) (f : CoreState → CoreState) : State := run (fun c => f { c with bin := c.bin.put 0 bs })
theorem witness_gtile :
    let s := with_ exTile id
    let t := parseTile (s.binRead 191 (.core 0) 32)
    s.opens 191 exWord = true ∧ (s.core 191).grid.queue.length < 8 ∧ (s.core 191).grid.aborting = false ∧
    s.binCheck 191 ((s.core 191).vec.address exWord) 32 false true = some (.core 0, exRegion) ∧ t.rows ≠ 0 ∧
    (none : Option (List Byte)).isSome = t.streamed ∧ s.tileOk 191 t (fieldLE (s.binRead 191 (.core 0) 32) 3 1) none = true := by decide +kernel
theorem witness_gwait : ((run id).core 191).grid.aborting = false ∧ (((run id).core 191).grid.bank (exWord.imm.toNat % 2)).mismatch = false ∧
    (((run id).core 191).grid.bank (exWord.imm.toNat % 2)).waiting = 0 ∧ (run id).opens 191 exWord = true := by decide +kernel
def exWnw : List Byte := natLE 2 5 ++ natLE 2 0 ++ natLE 4 0 ++ natLE 4 4096 ++ natLE 4 8192 ++ natLE 4 12288 ++ natLE 8 0 ++ natLE 4 0
theorem witness_wnw :
    let s := with_ exWnw id
    (s.core 191).winnow.queue.length < 16 ∧ s.binCheck 191 ((s.core 191).vec.address exWord) 32 false true = some (.core 0, exRegion) ∧
    s.layerAt 23 (parseWinnow (s.binRead 191 (.core 0) 32)).layer = some exLayer ∧ (s.core 191).winnow.queue = [] := by decide +kernel
theorem witness_sfu : exWord.imm.toNat % 128 < 64 ∧ ((run id).sfuFunction 191 (exWord.imm.toNat % 128) (sfuFormat exWord.g)).isSome = true := by decide +kernel
theorem witness_rowput : (run id).binCheck 191 (((run id).core 191).vec.address exWord) 16 false true = some (.core 0, exRegion) ∧
    heldRows ((run id).core 191).held < 256 ∧ heldRows (List.replicate 255 (.row (parseRow (zeroBytes 16)))) < 256 := by decide +kernel
/-- A stream of four 8-byte elements. -/
def exStream (addr space : Nat) : List Byte :=
  natLE 8 addr ++ natLE 1 space ++ natLE 1 3 ++ natLE 6 0 ++ natLE 4 1 ++ natLE 16 0 ++ natLE 2 4 ++ natLE 2 1 ++ natLE 2 1 ++ natLE 2 1 ++ natLE 2 1 ++ natLE 2 0
/-- A COPY from bin to bin on queue 15. -/
def exCopy : List Byte := natLE 1 0 ++ natLE 1 15 ++ natLE 1 0 ++ natLE 1 0xFF ++ natLE 28 0 ++ exStream 4096 0 ++ exStream 8192 0
theorem witness_dmaq :
    let s := with_ exCopy id
    let bs := s.binRead 191 (.core 0) 128
    let d := parseXfer .copy bs
    let u := (s.fetchKeys 191 exItem d).1
    let x := { u.formXfer 191 exItem d with status := (s.fetchKeys 191 exItem d).2 }
    (s.core 191).item = some exItem ∧ s.binCheck 191 ((s.core 191).vec.address exWord) 128 false true = some (.core 0, exRegion) ∧
    xferOpOf (fieldLE bs 0 1) = some .copy ∧ xferIsEmpty d bs = false ∧ descFault (s.planOf 7) d bs = false ∧ x.requests.length ≤ 4096 ∧
    u.xferExtents 191 248 7 d x.records.length = .ok := by decide +kernel
theorem witness_dmark : let w : VWord := { exWord with imm := 31 }
    w.imm.toNat / 32 % 8 = 0 ∧ w.imm.getLsbD 4 = true ∧ (run id).opens 191 w = true := by decide +kernel

/-! ### The sheaf former and work items -/

def exRowArg : RowArg := { cls := 7, length := 64, inAddr := 2 ^ 24 + 64, tag := 1, marks := 0 }
def exRow (cls : Nat) : RowDesc := { stage := 0, cls := cls, length := 64, inAddr := 2 ^ 24 + 64, tag := 1, marks := 0, arrival := 0 }
def exOpen (n : Nat) : OpenSheaf := { part := 7, ctx := 255, stage := 0, rows := List.replicate n (exRow 7), opened := 0 }
def sheafOf (n : Nat) : State := ex.updCluster 23 (fun c => { c with openSheaves := [exOpen n] })
theorem witness_former :
    let o15 := ex.updCluster 23 (fun c => { c with openSheaves := (List.range 15).map (fun i => { exOpen 1 with stage := i + 1 }) })
    let plan := { exPlan with binMap := exPlan.binMap ++ [{ exRegion with scope := 1, kind := 3, offset := 7 }] }
    let planned (s : State) := s.updPart 7 (fun x => { x with plan := some plan })
    let lost := ex.updCluster 0 (fun c => { c with retired := true })
    (ex.cluster 23).retired = false ∧ (lost.cluster 0).retired = true ∧ lost.formerOf 0 7 0 = 1 ∧ (lost.cluster 1).retired = false ∧
    exRowArg.length ≠ 0 ∧ (planned (sheafOf 126)).clusterPlan 23 = some plan ∧ (planned o15).clusterPlan 23 = some plan ∧
    (plan.binMap.find? (fun q => q.kind == 3 && q.scope == 1 && q.cluster == 23 && q.stage == 0)).isSome = true ∧
    ((planned (sheafOf 126)).cluster 23).openFor 255 0 = some (exOpen 126) ∧ (exOpen 126).rows.length < 127 ∧
    ((planned o15).cluster 23).openFor 255 0 = none ∧ (o15.cluster 23).openSheaves.length < 16 ∧
    (exOpen 126).rows.any ((sheafOf 126).timedRow (exOpen 126).part) = true := by decide +kernel
/-- An idle core of cluster 23 whose neighbour 22 of the same die lists an item, and one whose stolen item has arrived. -/
def thief : State :=
  (ex.updPart 7 (fun p => { p with desc := some { exDesc with clusters := 2 ^ 23 + 2 ^ 22 } })).updCluster 22 (fun c => { c with ready := [(0, [exItem])] })
theorem witness_items :
    let s := run (fun c => { c with phase := .atEnd })
    let ended := s.updCore 191 (fun c => { c with phase := .atEnd })
    (ended.core 191).item = some exItem ∧ (ended.core 191).phase = .atEnd ∧ ended.unitsDone 191 = true ∧ exItem.failedCores = [] ∧
    (ex.core 191).item = none ∧ ((run id).core 191).item = some exItem ∧
    thief.mayTake 191 = true ∧ dieOfCluster 22 = dieOfCluster 23 ∧ thief.stealable 191 22 = some exItem ∧
    ((ex.updCore 191 (fun c => { c with incoming := some (exItem, []) })).core 191).incoming = some (exItem, []) := by decide +kernel

/-! ### Winnow unit, grid and DMA engine -/

def exWinnow : WinnowDesc := { layer := 5, sheaf := 0, pos := 127, wide := false, inFmt := 0, inAddr := 0, outAddr := 4096, scaleAddr := 8192 }
theorem witness_winnow :
    let s := run (fun c => { c with winnow := { c.winnow with queue := [exWinnow] } })
    (s.core 191).phase = .running ∧ (s.core 191).winnow.queue = [exWinnow] ∧ s.clusterPlan 23 = some exPlan ∧ s.layerAt 23 5 = some exLayer ∧
    s.binCheck 191 0 (128 * exWinnow.input.bits / 8) false false = some (.core 0, exRegion) ∧
    (∀ n ∈ [32, 64, 128], s.binCheck 191 4096 n true false = some (.core 4096, exRegion) ∧ s.heldInput 191 (.core 4096) n = false) ∧
    s.binCheck 191 8192 2 true false = some (.core 8192, exRegion) ∧ s.heldInput 191 (.core 8192) 2 = false ∧ (s.cluster 23).verdict 0 5 = 0 := by decide +kernel
def exTileDesc : TileDesc := { parseTile exTile with start := true }
/-- A tile in the array of two rows, its columns summing to what the check says, and with one column changed. -/
def exFlight (isEnd : Bool) : TileInFlight :=
  { desc := { exTileDesc with isEnd := isEnd, rows := 1 }, acts := [List.replicate 128 1], weights := List.replicate 128 (List.replicate 128 1)
    blockScale := 0, nextRow := 0, voided := false }
theorem witness_grid_issue :
    let s := run (fun c => { c with grid := { c.grid with queue := [exTileDesc] } })
    (s.core 191).grid.queue = [exTileDesc] ∧ s.clusterPlan 23 = some exPlan ∧ (s.core 191).phase = .running ∧
    (s.core 191).grid.discard.contains (exTileDesc.sheaf, exTileDesc.layer) = false ∧ s.narrowDropped 191 exTileDesc = false ∧ s.tileReady 191 exTileDesc = true ∧
    s.layerAt 23 exTileDesc.layer = some exLayer ∧ (binPlace exTileDesc.weight).isSome = true := by decide +kernel
theorem witness_grid_row :
    let f := exFlight false
    let s := run (fun c => { c with grid := { c.grid with flight := [f] } })
    let sums (u : Option GridUpset) := rowSums (s.core 191).grid (floatClass f.desc.pairing) (f.acts.getD 0 []) f.weights u
    let check (u : Option GridUpset) := compareRow (floatClass f.desc.pairing) (rowSum (floatClass f.desc.pairing) (sums u).1) (sums u).2.1 (sums u).2.2
    (s.core 191).grid.flight = [f] ∧ f.voided = false ∧ f.desc.isEnd = false ∧ check none = .clean ∧
    check (some { sums := [(128, 1)], acts := [], cells := [] }) = .mismatch := by decide +kernel

/-- An END row that no held input stalls, a chain that is void, and a core with an item whose grid holds no row. -/
theorem witness_grid_commands :
    let f := { exFlight true with desc := { (exFlight true).desc with out := 4096 } }
    let s := run (fun c => { c with grid := { c.grid with flight := [f] } })
    let sums := rowSums (s.core 191).grid (floatClass f.desc.pairing) (f.acts.getD 0 []) f.weights none
    (s.core 191).grid.flight = [f] ∧ compareRow (floatClass f.desc.pairing) (rowSum (floatClass f.desc.pairing) sums.1) sums.2.1 sums.2.2 ≠ .mismatch ∧
    f.desc.isEnd = true ∧ f.voided = false ∧ binPlace (f.desc.out + f.nextRow * f.desc.outStride * 4) = some (.core 4096) ∧
    s.heldInput 191 (.core 4096) (4 * f.desc.cols) = false ∧ { f with voided := true }.voided = true ∧ (s.core 191).grid.flight ≠ [] ∧
    (s.core 191).item.isSome = true ∧ ((run id).core 191).grid.flight = [] ∧ ((run id).core 191).item.isSome = true := by decide +kernel

def exStreamDesc (addr : Nat) : StreamDesc := parseStream (exStream addr 0)
def exXfer (op : XferOp) : Xfer :=
  { desc := { op := op, queue := 15, srcRow := false, dstRow := false, cls := 7, table := 0, kind := 0, slot := 0, tag := 4095, returnAddr := 4096
              target := 0, stride := 1, outFmt := 0, markOut := 0, src := exStreamDesc 4096, dst := exStreamDesc 8192 }
    serial := 0, core := 191, ctx := 248, part := 7, itemTag := none, group := 0, held := false, generation := 0, epoch := none, requests := []
    records := [], defaults := [], parts := [], bales := [], rows := [], status := 0, marks := 0 }
def queued (x : Xfer) : State := (run id).updDma 23 (fun e => { e with queues := [(15, [.xfer x])] })
theorem witness_dma_copy :
    let x := exXfer .copy
    let s := queued x
    (s.dma 23).admissible 15 = some x ∧ s.destHeld 191 (x.desc.dst.elements (2 ^ x.desc.src.esize)) (2 ^ x.desc.src.esize) = false ∧
    (s.admitXfer 23 x).sourceEcc x ((x.desc.src.elements (2 ^ x.desc.src.esize)).headD 0) .clean = (s.admitXfer 23 x, true) := by decide +kernel
theorem witness_dma_tier :
    let seg := { exStreamDesc (2 ^ 48) with space := 1, counts := [1, 1, 1, 1, 1] }
    let up := { exXfer .promote with desc := { (exXfer .promote).desc with src := seg } }
    let down := { up with desc := { up.desc with op := .demote } }
    let back := (queued down).setTier 248 1 { tieredReset with resident := [(0, 4)], order := [0] }
    ((queued up).dma 23).admissible 15 = some up ∧ (queued up).tierRoom 248 1 up.baleRange = true ∧ up.baleRange = [0] ∧ (match (queued up).planSegment 248 1 with
      | some g => ((queued up).loftSlot g 0).isSome
      | none => false) = true ∧ (back.tier 248 1).leaving = [] ∧
    (back.dma 23).admissible 15 = some down ∧ back.tierRoom 248 1 [0] = true ∧ Tbl.get 0 (back.tier 248 1).resident 0 = 4 ∧
    (match back.planSegment 248 1 with
      | some g => (back.loftSlot g 0).isSome
      | none => false) = true := by decide +kernel
theorem witness_dma_answers :
    let x := { exXfer .request with parts := [(4095, 447)] }
    let s := (run id).updDma 23 (fun e => { e with outstanding := [x] })
    let r := { exXfer .request with desc := { (exXfer .request).desc with src := { exStreamDesc 0 with counts := [0] } } }
    ((queued r).dma 23).admissible 15 = some r ∧ r.desc.src.isEmpty = true ∧ (((queued r).admitXfer 23 r).requestOf 23 r).isSome = true ∧
    (((queued { exXfer .lookup with requests := [(447, x.request 23 0 7 0 0 [] 0)] }).dma 23).admissible 15).isSome = true ∧
    s.xferOf 23 (4095 / 4096) = some x ∧ x.core ≠ 255 ∧ s.binCheck 191 4096 8 true false = some (.core 4096, exRegion) ∧ x.parts = [(4095 % 4096, 447)] ∧
    x.desc.op = .request ∧ (s.dma 23).stalled = [] ∧ s.heldInput 191 (.core 4096) 8 = false ∧ (queued r).defaultHeld 23 r = false ∧
    (exXfer .lookup).status = 0 := by decide +kernel

/-! ### Gleaners -/

def exReq : GReq :=
  { kind := 0, ctx := 248, cls := 7, pinned := false, system := true, forwarded := false, marker := false, table := 4095, slot := 0, part := 255
    tag := 1, epoch := 0, target := 7, requester := 23, stride := 9, returnAddr := 0, payload := [] }
def isServe (x : Admission) : Bool := match x with
  | .serve => true
  | _ => false
def isDone (x : RowOpEnd) : Bool := match x with
  | .done _ _ _ => true
  | _ => false
def isApplied (x : Replaced) : Bool := match x with
  | .applied _ => true
  | _ => false
def isRow (x : FoundRow) : Bool := match x with
  | .row f => f.source == .home
  | _ => false
theorem witness_serve :
    let off := exReq.target * 72
    (∀ k < 8, isServe (ex.admission 447 { exReq with kind := k }) = true ∧ (ex.gleaner 447).queueBlocks 447 { exReq with kind := k } = false) ∧
    exReq.forwarded = false ∧ (ex.gleaner 447).forwardQueue = [] ∧ (ex.gleaner 447).holding = false ∧ ex.reqPart exReq = 7 ∧
    (channelBytes (isLoft 447) - 16384) % 64 = 0 ∧ channelBytes (isLoft 447) - 16384 + 16384 ≤ channelBytes (isLoft 447) ∧
    (ex.planOf 7).bind (fun pl => pl.tableOf 4095) = some exTable ∧ exTable.kind < 3 ∧
    isRow (ex.findRow 447 7 4095 7 7 none) = true ∧
    ex.rowPlace 447 7 4095 7 = some (exTable, 0, off) ∧ slotCheck (zeroBytes 72) = 0 ∧ ex.rowWaits 447 7 4095 7 = false ∧
    isApplied (ex.replaceRow 447 7 4095 7 0 0 (zeroBytes 64)) = true ∧
    isDone (ex.modifyRow 447 7 4095 7 .clean true (some { exReq with kind := 4 }) (addToElements 11 7 [1])) = true ∧
    isDone (ex.modifyRow 447 7 4095 7 .clean false (some { exReq with kind := 5 }) (casElements 56 0 1)) = true := by decide +kernel

def exFetch (stubble : Nat) : RowFetch :=
  { table := tableKey 7 4095, row := 7, bay := 0, source := .home, addr := 504, cls := 7, slot := zeroBytes 72, bad := false, arrived := false
    deadline := false, expired := false, stubble := stubble, stubbleSlot := [], mirror := 0, got := none }
def exThread : Thread := { threadOf exReq 0 with issued := 2 ^ 20 - 1, args := zeroBytes 512 }
def threaded (th : Thread) : State := ex.updGleaner 447 (fun x => { x with threads := [(7, some th)] })
theorem witness_gleaner_completes :
    let op (r : GReq) (f : Option RowFetch) (m : Nat) : ChannelOp := { plainOp r 0 0 with fetch := f, mirror := m }
    let s (o : ChannelOp) := ex.updGleaner 447 (fun x => { x with ops := [o] })
    ((s (op exReq none 0)).gleaner 447).ops[0]? = some (op exReq none 0) ∧ (s (op exReq none 0)).retrains 447 = false ∧
    (op { exReq with kind := 3 } none 0).req.kind ≠ 0 ∧ (exFetch 1).stubble = 1 ∧ (exFetch 1).got = none ∧ (op exReq none 1).mirror = 1 ∧
    ((ex.updGleaner 447 (fun x => { x with tagChanges := [{ bales := [262143], ctx := 255, old := [exReq] }] })).gleaner 447).tagChanges =
      [{ bales := [262143], ctx := 255, old := [exReq] }] ∧ [exReq].any (fun r => (ex.gleaner 447).waitingReqs.contains r) = false ∧ [262143].any (fun b => (ex.gleaner 447).busyBales.contains b) = false ∧
    (((ex.updGleaner 447 (fun x => { x with queue := [{ exReq with kind := 6 }] })).gleaner 447).queue.take 64).find? (fun r => r.kind == 6) =
      some { exReq with kind := 6 } ∧ (List.range 8).find? (fun t => (Tbl.get none (ex.gleaner 447).threads t).isNone) = some 0 ∧
    Tbl.get none ((threaded exThread).gleaner 447).threads 7 = some exThread ∧ exThread.phase = .running ∧ exThread.issued < 2 ^ 20 ∧
    issueLimit ≤ { exThread with issued := 2 ^ 20 }.issued := by decide +kernel

def exG : GWord := { d := 31, a := 31, b := 30, mode := 0, fmt := 11, imm := 1 }
theorem witness_gleaner_program :
    let th := { exThread with s := [(30, 0), (31, 7)] }
    let s := threaded th
    th.arg (th.scalar 31 + exG.imm.signExtend 64).toNat 8 = some (zeroBytes 8) ∧
    ({ exThread with loops := [{ body := 1, remaining := 2 }] }).loops = [{ body := 1, remaining := 2 }] ∧
    th.busy 31 = false ∧ th.arg 0 512 = some (zeroBytes 512) ∧ (th.pendingRows.filter (fun q => q.vd == 7)).length < 32 ∧
    ({ th with args := natLE 8 7 ++ natLE 8 7 }.poolEntry { exG with a := 30, fmt := 1, mode := 0 }) = some (7, 0) ∧ wideInt 1 = false ∧
    isRow (s.findRow 447 7 4095 7 7 none) = true ∧ s.poolHeld 447 exReq 7 = false ∧
    s.rowWritable 447 exReq 7 = some (true, 504) ∧ s.rowHeld 447 exReq 4095 7 = false ∧ s.ordererOf 447 (tableKey 7 4095) 7 = 447 ∧
    (s.gleaner 447).waiting = [] ∧ s.stopsWrites 447 { exReq with kind := 4 } = false ∧
    isDone (s.modifyRow 447 7 4095 7 .clean true (some exReq) (addToElements 11 0 [1])) = true ∧
    (th.append (recordBytes 11 (th.scalar 31)).1).isSome = true ∧ { th with record := zeroBytes 64 }.record.length = exTable.elementBytes ∧
    isApplied (s.replaceRow 447 7 4095 7 0 0 (zeroBytes 64)) = true := by decide +kernel

/-! ### The front end, tables and translation -/

def goes (x : WaitEnd) : Bool := match x with
  | .go _ => true
  | _ => false
def exCmd (op : Nat) (bs : List Byte) (refs : List Ref) : Cmd :=
  { seq := 2 ^ 22 - 1, op := op, flags := 0, waitObj := 0, signalSem := 0, waitKind := 0, userTag := 0, waitValue := 0, signalValue := 0, operands := bs
    inline := [], refs := refs, phase := .dispatched, code := 0, marks := 0, live := 0, stopped := false, progress := 0, granted := false }
/-- Queue 1023 of the partition, attached through attachment 31. -/
def exQueue (cmds : List Cmd) : QueueState := { queueReset with state := 1, attachment := 31, part := 7, context := 248, cmds := cmds, tail := 1 }
/-- The device READY, function 31 holding attachment 31 with handle 2047, and context 248 open at every copy. -/
def on (x : QueueState) : State :=
  { ex with
    mgmt := { mgmtReset with ready := true }
    gfe := { gfeReset with queues := [(1023, x)] }
    xlt := { xltReset with
      ctxs := [(248, { ctxReset with state := 1, part := 7, segs := [{ limit := 1048576, perm := 47 }] })]
      copies := (List.range 30).map (fun n => (n * 256 + 248, { copyReset with segs := [{ limit := 1048576, perm := 47 }] })) }
    host := { hostReset with atts := [(31, { attReset with
      state := 1, fn := 31
      handles := [(2047, some { valid := true, anyContext := true, suspended := false, context := 0, hostAddress := 0, length := 2 ^ 20 })] })] } }
/-- The last bytes that handle 2047 of attachment 31 names. -/
def exOut (n : Nat) : Nat := 31 * 2 ^ 59 + 2047 * 2 ^ 48 + 2 ^ 20 - n
def seqMax : Nat := 2 ^ 22 - 1
/-- A command of queue 1023 that has been dispatched. -/
def disp (op : Nat) (bs : List Byte) : State := on (exQueue [exCmd op bs [{ form := 2, addr := 0, len := 1024 }]])
def exTags : Tbl BaleTag := [(144, { tagReset with owner := 248, valid := true, read := true, write := true })]

theorem witness_tables :
    let p := (on (exQueue [])).planOf 7
    let adv := (on (exQueue [])).updPart 7 (fun x => { x with
      advances := [{ part := 7, table := 4095, epoch := 1, waiting := [447], queue := 1023, seq := seqMax }]
      heldPins := [{ handle := 1, table := 4095, epoch := 0, ctx := 248, queue := 1023 }] })
    let w := disp 0x10 (natLE 2 4095 ++ natLE 1 0 ++ natLE 5 7 ++ natLE 4 1)
    let tagged := w.updGleaner 0 (fun x => { x with tags := exTags })
    w.dispatched 1023 seqMax 0x10 = some (exCmd 0x10 (natLE 2 4095 ++ natLE 1 0 ++ natLE 5 7 ++ natLE 4 1) [{ form := 2, addr := 0, len := 1024 }]) ∧
    p.bind (fun pl => pl.tableOf 4095) = some exTable ∧ 1 * exTable.slot ≤ 1024 ∧
    w.routeRow 24 7 4095 7 false false = some 447 ∧ (w.ctxAt 248 0).isSome = true ∧
    ((disp 0x11 (natLE 2 4095)).dispatched 1023 seqMax 0x11).isSome = true ∧ ((on (exQueue [])).pinnedEpochs 7 4095).length < 16 ∧
    (on (exQueue [])).tableGleaners 7 4095 ≠ [] ∧
    (adv.part 7).advances.find? (fun a => a.table == 4095 && a.waiting.contains 447) =
      some { part := 7, table := 4095, epoch := 1, waiting := [447], queue := 1023, seq := seqMax } ∧ [447].erase 447 = [] ∧
    exTable.pinnable = true ∧ (List.range 1024).find? (fun i => !((on (exQueue [])).part 7).heldPins.any (fun h => h.handle == i + 1)) = some 0 ∧
    (adv.part 7).heldPins.any (fun h => h.handle == 1 && h.ctx == 248) = true ∧
    (tagged.ctxFetch 248 (tagOf 1023 seqMax) 0 72).2 = (0, zeroBytes 72) := by decide +kernel

def exMove (st : MoveState) (count : Nat) : Displaced :=
  { table := tableKey 7 4095, row := 7, state := st, peer := 382, count := count, marked := 2 ^ 23 + 2 ^ 24 + 2 ^ 25 + 2 ^ 26, offset := 504, bay := 1, tag := 0 }
theorem witness_migrations :
    let tk := tableKey 7 4095
    let m := (disp 0x14 (natLE 2 4095 ++ natLE 5 7 ++ natLE 4 1)).updGleaner 382 (fun x => { x with freeSlots := [(bayKey 7 1, [8])] })
    let moving (d : Displaced) := (on (exQueue [])).updGleaner 447 (fun x => { x with map := [d] })
    (match m.moveCheck 7 4095 7 1 with
      | .inr e => decide (e.1 = 447) && !m.rolls e.1 && !m.rolls e.2.2.1
      | .inl _ => false) = true ∧ (m.dispatched 1023 seqMax 0x14).isSome = true ∧
    (∀ st ∈ [MoveState.taking, .copying, .forward, .ordering], ((moving (exMove st 2)).gleaner 447).mapOf tk 7 = some (exMove st 2)) ∧
    1 < (exMove .forward 2).count ∧ (exMove .taking 2).bay ≠ 0 ∧ ((on (exQueue [])).rowHome 7 4095 7).isSome = true ∧
    ((on (exQueue [])).copiesOfPart 7).all (fun c => ((exMove .ordering 2).marked ||| 2 ^ 27).testBit c) = true ∧
    (on (exQueue [])).rowHome 7 4095 16 = none := by decide +kernel

theorem witness_upkeep :
    let tk := tableKey 7 4095
    let r := disp 0x15 (natLE 2 4095 ++ natLE 5 7 ++ natLE 1 0 ++ natLE 1 0)
    let s := (on (exQueue [])).updGleaner 447 (fun x => { x with
      cache := [{ table := tk, row := 7, kind := 1, slot := [], recency := 0, markers := 0, withdrawing := true, hits := 0 }]
      scrubCursor := channelBytes true / 64 - 1, tags := [(229375, { tagReset with poison := true })] })
    let e := (on (exQueue [])).setStack 11 { stackReset with evacuating := some 30, oldPhys := 30, cursor := 0 }
    let d := (on (exQueue [])).setStack 11 { stackReset with evacuating := some 30, oldPhys := 30, cursor := channelBytes false / 65536 }
    (r.dispatched 1023 seqMax 0x15).isSome = true ∧ r.holderOf 7 4095 7 = some 447 ∧ r.rowPlace 447 7 4095 7 = some (exTable, 0, 504) ∧
    (r.gleaner 447).replicas = [] ∧ (r.gleaner 447).mapOf tk 7 = none ∧ (d.stack 11).evacuating = some 30 ∧
    (e.gleaner (11 * 32 + 30)).map.any (fun d => d.offset / 65536 == 0) = false ∧ (e.gleaner (11 * 32 + 30)).stubs.length < 16 ∧ r.bayHere 447 7 4095 7 1 = none ∧ (r.bayHere 382 7 4095 7 2).isSome = true ∧
    ((s.gleaner 447).cached tk 7 1).isSome = true ∧ (s.gleaner 447).unitBad (s.gleaner 447).scrubCursor = 0 ∧
    ((s.gleaner 447).tag 229375).poison = true ∧ (e.stack 11).evacuating = some 30 ∧ e.loft.retraining.testBit 15 = false ∧
    ({ e.loft with retraining := 2 ^ 15 }).retraining.testBit 15 = true := by decide +kernel

/-- A bale that is promoted into frame 3, before and after its flip. -/
theorem witness_bales :
    let m (flipped : Bool) : BaleMove := { bale := 15, promote := true, frame := 3, flipped := flipped, cluster := 23, serial := 0, drains := [(23, 7)] }
    let s (b : Bool) := (on (exQueue [])).setTier 248 1 { tieredReset with moves := [m b] }
    (s false).planSegment 248 1 = some exTiered ∧ ((s false).loftSlot exTiered 15).isSome = true ∧ ((s false).frameSlot exTiered 3).isSome = true ∧
    ((s false).tier 248 1).moves.find? (fun m => m.bale == 15 && !m.flipped) = some (m false) ∧
    (∀ e, (s false).loftSlot exTiered 15 = some e → ((s false).gleaner e.1).stubs.length < 16) ∧ ((s true).xferOf 23 7).isSome = false ∧
    ((s true).tier 248 1).moves.find? (fun m => m.bale == 15 && m.flipped) = some (m true) := by decide +kernel

/-- A ring of 64 slots in logical granary channel 0, its first slot sealed or not. -/
def ringed (sealed : Bool) (x : QueueState) : State :=
  let s := on { x with ring := [2 ^ 24] }
  if sealed then s.updGleaner 0 (fun g => { g with data := g.data.put (2 ^ 24 + 63) (natLE 1 (sealOf 64 0)) }) else s
theorem witness_front_end :
    let parsed := { exCmd 0 [] [] with phase := CmdPhase.parsed }
    let s := on (exQueue [parsed])
    let w := ringed true { exQueue [] with waitSeal := some (exQueue []).head }
    s.partOfQueue 1023 = some 7 ∧ s.ownsPart 31 7 = true ∧ (List.range 32).any (fun a => (s.att a).state == 2 && (s.att a).fn == 31) = false ∧
    (s.queue 1023).state = 1 ∧ ((ringed true (exQueue [])).headCommand 1023).2.isSome = true ∧ (ringed true (exQueue [])).fetchStops 1023 = false ∧
    (ringed true (exQueue [])).fetchTurn (exQueue []).inst = some 1023 ∧
    (ringed false (exQueue [])).headCommand 1023 = (some (exQueue []).head, none) ∧ (ringed false (exQueue [])).fetchStops 1023 = false ∧
    (w.headCommand 1023).2.isSome = true ∧ (w.queue 1023).waitSeal = some (exQueue []).head ∧ w.fetchStops 1023 = false ∧ (s.queue 1023).nextParsed = some parsed ∧
    goes (s.workWait 1023 parsed) = true ∧ ((disp 0 []).dispatched 1023 seqMax 0).isSome = true ∧
    ((disp 0x20 (natLE 2 65535)).dispatched 1023 seqMax 0x20).isSome = true ∧ 65535 < (disp 0x20 []).semCount 7 := by decide +kernel
/-- RUN of 128 shares by a queue bound to stage 0. -/
theorem witness_run :
    let s := (disp 1 (natLE 2 0 ++ natLE 3 127)).updPart 7 (fun x => { x with plan := some { exPlan with
      bindings := [{ queue := 1023, stage := 0, context := 0, priority := 0, cls := 7, check := false }] } })
    (s.dispatched 1023 seqMax 1).isSome = true ∧ (s.part 7).desc = some exDesc ∧
    ((s.planOf 7).bind (fun pl => pl.bindingOf (1023 - exDesc.queues.1))).isSome = true ∧
    (List.range 24).filter (fun n => !(s.cluster n).retired && (match exPlan.pool 0 with
      | some pool => 0 < pool.coresIn n
      | none => false)) ≠ [] := by decide +kernel

/-- A RUN that is held back by an item of higher priority, and one that is not; a slot still unsealed at a recheck. -/
theorem witness_run_held :
    let pl := { exPlan with bindings := [{ queue := 1023, stage := 0, context := 0, priority := 0, cls := 7, check := false }] }
    let parsed := { exCmd 1 (natLE 2 0 ++ natLE 3 127) [] with phase := CmdPhase.parsed }
    let s := (on (exQueue [parsed])).updPart 7 (fun x => { x with plan := some pl })
    let h := s.updCluster 23 (fun c => c.listItem { exItem with priority := 7 })
    let w := ringed false { exQueue [] with waitSeal := some (exQueue []).head }
    (h.queue 1023).nextParsed = some parsed ∧ goes (h.workWait 1023 parsed) = true ∧ s.runHeld 1023 parsed = false ∧ h.runHeld 1023 parsed = true ∧
    w.headCommand 1023 = (some (exQueue []).head, none) ∧ w.fetchStops 1023 = false := by decide +kernel

/-- SEM_SET satisfies a SEM_GE wait and grants the first of two acquires (R416). -/
theorem test_semaphore_grants :
    let waitCmd (kind value : Nat) : Cmd := { exCmd 0 [] [] with phase := CmdPhase.parsed, flags := 4, waitKind := kind, waitObj := 65535, waitValue := value }
    let q (n : Nat) (c : Cmd) : Nat × QueueState := (n, { exQueue [c] with waitEvent := true })
    let s0 := disp 0x20 (natLE 2 65535 ++ natLE 8 5)
    let s := { s0 with gfe := { s0.gfe with
      queues := [q 3 (waitCmd 1 4), q 4 (waitCmd 1 2), q 5 (waitCmd 0 5)] ++ s0.gfe.queues
      sems := [(65535, { semReset with waiters := [3, 4, 5] })] } }
    (match exec (.semSet 1023 seqMax) s with
     | .next t => ((t.sem 65535).value, (t.sem 65535).holder, (t.sem 65535).waiters, [3, 4, 5].map (fun n => (t.queue n).cmds.map (fun c => c.granted)))
     | _ => (0, none, [], [])) = (1, some 248, [4], [[true], [false], [true]]) := by decide +kernel

def exAdmin (op : Nat) (bs inline : List Byte) : AdminCmd :=
  { seq := 0, op := op, flags := 0, userTag := 0, operands := bs, inline := inline, waitKind := 0, waitObj := 0, waitValue := 0, signalSem := 0
    signalValue := 0, malformed := false, planTag := 0, fetched := 0, begun := false, granted := false }
/-- Function 31 runs an administrative command. -/
def adm (x : QueueState) (c : AdminCmd) : State := (on x).setAdmin 31 (some c)
theorem witness_queue_life :
    let done := { exCmd 0 [] [] with phase := CmdPhase.complete }
    let working := { exCmd 0 [] [] with phase := CmdPhase.running, live := 1 }
    let s := on { exQueue [done] with cqHead := seqMax - 1 }
    let c := exAdmin 0x83 (natLE 2 1023 ++ natLE 1 0 ++ natLE 1 0 ++ natLE 8 0 ++ natLE 1 6 ++ natLE 1 4 ++ natLE 2 2047 ++ natLE 8 (exOut 4)) (natLE 8 (exOut 256))
    let first := { on (exQueue []) with gfe := { gfeReset with queues := [(0, { queueReset with state := 1, part := 7 })] } }
    let s1 := first.setAdmin 31 (some c)
    let d := exAdmin 0x84 (natLE 2 1023 ++ natLE 8 (exOut 4)) []
    let z := on { exQueue [] with state := 2 }
    (on (exQueue [working])).cmdOfTag (2 ^ 32 - 1) = some (1023, working) ∧
    (s.queue 1023).cmds = [done] ∧ ahead done.seq ((s.queue 1023).cqHead + 2 ^ (s.queue 1023).recordsLog2) = false ∧ s.queueChecked 1023 = false ∧
    s.cstop 1023 = false ∧ (s.att 31).withheld = [] ∧
    (List.range 8).any (fun p => s.ownsPart 31 p && decide (s.semBase p ≤ 65535) && decide (65535 < s.semBase p + s.semCount p)) = true ∧
    s1.adminOf 31 0x83 = some c ∧ goes (s1.adminWait 31 c) = true ∧ s1.adminResultOk 31 (c.field 16 8) 4 = true ∧ s1.partOfQueue 1023 = some 7 ∧
    s1.attOf 31 = some 31 ∧ (s1.queue 1023).state = 0 ∧ (s1.queue 0).state = 1 ∧ outAtt (fieldLE c.inline 0 8) = 31 ∧
    s1.adminResultOk 31 (fieldLE c.inline 0 8) (16 * 2 ^ c.field 13 1) = true ∧ (s1.ringPieces 0 248 0 64).isSome = true ∧
    (adm (exQueue []) d).adminOf 31 0x84 = some d ∧ (adm (exQueue []) d).adminResultOk 31 (d.field 2 8) 4 = true ∧
    z.queueBusy 1023 = false ∧ (z.queue 1023).state = 2 := by decide +kernel

/-- Core 191 of cluster 23 with a save area in logical granary channel 0. -/
def saving (ph : CorePhase) : State :=
  (run (fun c => { c with phase := ph })).updPart 7 (fun p => { p with plan := some { exPlan with
    saveMap := [{ kind := 0, cluster := 23, core := 6, channel := 0, offset := 1048576 }] } })
/-- A write of the device leaves what names a place as it is. -/
def samePlaces (a b : State) : Prop :=
  a.parts = b.parts ∧ a.coreMap = b.coreMap ∧ a.stackMaps = b.stackMaps ∧ a.loft = b.loft ∧ a.sysArea = b.sysArea
theorem rawWrite_samePlaces (s : State) (g c tag off : Nat) (bs : List Byte) : samePlaces (s.rawWrite g c tag off bs true).1 s := by
  unfold State.rawWrite samePlaces
  split
  · simp
  · simp only [Bool.not_true, Bool.false_and, Bool.false_eq_true, if_false, State.putRaw, if_true]
    split <;> simp [State.retireRaw, State.updGleaner, State.setGleaner, State.send]
theorem savePlace_same {a b : State} (h : samePlaces a b) (k kind off : Nat) :
    (a.savePhys k kind off).bind a.physAt = (b.savePhys k kind off).bind b.physAt := by
  cases a; cases b
  obtain ⟨h1, h2, h3, h4, h5⟩ := h
  simp only at h1 h2 h3 h4 h5
  subst h1 h2 h3 h4 h5
  rfl
/-- A save whose pieces all have a place ends with none lost. -/
theorem saveBytes_keeps (s s0 : State) (k kind off : Nat) (bs : List Byte) (hs : samePlaces s s0)
    (h : ∀ q ∈ pieces (bs.length / 65536 + 2) off bs.length, ((s0.savePhys k kind q.1).bind s0.physAt).isSome = true) :
    (s.saveBytes k kind off bs).2 = false ∧ samePlaces (s.saveBytes k kind off bs).1 s0 := by
  unfold State.saveBytes
  generalize pieces (bs.length / 65536 + 2) off bs.length = ps at h
  suffices ∀ (ps : List (Nat × Nat)) (acc : State × Bool), acc.2 = false → samePlaces acc.1 s0 →
      (∀ q ∈ ps, ((s0.savePhys k kind q.1).bind s0.physAt).isSome = true) →
      (ps.foldl (fun (acc : State × Bool) q =>
        match (acc.1.savePhys k kind q.1).bind acc.1.physAt with
        | none => (acc.1, true)
        | some (g, o) => ((acc.1.rawWrite g 0 0 o ((bs.drop (q.1 - off)).take q.2) true).1, acc.2)) acc).2 = false ∧
      samePlaces (ps.foldl (fun (acc : State × Bool) q =>
        match (acc.1.savePhys k kind q.1).bind acc.1.physAt with
        | none => (acc.1, true)
        | some (g, o) => ((acc.1.rawWrite g 0 0 o ((bs.drop (q.1 - off)).take q.2) true).1, acc.2)) acc).1 s0 from
    this ps (s, false) rfl hs h
  intro ps
  induction ps with
  | nil => intro acc h1 h2 _; exact ⟨h1, h2⟩
  | cons q ps ih =>
    intro acc h1 h2 h3
    have hq := h3 q (List.mem_cons_self ..)
    rw [← savePlace_same h2] at hq
    obtain ⟨⟨g, o⟩, hg⟩ := Option.isSome_iff_exists.mp hq
    simp only [List.foldl_cons, hg]
    refine ih _ h1 ?_ (fun r hr => h3 r (List.mem_cons_of_mem _ hr))
    obtain ⟨a1, a2, a3, a4, a5⟩ := rawWrite_samePlaces acc.1 g 0 0 o ((bs.drop (q.1 - off)).take q.2)
    obtain ⟨b1, b2, b3, b4, b5⟩ := h2
    exact ⟨a1.trans b1, a2.trans b2, a3.trans b3, a4.trans b4, a5.trans b5⟩
theorem saveState_keeps (s : State) (k : Nat) (i : WorkItem) (h : ∀ e ∈ saveSections i, ∀ q ∈ pieces (e.2.2 / 65536 + 2) e.2.1 e.2.2,
    ((s.savePhys k e.1 q.1).bind s.physAt).isSome = true) : (s.saveState k i).2 = false := by
  unfold State.saveState
  generalize saveSections i = es at h
  suffices ∀ (es : List (Nat × Nat × Nat)) (acc : State × Bool), acc.2 = false → samePlaces acc.1 s →
      (∀ e ∈ es, ∀ q ∈ pieces (e.2.2 / 65536 + 2) e.2.1 e.2.2, ((s.savePhys k e.1 q.1).bind s.physAt).isSome = true) →
      (es.foldl (fun (acc : State × Bool) e =>
        let r := acc.1.saveBytes k e.1 e.2.1 (freeBytes acc.1.freeCtr e.2.2)
        ({ r.1 with freeCtr := r.1.freeCtr + e.2.2 / 8 }, acc.2 || r.2)) acc).2 = false from
    this es (s, false) rfl ⟨rfl, rfl, rfl, rfl, rfl⟩ h
  intro es
  induction es with
  | nil => intro acc h1 _ _; exact h1
  | cons e es ih =>
    intro acc h1 h2 h3
    have r := saveBytes_keeps acc.1 s k e.1 e.2.1 (freeBytes acc.1.freeCtr e.2.2) h2 (by
      have := h3 e (List.mem_cons_self ..)
      simpa [freeBytes] using this)
    simp only [List.foldl_cons]
    exact ih _ (by simp [h1, r.1]) r.2 (fun x hx => h3 x (List.mem_cons_of_mem _ hx))
theorem witness_save :
    let s := saving .saving
    (s.core 191).item = some exItem ∧ (s.core 191).phase = .saving ∧
    (((s.addSaveNs 23 0).chargeItem 191).saveState 191 exItem).2 = false ∧ (s.saveUnits 191 exItem).2 = false ∧ s.stateReadable 191 exItem = true ∧
    (s.restoreUnits 191 exItem).2 = false := by
  refine ⟨by decide +kernel, by decide +kernel, saveState_keeps _ _ _ (by decide +kernel), by decide +kernel, by decide +kernel, by decide +kernel⟩

/-! ### Partitions, plans, translation and the host -/

theorem witness_partitions :
    let r : Nat := exOut 64
    let desc := natLE 1 7 ++ natLE 3 0 ++ natLE 4 (2 ^ 23) ++ zeroBytes 32 ++ natLE 4 (8 * 65536) ++ zeroBytes 148
    let def_ := exAdmin 0x80 (natLE 8 r) (padTo 256 desc)
    let base : State := { on (exQueue []) with parts := [] }
    let host := base.updAtt 31 (fun a => { a with fn := 16 })
    let s := host.setAdmin 16 (some def_)
    let d := parseDesc def_.inline
    let scrubbing := base.updLoader (fun l => { l with scrubs := [{ fn := 16, result := 0, part := 7, clusters := 2 ^ 23, channels := [447] }] })
    s.adminOf 16 0x80 = some def_ ∧ goes (s.adminWait 16 def_) = true ∧ s.adminResultOk 16 (def_.field 0 8) 64 = true ∧ fieldLE def_.inline 0 1 = 7 ∧
    fieldLE def_.inline 1 3 = 0 ∧ fieldLE def_.inline 0xC0 64 = 0 ∧ 16 % 16 = 0 ∧ s.planOf 7 = none ∧ s.loading 7 = false ∧ s.loader.scrubs = [] ∧
    d.empty = false ∧ s.conflict 7 d = none ∧ (scrubbing.loader.scrubs.find? (fun x => x.part == 7)).isSome = true ∧
    (([447].flatMap scrubbing.behind).eraseDups).any (fun g => (scrubbing.gleaner g).test.phase == 1) = false := by decide +kernel
def exLoad (ph : LoadPhase) : Load :=
  { fn := 31, part := 7, mirror := false, replace := false, source := [], record := [], fetched := 0, phase := ph, image := [], coreMap0 := []
    stacks0 := [], loft0 := 0, sysArea0 := 8, decided := 0 }
def loading (ph : LoadPhase) : State := (on (exQueue [])).updLoader (fun l => { l with loads := [exLoad ph] })
theorem witness_loads_and_plans :
    let c := exAdmin 0x81 (natLE 1 7 ++ natLE 1 2 ++ natLE 1 0 ++ natLE 8 0 ++ natLE 4 4096 ++ natLE 8 0) []
    let u := exAdmin 0x82 (natLE 1 7 ++ natLE 1 1 ++ natLE 8 (exOut 4)) []
    let s := adm (exQueue []) c
    let w := adm (exQueue []) u
    let away := (on (exQueue [])).updLoader (fun l => { l with unloads := [{ fn := 31, part := 7, abort := false, result := exOut 4 }] })
    s.adminOf 31 0x81 = some c ∧ goes (s.adminWait 31 c) = true ∧ c.field 2 1 < exDesc.contexts.2 ∧ c.field 1 1 < 4 ∧
    s.extentOk (24 + 31 / 16) 248 (c.field 3 8) (c.field 3 8 + c.field 11 4 - 1 : Nat) permRead = true ∧
    s.extentOk (24 + 31 / 16) 248 (c.field 15 8) (c.field 15 8 + 63 : Nat) permWrite = true ∧ s.loading 7 = false ∧ (c.field 1 1).testBit 1 = true ∧
    (loading .waiting).loader.loads.find? (fun l => l.phase == LoadPhase.waiting) = some (exLoad .waiting) ∧
    (loading .staged).loader.loads.find? (fun l => l.phase == LoadPhase.staged) = some (exLoad .staged) ∧
    (loading .staged).earlierLoad (exLoad .staged) = false ∧ (loading .waiting).earlierLoad (exLoad .waiting) = false ∧
    ((loading .installing).envOf (exLoad .installing)).isSome = true ∧ ((loading .draining).envOf (exLoad .draining)).map (fun e => e.counts.isNone) = some true ∧
    (loading .draining).drained 7 = true ∧ w.adminOf 31 0x82 = some u ∧ w.adminResultOk 31 (u.field 2 8) 4 = true ∧ (w.planOf 7).isSome = true ∧
    (away.loader.unloads.find? (fun u => u.part == 7)).isSome = true ∧ away.drained 7 = true := by decide +kernel

def exSegCmd (op : Nat) : AdminCmd :=
  exAdmin op (natLE 1 0 ++ natLE 1 0 ++ natLE 1 32 ++ natLE 4 1 ++ natLE 4 0 ++ natLE 8 (exOut 16)) []
def exChange (ph : ChangePhase) (drain : Bool) : SegChange :=
  { ctx := 248, seg := 0, between := { limit := 65536, perm := 33 }, after := { limit := 65536, perm := 33 }, form := 0, drain := drain, phase := ph
    updated := 0, copies := 2 ^ 29 - 1, marks := [], subs := [447], stations := 2 ^ 13 - 1, fn := 31 }
theorem witness_segments :
    let s := adm (exQueue []) (exSegCmd 0x85)
    let new : SegCur := { limit := 65536, perm := 32 }
    let ch (ph : ChangePhase) (d : Bool) : State := (on (exQueue [])).setChanges [exChange ph d]
    let acked : State := (on (exQueue [])).setChanges [{ exChange .revokeCopies false with updated := 2 ^ 30 - 1 }]
    s.adminOf 31 0x85 = some (exSegCmd 0x85) ∧ s.admin 31 = some (exSegCmd 0x85) ∧ s.adminResultOk 31 ((exSegCmd 0x85).field 11 8) 16 = true ∧
    s.changeWaits 31 s.xlt.changeQueue = false ∧ s.changeCtx 31 = some 248 ∧ (s.ctx 248).state ≠ 2 ∧ s.planSegment 248 0 = some exSegment ∧
    (new.perm ||| (exSegment.perm ||| permValid)) = (exSegment.perm ||| permValid) ∧ new.limit ≤ exSegment.limit ∧
    (s.subscribers 248).length ≤ 32 ∧ (grants (s.segCur 248 0) new && revoked (s.segCur 248 0) new == s.segCur 248 0) = false ∧
    (ch .revokeCopies false).change 248 = some (exChange .revokeCopies false) ∧ (exChange .revokeCopies false).updated.testBit 29 = false ∧
    (acked.change 248).map (fun c => (c.updated.testBit 29, c.copies ||| 2 ^ 29, acked.copySettled c 29)) = some (true, 2 ^ 30 - 1, true) ∧
    (ch .grantTags false).tagsApplied (exChange .grantTags false) 447 = true ∧
    (stationGleaners 13).all (fun g => (ch .grantTags true).tagsApplied (exChange .grantTags true) g) = true ∧
    (exChange .grantTags true).stations.testBit 13 = false := by decide +kernel
def exMap (perm : Nat) : MappingCur :=
  { context := 248, perm := perm, key := 0, peer := 0xFFFFFFFF, winOffset := 0, length := 2 ^ 20, target := 0, cleared := false }
theorem witness_windows :
    let c := exAdmin 0x87 (natLE 2 255 ++ natLE 1 0 ++ natLE 1 0 ++ natLE 1 1 ++ natLE 2 0 ++ natLE 4 0 ++ natLE 4 16 ++ natLE 4 0 ++ natLE 8 (exOut 16)) []
    let s := ((adm (exQueue []) c).updPart 7 (fun p => { p with plan := some { exPlan with
      windows := [{ window := 255, context := 0, perm := 3, key := 0, peer := 0, winOffset := 0, length := 2 ^ 20, target := 0 }] } }))
    let w : State := { s with xlt := { s.xlt with windows := [(255, [exMap 3])] } }
    let ch : WindowChange := { window := 255, mapping := 0, ctx := 248, acks := 0, mark := 0, fn := 31 }
    let v : State := { w with xlt := { w.xlt with windowChanges := [ch] } }
    w.adminOf 31 0x87 = some c ∧ w.adminResultOk 31 (c.field 19 8) 16 = true ∧ w.changeWaits 31 w.xlt.changeQueue = false ∧
    w.changeCtx 31 = some 248 ∧ w.changePart 31 = 7 ∧ (Tbl.get [] w.xlt.windows 255)[0]? = some (exMap 3) ∧ c.field 11 4 * 65536 = 2 ^ 20 ∧
    c.field 4 1 = 1 ∧ v.xlt.windowChanges.find? (fun w => w.ctx == 248) = some ch ∧ v.links.recv = [] ∧
    w.partOfCtx 248 = some 7 ∧ w.ownsPart 31 7 = true ∧ (w.planSegment 248 1).isSome = true ∧ w.served = true ∧
    (∀ e ∈ [(0 : Nat), 1], ch.acks ||| 2 ^ e ≠ 3) ∧ { ch with acks := 1 }.acks ||| 2 ^ 1 = 3 ∧ w.ownsPart 30 7 = false := by decide +kernel

theorem witness_host :
    let s := on (exQueue [])
    let port := s.updPort 1 (fun p => { p with perst := false, up := true, retraining := true })
    let gone (st : Nat) := s.updAtt 31 (fun a => { a with state := st, timeout := 1 })
    let locked := s.updAtt 31 (fun a => { a with locked := true, credential := 1 })
    (s.port 1).perst = true ∧ (port.port 1).up = true ∧ (port.port 1).perst = false ∧ (port.port 1).retraining = true ∧ (s.fn 31).memSpace = false ∧
    s.attOf 0 = none ∧ (s.att 0).state = 0 ∧ s.attOf 31 = some 31 ∧ (gone 2).attOf 31 = none ∧ ((gone 2).att 31).locked = false ∧
    ((gone 2).att 31).credential = ((gone 2).fn 31).cred ∧ (locked.att 31).credential ≠ (locked.fn 31).cred ∧ (locked.att 31).locked = true ∧
    ((gone 1).att 31).timeout ≠ 0 ∧ ((gone 3).att 31).journal = [] ∧ ((gone 3).att 31).adoptHold = false ∧
    ((s.updAtt 31 (fun a => { a with credRead := false })).att 31).credRead = false := by decide +kernel
theorem witness_slots :
    let m := exAdmin 0x88 (natLE 8 (exOut 4)) (natLE 2 127 ++ natLE 1 31 ++ natLE 1 255 ++ zeroBytes 28)
    let h := exAdmin 0x89 (natLE 8 (exOut 4)) (natLE 2 0 ++ natLE 1 7 ++ zeroBytes 13 ++ natLE 8 64 ++ zeroBytes 8)
    let s := (adm (exQueue []) m).updFn 31 (fun f => { f with slotCount := 128 })
    let k : CheckRead := { queue := 1023, att := 31, fn := 31, addr := 0, vector := none }
    s.adminOf 31 0x88 = some m ∧ fieldLE (m.inline.take 32) 0 2 < (s.fn 31).slotCount ∧ s.partOfCtx (fieldLE (m.inline.take 32) 3 1) = some 7 ∧
    (parseSlotEntry (m.inline.take 32)).isSome = true ∧ (parseHandleEntry (h.inline.take 32)).isSome = true ∧
    (adm (exQueue []) h).adminOf 31 0x89 = some h ∧
    ((adm (exQueue []) h).updAtt 31 (fun x => { x with handles := Tbl.set none x.handles 0 (parseHandleEntry (h.inline.take 32)) })).adminResultOk 31
      (h.field 0 8) 4 = true ∧
    ({ s with host := { s.host with checks := [k] } }).host.checks.find? (fun c => c.queue == 1023) = some k ∧
    ((on { exQueue [] with cstop := true }).queue 1023).cstop = true ∧ (on (exQueue [])).attOf 31 = some ((on (exQueue [])).queue 1023).attachment := by
  decide +kernel
theorem witness_preemption :
    let waiting := { exItem with priority := 15, forced := true }
    let s (w : Option WorkItem) := (run (fun c => { c with phase := .quiesce })).updCluster 23 (fun c => { c with
      preempts := [{ core := 191, waiting := w, since := 0 }], ready := [(0, [waiting])] })
    let v : SavedItem := { item := exItem, priority := 0, vec := vecRegsReset, held := [], winnowQueue := [], grid := gridReset, dmaMarks := []
                           restart := false, since := 0, by_ := some 255 }
    (ex.part 7).desc = some exDesc ∧ ((s none).core 191).phase = .quiesce ∧
    ((s none).cluster 23).dma.outstanding = [] ∧ (((s (some waiting)).stillWaiting 23 waiting).map ((s (some waiting)).eligible 191 .quiesce)) = some true ∧
    (s (some exItem)).stillWaiting 23 exItem = none ∧ ((saving .resuming).updCore 191 (fun c => { c with saved := some v })).stateReadable 191 exItem = true := by
  decide +kernel
theorem witness_energy : (∀ e ∈ [((255 : Nat), (1 : Nat))], e.1 < 256) ∧ (on (exQueue [])).served = true := by decide +kernel

/-! ### Links -/

def exNode : Nat := 2 ^ 32 - 2
def exPeer : List Byte := natLE 1 1 ++ natLE 1 248 ++ natLE 1 0 ++ natLE 1 128 ++ natLE 4 exNode ++ natLE 2 496 ++ natLE 2 496 ++ natLE 1 127 ++ natLE 3 0xFFFFFF
def exPath : List Byte := natLE 1 1 ++ natLE 1 7 ++ zeroBytes 2 ++ natLE 6 0x0200005E0001
/-- Peer 127 on port 7, up over path 0, with window 255 mapped to context 248. -/
def linked : State :=
  let s := on (exQueue [])
  { s with
    gleaners := [(0, { gleanerReset with tags := exTags })]
    xlt := { s.xlt with windows := [(255, [exMap 3])] }
    links := { linksReset with
      ports := [(7, { ethReset with mode := 1, linkA := true, pfcEn := true })], regs := { igtReset with node := 7 }
      peerEntries := [(127, padTo 64 exPeer)], pathEntries := [(127, padTo 64 exPath)], peers := [(127, { peerReset with pathsUp := 1 })] } }
/-- The headers and payload of a frame from that peer: an Igrum packet of a type with a PSN, flags and a body. -/
def exContent (type psn flags : Nat) (body : List Byte) : List Byte :=
  zeroBytes 6 ++ natLE 6 0x0200005E0001 ++ natBE 2 0x88B5 ++ natLE 1 (16 * type + 1) ++ natLE 1 7 ++ natLE 2 127 ++ natLE 4 exNode ++ natLE 4 7 ++ natLE 3 psn ++
    natLE 1 0 ++ zeroBytes 6 ++ natLE 2 flags ++ natLE 2 body.length ++ zeroBytes 6 ++ body
/-- The frame itself, of at least 64 bytes with its FCS. -/
def exFrame (type psn flags : Nat) (body : List Byte) : List Byte :=
  let f := exContent type psn flags body
  padTo (max 60 f.length) f
/-- A whole operation on window 255, of 64 bytes. -/
def exBody (op : Nat) : List Byte :=
  natLE 1 op ++ natLE 1 3 ++ natLE 2 255 ++ zeroBytes 4 ++ natLE 4 1 ++ natLE 4 64 ++ natLE 8 0 ++ natLE 1 0 ++ natLE 3 64 ++ zeroBytes 4 ++ (if op = 0 then zeroBytes 64 else [])
def accepted (x : Accepted) : Option (State × Nat × Nat × Bool × List Byte) := match x with
  | .packet v k i ce pkt => some (v, k, i, ce, pkt)
  | .dropped _ => none
def exPkt (type psn flags : Nat) (body : List Byte) : List Byte := (exContent type psn flags body).drop 14
/-- The state with what the packet acknowledges applied. -/
def exTaken (s : State) (type psn flags : Nat) (body : List Byte) : State :=
  (s.updEth 7 (fun e => { e with rxFrames := e.rxFrames + 1 })).takeAck 127 (exPkt type psn flags body)
theorem receives_of {s v : State} {frame pkt raw src : List Byte} {type op encap : Nat} {mark : Bool}
    (h : accepted (s.acceptFrame 7 false frame) = some (v, 127, 0, false, pkt)) (hm : s.matchFrame frame = some (encap, src, mark, raw))
    (hf : packetFormatOk raw = true ∧ fieldLE raw 0 1 / 16 = type ∧ (type = 0 → fieldLE raw 32 1 = op)) :
    s.receives 7 false frame type op (v.takeAck 127 pkt) 127 0 false pkt := by
  refine ⟨by decide, ⟨v, ?_, rfl⟩, encap, src, mark, raw, hm, hf⟩
  revert h
  cases s.acceptFrame 7 false frame with
  | dropped t => simp [accepted]
  | packet a b c d e => simp only [accepted, Option.some.injEq, Prod.mk.injEq, Accepted.packet.injEq]; exact id
/-- An expected packet, an old one and one beyond a gap, of a WRITE. -/
theorem witness_receives : linked.receives 7 false (exFrame 0 0 0 (exBody 0)) 0 0 (exTaken linked 0 0 0 (exBody 0)) 127 0 false (exPkt 0 0 0 (exBody 0)) :=
  receives_of (raw := exPkt 0 0 0 (exBody 0)) (src := natLE 6 0x0200005E0001) (encap := 0) (mark := false) (by decide +kernel) (by decide +kernel) (by decide +kernel)
/-- The other types, as the same check sees them. -/
theorem witness_packet_types : ∀ t ∈ [(1 : Nat), 2, 3, 4],
    (accepted (linked.acceptFrame 7 false (exFrame t 0 0 []))).map Prod.snd = some (127, 0, false, exPkt t 0 0 []) ∧
    packetFormatOk (exPkt t 0 0 []) = true ∧ fieldLE (exPkt t 0 0 []) 0 1 / 16 = t := by decide +kernel
theorem witness_data :
    let u := exTaken linked 0 0 0 (exBody 0)
    (u.stream 127 7).expected = 0 ∧ u.heldCells 127 7 + packetCells ((exPkt 0 0 0 (exBody 0)).length - 64) ≤ fieldLE (u.peerEntry 127) 0x0A 2 ∧
    psnBelow (2 ^ 24 - 1) 0 = true ∧ (2 ^ 24 - 1 : Nat) ≠ 0 ∧ psnBelow 1 0 = false ∧ (u.stream 127 7).lastNak = none ∧ fieldLE (exBody 0) 1 1 = 3 := by
  decide +kernel
theorem witness_remote :
    let maps (op perm n : Nat) (s : State) := s.remoteMapping 7 false exNode (exBody op) perm n true
    let m := exMap 3
    (∀ op ∈ [(0 : Nat), 1], (linked.startRecv 127 7 (exBody op)).isSome = true) ∧
    (match maps 0 1 64 linked, maps 1 0 64 linked, maps 1 0 64 { linked with xlt := xltReset } with
      | .inr a, .inr b, .inl n => decide (a = m) && decide (b = m) && decide (n = 2)
      | _, _, _ => false) = true ∧
    m.addr 0 % 64 = 0 ∧ linked.extentOk 26 248 (m.addr 0) (m.addr 0 + 64 - 1 : Nat) (permWrite ||| permRemote) = true ∧ fieldLE (exBody 0) 0x0C 4 = (zeroBytes 64).length ∧ (linked.ctxWrite 248 0 0 (zeroBytes 64)).2 = 0 ∧
    linked.extentOk 26 248 (m.addr 0) (m.addr 0 + 64 - 1 : Nat) (permRead ||| permRemote) = true ∧ (linked.ctxFetch 248 0 0 64).2 = (0, zeroBytes 64) ∧
    fieldLE (exBody 0) 0x18 1 = 0 ∧ fieldLE (exBody 0) 0x19 3 = 64 := by decide +kernel
theorem witness_probes :
    let dead := linked.updPeer 127 (fun q => { q with pathsUp := 0 })
    let probing := linked.updPeer 127 (fun q => { q with probing := some 0 })
    (dead.peer 127).down = true ∧ (linked.peer 127).down = false ∧ fieldLE (exPkt 3 0 0 []) 0x0F 1 = (linked.peer 127).epoch ∧
    (probing.peer 127).probing = some 0 ∧ (linked.peer 127).probing ≠ some 0 ∧ (linked.peer 127).pathsUp.testBit 0 = true ∧ (linked.peer 127).active = 0 := by
  decide +kernel
theorem witness_ethernet :
    let f := zeroBytes 60
    linked.portOwner 7 = some 7 ∧ linked.ownsPart 31 7 = true ∧ linked.modeFits 7 2 = true ∧ (linked.eth 7).mode ≠ 0 ∧
    ((linked.updEth 7 (fun e => { e with mode := 2 })).eth 7).mode = 2 ∧ (linked.eth 7).up false = true ∧ 64 ≤ f.length + 4 ∧
    beNat ((f.drop 12).take 2) ≠ 0x8808 ∧ linked.matchFrame f = none ∧ (linked.eth 7).pfcEn = true := by decide +kernel
theorem witness_timers :
    let st (n : Nat) := linked.updStream 127 7 (fun x => { x with ackDue := true, unacked := [{ psn := 0, response := false, body := [] }], retries := n })
    let idle := linked.updPeer 127 (fun q => { q with pathsUp := 0 })
    ((st 2).stream 127 7).ackDue = true ∧ ((st 2).stream 127 7).unacked ≠ [] ∧ ((st 2).peer 127).down = false ∧ ((st 2).peer 127).probing = none ∧
    ((st 2).stream 127 7).retries < 3 ∧ 3 ≤ ((st 3).stream 127 7).retries ∧
    ((linked.updPeer 127 (fun q => { q with probing := some 3 })).peer 127).probing = some 3 ∧ entryValid (idle.peerEntry 127) = true ∧
    (peerPath (idle.peerEntry 127) 0).isSome = true ∧ (idle.peer 127).pathsUp.testBit 0 = false ∧ linked.heldCells 127 7 = 0 := by decide +kernel

def exRing : List Byte := padTo 64 (natLE 1 1 ++ natLE 1 248 ++ natLE 1 6 ++ natLE 1 0 ++ natLE 2 0xFFFF ++ zeroBytes 2 ++ natLE 8 0 ++ natLE 8 8192)
/-- A sealed slot of ring 127: a WRITE of 64 bytes to peer 127 on VC 7. -/
def exSlot (len : Nat) : List Byte :=
  padTo 63 (natLE 1 0 ++ natLE 1 28 ++ natLE 1 127 ++ zeroBytes 29 ++ natLE 4 len) ++ natLE 1 (sealOf 64 0)
def ringing (len : Nat) : State :=
  let s := linked.updGleaner 0 (fun g => { g with data := g.data.put 9437184 (exSlot len) })
  { s with links := { s.links with ringEntries := [(127, exRing)] } }
theorem witness_rings :
    let s := ringing 64
    let slotOf (s : State) := s.physBytes (s.physRun 248 0 64)
    let u := s.updRing 127 (fun r => { r with next := 1 })
    let o : SendOp := { serial := 0, ring := 127, index := 0, ctx := 248, slot := exSlot 64, tag := 0, nextPacket := 0, sent := false, respCells := 0, got := 0
                        status := 0, aborted := false }
    let q := s.updStream 127 7 (fun x => { x with ops := [o] })
    s.ringEntry 127 = exRing ∧ entryValid exRing = true ∧ s.torn 248 = false ∧ slotOf s = exSlot 64 ∧ slotSealed 64 0 (exSlot 64) = true ∧
    u.slotFault exRing (exSlot 64) = none ∧ u.slotFault exRing (exSlot 63) = some 2 ∧ (u.peer 127).down = false ∧
    ((u.updPeer 127 (fun q => { q with pathsUp := 0 })).peer 127).down = true ∧
    (q.stream 127 7).ops.find? (fun o => !o.sent) = some o ∧ q.links.regs.node ≠ 0 ∧
    (let p := q.pathEntry ((peerPath (q.peerEntry 127) (q.peer 127).active).getD 0)
     (q.eth (pathPort p)).up (pathHalf p) = true ∧ q.vcPaused 7 p = false) ∧ (fieldLE o.slot 1 1).testBit 0 = false ∧
    (q.stream 127 7).responseCells + responseCells o.slot + q.heldCells 127 7 ≤ fieldLE (q.peerEntry 127) 0x0A 2 := by decide +kernel
theorem witness_entries :
    let words (e : List Byte) : Tbl Word32 := Tbl.setRun 0 [] 0 ((List.range 16).map (fun i => BitVec.ofNat 32 (fieldLE e (4 * i) 4)))
    let s (e : List Byte) := linked.updIgt (fun r => { r with data := words e })
    let off := padTo 64 (natLE 1 0 ++ exPeer.drop 1)
    let rw := (s exRing)
    linked.ownsEntry 31 0 127 = true ∧ (s exRing).links.regs.entry = exRing ∧ rw.ownsCtx 31 248 = true ∧ entryValid (rw.ringEntry 127) = false ∧
    rw.ringFieldsOk 127 exRing = true ∧ (s off).links.regs.entry = off ∧ entryValid off = false ∧ (s off).peerFieldsOk off = true ∧ (s off).peerPortsHeld off = true := by
  decide +kernel
theorem witness_die_links : (24 : Nat) < (if 2 < 3 then 25 else 8) ∧ (7 : Nat) < (if 14 < 3 then 25 else 8) ∧ (State.reset.flitPath 14 1).replaying = false ∧ (zeroBytes 240).length = 240 ∧
    (Tbl.get 0 State.reset.mgmt.modulesOut 14).testBit 7 = false := by decide +kernel

/-! ### Registers, faults, integrity and management -/

theorem witness_registers :
    let s := on (exQueue [])
    let held := s.updMgmt (fun m => { m with pairs := [(31 * 2 ^ 24 + 0x10008, some { offset := 0x10008, write := false, value := 1 })] })
    0xFFFFFC < 2 ^ 24 ∧ s.regWord 31 0xFFFFFC = none ∧ (s.regWord 31 0x10000).isSome = true ∧ (s.regPair 31 0x10000).isSome = false ∧ (s.regPair 31 0xFFFC).isSome = false ∧
    (s.regWord 31 0x10008).isSome = true ∧ (s.regPair 31 0x10008).isSome = true ∧ credOffset 0x10008 = false ∧ s.barWord 31 0xFFFFFC = none ∧
    credOffset 0xFFFFFC = false ∧ (s.barWord 31 0x10008).isSome = true ∧ (s.barWord 31 0x1000C).isSome = true ∧ (s.regPair 31 0x1000C).isSome = false ∧
    (Tbl.get none held.mgmt.pairs (31 * 2 ^ 24 + 0x10008)).isSome = true ∧ (s.barWord 31 0x10000).isSome = true := by decide +kernel
theorem witness_interrupts :
    let s := (on (exQueue [])).updMgmt (fun m => { m with dip := true })
    let sends (c : BitVec 22) (n : Nat) : Bool := c.getLsbD 0 && c.getLsbD (12 + n)
    16 % 16 = 0 ∧ (1 : Word32).getLsbD 0 = true ∧ 7 ∈ bitsSet (s.settleInts.intSummary 16) 10 ∧ sends (BitVec.ofNat 22 (1 + 2 ^ 19)) 7 = true ∧
    sends (Tbl.get intReset s.settleInts.mgmt.ints 16).ctl 7 = false ∧ bitsSet ((on (exQueue [])).settleInts.intSummary 16) 10 = [] := by decide +kernel
def exFault (kind : Nat) : FaultReport := { faultOf kind 1 191 with ctx := some 255, part := 7 }
theorem witness_faults :
    let s := on (exQueue [])
    let h : HeldFault := { report := exFault 0x0101, serial := 1, capture := 0, mask := 0, count := 1, merged := false, since := 0 }
    let held := s.updFaults (fun f => { f with merge := [h], head := 0, tail := 0xFFFFFFFF })
    let t : Teardown := { ctx := 255, code := codeTornDown, slot := 127, captured := true }
    let torn := s.updFaults (fun f => { f with teardowns := [t] })
    (exFault 0x0101).kind / 256 = 1 ∧ (exFault 0x0204).kind / 256 ≠ 1 ∧ recoveryOf (exFault 0x0204) = none ∧ s.partOfCtx 255 = some 7 ∧
    s.ownsPart 31 7 = true ∧ held.faults.merge.find? (fun h => held.engineOf h.report.unitKind h.report.unit == 1) = some h ∧
    ((0 : Word32) - held.faults.tail).toNat ≤ (held.faults.head - held.faults.tail).toNat ∧
    torn.faults.teardowns.find? (fun t => t.ctx == 255) = some t ∧ torn.ctxBusy 255 = false := by decide +kernel
def exRecovery (running captured : Bool) : Recovery :=
  { serial := 1, engine := 1, unitKind := 1, unit := 191, domain := 1, kind := 0x0301, detail := 0, address := 0, ctx := none, running := running, slot := 127
    captured := captured }
theorem witness_recoveries :
    let s (r : List Recovery) := (on (exQueue [])).updFaults (fun f => { f with recoveries := r })
    let t : Teardown := { ctx := 255, code := codeTornDown, slot := 127, captured := false }
    ((s []).updFaults (fun f => { f with teardowns := [t] })).faults.teardowns.find? (fun t => t.slot == 127 && !t.captured) = some t ∧
    (s [exRecovery true false]).faults.recoveries.find? (fun r => r.slot == 127 && r.running && !r.captured) = some (exRecovery true false) ∧
    ((s (List.replicate 3 (exRecovery true true) ++ [exRecovery false false])).faults.recoveries.filter (fun x => x.engine == 1 && x.running)).length < 4 ∧
    findIdxFrom (fun (x : Recovery) => x.engine == 1 && !x.running) (List.replicate 3 (exRecovery true true) ++ [exRecovery false false]) 0 = some 3 ∧
    (s [exRecovery true true]).faults.recoveries.any (fun r => r.unitKind == 1 && r.unit == 191 && r.captured) = true ∧
    (s [{ exRecovery true true with unitKind := 2, unit := 23 }]).faults.recoveries.any (fun r => r.unitKind == 2 && r.unit == 23 && r.captured) = true ∧
    ((s []).updMgmt (fun m => { m with down := 10 })).mgmt.down.testBit 1 = true ∧
    ((s []).updMgmt (fun m => { m with down := 10 })).mgmt.down.testBit 3 = true ∧ (s []).faults.lost = 0 := by decide +kernel
theorem witness_integrity :
    let h (f : Harrow → Harrow) := ex.updCore 191 (fun c => { c with harrow := f c.harrow })
    let p : MismatchPattern := { core := 191, item := .share [], home := 23, entered := 0, layer := 5, row := 0, pairing := 0, dSum := 1, cSum := 0, tile := parseTile exTile, acts := [], weights := []
                                 fault := 1, discarded := false, confirmed := true }
    let busy := (run (fun c => { c with harrow := { c.harrow with phase := 1 } }))
    let light := busy.updPart 7 (fun x => { x with plan := some { exPlan with pools := exPlan.pools.map (fun q => { q with fullPreempt := false }) } })
    let due := h (fun x => { x with phase := 3 })
    let passing := h (fun x => { x with phase := 2 })
    let passed := passing.updCore 191 (fun y => { y with harrow := { y.harrow with phase := 0, passes := 1 } })
    let hist := ex.updHist (fun x => { x with entries := [histBlank 0 0 0 0], pending := [{ entry := 0, serial := 0 }] })
    let test (g : Nat) := ex.updGleaner g (fun x => { x with test := { x.test with phase := 1, mode := 1 } })
    (ex.core 191).phase ≠ .stopped ∧ (ex.cluster 23).stopped = false ∧ (ex.cluster 23).retired = false ∧ (ex.core 191).phase = .idle ∧
    ({ ex with patterns := [p] }).patterns.any (fun p => p.core == 191 && p.confirmed) = true ∧
    ((h (fun x => { x with diagnosing := true })).core 191).harrow.diagnosing = true ∧ ex.mgmt.harrowEnable = true ∧ (ex.core 191).harrow.phase = 0 ∧
    (due.core 191).harrow.phase = 3 ∧ (List.range 8).any (fun j => (due.core (8 * 23 + j)).harrow.phase == 2) = false ∧ due.betweenPlans 23 = false ∧
    (busy.core 191).item = some exItem ∧ (busy.core 191).harrow.phase = 1 ∧ (busy.poolOf 191).map (fun e => e.2.1.fullPreempt) = some true ∧
    (light.poolOf 191).map (fun e => e.2.1.fullPreempt) = some false ∧ (busy.core 191).phase = .running ∧ (busy.cluster 23).preempts.length < 2 ∧
    (busy.cluster 23).sched.fullDisable = false ∧ (passing.core 191).harrow.phase = 2 ∧ (passed.core 191).harrow.permanent = false ∧ (((passed.diagnose 191 [] true).coreCleared 191).core 191).saved = none ∧
    hist.mgmt.hist.entries[0]? = some (histBlank 0 0 0 0) ∧ hist.mgmt.hist.pending.any (fun p => p.entry == 0) = true ∧
    ((test 383).gleaner 383).test.phase = 1 ∧ ((test 447).gleaner 447).test.mode < 2 := by decide +kernel
def exMaint (command : Nat) (p : List Byte) : List Byte :=
  natLE 2 command ++ zeroBytes 2 ++ natLE 4 p.length ++ zeroBytes 24 ++ p ++ zeroBytes 96
theorem witness_maintenance :
    let s := (on (exQueue [])).updMgmt (fun m => { m with reeve := true, debugLock := false, maintKeys := [(3, { state := 1, key := 1, floor := 0 }), (0, { state := 1, key := 1, floor := 0 })] })
    let out := s.updGleaner 447 (fun x => { x with status := 32 })
    let pay (c : Nat) (p : List Byte) : Bool := isMaint c (exMaint c p) && maintPayload (exMaint c p) == p
    pay 1 (natLE 1 1 ++ natLE 1 1 ++ zeroBytes 101) = true ∧ (s.keySlot 1 1).map (fun k => k.state) = some 0 ∧ (natLE 1 1 ++ natLE 1 1 ++ zeroBytes 101).length = 103 ∧
    pay 2 (natLE 1 0 ++ natLE 1 7) = true ∧ (s.keySlot 0 7).isSome = true ∧ pay 3 [] = true ∧ s.isOut 447 = false ∧ out.isOut 447 = true ∧
    pay 4 (natLE 2 0xFFFF ++ natLE 1 1 ++ natLE 2 191) = true ∧ pay 5 (natLE 2 447 ++ natLE 1 3) = true ∧ (s.gleaner 447).test.phase ≠ 1 ∧
    pay 6 (natLE 1 1) = true ∧ pay 7 [] = true ∧ s.mgmt.debugLock = false ∧ pay 8 [] = true := by decide +kernel
/-- STACK_REPAIR with an empty payload, signed over P-384 with a private key of our own; the key, r and s are computed outside the model. -/
def signedRepair : List Byte := (exMaint 3 []).take 0x20 ++
  natBE 48 0x26f5d23fb4e588a3af767e9ebc38a28b03536027230121d1a1bb730f9fc72bcf9c6aef841361550b9ba46c8958358e52 ++
  natBE 48 0xdf92e97f28548eff3dd4b21db87a869edb76143527e59212cd7aaa1d8d17ac247cdbf238159b209b215203df8c8fe7c
def repairKey : Nat := 0x47ae9e1db1160794c70c1ef071be5191f6c66240f4608fbe8a44ecd36c3ed5db97500f2e4d84e3fb45850fd6f4303302bd8ac21444cd80d241538d8034b399a0dee3636eb5cb00b9499d061a571db0f14bb47ed79453948ed63f3a6ccbbf6e74f
theorem witness_stack_repair :
    let s (key : Nat) := (State.reset.updMgmt (fun m => { m with
      reeve := true, nonces := [{ endpoint := 0, value := 0 }], maintKeys := [(0, { state := 1, key := key, floor := 0 })] })).updGleaner 447
        (fun x => { x with status := 32 })
    (s repairKey).mgmt.reeve = true ∧ isMaint 3 signedRepair = true ∧ (s repairKey).maintCheck 0 signedRepair = 0 ∧ (s (repairKey + 1)).maintCheck 0 signedRepair = 1 ∧
    ((s repairKey).dropNonce 0).isOut 447 = true := by decide +kernel
/-- The example of FIPS 180-4 for SHA-384: the digest of "abc". -/
theorem test_sha384_abc : sha384 [0x61, 0x62, 0x63] =
    0xcb00753f45a35e8bb5a03d699ac65007272c32ab0eded1631a8b605a43ff5bed8086072ba1e7cc2358baeca134c825a7 := by decide +kernel
theorem witness_management :
    let m (f : MgmtState → MgmtState) := State.reset.updMgmt (fun x => f { x with reeve := true })
    (m id).mgmt.reeve = true ∧ (m (fun x => { x with standby := true })).mgmt.standby = true ∧ (m id).mgmt.standby = false ∧ (m id).sensorValue 34 = some 0 ∧
    (m id).updates false = true ∧ (m id).mgmt.activation = none ∧ (∀ n ∈ [(0 : Nat), 1, 4], ((m (fun x => { x with activation := some { done := n } })).mgmt.activation.map
      (fun a => a.done)) = some n) ∧ (m id).undecided = false ∧ (m (fun x => { x with roll := some 26, rolling := true })).mgmt.roll = some 26 ∧
    (rollGleaners 26).all (m id).quiet = true := by decide +kernel
theorem witness_bring_up_and_power :
    let p (ph : BootPhase) := State.reset.updMgmt (fun m => { m with phase := ph })
    State.reset.mgmt.phase = .off ∧ State.reset.mgmt.thermTrip = false ∧ (∀ ph ∈ [BootPhase.bootRom, .firmware, .training, .hbmTrained, .trained],
      (p ph).mgmt.phase = ph ∧ (p ph).mgmt.phase ≠ .off) ∧ (p .ready).mgmt.dipping = false ∧ (p .ready).mgmt.reeve = false ∧ 1 ≤ 32 ∧
    ((p .ready).updMgmt (fun m => { m with reeve := true, dipping := true })).mgmt.dipping = true := by decide +kernel

/-! ### The spec's worked examples -/

/-- The conversions worked to the bit in chapter 3. -/
theorem test_conversions :
    let c (src dst : Format) (mode : Rounding) (x : Nat) : Nat × NumFlags := convert src { scale := 0x3800 } dst {} mode 0 x
    c .b32 .sf32 .rne 0x3F800000 = (0x3FF00000, flagNone) ∧ c .b32 .bf16 .rne 0x3F808000 = (0x3F80, flagNone) ∧
    c .b32 .bf16 .rna 0x3F808000 = (0x3F81, flagNone) ∧ c .b32 .e4m3 .rne 0x43960000 = (0x79, flagNone) ∧ c .b32 .e4m3 .rup 0x43960000 = (0x7A, flagNone) ∧
    c .b32 .e5m2 .rne 0x43960000 = (0x5D, flagNone) ∧ c .b32 .e4m3 .rtz 0x43FA0000 = (0x7E, flagOF) ∧ c .b32 .e4m3 .rne 0x7F800000 = (0x7E, flagNV) ∧
    c .b32 .b16 .rne 0x477FF000 = (0x7C00, flagOF) ∧ c .b32 .b16 .rtz 0x477FF000 = (0x7BFF, flagNone) ∧ c .b32 .b16 .rne 0x7FC00001 = (0x7E00, flagNone) ∧
    c .sf32 .b32 .rne 0x7FE00000 = (0x7F800000, flagOF) ∧ c .sf32 .b32 .rtz 0x7FE00000 = (0x7F7FFFFF, flagOF) ∧
    c .sf32 .b32 .rne 0x00100000 = (0, flagUF) ∧ c .b32 .int8 .rne 0xC06CCCCD = (0xFC, flagNone) ∧ c .b32 .int8 .rtz 0xC06CCCCD = (0xFD, flagNone) ∧
    c .b32 .int8 .rup 0x43480000 = (0x7F, flagOF) ∧ c .bg4 .b32 .rne 3 = (0xBE560000, flagNone) ∧ c .bg4 .b32 .rne 12 = (0x3E560000, flagNone) ∧
    c .b32 .bg4 .rne 0x3E99999A = (11, flagNone) ∧ c .b32 .bg4 .rdn 0x3E99999A = (10, flagNone) ∧
    convert .b32 {} .bg4 {} .stoch 57146 0x3E99999A = (11, flagNone) ∧ convert .b32 {} .bg4 {} .stoch 57147 0x3E99999A = (10, flagNone) := by decide +kernel
/-- The AQ8 activation of chapter 3: 1.0 and back, and 7.0 clamped. -/
theorem test_aq8 :
    let p : ScaleInfo := { scale := 0x3D4CCCCD, zeroPoint := 128 }
    convert .b32 {} .aq8 p .rne 0 0x3F800000 = (0x94, flagNone) ∧ convert .aq8 p .b32 {} .rne 0 0x94 = (0x3F800000, flagNone) ∧
    convert .b32 {} .aq8 p .rne 0 0x40E00000 = (0xFF, flagOF) := by decide +kernel
/-- The address of the forecast readings of chapter 13. -/
theorem test_placement : State.reset.placePhys { tier := 0, channel := 0, stripe := 372, length := 0, offset := 0x04000000 } 0x12345678 = 0x0065048C5678 := by
  decide +kernel
/-- DEV_CORE_MAP of a cluster whose physical core 7 has taken logical core 3 (chapter 22), before and after the harrow pass of core 3. -/
theorem test_core_map :
    let s (free : Bool) : State := { State.reset with coreMap := [(6, { phys := [0, 1, 2, 7, 4, 5, 6], present := 127, spare := 3, spareFree := free })] }
    (s false).regWord 0 0x118 = some 0x3EDCFA98 ∧ (s true).regWord 0 0x118 = some 0xBEDCFA98 ∧ ((s true).regWord 0 0x4D7100).isSome = true := by decide +kernel
/-- R220's CRC: the check value of its polynomial and initial value over the nine ASCII digits 1 to 9 (general knowledge of CRC-16). -/
theorem test_crc : crc16 [0x31, 0x32, 0x33, 0x34, 0x35, 0x36, 0x37, 0x38, 0x39] = 0x29B1 := by decide +kernel

/-- MSI-X (PCI Express, log 39): a vector of a function at reset is masked and its message pends; unmasking sends it and clears its pending bit. -/
theorem test_msix_mask :
    let s := State.reset.updMgmt (fun m => { m with ready := true })
    let t := s.fnVector 31 2047
    let u := t.writeMsix 31 0x17FFC 0
    t.out = [] ∧ t.readMsix 31 0x180FC = 2 ^ 31 ∧ t.readMsix 31 0x17FFC = 1 ∧ u.out = [.msix 31 2047] ∧ u.readMsix 31 0x180FC = 0 ∧ (u.fnVector 31 2046).out = u.out ∧
    (match exec (.registerWrite 31 0x1017FFC [0] false) t with
      | .next v => decide (v.fn 31 = u.fn 31 ∧ v.out = u.out)
      | _ => false) = true := by decide +kernel

/-! ### Ill-formed commands -/

def refusedAsIll (c : Instr) : Bool := !c.wellFormed && (match exec c State.reset with
  | .fault .noSuchUnit => true
  | _ => false)
/-- One command for each bound of a unit number, one past it. -/
theorem test_ill_formed_compute : [
    Instr.nop 192 exWord, .clipCount 24 0 0 0 0, .stealRequest 192 0, .stealRequest 0 24, .dmaCopy 24 0 .clean, .rowArrive 24 0 0 0 none [], .sequencerAbort 24 0 none,
    .tableWrite 1024 0, .rawRead 448 exReq, .epochDistribute 448 0 0 0 [], .epochDistribute 0 8 0 0 [], .moveUpdate 28 0 0 0 0, .glnNop 448 0 exG,
    .evacuateBale 12, .interfaceRetrainingStart 16, .recordReceive 0 448 { addr := 0, tag := 0, record := 0, part := 0, marks := 0, count := 0, payload := [] },
    .preemptCheck 24, .priorityUpdate 8, .coreLockstep 192 0, .clusterLockstep 24, .trafficTestDone 448 0].all refusedAsIll = true := by decide +kernel
theorem test_ill_formed_outside : [
    Instr.flr 32, .hotReset 2, .heartbeatTimeout 32, .heartbeatBeat 0 32, .attachResume 32 0, .checkReadTimeout 1024, .cstopResume 0 1024, .doorbell 32 0 none none,
    .doorbell 0 1024 none none, .commandFetch 1056, .sealRecheck 1024, .queueCreate 32, .segWrite 32, .xltCopyUpdate 30 0, .xltCopyAck 30 0, .subscriberAck 448 0,
    .stationTagAck 14 0, .xltSegSelect 33 0, .remoteWrite 8 false [], .igrumAck 8 false [], .portModeWrite 32 0 0, .portModeWrite 0 8 0, .ethLinkUp 8 false,
    .ackTimer 128 0, .ackTimer 0 8, .probeTimeout 128, .sendRingPoll 128, .igtEntryRead 32 0, .windowDrainAck 2 0, .teardownComplete 256, .partitionScrubDone 8,
    .mergeWindowExpire 2, .fltTailWrite 32 0, .recoveryStart 2, .diePllLoss 4, .warmResetDone 4, .histSelect 32 0, .clockStepDone 2, .thresholdCrossing 0,
    .thresholdCrossing 35, .registerWrite 32 0 [] false, .d2dFlitReceive 15 0 0 true (zeroBytes 240), .d2dFlitReceive 0 2 0 true (zeroBytes 240), .d2dModuleFail 15 0,
    .stackRepair 0 [] 448 [] false false, .mctpControl 3 0 []].all refusedAsIll = true := by decide +kernel
/-- The last unit of each kind is well formed. -/
theorem test_well_formed : [
    Instr.nop 191 exWord, .clipCount 23 0 0 0 0, .tableWrite 1023 0, .rawRead 447 exReq, .epochDistribute 447 7 0 0 [], .moveUpdate 27 0 0 0 0, .evacuateBale 11,
    .interfaceRetrainingStart 15, .flr 31, .hotReset 1, .heartbeatBeat 31 31, .commandFetch 1055, .xltCopyUpdate 29 0, .stationTagAck 13 0, .remoteWrite 7 true [],
    .ackTimer 127 7, .windowDrainAck 1 0, .teardownComplete 255, .diePllLoss 3, .clockStepDone 1, .thresholdCrossing 34, .d2dFlitReceive 14 1 0 true (zeroBytes 240),
    .mctpControl 2 0 []].all Instr.wellFormed = true := by decide +kernel
/-- Reset lists nothing in any memory, so each is in canonical form; a queue of one command is taken by one step. -/
theorem test_reset : Mem.wf (State.reset.core 191).bin = true ∧ Mem.wf (State.reset.cluster 23).bin = true ∧ Mem.wf (State.reset.gleaner 447).data = true ∧
    Mem.wf (Mem.put (Mem.put [] 2 [1, 2]) 2 [0, 3]) = true ∧ Mem.put (Mem.put [] 2 [1, 2]) 2 [0, 0] = [] ∧
    (match step (State.reset.withCommand .powerOn) with
      | .next s => decide (s.pending = [] ∧ s.mgmt.phase = .bootRom)
      | _ => false) = true := by decide +kernel

end Sys2Proof.Machine
end

section
/-!
PROOFS. Every command answers by whether the units it names exist (O6): one lemma a guard and one a shared operation, then the split over the commands.
-/

namespace Sys2Proof.Machine

/-- The answer of a command that names only units of the device if `ok`: a next state then, and otherwise the fault `noSuchUnit`. -/
def AnswersFor (ok : Bool) : Answer → Prop
  | .next _ => ok = true
  | .fault .noSuchUnit => ok = false
  | .refused _ => False

theorem next_answers (t : State) : AnswersFor true (.next t) := rfl

/-! ### The guards on unit numbers -/

theorem guard_answers {p : Prop} [Decidable p] {ok : Bool} {a : Answer} (h : AnswersFor ok a) :
    AnswersFor (decide p && ok) (if p then a else .fault .noSuchUnit) := by
  by_cases hp : p
  · simpa [hp] using h
  · simp [hp, AnswersFor]
/-- A guard before a command that completes. -/
theorem onlyGuard_answers {p : Prop} [Decidable p] {a : Answer} (h : AnswersFor true a) :
    AnswersFor (decide p) (if p then a else .fault .noSuchUnit) := by
  simpa using guard_answers (p := p) h
theorem absent_answers {p q : Prop} [Decidable p] [Decidable q] {a : Answer} (hq : q ↔ ¬p) (h : AnswersFor true a) :
    AnswersFor (decide p) (if q then .fault .noSuchUnit else a) := by
  by_cases hp : p
  · simpa [hq, hp] using h
  · simp [hq, hp, AnswersFor]
theorem limit_answers {n b : Nat} {a : Answer} (h : AnswersFor true a) :
    AnswersFor (decide (n < b)) (if b ≤ n then .fault .noSuchUnit else a) := absent_answers Nat.not_lt.symm h

section
variable {s : State} {f : State → Answer} (h : AnswersFor true (f s))
include h

theorem onCore_answers {k : Nat} : AnswersFor (decide (k < 192)) (onCore k s f) := onlyGuard_answers h
theorem onCluster_answers {c : Nat} : AnswersFor (decide (c < 24)) (onCluster c s f) := onlyGuard_answers h
theorem onPart_answers {p : Nat} : AnswersFor (decide (p < 8)) (onPart p s f) := onlyGuard_answers h
theorem onGleaner_answers {g : Nat} : AnswersFor (decide (g < 448)) (onGleaner g s f) := onlyGuard_answers h
theorem onFn_answers {n : Nat} : AnswersFor (decide (n < 32)) (onFn n s f) := onlyGuard_answers h
theorem onPort_answers {q : Nat} : AnswersFor (decide (q < 2)) (onPort q s f) := onlyGuard_answers h
theorem onAtt_answers {a : Nat} : AnswersFor (decide (a < 32)) (onAtt a s f) := onlyGuard_answers h
theorem onQueue_answers {q : Nat} : AnswersFor (decide (q < 1024)) (onQueue q s f) := onlyGuard_answers h
theorem onEth_answers {p : Nat} : AnswersFor (decide (p < 8)) (onEth p s f) := onlyGuard_answers h
theorem onPeer_answers {k : Nat} : AnswersFor (decide (k < 128)) (onPeer k s f) := onlyGuard_answers h
theorem onCopy_answers {n : Nat} : AnswersFor (decide (n < 30)) (onCopy n s f) := onlyGuard_answers h
theorem onPackage_answers {p : Nat} : AnswersFor (decide (p < 16)) (onPackage p s f) := onlyGuard_answers h
theorem onStream_answers {k vc : Nat} : AnswersFor (decide (k < 128) && decide (vc < 8)) (onStream k vc s f) := by
  rw [← Bool.decide_and]; exact onlyGuard_answers h
theorem onLink_answers {l d : Nat} : AnswersFor (decide (l < 15) && decide (d < 2)) (onLink l d s f) := by
  rw [← Bool.decide_and]; exact onlyGuard_answers h
theorem onGleanerPart_answers {g p : Nat} : AnswersFor (decide (g < 448) && decide (p < 8)) (onGleanerPart g p s f) :=
  guard_answers (onPart_answers h)
/-- BAR0 before READY serves nothing, and its commands leave the state. -/
theorem onBar0_answers {n : Nat} : AnswersFor (decide (n < 32)) (onBar0 n s f) :=
  onFn_answers (by split; exacts [h, next_answers s])
end

/-! ### The shared operations: under its guard, each ends in a next state -/

section
variable {k : Nat} {w : VWord} {s : State}

theorem issue_answers {b : State → CoreState → Issue} : AnswersFor (decide (k < 192)) (issue k b s) :=
  onCore_answers (by dsimp only; split <;> exact next_answers _)
theorem issueUnit_answers {b : State → CoreState → Issue} : AnswersFor (decide (k < 192)) (issueUnit k w b s) := issue_answers
theorem issueRegs_answers {f : VecRegs → VecRegs} : AnswersFor (decide (k < 192)) (issueRegs k f s) := issue_answers
theorem issueLanes_answers {f : VecRegs → Nat → LaneOut} : AnswersFor (decide (k < 192)) (issueLanes k w f s) := issue_answers
theorem issueBits_answers {f : Word32 → Word32 → Word32} : AnswersFor (decide (k < 192)) (issueBits k w f s) := issueLanes_answers
theorem issueScalar_answers {f : Word64 → Word64 → Word64} : AnswersFor (decide (k < 192)) (issueScalar k w f s) := issueRegs_answers
theorem issueMask_answers {f : Word128 → Word128 → Word128} : AnswersFor (decide (k < 192)) (issueMask k w f s) := issueRegs_answers
theorem issueReduce_answers {n : Nat} {op : Word32 → Word32 → LaneOut} : AnswersFor (decide (k < 192)) (issueReduce k w n op s) := issue_answers
end

section
variable {g t : Nat} {s : State}

theorem issueG_answers {n : Nat} {b : State → Thread → GStep} : AnswersFor (decide (g < 448)) (issueG g t n b s) :=
  onGleaner_answers (by (repeat' split) <;> exact next_answers _)
theorem issueThread_answers {f : Thread → Thread} : AnswersFor (decide (g < 448)) (issueThread g t f s) := issueG_answers
theorem issueGScalar_answers {w : GWord} {f : Word64 → Word64 → Word64} : AnswersFor (decide (g < 448)) (issueGScalar g t w f s) :=
  issueThread_answers
end

theorem onAdmissible_answers {c q : Nat} {op : XferOp} {f : State → Xfer → State} {s : State} :
    AnswersFor (decide (c < 24)) (onAdmissible c q op s f) :=
  onCluster_answers (by (repeat' split) <;> exact next_answers _)
theorem onAdminRaw_answers {f op : Nat} {b : State → AdminCmd → State} {s : State} : AnswersFor (decide (f < 32)) (onAdminRaw f op s b) :=
  onFn_answers (by dsimp only; (repeat' split) <;> exact next_answers _)
theorem onAdmin_answers {f op n : Nat} {b : State → AdminCmd → State} {s : State} : AnswersFor (decide (f < 32)) (onAdmin f op n s b) :=
  onAdminRaw_answers
theorem onChange_answers {f op n : Nat} {s : State} : AnswersFor (decide (f < 32)) (onChange f op n s) := onAdminRaw_answers
theorem onFrame_answers {p type op : Nat} {half : Bool} {frame : List Byte} {f : State → Nat → Nat → Bool → List Byte → State} {s : State} :
    AnswersFor (decide (p < 8)) (onFrame p half frame type op s f) :=
  onEth_answers (by dsimp only; (repeat' split) <;> exact next_answers _)
theorem onRequest_answers {p op : Nat} {half : Bool} {frame : List Byte}
    {f : State → Nat → Bool → Nat → Nat → Nat → List Byte → State} {s : State} :
    AnswersFor (decide (p < 8)) (onRequest p half frame op s f) := onFrame_answers
theorem maintenance_answers {command ep : Nat} {msg : List Byte} {b : State → List Byte → State × Nat × List Byte} {s : State} :
    AnswersFor true (maintenance command ep msg s b) := by
  unfold maintenance
  (repeat' split) <;> exact next_answers _
theorem onReeve_answers {f : State → State} {s : State} : AnswersFor true (onReeve s f) := by
  unfold onReeve; split <;> exact next_answers _
theorem onHeld_answers {f a : Nat} {h : State → State} {s : State} : AnswersFor (decide (f < 32) && decide (a < 32)) (onHeld f a s h) := by
  rw [Bool.and_comm]
  exact guard_answers (onBar0_answers (by split <;> exact next_answers _))

/-! ### Commands with much of their own -/

theorem execD2dModuleFail_answers {l module : Nat} {s : State} : AnswersFor (decide (l < 15)) (execD2dModuleFail l module s) := by
  have h : AnswersFor (decide (l < 15) && decide (0 < 2)) (execD2dModuleFail l module s) :=
    onLink_answers (by dsimp only; split <;> exact next_answers _)
  simpa using h
/-- The 1024 queues and the 32 administrative ones after them. -/
theorem execCommandFetch_answers {q : Nat} {s : State} : AnswersFor (decide (q < 1056)) (execCommandFetch q s) := by
  unfold execCommandFetch
  split
  case isTrue hq =>
    have e : decide (q < 1056) = decide (q - 1024 < 32) := decide_eq_decide.2 (by omega)
    rw [e]
    exact onFn_answers (next_answers _)
  case isFalse hq =>
    have e : decide (q < 1056) = decide (q < 1024) := decide_eq_decide.2 (by omega)
    rw [e]
    exact onQueue_answers (next_answers _)
theorem execTableWrite_answers {q seq : Nat} {s : State} : AnswersFor (decide (q < 1024)) (execTableWrite q seq s) :=
  onQueue_answers (by
    split
    · exact next_answers _
    · extract_lets
      split
      · exact next_answers _
      · extract_lets
        split
        · exact next_answers _
        · split
          split <;> exact next_answers _)
theorem execGridRowWrite_answers {k : Nat} {upset : Option GridUpset} {s : State} :
    AnswersFor (decide (k < 192)) (execGridRowWrite k upset s) :=
  onCore_answers (by
    extract_lets
    split
    · exact next_answers _
    · extract_lets
      split
      · exact next_answers _
      · split
        extract_lets
        split
        · exact next_answers _
        · extract_lets
          split <;> exact next_answers _)
theorem execResumeDone_answers {k : Nat} {s : State} : AnswersFor (decide (k < 192)) (execResumeDone k s) :=
  onCore_answers (by
    extract_lets
    split
    · exact next_answers _
    · split
      · exact next_answers _
      · extract_lets
        split
        extract_lets
        split
        · split <;> exact next_answers _
        · exact next_answers _)

/-! ### Every command -/

/-- Every command answers by whether it names only units of the device. -/
theorem exec_answers (c : Instr) (s : State) : AnswersFor c.wellFormed (exec c s) := by
  cases c <;> dsimp only [exec, Instr.wellFormed]
  -- A shared operation, which has a guard and a lemma of its own.
  case sld | sst | loopOpen | loopClose | coreEnd | fence | vrdt | vld | vst | vgth => exact issue_answers
  case gtile | gwait | wnw | wwait | sfu | rowput | sflush | dmaq | dmark => exact issueUnit_answers
  case nop | sli | slui | saddi | seed | vext | vcmp | vxcmp | mpop | mfirst | vflg | vfclr => exact issueRegs_answers
  case sadd | ssub | smul | sand | sor | sxor | sshl | sshr | ssra => exact issueScalar_answers
  case vadd | vsub | vmul | vfma | vmin | vmax | vabs | vneg | vsel | vcvt | vbcast | viota | vrev | vrot | vperm | vxchg =>
    exact issueLanes_answers
  case vand | vor | vxor | vshl | vshr | vsra => exact issueBits_answers
  case vrsum | vrmax | vrmin => exact issueReduce_answers
  case mand | mor | mxor | mandn | mnot | mfill => exact issueMask_answers
  case sarg | glnLoop | glnEndloop | hash | gpool | dot | expacc | vop | addm | casm | emit | emits | wrow => exact issueG_answers
  case glnNop | glnSli | glnSlui | glnSaddi | glnEnd => exact issueThread_answers
  case glnSadd | glnSsub | glnSmul | smulh | glnSand | glnSor | glnSxor | glnSshl | glnSshr => exact issueGScalar_answers
  case dmaCopy | dmaRequest | dmaLookup | dmaPromote | dmaDemote => exact onAdmissible_answers
  case partitionDefine | planLoad | handleSet => exact onAdminRaw_answers
  case planUnload | slotMap | queueCreate | queueDestroy => exact onAdmin_answers
  case segWrite | segDrain | windowWrite => exact onChange_answers
  case remoteWrite | remoteRead | remoteRowRead | remoteRowWrite | remoteRowAdd | remoteRowCas | remoteInvoke | remoteResp =>
    exact onRequest_answers
  case igrumAck | igrumNak | igrumProbe => exact onFrame_answers
  case heartbeatBeat | hostDetach => exact onHeld_answers
  case keyEnroll | keyRevoke | historyClear | testStart | imagePrefer | debugUnlock | debugLockBlow => exact maintenance_answers
  case getNonce | mgmtRead | mgmtReset | mgmtCap | pldmGetSensor | pldmSetEffecter => exact onReeve_answers
  -- Commands with a lemma of their own.
  case tableWrite => exact execTableWrite_answers
  case gridRowWrite => exact execGridRowWrite_answers
  case resumeDone => exact execResumeDone_answers
  case d2dModuleFail => exact execD2dModuleFail_answers
  case commandFetch => exact execCommandFetch_answers
  -- One condition, and a last state with many of its own.
  case harrowComplete => exact onCore_answers (by dsimp only; split <;> exact next_answers _)
  case trafficTestDone => exact onGleaner_answers (by dsimp only; split <;> exact next_answers _)
  case igtEntryWrite => exact onBar0_answers (by dsimp only; split <;> exact next_answers _)
  -- A guard before another lemma's operation, or of another form.
  case igrumProbeReply =>
    dsimp only [execIgrumProbeReply]
    rw [← Bool.and_self (decide _)]
    exact guard_answers onFrame_answers
  case stackRepair => exact onGleaner_answers maintenance_answers
  case mctpControl => exact limit_answers onReeve_answers
  case thresholdCrossing =>
    rw [← Bool.decide_and]
    exact absent_answers (by omega) (next_answers _)
  -- No unit is named, and there is one next state.
  case energyCommit | accSnap | faultReport | serviceTimeTick | nonceExpire | powerLoss | tapReset | inputRestored => exact next_answers _
  -- The guards of all others go; behind them, or with no guard, every branch ends in a next state.
  case' stealRequest =>
    dsimp only [execStealRequest]
    refine guard_answers (onCluster_answers ?_)
  case' credRead =>
    dsimp only [execCredRead]
    refine guard_answers (onAtt_answers ?_)
  case' attachResume | attachAdopt | cstopResume | doorbell | portModeWrite =>
    dsimp only [execAttachResume, execAttachAdopt, execCstopResume, execDoorbell, execPortModeWrite]
    rw [Bool.and_comm]
    refine guard_answers (onBar0_answers ?_)
  case' mirrorReadReturn =>
    dsimp only [execMirrorReadReturn]
    refine onGleaner_answers ?_
  case' xltSegSelect => refine absent_answers Nat.not_le.symm ?_
  case' gridAbort | winnowRowDone | tileIssue | itemRetire | preemptQuiesceDone | preemptSaveDone | harrowDeferExpire | coreAbort |
      coreLockstep | diagnosisDone | stealCopyDone | columnDiagnosis | harrowDue | harrowStart =>
    refine onCore_answers ?_
  case' dmaAbort | preemptCheck | clipCount | sequencerAbort | clusterLockstep | rowArrive | sheafTimer | clusterSelftestDone =>
    refine onCluster_answers ?_
  case' loadWindow | rawRead | rawWrite | rowRead | rowWrite | rowAdd | rowCas | invoke | tagWrite | gleanerAbort | stubbleRowArrive |
      patrolRead | recordReceive | endRecordReceive | migrationCopy | migrationCopyAck | forwardStart | moveMarker | moveMarkerForward |
      threadStart | glnEndRetire | loftDeadline | subscriberAck | channelAccessComplete | replicaWithdrawMarker | replicaRefresh |
      stubbleRefresh | reservedRequestKind | gpoolRowArrive | requestOverrun | tagWriteDrained | poisonRecheck =>
    refine onGleaner_answers ?_
  case' epochDistribute | pinSetUpdate | epochAck => refine onGleanerPart_answers ?_
  case' partitionScrubDone | planSwitch | unloadComplete | loadInstallDone | priorityUpdate => refine onPart_answers ?_
  case' registerWrite | flr | busMasterDisable | d3hotEntry | memSpaceEnable | bar2Write | bar2Read | pairLoRead | bar2Resize =>
    refine onFn_answers ?_
  case' adminDoorbell | semSelect | pairHiWrite | attachReplay | igtEntryRead | fltTailWrite | histSelect | accessClear
      | intCtlWrite | attachNew | fltTeardown =>
    refine onBar0_answers ?_
  case' perstAssert | hotReset | pcieLinkDown | perstDeassert | pcieRetrainTimeout | pcieLinkRetrain | pcieLinkL0 =>
    refine onPort_answers ?_
  case' heartbeatTimeout | attachLockoutExpire | tlpAcknowledge | journalEmpty => refine onAtt_answers ?_
  case' sealRecheck | epochAdvance | tablePin | tableUnpin | migrate | replicate | checkReadComplete | queueDestroyFinal |
      commandDispatch | run | semSet | completionRecordIssue | checkReadTimeout | cmdNop =>
    refine onQueue_answers ?_
  case' xltCopyUpdate | xltCopyAck => refine onCopy_answers ?_
  case' ethLinkDown | pfcPauseExpire | ethLinkUp | ethFrameReceive | pfcFrame => refine onEth_answers ?_
  case' probeTimeout | pathProbeTimer => refine onPeer_answers ?_
  case' pacingTimer | ackTimer | retxTimer | sendOperation | rxReservationRelease => refine onStream_answers ?_
  case' d2dFlitReceive => refine onLink_answers ?_
  case' interfaceRetrainingStart | interfaceRetrainingDone => refine onPackage_answers ?_
  case' moveUpdate | progressSample | diePllLoss | clockStepDone | currentLimitTrip | evacuateBale | stationTagAck | sendRingPoll |
      teardownComplete | recoveryStart | windowDrainAck | mergeWindowExpire | warmResetDone | engineHeartbeatTimeout =>
    refine limit_answers ?_
  case' loadStart | loadDecide | baleFlip | baleDrainMarker | workEndNotice | captureDone | unitResetDone | historyWriteDone |
      reeveTakeover | reeveRestart | powerOn | imageVerifyDone | hbmTrainingDone | lpddrTrainingDone | bistDone | powerLoopTick |
      thermalTrip | inputDip | dipTimeout | inputCollapse | pldmFwTransfer | pldmActivateFirmware | activationStep | microcodeRollStep |
      microcodeLoad | tapInstruction | pwrGoodRise | diePowerUpDone =>
    dsimp only [execLoadStart, execLoadDecide, execBaleFlip, execBaleDrainMarker, execWorkEndNotice, execCaptureDone, execUnitResetDone,
      execHistoryWriteDone, execReeveTakeover, execReeveRestart, execPowerOn, execImageVerifyDone, execHbmTrainingDone,
      execLpddrTrainingDone, execBistDone, execPowerLoopTick, execThermalTrip, execInputDip, execDipTimeout, execInputCollapse,
      execPldmFwTransfer, execPldmActivateFirmware, execActivationStep, execMicrocodeRollStep, execMicrocodeLoad, execTapInstruction,
      execPwrGoodRise, execDiePowerUpDone]
  all_goals try dsimp only
  all_goals repeat' split
  all_goals exact next_answers _

/-! ### O6 -/

theorem AnswersFor.completes {a : Answer} (h : AnswersFor true a) : ∃ t, a = .next t := by
  match a, h with
  | .next t, _ => exact ⟨t, rfl⟩
  | .fault .noSuchUnit, h => cases h
theorem AnswersFor.faults {a : Answer} (h : AnswersFor false a) : a = .fault .noSuchUnit := by
  match a, h with
  | .next _, h => cases h
  | .fault .noSuchUnit, _ => rfl
theorem AnswersFor.not_refused {ok : Bool} {a : Answer} (h : AnswersFor ok a) (r : Refusal) : a ≠ .refused r := by
  rintro rfl
  exact h

/-- Settles O6: each command is a guard on its unit numbers before branches that all end in a next state (`exec_answers`). -/
theorem wellFormedCommandsComplete : Obligations.WellFormedCommandsComplete := by
  intro c s
  have h := exec_answers c s
  exact ⟨fun hw => (hw ▸ h).completes, fun hw => (hw ▸ h).faults, h.not_refused⟩

end Sys2Proof.Machine
end

section
/-!
PROOFS. Accesses of BAR0 (O51): one write of a word, one read of a word, and the pairs (R12 to R16, R599 to R601).
-/

namespace Sys2Proof.Machine

/-! ### Writes (R12 to R15, R600) -/

/-- A write with partial byte enables, or of fewer than four bytes, is an access error (R600). -/
theorem execRegisterWrite_narrow {f off : Nat} {words : List Word32} {s : State} (hf : f < 32) (ho : off < 2 ^ 24) :
    execRegisterWrite f off words true s = .next (s.accessError f off) := by
  unfold execRegisterWrite
  rw [onFn_runs hf, if_neg (by omega), if_pos rfl]
/-- A write of one DWORD. -/
theorem execRegisterWrite_word {f off : Nat} {w : Word32} {s : State} (hf : f < 32) (ho : off < 2 ^ 24) :
    execRegisterWrite f off [w] false s = .next (s.writeOne f off w) := by
  unfold execRegisterWrite
  rw [onFn_runs hf, if_neg (by omega), if_neg (by decide)]
  rfl

section
variable {s : State} {f off : Nat} {w : Word32}

theorem writeOne_unmapped (h : s.regWord f off = none) : s.writeOne f off w = s.accessError f off := by
  simp [State.writeOne, h]
theorem writeOne_low (hs : s.served = true) (hw : (s.regWord f off).isSome = true) (hp : (s.regPair f off).isSome = true) :
    s.writeOne f off w = s.holdLow f off w := by
  obtain ⟨v, hv⟩ := Option.isSome_iff_exists.1 hw
  simp [State.writeOne, hv, hs, hp]
theorem writeOne_single (hs : s.served = true) (hw : (s.regWord f off).isSome = true) (hp : (s.regPair f off).isSome = false)
    (hh : off < 4 ∨ (s.regPair f (off - 4)).isSome = false) : s.writeOne f off w = s.writeSingle f off w.toNat := by
  obtain ⟨v, hv⟩ := Option.isSome_iff_exists.1 hw
  have hhigh : ¬(4 ≤ off ∧ (s.regPair f (off - 4)).isSome = true) := by
    rintro ⟨h4, h⟩
    rcases hh with hh | hh
    · omega
    · simp [h] at hh
  simp only [State.writeOne, hv, hs, hp, hhigh]
  simp
/-- A write of GFE_STATUS clears the bits written 1 (R14). -/
theorem writeSingle_gfeStatus {v : Nat} : s.writeSingle f 0x10000 v =
    s.clearing (fun s => { s with gfe := { s.gfe with status := writeOnes s.gfe.status v } }) := rfl
/-- A write of the upper half of the pair at `off` (R13). -/
theorem execPairHiWrite_pair (hf : f < 32) (hr : s.mgmt.ready = true) (hp : (s.regPair f off).isSome = true) :
    execPairHiWrite f (off + 4) w s = .next (s.writeHigh f off w) := by
  unfold execPairHiWrite
  rw [onBar0_runs hf hr, Nat.add_sub_cancel, if_pos ⟨Nat.le_add_left 4 off, hp⟩]

/-! ### Reads (R12, R13, R600) -/

/-- An aligned 8-byte read of a pair returns both halves and captures nothing. -/
theorem execPairLoRead_pair (hf : f < 32) (hc : credOffset off = false) (ho : off % 8 = 0) (hp : (s.regPair f off).isSome = true) :
    execPairLoRead f ⟨off, 8⟩ s =
      .next (s.send (.completion f (natLE 4 ((s.barWord f off).getD 0) ++ natLE 4 ((s.barWord f (off + 4)).getD 0)))) := by
  unfold execPairLoRead
  rw [onFn_runs hf, if_neg (by simp [hc]), if_pos ⟨rfl, ho, hp⟩]
/-- What answers a read that takes `r.2` from the state and leaves `r.1`: `n` of its bytes from byte `i`. -/
def answerBytes (f i n : Nat) (r : State × Nat) : Answer := .next (r.1.send (.completion f (((natLE 4 r.2).drop i).take n)))
/-- A read of 1 to 4 bytes of one aligned word reads that word and answers with the addressed bytes. -/
theorem execPairLoRead_word {i n : Nat} (hf : f < 32) (hc : credOffset (off + i) = false) (ho : off % 4 = 0) (hn : 0 < n) (hi : i + n ≤ 4) :
    execPairLoRead f ⟨off + i, n⟩ s = answerBytes f i n (s.readWord f off (off + i)) := by
  have hfirst : (off + i) / 4 * 4 = off := by omega
  have hcount : ceilDiv (off + i + n - off) 4 = 1 := by unfold ceilDiv; omega
  have hbyte : (off + i) % 4 = i := by omega
  unfold execPairLoRead
  rw [onFn_runs hf, if_neg (by simp [hc]), if_neg (by rintro ⟨h8, -⟩; simp only at h8; omega)]
  simp only [hfirst, hcount, hbyte, State.readWords, List.append_nil, Nat.max_eq_right (Nat.le_add_right off i), answerBytes]

theorem readWord_unmapped {at_ : Nat} (ho : off < 2 ^ 24) (h : s.barWord f off = none) :
    s.readWord f off at_ = (s.accessError f at_, 0) := by
  unfold State.readWord
  rw [if_neg (by omega), h]
theorem readWord_mapped {at_ v : Nat} (ho : off < 2 ^ 24) (h : s.barWord f off = some v) :
    s.readWord f off at_ = s.takeWord f off v ((s.barWord f (off + 4)).getD 0) := by
  unfold State.readWord
  rw [if_neg (by omega), h]
/-- A read of the lower half captures the upper half. -/
theorem readWord_low {at_ v : Nat} (ho : off < 2 ^ 24) (h : s.barWord f off = some v) (hp : (s.regPair f off).isSome = true) :
    s.readWord f off at_ = (s.setPair (pairKey f off)
      (some { offset := off, write := false, value := BitVec.ofNat 32 ((s.barWord f (off + 4)).getD 0) }), v) := by
  rw [readWord_mapped ho h]
  exact if_pos hp
/-- The next read of the upper half takes what was captured. -/
theorem readWord_high {at_ v : Nat} {c : PairHold} (ho : off + 4 < 2 ^ 24) (h : s.barWord f (off + 4) = some v)
    (hn : (s.regPair f (off + 4)).isSome = false) (hp : (s.regPair f off).isSome = true) (hc : s.pairHold (pairKey f off) = some c) :
    s.readWord f (off + 4) at_ = (s.setPair (pairKey f off) none, c.value.toNat) := by
  rw [readWord_mapped ho h]
  simp [State.takeWord, hn, hp, hc]
theorem readWord_single {at_ v : Nat} (ho : off < 2 ^ 24) (h : s.barWord f off = some v) (hp : (s.regPair f off).isSome = false)
    (hh : off < 4 ∨ (s.regPair f (off - 4)).isSome = false) : s.readWord f off at_ = (s, v) := by
  rw [readWord_mapped ho h]
  rcases hh with hh | hh
  · simp [State.takeWord, hp, Nat.not_le.2 hh]
  · simp [State.takeWord, hp, hh]
end

/-! ### O51 -/

/-- Settles O51: each access is one word written (`State.writeOne`), one word read (`State.readWord`) or a whole pair. -/
theorem registerAccessesReadAndWrite : Obligations.RegisterAccessesReadAndWrite := by
  intro f off value words s hf ho failed capture hold single
  have write {o : Nat} (h : o < 2 ^ 24) {t : State} (hw : s.writeOne f o value = t) : exec (.registerWrite f o [value] false) s = .next t :=
    (execRegisterWrite_word hf h).trans (congrArg _ hw)
  refine ⟨execRegisterWrite_narrow hf ho, fun hw => write ho (writeOne_unmapped hw),
    fun hs hw ⟨hp, hh⟩ => write ho (writeOne_single hs hw hp hh),
    fun hs hw hp hh => write (by decide) ((writeOne_single hs hw hp (.inr hh)).trans writeSingle_gfeStatus),
    fun hs hw hp => write ho (writeOne_low hs hw hp), fun pair hr hp => ?high, execPairLoRead_pair hf, fun i n ha hn hi => ?reads⟩
  case high =>
    refine (execPairHiWrite_pair hf hr (by rw [hp]; rfl)).trans (congrArg _ ?_)
    simp only [State.writeHigh, hp]
    rfl
  case reads =>
    have read {o : Nat} (h4 : o % 4 = 0) (hc : credOffset (o + i) = false) {r : State × Nat} (hr : s.readWord f o (o + i) = r) :
        exec (.pairLoRead f ⟨o + i, n⟩) s = answerBytes f i n r := (execPairLoRead_word hf hc h4 hn hi).trans (congrArg _ hr)
    exact ⟨fun hc hw => read ha hc (readWord_unmapped ho hw), fun v hc hw hp => read ha hc (readWord_low ho hw hp),
      fun v c ho4 hc hw hn hp hh => read (by omega) hc (readWord_high ho4 hw hn hp hh),
      fun v hc hw ⟨hp, hh⟩ => read ha hc (readWord_single ho hw hp hh)⟩

end Sys2Proof.Machine
end

section
/-!
PROOFS. Die-to-die links (O50): what the receiver's record of a path is after a write, what the retry buffer keeps and sends, and the two commands
(R26, R27).
-/

namespace Sys2Proof.Machine

/-! ### The record of one direction of a link -/

theorem onLink_runs {l d : Nat} {s : State} {f : State → Answer} (hl : l < 15) (hd : d < 2) : onLink l d s f = f s := if_pos ⟨hl, hd⟩

section
variable {s : State} {l d : Nat} {p q : FlitPath}

@[simp] theorem flitPath_setFlitPath : (s.setFlitPath l d p).flitPath l d = p := Tbl.get_set_same _ _ _ _
@[simp] theorem setFlitPath_setFlitPath : (s.setFlitPath l d p).setFlitPath l d q = s.setFlitPath l d q := by
  simp [State.setFlitPath, State.updMgmt]
/-- A replay asked for on a path just written asks from the flit that the path written expects. -/
theorem replayFlits_setFlitPath : (s.setFlitPath l d p).replayFlits l d =
    (s.setFlitPath l d { p with replaying := true }).send (.flitReplay l d p.expected) := by
  simp [State.replayFlits]
end

/-! ### The sender's retry buffer -/

section
variable {p : FlitPath} {seq : Nat} {payload : List Byte}

/-- Keeping a flit changes the retry buffer alone. -/
theorem FlitPath.keep_eq : p.keep seq payload = { p with
    retry := if seq < p.expected ∨ p.retry.any (fun e => e.1 == seq) then p.retry else p.retry ++ [(seq, payload)] } := by
  unfold FlitPath.keep
  split <;> rfl
/-- A flit is sent as it was first sent, whether or not the buffer held it before (R26). -/
theorem FlitPath.sent_keep : (p.keep seq payload).sent seq payload = p.sent seq payload := by
  unfold FlitPath.keep
  split
  case isTrue => rfl
  case isFalse h =>
    have hnew : p.retry.find? (fun e => e.1 == seq) = none := by
      rw [← Option.not_isSome_iff_eq_none, List.find?_isSome]
      simpa using fun hany => h (.inr hany)
    simp [FlitPath.sent, List.find?_append, hnew]
end

/-! ### The commands -/

section
variable {l d seq module : Nat} {payload : List Byte} {s : State} (hl : l < 15)
include hl

/-- A flit that fails its CRC is kept by the sender and asked for again, unless a replay from another flit on is under way (R26). -/
theorem execD2dFlitReceive_crcFail (hd : d < 2) (hp : payload.length = 240) :
    let x := s.flitPath l d
    x.replaying = false ∨ seq = x.expected → execD2dFlitReceive l d seq false payload s =
      .next ((s.setFlitPath l d { x.keep seq payload with replaying := true }).send (.flitReplay l d x.expected)) := by
  intro x hr
  have hask : ¬((x.keep seq payload).replaying = true ∧ seq ≠ (x.keep seq payload).expected) := by
    rw [FlitPath.keep_eq]
    rintro ⟨hrep, hseq⟩
    rcases hr with hr | hr
    · simp [hr] at hrep
    · exact hseq hr
  unfold execD2dFlitReceive
  rw [onLink_runs hl hd, if_neg (not_not.2 hp)]
  dsimp only
  rw [if_pos (by rfl), if_neg hask, replayFlits_setFlitPath]
  simp [FlitPath.keep_eq, x]
/-- The flit expected next is delivered as it was first sent, and leaves the retry buffer with those before it (R26). -/
theorem execD2dFlitReceive_inOrder (hd : d < 2) (hp : payload.length = 240) :
    let x := s.flitPath l d
    execD2dFlitReceive l d x.expected true payload s = .next ((s.setFlitPath l d {
      expected := x.expected + 1, replaying := false, replays := x.replays + bit01 x.replaying
      retry := (x.keep x.expected payload).retry.filter (fun e => decide (x.expected < e.1)) }).send (.flit l d (x.sent x.expected payload))) := by
  intro x
  have hexp : (x.keep x.expected payload).expected = x.expected := by rw [FlitPath.keep_eq]
  unfold execD2dFlitReceive
  rw [onLink_runs hl hd, if_neg (not_not.2 hp)]
  dsimp only
  rw [if_neg (by decide), if_neg (not_not.2 hexp.symm), FlitPath.sent_keep]
  simp [FlitPath.keep_eq, x]
/-- A module of the link that had not failed yet leaves it: both directions are replayed and the fault is reported (R27). -/
theorem execD2dModuleFail_runs (hm : module < linkModules l) (ho : (Tbl.get 0 s.mgmt.modulesOut l).testBit module = false) :
    execD2dModuleFail l module s =
      .next (((((s.updMgmt (fun m => { m with
        modulesOut := Tbl.set 0 m.modulesOut l (Tbl.get 0 s.mgmt.modulesOut l + 2 ^ module) })).replayFlits l 0).replayFlits l 1).send
          (.fault { faultOf 0x0309 8 l with detail := module }))) := by
  unfold execD2dModuleFail
  rw [onLink_runs hl (by decide)]
  dsimp only
  rw [if_neg (by simp [hm, ho])]
end

/-! ### O50 -/

/-- Settles O50: the expected flit, a flit that fails its CRC and the loss of a module, each by its command's lemma. -/
theorem dieLinksDeliverInOrder : Obligations.DieLinksDeliverInOrder := by
  intro l d module seq payload s hl hd x out kept
  have keep (n : Nat) : x.keep n payload = { x with retry := kept n } := FlitPath.keep_eq
  refine ⟨fun hp => (execD2dFlitReceive_inOrder hl hd hp).trans ?inOrder,
    fun hp hr => (execD2dFlitReceive_crcFail hl hd hp hr).trans ?crcFail, fun hm ho => execD2dModuleFail_runs hl hm ho⟩
  case inOrder =>
    rw [keep]
    rfl
  case crcFail => rw [keep]

end Sys2Proof.Machine
end

section
/-!
PROOFS. Partitions and loads (O35) and what becomes of a plan (O36): a lemma for each outcome of a command of the loader, then the two
statements (R37 to R41, R65 to R70, R75, R78, R79).
-/

namespace Sys2Proof.Machine

/-! ### Partitions (R37 to R41) -/

/-- Whether the descriptor that a partition had, if it had one, passes a test. -/
def heldBefore (old : Option PartitionDesc) (test : PartitionDesc → Bool) : Bool :=
  match old with
  | some o => test o
  | none => false
/-- The scrub that a definition begins: the channels and clusters of the new descriptor that the old one does not hold (R41). -/
def defineScrub (f addr p : Nat) (old : Option PartitionDesc) (d : PartitionDesc) : Scrub :=
  { fn := f, result := addr, part := p
    clusters := sumNat (((bitsSet d.clusters 24).filter (fun n => !heldBefore old (fun o => o.clusters.testBit n))).map (fun n => 2 ^ n))
    channels := d.channels.filter (fun ch => !heldBefore old (fun o => o.channels.contains ch)) }

/-- A definition that no check stops takes the descriptor and begins the scrub of what enters. -/
theorem execPartitionDefine_begins {f p : Nat} {c : AdminCmd} {d : PartitionDesc} {s u : State} (h : s.runsAdmin f 0x80 c u)
    (hr : u.adminResultOk f (c.field 0 8) 64 = true) (hp : fieldLE c.inline 0 1 = p) (h8 : p < 8) (hres : fieldLE c.inline 1 3 = 0)
    (hres2 : fieldLE c.inline 0xC0 64 = 0) (hfn : f % 16 = 0) (hd : parseDesc c.inline = d) (hplan : u.planOf p = none)
    (hload : u.loading p = false) (hscrub : u.loader.scrubs.any (fun x => x.part == p) = false) (hsome : d.empty = false)
    (hclear : u.conflict p d = none) :
    execPartitionDefine f s = .next (((u.redefine p d f).updLoader (fun l => { l with
      scrubs := l.scrubs ++ [defineScrub f (c.field 0 8) p (u.part p).desc d] })).beginAdmin f) := by
  subst hp hd
  unfold execPartitionDefine
  rw [onAdminRaw_runs h]
  dsimp only
  rw [if_neg (by simp [hr, h8, hres, hres2]), if_neg (not_not.2 hfn), if_neg (by rw [hplan, hload, hscrub]; decide),
    if_neg (by simp [hsome]), hclear]
  cases (u.part (fieldLE c.inline 0 1)).desc <;> rfl

/-- The gleaners whose channels a scrub clears. -/
def State.scrubGleaners (s : State) (job : Scrub) : List Nat := (job.channels.flatMap s.behind).eraseDups
/-- The channels and bins that a scrub clears, cleared (R41). -/
def State.scrubbed (s : State) (job : Scrub) : State :=
  (bitsSet job.clusters 24).foldl (fun s c => (List.range 8).foldl (fun s j => s.updCore (8 * c + j) (fun x => { x with bin := [], codeBase := 0 }))
      (s.updCluster c (fun x => { x with bin := [] })))
    ((s.scrubGleaners job).foldl (fun s g => s.updGleaner g (fun x => x.scrub (if g < 384 then s.sysArea * 2 ^ 20 else 0))) s)
/-- The loader's scrub of a partition is over, and the load segment stands (R413). -/
def State.defined (s : State) (p : Nat) : State :=
  (s.updLoader (fun l => { l with scrubs := l.scrubs.filter (fun x => x.part != p) })).putLoadSegment p

/-- When no channel waits for its test, the scrub ends and PARTITION_DEFINE is answered with OK. -/
theorem execPartitionScrubDone_answers {p : Nat} {job : Scrub} {s : State} (hp : p < 8)
    (hj : s.loader.scrubs.find? (fun x => x.part == p) = some job)
    (ht : (s.scrubGleaners job).any (fun g => (s.gleaner g).test.phase == 1) = false) :
    execPartitionScrubDone p s = .next (((s.scrubbed job).defined p).answerAdmin job.fn job.result
      (resultRecord (refuse 0) (((s.scrubbed job).defined p).part p).tag.toNat 0
        (s.devTime - ((s.admin job.fn).map (fun c => c.fetched)).getD s.devTime))) := by
  unfold execPartitionScrubDone
  rw [onPart_runs hp, hj]
  exact if_neg (by simpa [State.scrubGleaners] using ht)

/-! ### Loads (R65 to R71) -/

/-- The load that a PLAN_LOAD asks for through context `ctx`, before it starts: the bytes of its record are those that RESULT translates to now
(log 33). -/
def State.newLoad (s : State) (f ctx : Nat) (c : AdminCmd) : Load :=
  { fn := f, part := c.field 0 1, mirror := (c.field 1 1).testBit 0, replace := (c.field 1 1).testBit 1
    source := s.physRun ctx (c.field 3 8) (c.field 11 4), record := s.physRun ctx (c.field 15 8) 64, fetched := c.fetched
    phase := .waiting, image := [], coreMap0 := [], stacks0 := [], loft0 := 0, sysArea0 := 0, decided := 0 }
/-- A load among others in the order of their fetches (R70). -/
def queueLoad (loads : List Load) (l : Load) : List Load :=
  loads.filter (fun m => decide (m.fetched ≤ l.fetched)) ++ [l] ++ loads.filter (fun m => decide (l.fetched < m.fetched))

/-- A load that lies within its segments, of an owner, for a partition that can take it, joins the loads. -/
theorem execPlanLoad_waits {f p ctx : Nat} {c : AdminCmd} {d : PartitionDesc} {s u : State} (h : s.runsAdmin f 0x81 c u)
    (hp : c.field 0 1 = p) (hc : d.contexts.1 + c.field 2 1 = ctx) (hd : (u.part p).desc = some d)
    (h8 : p < 8) (hrel : c.field 2 1 < d.contexts.2) (hflags : c.field 1 1 < 4)
    (hread : c.field 11 4 = 0 ∨ u.extentOk (24 + f / 16) ctx (c.field 3 8) (c.field 3 8 + c.field 11 4 - 1 : Nat) permRead = true)
    (hwrite : u.extentOk (24 + f / 16) ctx (c.field 15 8) (c.field 15 8 + 63 : Nat) permWrite = true) (hown : u.ownsPart f p = true)
    (hload : u.loading p = false) (hfree : u.planOf p = none ∨ (c.field 1 1).testBit 1 = true) :
    execPlanLoad f s = .next ((u.updLoader (fun x => { x with loads := queueLoad x.loads (u.newLoad f ctx c) })).beginAdmin f) := by
  subst hp hc
  have hin : c.field 11 4 ≠ 0 → u.extentOk _ _ _ _ _ = true := hread.resolve_left
  unfold execPlanLoad
  rw [onAdminRaw_runs h]
  dsimp only
  rw [hd]
  dsimp only
  rw [if_neg (by rw [hwrite]; simpa [h8, hrel, hflags] using hin), if_neg (by simp [hown]),
    if_neg (by rw [hload]; rcases hfree with hnone | hreplace <;> simp [*])]
  rfl

section
variable {s : State} {l : Load}

/-- The first waiting load enters staging while it has room and no earlier command is to come (R62, R70). -/
theorem execLoadStart_stages (hl : s.loader.loads.find? (fun l => l.phase == LoadPhase.waiting) = some l)
    (hroom : (s.loader.loads.filter (fun l => l.phase != LoadPhase.waiting)).length < 2) (he : s.earlierLoad l = false) :
    execLoadStart s = .next (s.updLoad l.part (fun l => { l with
      phase := .staged, image := s.physBytes l.source, coreMap0 := s.coreMap, stacks0 := s.stackMaps, loft0 := s.loft.out, sysArea0 := s.sysArea })) := by
  unfold execLoadStart
  rw [hl]
  exact if_neg (by simp [hroom, he])

section
variable (hl : s.loader.loads.find? (fun l => l.phase == LoadPhase.staged) = some l) (he : s.earlierLoad l = false)
include hl he

/-- A refused load ends with its record (R66, R68). -/
theorem execLoadDecide_refuses {r : Refused} (hr : s.decision l = some r) : execLoadDecide s = .next (s.endLoad l r (s.devTime - l.fetched)) := by
  simp [execLoadDecide, hl, he, hr]
/-- Into an empty partition an accepted load commits at once, and raises its key's floor (R61, R71; log 33). -/
theorem execLoadDecide_commits (hr : s.decision l = none) (hp : s.planOf l.part = none) :
    execLoadDecide s = .next ((s.raiseFloor l).updLoad l.part (fun l => { l with phase := .installing, decided := s.devTime })) := by
  simp [execLoadDecide, hl, he, hr, hp]
/-- An accepted replacement first halts fetching, for the old plan's commands to drain (R78). -/
theorem execLoadDecide_drains (hr : s.decision l = none) {pl : Plan} (hp : s.planOf l.part = some pl) :
    execLoadDecide s = .next ((s.updLoad l.part (fun l => { l with phase := .draining, decided := s.devTime })).updPart l.part (fun x => { x with
      halted := true })) := by
  simp [execLoadDecide, hl, he, hr, hp]
end

/-- A committed load takes force, and its record says how long the decision took (R68). -/
theorem execLoadInstallDone_installs {p : Nat} {e : LoadEnv} (hp : p < 8)
    (hl : s.loader.loads.find? (fun l => l.part == p && (l.phase == LoadPhase.installing || l.phase == LoadPhase.installed)) = some l)
    (hph : l.phase = .installing) (he : s.envOf l = some e) :
    execLoadInstallDone p s = .next ((s.install e).endLoad l (refuse 0) (l.decided - l.fetched)) := by
  unfold execLoadInstallDone
  rw [onPart_runs hp, hl]
  dsimp only
  rw [if_neg (by simp [hph]), he]

/-! ### Replacement and unload (R75, R78, R79) -/

/-- A replacement whose plan still fits takes the drained partition over: its fetching resumes, and the pins held under the old plan have
lapsed (R78, R79). -/
theorem execPlanSwitch_takesOver {p : Nat} {e : LoadEnv} (hp : p < 8)
    (hl : s.loader.loads.find? (fun l => l.part == p && l.phase == LoadPhase.draining) = some l) (hd : s.drained p = true)
    (he : s.envOf l = some e) (hfits : e.counts = none) :
    execPlanSwitch p s = .next (((((s.dropPins p (fun _ => true)).raiseFloor l).install e).updPart p (fun x => { x with
      halted := false, lapsedPins := x.lapsedPins ++ (s.part p).heldPins })).updLoad p (fun l => { l with phase := .installed })) := by
  unfold execPlanSwitch
  rw [onPart_runs hp, hl]
  dsimp only
  rw [if_neg (by simp [hd]), he]
  dsimp only
  rw [hfits]
end

/-- The unload that a PLAN_UNLOAD asks for. -/
def unloadAsked (f : Nat) (c : AdminCmd) : Unload := { fn := f, part := c.field 0 1, abort := c.field 1 1 == 1, result := c.field 2 8 }
/-- Fetching of a partition stops for an unload (R75). -/
def State.beginUnload (s : State) (job : Unload) : State :=
  (s.updLoader (fun l => { l with unloads := l.unloads ++ [job] })).updPart job.part (fun x => { x with halted := true })
/-- Every context of a partition is stopped; that none is captured is the model's reading (log 43). -/
def State.stopPart (s : State) (p : Nat) : State := (s.rangeContexts p).foldl (fun s c => s.stopContext c codeAborted) s

section
variable {f p : Nat} {c : AdminCmd} {s u : State} (h : s.runsAdmin f 0x82 c u) (hr : u.adminResultOk f (c.field 2 8) 4 = true)
  (hp : c.field 0 1 = p) (h8 : p < 8) (hown : u.ownsPart f p = true) {pl : Plan} (hplan : u.planOf p = some pl)
include h hr hp h8 hown hplan

/-- An owner's PLAN_UNLOAD in either mode stops fetching, and in ABORT mode the contexts too (R75). -/
theorem execPlanUnload_begins (hm : c.field 1 1 < 2) : execPlanUnload f s = .next
    ((if c.field 1 1 = 1 then (u.beginUnload (unloadAsked f c)).stopPart p else u.beginUnload (unloadAsked f c)).beginAdmin f) := by
  subst hp
  unfold execPlanUnload
  rw [onAdmin_runs h hr]
  dsimp only
  rw [if_neg (by omega), if_neg (by simp [hown]), if_neg (by simp [hplan])]
  rfl
theorem execPlanUnload_wait (hm : c.field 1 1 = 0) : execPlanUnload f s = .next ((u.beginUnload (unloadAsked f c)).beginAdmin f) := by
  rw [execPlanUnload_begins h hr hp h8 hown hplan (by omega), if_neg (by omega)]
theorem execPlanUnload_abort (hm : c.field 1 1 = 1) :
    execPlanUnload f s = .next (((u.beginUnload (unloadAsked f c)).stopPart p).beginAdmin f) := by
  rw [execPlanUnload_begins h hr hp h8 hown hplan (by omega), if_pos hm]
end

/-- An unload that has nothing left to wait for takes the plan away and answers. -/
theorem execUnloadComplete_takesPlan {p : Nat} {job : Unload} {s : State} (hp : p < 8)
    (hj : s.loader.unloads.find? (fun u => u.part == p) = some job)
    (hdone : (if job.abort then (s.rangeContexts p).any s.ctxBusy else !s.drained p) = false) :
    execUnloadComplete p s = .next (((((s.rangeContexts p).foldl (fun s c => s.finishStopped c) s).unloadPart p).updLoader (fun l => { l with
      unloads := l.unloads.filter (fun x => x.part != p) })).answerAdmin job.fn job.result (natLE 4 outDone)) := by
  unfold execUnloadComplete
  rw [onPart_runs hp, hj]
  exact if_neg (by simp [hdone])

/-! ### O35 -/

/-- Settles O35: the definition, its scrub and each stage of a load by its command's lemma, the decision by its three outcomes. -/
theorem partitionsAndLoadsProceed : Obligations.PartitionsAndLoadsProceed := by
  intro f c u s
  refine ⟨fun d h hr hp hres hres2 hfn hd hplan hload hscrub hsome hclear =>
      execPartitionDefine_begins h hr rfl hp hres hres2 hfn hd hplan hload hscrub hsome hclear,
    fun p job hp => execPartitionScrubDone_answers hp, fun d h hd => execPlanLoad_waits h rfl rfl hd, fun l => execLoadStart_stages,
    fun l hl he => ?decide, fun p l e => execLoadInstallDone_installs⟩
  case decide =>
    match hr : s.decision l, hp : s.planOf l.part with
    | some r, _ => exact execLoadDecide_refuses hl he hr
    | none, none => exact execLoadDecide_commits hl he hr hp
    | none, some pl => exact execLoadDecide_drains hl he hr hp

/-! ### O36 -/

/-- Settles O36: the switch, the two modes of PLAN_UNLOAD and the end of an unload, each by its command's lemma. -/
theorem plansAreReplacedAndUnloaded : Obligations.PlansAreReplacedAndUnloaded := by
  intro p f s hp
  refine ⟨fun l e => execPlanSwitch_takesOver hp, fun c u pl h hr hc hown hplan => ?unload, fun job => execUnloadComplete_takesPlan hp⟩
  case unload =>
    subst hc
    exact ⟨execPlanUnload_wait h hr rfl hp hown hplan, execPlanUnload_abort h hr rfl hp hown hplan⟩

end Sys2Proof.Machine
end

section
/-!
PROOFS. The winnow unit's rows (O21) and the grid (O22): a checked access of a core that passes, a lemma for each outcome of a command, then the
two statements (R104 to R120, R136 to R161).
-/

namespace Sys2Proof.Machine

/-! ### Accesses of a core that pass (R288, R289) -/

/-- The place that a checked access is granted is where its address falls. -/
theorem binPlace_of_binCheck {s : State} {k addr len : Nat} {write align : Bool} {pl : BinPlace} {r : BinRegion}
    (h : s.binCheck k addr len write align = some (pl, r)) : binPlace addr = some pl := by
  unfold State.binCheck at h
  split at h
  · cases h
  · split at h
    · cases h
    · split at h
      · cases h
      · split at h <;> cases h
        assumption

theorem coreLoad_clean {s : State} {k addr n : Nat} {align : Bool} {pl : BinPlace} {r : BinRegion}
    (h : s.binCheck k addr n false align = some (pl, r)) : s.coreLoad k addr n align .clean = (s, some (s.binRead k pl n)) := by
  simp [State.coreLoad, h, State.binEcc]

theorem destHeld_singleton {s : State} {k a size : Nat} {pl : BinPlace} (h : binPlace a = some pl) :
    s.destHeld k [a] size = s.heldInput k pl size := by
  simp [State.destHeld, h]

/-! ### The winnow unit (R104 to R117) -/

theorem execClipCount_counts {cl sheaf pos layer count : Nat} {s : State} (hc : cl < 24) (hv : (s.cluster cl).verdict sheaf layer = 0) :
    execClipCount cl sheaf pos layer count s =
      .next (((s.updRecord cl sheaf (fun r => { r with counts := Tbl.set 0 r.counts (layer * 128 + pos % 128) (count + 1) })).takeVerdict
        cl sheaf layer).pumpStalled cl) := by
  unfold execClipCount
  rw [onCluster_runs hc, if_neg (by simp [hv])]

/-- A row's elements as binary32 encodings (R104). -/
def WinnowDesc.elements (d : WinnowDesc) (bs : List Byte) (n : Nat) : List Nat :=
  (unpackElements d.input bs n).map (fun e => (convert d.input plainScale .b32 plainScale .rne 0 e).1)

/-- The winnow of the row that a descriptor names, whose input stands at `pl`. -/
def State.winnowAt (s : State) (k : Nat) (plan : Plan) (l : Layer) (d : WinnowDesc) (pl : BinPlace) : WinnowedRow :=
  winnowRow l plan.signVectors (bookOf .bg4 { codebook := plan.codebookOf .bg4 l.aCodebook, scale := 0x3C00, zeroPoint := 0 }) (s.aqPair l)
    d.wide d.pos (d.elements (s.binRead k pl (l.k * d.input.bits / 8)) l.k)

/-- A winnowed row in the bin: its codes at `po` and, where it has one, its scale at `ps`. -/
def State.writeRow (s : State) (k : Nat) (row : WinnowedRow) (codes : List Byte) (po ps : BinPlace) : State :=
  match row.scale with
  | some v => (s.binWrite k po codes).binWrite k ps (natLE 2 v)
  | none => s.binWrite k po codes
/-- The clips that a row adds to its core's count: none where it is wide, and none after the verdict, which is the model's reading (R120,
log 23). -/
def State.countedClips (s : State) (k : Nat) (d : WinnowDesc) (row : WinnowedRow) : Nat :=
  if d.wide ∨ (s.cluster ((s.core k).home k)).verdict d.sheaf d.layer ≠ 0 then 0 else row.clips

/-- A row whose three accesses pass, with neither write to a held region, is written, leaves the queue and reports its count. -/
theorem execWinnowRowDone_writes {k : Nat} {s : State} {d : WinnowDesc} {rest : List WinnowDesc} {plan : Plan} {l : Layer}
    {pl po ps : BinPlace} {reg ro rs : BinRegion} {row : WinnowedRow} {codes : List Byte}
    (hk : k < 192) (hphase : (s.core k).phase = .running)
    (hqueue : (s.core k).winnow.queue = d :: rest) (hplan : s.clusterPlan (clusterOf k) = some plan)
    (hlayer : s.layerAt (clusterOf k) d.layer = some l) (hin : s.binCheck k d.inAddr (l.k * d.input.bits / 8) false false = some (pl, reg))
    (hrow : s.winnowAt k plan l d pl = row) (hcodes : packElements (l.actFmt d.wide) row.codes = codes)
    (hout : s.binCheck k d.outAddr codes.length true false = some (po, ro)) (hfree : s.heldInput k po codes.length = false)
    (hscale : s.binCheck k d.scaleAddr 2 true false = some (ps, rs)) (hfree2 : s.heldInput k ps 2 = false) :
    execWinnowRowDone k .clean s =
      .next ((((s.writeRow k row codes po ps).winnowRetire k row (s.countedClips k d row)).winnowReport k d row).pumpStalled
        ((s.core k).home k)) := by
  have hplace : binPlace d.scaleAddr = some ps := binPlace_of_binCheck hscale
  have hdest : s.destHeld k [d.scaleAddr] 2 = false := (destHeld_singleton hplace).trans hfree2
  unfold State.winnowAt WinnowDesc.elements plainScale at hrow
  unfold execWinnowRowDone
  rw [onCore_runs hk]
  dsimp only
  rw [if_neg (by simp [hphase]), hqueue]
  dsimp only
  rw [hplan, hlayer]
  dsimp only
  rw [coreLoad_clean hin]
  dsimp only
  rw [hrow, hcodes, hout, hscale, Option.isSome_some, Bool.or_true]
  dsimp only
  rw [hfree, hdest, Bool.and_false, if_neg (by decide), hplace]
  unfold State.writeRow
  cases row.scale <;> rfl

/-! ### O21 -/

/-- Settles O21: a finished row's place in the bin, its counts and its report, and a count that reaches the record, each by its command's lemma. -/
theorem winnowRowsAreWrittenAndCounted : Obligations.WinnowRowsAreWrittenAndCounted := by
  intro k s hk hphase c
  exact ⟨fun d rest plan l pl reg po ro ps rs hqueue hplan hlayer hin =>
      execWinnowRowDone_writes hk hphase hqueue hplan hlayer hin rfl rfl,
    fun cl sheaf pos layer count => execClipCount_counts⟩

/-! ### The grid: issue (R136 to R140) -/

theorem operandEcc_clean (s : State) (k : Nat) (t : TileDesc) : s.operandEcc k t .clean = (s, true) := by
  unfold State.operandEcc
  split <;> rfl

/-- The book of a BG4 operand of a plan. -/
def Plan.book (plan : Plan) (ident : Nat) : List Int := bookOf .bg4 { codebook := plan.codebookOf .bg4 ident, scale := 0x3C00, zeroPoint := 0 }
/-- The weights of a tile, as the bins and its layer's codebook give them. -/
def State.weightsFor (s : State) (k : Nat) (plan : Plan) (u : TileDesc) : List (List Int) :=
  match plan.layerOf u.layer with
  | some m => s.tileWeights k u (plan.book m.wCodebook)
  | none => []
/-- The weights that an issued tile runs with: those of the tile before it under REUSE, those of the shadow registers, or those of the bins. -/
def Grid.weightsOf (g : Grid) (t : TileDesc) (read : List (List Int)) : List (List Int) :=
  if t.reuse && (!g.reload || (binPlace t.weight).isNone) then g.active else g.shadow.getD read

/-- A ready tile of a running core issues, after any steering that waits. -/
theorem execTileIssue_issues {k block : Nat} {s s0 : State} {t : TileDesc} {rest : List TileDesc} {plan : Plan} {l : Layer}
    (hk : k < 192) (hqueue : (s.core k).grid.queue = t :: rest) (hplan : s.clusterPlan (clusterOf k) = some plan)
    (hphase : (s.core k).phase = .running) (hkept : (s.core k).grid.discard.contains (t.sheaf, t.layer) = false)
    (hwide : s.narrowDropped k t = false) (hready : s.tileReady k t = true) (hlayer : s.layerAt (clusterOf k) t.layer = some l)
    (hs0 : s.updCore k (fun c => { c with grid := c.grid.steer }) = s0) :
    execTileIssue k block .clean s = .next ((s0.updCore k (fun c => { c with
      grid := c.grid.issueTile t (s0.tileActs k t l (plan.book l.aCodebook) block) ((s0.core k).grid.weightsOf t (s0.weightsFor k plan t))
        (s0.aqPair l (128 * block)).scale })).preload k (s0.weightsFor k plan)) := by
  unfold execTileIssue
  rw [onCore_runs hk]
  dsimp only
  rw [hqueue, hplan]
  dsimp only
  rw [if_neg (by simp [hphase]), hkept, if_neg (by decide), hwide, if_neg (by decide), hready, if_neg (by decide), hlayer]
  dsimp only
  rw [hs0, operandEcc_clean]
  rfl

/-! ### The grid: a row leaves the array (R139, R143 to R147, R153 to R157) -/

/-- A tile's next row is not held back: it drains nothing, or its place in the bin is not held (R117). -/
def State.rowFree (s : State) (k : Nat) (t : TileInFlight) : Prop :=
  t.desc.isEnd = true → t.voided = false →
    ∀ pl, binPlace (t.desc.out + t.nextRow * t.desc.outStride * 4) = some pl → s.heldInput k pl (4 * t.desc.cols) = false

section
variable (g : Grid) (t : TileInFlight) (upset : Option GridUpset)

/-- What leaves the array for a tile's next row: the sums of the columns, the checksum and its magnitude. -/
def Grid.nextSums : List Int × Int × Int := rowSums g (floatClass t.desc.pairing) (t.acts.getD t.nextRow []) t.weights upset
/-- The sum of the columns that a row's checksum is compared with. -/
def Grid.nextTotal : Int := rowSum (floatClass t.desc.pairing) (g.nextSums t upset).1
/-- What the compare makes of a tile's next row (R154, R155). -/
def Grid.nextCheck : RowCheck :=
  compareRow (floatClass t.desc.pairing) (g.nextTotal t upset) (g.nextSums t upset).2.1 (g.nextSums t upset).2.2
/-- The count of rows that were not compared, the next row with them. -/
def Grid.nextSkips : Word32 := g.skips + (if g.nextCheck t upset = .skipped then 1 else 0)
/-- The entries that a tile's next row adds to: those of its bank, or zeros where the tile starts a chain. -/
def Grid.oldEntries : List AccEntry :=
  (List.range 128).map (fun j => if t.desc.start then accZero else Tbl.get accZero (g.bank t.desc.bank).entries (entryKey t.nextRow j))
/-- Those entries with the row's sums added (R143, R144). -/
def Grid.newEntries : List AccEntry :=
  ((g.oldEntries t).zip (g.nextSums t upset).1).map (fun e => accumulate (floatClass t.desc.pairing) e.1 e.2)
/-- The grid with the next row of a void chain counted, where it was not compared, and gone. -/
def Grid.skipRow : Grid := { g with skips := g.nextSkips t upset }.rowLeft
/-- The grid with a tile's next row added to its bank and gone. -/
def Grid.accumulateRow : Grid :=
  ({ g with
    skips := g.nextSkips t upset
    before := if t.nextRow = 0 then (g.bank t.desc.bank).entries else g.before
    status := if ((g.oldEntries t).zip (g.newEntries t upset)).any (fun e => !e.1.sat && e.2.sat) then g.status ||| 2 else g.status }.updBank
      t.desc.bank (fun b => { b with entries := (g.newEntries t upset).zipIdx.foldl (fun (u : Tbl AccEntry) (e : AccEntry × Nat) =>
        Tbl.set accZero u (entryKey t.nextRow e.2) e.1) b.entries })).rowLeft
end

section
variable (s : State) (k : Nat) (t : TileInFlight) (upset : Option GridUpset)

/-- A mismatched row is reported and leaves, its chain void (R157). -/
def State.rowMismatches : State :=
  let g := (s.core k).grid
  (s.reportMismatch k t t.nextRow (g.nextTotal t upset) (g.nextSums t upset).2.1 (t.acts.getD t.nextRow [])).updCore k (fun x => { x with
    grid := (x.grid.mismatchRow t t.nextRow).rowLeft })
/-- A row of a void chain leaves. -/
def State.rowIsVoid : State := s.updCore k (fun x => { x with grid := (s.core k).grid.skipRow t upset })
/-- A row is accumulated and leaves, drained where its tile ends the chain (R139, R145). -/
def State.rowAccumulates : State :=
  let taken := s.updCore k (fun x => { x with grid := (s.core k).grid.accumulateRow t upset })
  if t.desc.isEnd then taken.drainRow k t t.nextRow ((s.core k).grid.newEntries t upset) else taken
end

section
variable {k : Nat} {s : State} {t : TileInFlight} {rest : List TileInFlight} {upset : Option GridUpset}
  (hk : k < 192) (hflight : (s.core k).grid.flight = t :: rest) (hfree : s.rowFree k t)
include hk hflight hfree

/-- A row that is free to leave is compared, and does what the compare and its chain allow. -/
theorem execGridRowWrite_compares : execGridRowWrite k upset s = .next (
    (if (s.core k).grid.nextCheck t upset = .mismatch then s.rowMismatches k t upset
    else if t.voided then s.rowIsVoid k t upset
    else s.rowAccumulates k t upset).rowGone k) := by
  unfold execGridRowWrite
  rw [onCore_runs hk]
  dsimp only
  rw [hflight]
  refine (if_neg ?stalled).trans ?row
  case stalled =>
    simp only [Bool.and_eq_true, Bool.not_eq_true']
    rintro ⟨⟨hend, hvoid⟩, hheld⟩
    split at hheld
    case h_1 pl hplace => exact Bool.false_ne_true ((hfree hend hvoid pl hplace).symm.trans hheld)
    case h_2 => exact Bool.false_ne_true hheld
  case row =>
    unfold State.rowMismatches State.rowIsVoid State.rowAccumulates Grid.accumulateRow Grid.skipRow Grid.nextSkips
      Grid.nextCheck Grid.nextTotal Grid.nextSums
    generalize compareRow _ _ _ _ = check
    cases check
    case mismatch => rfl
    case clean | skipped =>
      by_cases hvoid : t.voided = true
      · simp only [hvoid, if_true]
        rfl
      · simp only [hvoid]
        rfl

theorem execGridRowWrite_mismatch (hcheck : (s.core k).grid.nextCheck t upset = .mismatch) :
    execGridRowWrite k upset s = .next ((s.rowMismatches k t upset).rowGone k) := by
  rw [execGridRowWrite_compares hk hflight hfree, if_pos hcheck]
theorem execGridRowWrite_void (hcheck : (s.core k).grid.nextCheck t upset ≠ .mismatch) (hvoid : t.voided = true) :
    execGridRowWrite k upset s = .next ((s.rowIsVoid k t upset).rowGone k) := by
  rw [execGridRowWrite_compares hk hflight hfree, if_neg hcheck, if_pos hvoid]
theorem execGridRowWrite_accumulates (hcheck : (s.core k).grid.nextCheck t upset ≠ .mismatch) (hvoid : t.voided = false) :
    execGridRowWrite k upset s = .next ((s.rowAccumulates k t upset).rowGone k) := by
  rw [execGridRowWrite_compares hk hflight hfree, if_neg hcheck, if_neg (by simp [hvoid])]
end

/-! ### The grid: abort (R161) -/

theorem voidOpen_go_eq_nil_iff {bank : Nat} {f : List TileInFlight} : voidOpen.go bank f = [] ↔ f = [] := by
  cases f with
  | nil => simp [voidOpen.go]
  | cons t ts =>
    unfold voidOpen.go
    split
    · simp
    · split <;> simp

theorem voidOpen_eq_nil_iff {bank : Nat} {f : List TileInFlight} : voidOpen bank f = [] ↔ f = [] := by
  simp [voidOpen, voidOpen_go_eq_nil_iff]

/-- An abort voids tiles in flight and takes none away. -/
theorem abortFlight_eq_nil_iff {g : Grid} : g.abortFlight = [] ↔ g.flight = [] := by
  unfold Grid.abortFlight
  dsimp only
  split <;> split <;> simp only [voidOpen_eq_nil_iff]

/-- While a row is in the array an abort goes on. -/
theorem abortDone_of_flight {s : State} {k : Nat} (h : (s.core k).grid.flight ≠ []) : s.abortDone k = s := by
  unfold State.abortDone
  exact if_neg (by simp [h])

/-- With no row in the array an abort is over, and is acknowledged. -/
theorem abortDone_of_empty {s : State} {k : Nat} (ha : (s.core k).grid.aborting = true) (h : (s.core k).grid.flight = []) :
    s.abortDone k = (s.updCore k (fun c => { c with grid := { c.grid with
      aborting := false, shadow := none, banks := [], discard := [] } })).send (.acknowledge 1 k 1) := by
  unfold State.abortDone
  exact if_pos (by simp [ha, h])

/-- The grid of an abort that has begun. -/
def Grid.beginAbort (g : Grid) : Grid := { g with aborting := true, queue := [], flight := g.abortFlight, shadow := none }

section
variable {k : Nat} {s : State} (hk : k < 192)
include hk

theorem execGridAbort_acknowledges (h : (s.core k).grid.flight = []) :
    execGridAbort k s = .next (((s.updCore k (fun x => { x with grid := { x.grid with
      aborting := false, queue := [], shadow := none, banks := [], discard := [] } })).send (.acknowledge 1 k 1)).takeNext k) := by
  have hnone : (s.core k).grid.abortFlight = (s.core k).grid.flight := (abortFlight_eq_nil_iff.2 h).trans h.symm
  unfold execGridAbort State.rowGone
  rw [onCore_runs hk, abortDone_of_empty (by simp) (by simpa [abortFlight_eq_nil_iff] using h)]
  simp only [State.updCore, core_setCore_same, setCore_setCore, hnone]

theorem execGridAbort_waits (h : (s.core k).grid.flight ≠ []) :
    execGridAbort k s = .next ((s.updCore k (fun x => { x with grid := x.grid.beginAbort })).takeNext k) := by
  unfold execGridAbort State.rowGone
  rw [onCore_runs hk, abortDone_of_flight (by simpa [abortFlight_eq_nil_iff] using h)]
  rfl
end

/-! ### O22 -/

/-- Settles O22: a ready tile's issue, the three outcomes of a row that leaves the array, and an abort with and without a row there. -/
theorem gridIssuesAccumulatesAndAborts : Obligations.GridIssuesAccumulatesAndAborts := by
  intro k s hk g
  refine ⟨fun t rest plan l block hqueue hplan hphase hkept hwide hready hlayer =>
      execTileIssue_issues hk hqueue hplan hphase hkept hwide hready hlayer rfl, fun t rest upset hflight hfree => ?row,
    execGridAbort_acknowledges hk, execGridAbort_waits hk⟩
  case row => exact ⟨execGridRowWrite_mismatch hk hflight hfree, execGridRowWrite_void hk hflight hfree,
    execGridRowWrite_accumulates hk hflight hfree⟩

end Sys2Proof.Machine
end

section
/-!
PROOFS. What the registers hold at reset (O2): the part of the state that a register shows, and its value there.
-/

namespace Sys2Proof.Machine

/-! ### Units of no entry, and the registers (R162, R315, R359, R453, R487, R514, R548, R579, R601) -/

theorem reset_cluster (c : Nat) : State.reset.cluster c = clusterReset := rfl
theorem reset_core (k : Nat) : State.reset.core k = coreReset := rfl

/-- CLS_SCHED_CTL: the wait of a pre-emption, the gap between two full ones, whether they are disabled, and the bound of a steal (R453). -/
theorem clusterWord_schedCtl (s : State) (c : Nat) :
    s.clusterWord c 0xE00 = some (fieldsAt [(0, (s.cluster c).sched.preemptWait.toNat), (14, (s.cluster c).sched.fullGap.toNat),
      (17, bit01 (s.cluster c).sched.fullDisable), (24, (s.cluster c).sched.stealBytes.toNat)]) := rfl

/-! ### O2 -/

/-- Settles O2: each register's place in the map, evaluated at reset; a cluster and a core of no entry in their tables are as reset leaves them.
That an idle core holds no item, that a bin reads empty and that the reserve channel is free are the model's choices (logs 3 and 5). -/
theorem resetHoldsTheStatedValues : Obligations.ResetHoldsTheStatedValues := by
  refine ⟨rfl, rfl, rfl, rfl, rfl, rfl, rfl, rfl, rfl, rfl, rfl, rfl, fun c _ => ⟨?sched, ?qlimit, rfl, rfl, ?bin, ?item⟩⟩
  case sched => rw [clusterWord_schedCtl, reset_cluster]; rfl
  case qlimit => rfl
  case bin => rw [reset_cluster]; rfl
  case item => rw [reset_core]; rfl

end Sys2Proof.Machine
end

section
/-!
PROOFS. The unit instructions (O18): one that is not predicated off issues its body, and each body on the path where its descriptor passes and
its unit has room (R141, R169, R183 to R185, R191 to R193, R339, R354, R355).
-/

namespace Sys2Proof.Machine

/-! ### Issue (R169) and submission (R354) -/

section
variable {k : Nat} {w : VWord} {s : State}

/-- A unit instruction that is not predicated off runs its body (R169). -/
theorem issueUnit_runs (body : State → CoreState → Issue) (h : s.opens k w = true) :
    issueUnit k w body s = .next (finishIssue k (s.core k).vec.pc (body s (s.core k))) := by
  unfold State.opens at h
  simp only [Bool.and_eq_true, decide_eq_true_eq, Bool.or_eq_true, Bool.not_eq_true'] at h
  obtain ⟨⟨hk, hrun⟩, hon⟩ := h
  unfold issueUnit
  rw [issue_runs k _ s hk hrun, if_neg]
  rcases hon with hon | hon <;> simp [hon]
/-- One whose body is done retires at the next index. -/
theorem issueUnit_retires {t : State} {body : State → CoreState → Issue} (h : s.opens k w = true) (hdone : body s (s.core k) = .done t) :
    issueUnit k w body s = .next (t.retireTo k ((s.core k).vec.pc + 1)) := by
  rw [issueUnit_runs body h, hdone]
  rfl

/-- A descriptor that passes the checks of its submission enters its queue (R339 to R345, R349, R354). -/
theorem submitXfer_queues {i : WorkItem} {bs : List Byte} {op : XferOp} {d : XferDesc} {u : State} {status : Nat} {x : Xfer}
    (hop : xferOpOf (fieldLE bs 0 1) = some op) (hd : parseXfer op bs = d) (hfull : xferIsEmpty d bs = false)
    (hdesc : descFault (s.planOf i.part) d bs = false) (htier : (op = .promote ∨ op = .demote) → s.isTiered i.ctx d.src.addr = true)
    (hkeys : s.fetchKeys k i d = (u, status)) (hx : { u.formXfer k i d with status := status } = x) (hparts : x.requests.length ≤ 4096)
    (hextents : u.xferExtents k i.ctx i.part d x.records.length = .ok) :
    s.submitXfer k i bs = .done ((u.updDma (clusterOf k) (fun e => { e with
      serial := x.serial, queues := Tbl.modify [] e.queues d.queue (· ++ [.xfer x]) })).noteEffects k (clusterOf k) x) := by
  have htiered : ¬((op = .promote ∨ op = .demote) ∧ (!s.isTiered i.ctx d.src.addr) = true) := by
    rintro ⟨hmove, hnot⟩
    simp [htier hmove] at hnot
  unfold State.submitXfer
  rw [hop]
  dsimp only
  rw [hd, hfull, if_neg (by decide), hdesc, if_neg (by decide), if_neg htiered, hkeys]
  dsimp only
  subst hx
  rw [if_neg (Nat.not_lt.2 hparts), hextents]

end

/-! ### The instructions -/

section
variable {k : Nat} {w : VWord} {s : State} (h : s.opens k w = true)
include h

/-- GTILE queues a tile whose checks pass, unless its ROWS is 0 (R141, R142). -/
theorem execGtile_queues {pl : BinPlace} {reg : BinRegion} {bs : List Byte} {t : TileDesc} {entry : Option (List Byte)}
    (hroom : (s.core k).grid.queue.length < 8) (hrun : (s.core k).grid.aborting = false)
    (hread : s.binCheck k ((s.core k).vec.address w) 32 false true = some (pl, reg)) (hbytes : s.binRead k pl 32 = bs) (ht : parseTile bs = t)
    (hentry : (if t.streamed then s.streamEntry k (t.act % 2 ^ 12) else none) = entry)
    (hstream : entry.isSome = t.streamed) (hok : s.tileOk k t (fieldLE bs 3 1) entry = true) :
    execGtile k w .clean s = .next ((if t.rows = 0 then s else s.updCore k (fun c =>
      let q := { c.grid with queue := c.grid.queue ++ [{ t with stream := entry.map parseStream }] }
      { c with grid := if t.start then q.updBank t.bank (fun b => { b with waiting := b.waiting + 1 }) else q })).retireTo k
        ((s.core k).vec.pc + 1)) := by
  have hfound : (t.streamed && entry.isNone) = false := by
    rw [← hstream]
    cases entry <;> rfl
  refine issueUnit_retires h ?_
  rw [if_neg (by simp [hrun, hroom]), coreLoad_clean hread]
  dsimp only
  rw [hbytes, ht, hentry, if_neg (by simp [hfound, hok])]
  split <;> rfl

/-- GWAIT goes on where the bank has no mismatch and awaits no chain (R184). -/
theorem execGwait_goesOn (hrun : (s.core k).grid.aborting = false) (hclean : ((s.core k).grid.bank (w.imm.toNat % 2)).mismatch = false)
    (hdone : ((s.core k).grid.bank (w.imm.toNat % 2)).waiting = 0) :
    execGwait k w s = .next (s.retireTo k ((s.core k).vec.pc + 1)) := by
  refine issueUnit_retires h ?_
  simp [hrun, hclean, hdone]

/-- WNW queues a winnow row of a layer of the plan and holds its input (R117, R183). -/
theorem execWnw_queues {pl : BinPlace} {reg : BinRegion} {d : WinnowDesc} {l : Layer} (hroom : (s.core k).winnow.queue.length < 16)
    (hread : s.binCheck k ((s.core k).vec.address w) 32 false true = some (pl, reg)) (hd : parseWinnow (s.binRead k pl 32) = d)
    (hlayer : s.layerAt (clusterOf k) d.layer = some l) :
    execWnw k w .clean s = .next (((s.updCore k (fun c => { c with
      winnow := { c.winnow with queue := c.winnow.queue ++ [d] } })).holdInput k d l).retireTo k ((s.core k).vec.pc + 1)) := by
  have hlayer' (f : CoreState → CoreState) : (s.updCore k f).layerAt (clusterOf k) d.layer = some l := hlayer
  refine issueUnit_retires h ?_
  rw [if_neg (Nat.not_le.2 hroom), coreLoad_clean hread]
  dsimp only
  rw [hd, hlayer']

/-- WWAIT goes on where no winnow row is queued. -/
theorem execWwait_goesOn (hempty : (s.core k).winnow.queue = []) : execWwait k w s = .next (s.retireTo k ((s.core k).vec.pc + 1)) := by
  refine issueUnit_retires h ?_
  simp [hempty]

/-- A built-in function of the SFU on every lane, its tables read without error (R191, R193). -/
theorem execSfu_computes {f : Value → Nat × NumFlags} {clocks : Nat} (hn : w.imm.toNat % 128 < 64)
    (hf : s.sfuFunction k (w.imm.toNat % 128) (sfuFormat w.g) = some (f, clocks)) :
    execSfu k w ⟨false, .clean⟩ s = .next (((s.updCore k (fun c => { c with sfu := { c.sfu with
      ops := c.sfu.ops + 1, busy := c.sfu.busy + BitVec.ofNat 64 clocks } })).writeLanes k (unmasked w) (fun i =>
        let out := f (laneValue (sfuFormat w.f) ((s.core k).vec.lane w.a i))
        (BitVec.ofNat 32 out.1, out.2))).retireTo k ((s.core k).vec.pc + 1)) := by
  refine issueUnit_retires h ?_
  dsimp only
  rw [if_neg (by decide), hf]
  dsimp only
  rw [if_neg (by decide), if_pos hn]
  rfl

/-- ROWPUT holds a row where fewer than 256 are held (R185). -/
theorem execRowput_holds {pl : BinPlace} {reg : BinRegion}
    (hread : s.binCheck k ((s.core k).vec.address w) 16 false true = some (pl, reg)) (hroom : heldRows (s.core k).held < 256) :
    execRowput k w .clean s = .next ((s.updCore k (fun c => { c with held := c.held ++ [.row (parseRow (s.binRead k pl 16))] })).retireTo k
      ((s.core k).vec.pc + 1)) := by
  refine issueUnit_retires h ?_
  rw [coreLoad_clean hread]
  exact if_neg (Nat.not_le.2 hroom)

/-- SFLUSH holds a flush (R185). -/
theorem execSflush_holds : execSflush k w s =
    .next ((s.updCore k (fun c => { c with held := c.held ++ [.flush (w.imm.toNat % 64)] })).retireTo k ((s.core k).vec.pc + 1)) :=
  issueUnit_retires h rfl

/-- DMAQ submits the descriptor at its address (R339). -/
theorem execDmaq_submits {pl : BinPlace} {reg : BinRegion} {i : WorkItem} {t : State} (hitem : (s.core k).item = some i)
    (hread : s.binCheck k ((s.core k).vec.address w) 128 false true = some (pl, reg))
    (hsubmit : s.submitXfer k i (s.binRead k pl 128) = .done t) :
    execDmaq k w .clean s = .next (t.retireTo k ((s.core k).vec.pc + 1)) := by
  refine issueUnit_retires h ?_
  rw [hitem]
  dsimp only
  rw [coreLoad_clean hread]
  exact hsubmit

/-- DMARK as a barrier that waits for no depth closes the core's group of the queue (R355). -/
theorem execDmark_closes (hdepth : w.imm.toNat / 32 % 8 = 0) (hbarrier : w.imm.getLsbD 4 = true) :
    execDmark k w s = .next (((s.updCore k (fun c => { c with
      dmaMarks := Tbl.set 0 c.dmaMarks (w.imm.toNat % 16) (Tbl.get 0 c.dmaMarks (w.imm.toNat % 16) + 1) })).updDma (clusterOf k)
      (fun e => { e with queues := Tbl.modify [] e.queues (w.imm.toNat % 16) (· ++ [.barrier k]) })).retireTo k ((s.core k).vec.pc + 1)) := by
  refine issueUnit_retires h ?_
  dsimp only
  rw [if_neg (by simp [hdepth]), if_pos hbarrier]
  rfl
end

/-! ### O18 -/

/-- Settles O18: each unit instruction by the lemma of its command. -/
theorem unitInstructionsHandTheirWorkOver : Obligations.UnitInstructionsHandTheirWorkOver := by
  intro k w s h r next bytes
  refine ⟨?gtile, execGwait_goesOn h, fun pl reg l hroom hread => execWnw_queues h hroom hread rfl, execWwait_goesOn h,
    fun f clocks => execSfu_computes h, fun pl reg => execRowput_holds h, execSflush_holds h, ?dmaq, execDmark_closes h⟩
  case gtile =>
    intro pl reg hroom hrun hread t entry hstream hok
    refine (execGtile_queues h hroom hrun hread rfl rfl rfl hstream hok).trans ?_
    split <;> rfl
  case dmaq =>
    intro pl reg i op hitem hread d u x hop hfull hdesc htier hparts hextents
    exact execDmaq_submits h hitem hread (submitXfer_queues hop rfl hfull hdesc htier rfl rfl hparts hextents)

end Sys2Proof.Machine
end

section
/-!
PROOFS. The sheaf former (O19) and the work items of a cluster's sequencer (O20): rows that arrive, closings, retirement, aborts and the halves of
a steal (R150 to R152, R166, R185, R189, R428, R435, R497).
-/

namespace Sys2Proof.Machine

/-! ### The sheaf former: rows that arrive (R150, R185, R538) -/

/-- The 64 B unit at which the input of a row lands in a STAGING region: the choice of a free value (log 67). -/
def State.landingIn (s : State) (region : BinRegion) (bytes : Nat) : Nat :=
  region.offset * 4096 + 64 * (s.free.toNat % ((region.size * 4096 - bytes) / 64 + 1))

/-- The former of a cluster in which a row has joined `o`, now the last of the open sheaves. -/
def ClusterState.joined (x : ClusterState) (ctx stage : Nat) (o : OpenSheaf) : ClusterState :=
  { x with
    openSheaves := x.openSheaves.filter (fun (q : OpenSheaf) => !(q.ctx == ctx && q.stage == stage)) ++ [o]
    former := { x.former with rows := x.former.rows + 1 }
    nextOpened := x.nextOpened + 1 }

section
variable {s : State} {c p ctx stage : Nat}

/-- A row joins the open sheaf of its stage and context, which it does not fill. -/
theorem joinRow_joins {r : RowDesc} {o : OpenSheaf} (hopen : (s.cluster c).openFor ctx r.stage = some o) (hroom : o.rows.length < 127) :
    s.joinRow c p ctx r =
      s.setCluster c ((s.cluster c).joined ctx r.stage { o with rows := o.rows ++ [{ r with arrival := s.devTime }] }) := by
  unfold State.joinRow
  rw [hopen]
  dsimp only
  rw [hopen]
  exact if_neg (by simp; omega)

/-- A row of a stage and context with no open sheaf opens one, where fewer than 16 are open. -/
theorem joinRow_opens {r : RowDesc} (hopen : (s.cluster c).openFor ctx r.stage = none) (hroom : (s.cluster c).openSheaves.length < 16) :
    s.joinRow c p ctx r = s.setCluster c ((s.cluster c).joined ctx r.stage
      { part := p, ctx := ctx, stage := r.stage, rows := [{ r with arrival := s.devTime }], opened := (s.cluster c).nextOpened }) := by
  unfold State.joinRow
  rw [hopen]
  dsimp only
  rw [if_pos hroom, hopen]
  exact if_neg (by simp)

/-- The input of a row lands in the first STAGING region of its stage. -/
theorem landRow_lands {r : RowArg} {input : List Byte} {plan : Plan} {region : BinRegion} (hlength : r.length ≠ 0)
    (hplan : s.clusterPlan c = some plan)
    (hregion : plan.binMap.find? (fun q => q.kind == 3 && q.scope == 1 && q.cluster == c && q.stage == stage) = some region) :
    s.landRow c stage r input = ((s.updCluster c (fun x => { x with
      bin := x.bin.put (s.landingIn region (input.take (64 * r.length)).length) (input.take (64 * r.length)) })).tookFree,
      2 ^ 24 + s.landingIn region (input.take (64 * r.length)).length) := by
  have hlanding (n : Nat) : s.landing c stage n = some (s.landingIn region n) := by
    simp [State.landing, hplan, hregion, State.landingIn]
  unfold State.landRow
  rw [if_neg hlength]
  dsimp only
  rw [hlanding]

variable (hc : c < 24)
include hc

/-- A row that reaches a cluster in service lands and joins. -/
theorem execRowArrive_row {r : RowArg} {input : List Byte} {t : State} {addr : Nat} (hserves : (s.cluster c).retired = false)
    (hlands : s.landRow c stage r input = (t, addr)) :
    execRowArrive c p ctx stage (some r) input s = .next (t.joinRow c p ctx
      { stage := stage, cls := r.cls, length := r.length, inAddr := addr, tag := r.tag, marks := r.marks, arrival := 0 }) := by
  unfold execRowArrive
  rw [onCluster_runs hc]
  dsimp only
  rw [hserves, if_neg (by decide), hlands]

/-- A flush that reaches a cluster in service closes the open sheaf of its stage and context (R151). -/
theorem execRowArrive_flush {input : List Byte} {o : OpenSheaf} (hserves : (s.cluster c).retired = false)
    (hopen : (s.cluster c).openFor ctx stage = some o) :
    execRowArrive c p ctx stage none input s = .next (s.closeSheaf c o .flush) := by
  unfold execRowArrive State.flushSheaf
  rw [onCluster_runs hc]
  dsimp only
  rw [hserves, if_neg (by decide), hopen]

/-- What reaches a retired cluster reaches the former that takes its rows (R538). -/
theorem execRowArrive_retired {row : Option RowArg} {input : List Byte} (hretired : (s.cluster c).retired = true)
    (ht : s.formerOf c p stage < 24) (hserves : (s.cluster (s.formerOf c p stage)).retired = false) :
    execRowArrive c p ctx stage row input s = execRowArrive (s.formerOf c p stage) p ctx stage row input s := by
  unfold execRowArrive
  rw [onCluster_runs hc, onCluster_runs ht, hretired, hserves]
  rfl

/-- The sheaf timer closes an open sheaf of which some row has a nonzero SHEAF_WAIT (R151). -/
theorem execSheafTimer_closes {o : OpenSheaf} (hopen : (s.cluster c).openFor ctx stage = some o)
    (htimed : o.rows.any (s.timedRow o.part) = true) : execSheafTimer c ctx stage s = .next (s.closeSheaf c o .timer) := by
  unfold execSheafTimer
  rw [onCluster_runs hc, hopen]
  exact if_pos htimed
end

/-! ### O19 -/

/-- Settles O19: a row lands and then joins a sheaf or opens one; a flush, the timer and a retired cluster each by its lemma. Where in the region the
input lands is the model's choice (log 67). -/
theorem sheafFormerCollectsRows : Obligations.SheafFormerCollectsRows := by
  intro c p ctx stage r input plan region o s hc bytes off row landed joined lands
  have harrives (hl : lands) : execRowArrive c p ctx stage (some r) input s =
      .next (((s.setCluster c landed).tookFree).joinRow c p ctx { row with arrival := 0 }) := by
    obtain ⟨hserves, hlength, hplan, hregion⟩ := hl
    exact execRowArrive_row hc hserves (landRow_lands hlength hplan hregion)
  have hlanded : ((s.setCluster c landed).tookFree).cluster c = landed := cluster_setCluster_same s c landed
  have hjoined (o : OpenSheaf) : ((s.setCluster c landed).tookFree).setCluster c (landed.joined ctx stage o) = joined o :=
    (setCluster_setCluster { s with freeCtr := s.freeCtr + 1 } c landed _)
  refine ⟨fun hl hopen hroom => ?joins, fun hl hopen hroom => ?opens, execRowArrive_flush (input := input) hc,
    fun hretired ht hserves row => execRowArrive_retired hc hretired ht hserves, execSheafTimer_closes hc⟩
  case joins =>
    refine (harrives hl).trans (congrArg _ ?_)
    rw [joinRow_joins (by rw [hlanded]; exact hopen) hroom, hlanded]
    exact hjoined _
  case opens =>
    refine (harrives hl).trans (congrArg _ ?_)
    rw [joinRow_opens (by rw [hlanded]; exact hopen) (by rw [hlanded]; exact hroom), hlanded]
    exact hjoined _

/-! ### Work items: the abort of a sequencer (R152, R428, R497) -/

/-- The abort of a queue's work at a sequencer: its rows, and its shares that are listed or saved. -/
theorem execSequencerAbort_queue {c ctx q : Nat} {s : State} (hc : c < 24) :
    execSequencerAbort c ctx (some q) s =
      .next ((((s.abortRows c (fun _ r => tagQueue r.tag == q)).abortListed c (shareOfQueue q)).abortSaved c (shareOfQueue q)).send
        (.acknowledge 2 c q)) := by
  unfold execSequencerAbort
  rw [onCluster_runs hc]
/-- The abort of a context's work at a sequencer: its rows, its listed shares, and every item of it that is saved. -/
theorem execSequencerAbort_context {c ctx : Nat} {s : State} (hc : c < 24) :
    execSequencerAbort c ctx none s =
      .next ((((s.abortRows c (fun o _ => o.ctx == ctx)).abortListed c (shareOfContext ctx)).abortSaved c (fun i => i.ctx == ctx)).send
        (.acknowledge 2 c (1024 + ctx))) := by
  unfold execSequencerAbort
  rw [onCluster_runs hc]

/-! ### Work items: retirement (R166, R425) -/

/-- The marks that an item's notices carry once it has reached END (R166, R425). -/
def CoreState.endMarks (x : CoreState) (i : WorkItem) : Nat :=
  i.marks ||| (if x.vec.range = 0 then 0 else markRange) ||| (if i.preempted then markPreempted else 0)

section
variable {k : Nat} {s : State} (hk : k < 192)
include hk

/-- An item that has not failed anywhere retires at END once its units are done. -/
theorem execItemRetire_retires {i j : WorkItem} (hitem : (s.core k).item = some i) (hend : (s.core k).phase = .atEnd)
    (hdone : s.unitsDone k = true) (hfresh : i.failedCores = []) (hj : { i with marks := (s.core k).endMarks i } = j) :
    execItemRetire k s = .next ((((((s.core k).held.foldl (fun t h => t.release k j h)
      ((s.updCore k (fun x => { x with retired := x.retired + 1 })).sendAll (releaseNotices (s.core k).held))).sendAll
        (j.endNotices (s.rowsOf j) 0 codeOk)).freeRecord j).releasePins j).afterEnd k false) := by
  subst hj
  unfold execItemRetire
  rw [onCore_runs hk]
  dsimp only
  rw [hitem]
  dsimp only
  rw [if_neg (by simp [hend, hdone]), hfresh]
  rfl

/-! ### Work items: the abort of a core (R189) -/

/-- The abort of a core that runs no item only acknowledges. -/
theorem execCoreAbort_idle (hitem : (s.core k).item = none) : execCoreAbort k s = .next (s.send (.acknowledge 1 k 0)) := by
  unfold execCoreAbort
  rw [onCore_runs hk]
  dsimp only
  rw [hitem]

/-- The abort of a core with an item drops the item, its held rows and its queued winnow rows, and frees the core. -/
theorem execCoreAbort_drops {i : WorkItem} (hitem : (s.core k).item = some i) :
    execCoreAbort k s = .next ((((((s.chargeItem k).dropPreempt k).updCore k (fun x => { x with
      phase := .idle, item := none, held := [], vec := vecRegsReset, dmaMarks := [], winnow := { x.winnow with queue := [] } })).freeRecord
      i).releasePins i |>.send (.acknowledge 1 k 0)).takeNext k) := by
  unfold execCoreAbort
  rw [onCore_runs hk]
  dsimp only
  rw [hitem]

/-! ### Work items: the halves of a steal (R435) -/

/-- The inputs of an item's rows as they stand in a cluster's bin. -/
def ClusterState.inputsOf (x : ClusterState) (i : WorkItem) : List Byte :=
  i.rows.flatMap (fun r => match binPlace r.inAddr with
    | some (.cluster off) => x.bin.bytes off (64 * r.length)
    | _ => zeroBytes (64 * r.length))

/-- The asked cluster gives up the first item that a thief may take, with its inputs. -/
theorem execStealRequest_gives {c : Nat} {i : WorkItem} (hc : c < 24) (hmay : s.mayTake k = true)
    (hdie : dieOfCluster c = dieOfCluster (clusterOf k)) (hitem : s.stealable k c = some i) :
    execStealRequest k c s = .next ((s.updCluster c (fun x => { x.takeItem i with
      sched := { (x.takeItem i).sched with stealsOut := (x.takeItem i).sched.stealsOut + 1 } })).updCore k (fun x => { x with
        incoming := some (i, (s.cluster c).inputsOf i) })) := by
  unfold execStealRequest
  rw [onCore_runs hk, onCluster_runs hc, if_neg (by simp [hmay, hdie]), hitem]
  rfl

/-- The offset of a stolen item's inputs in its core's STAGING slot: behind its work record, which is the model's choice (log 12). -/
def WorkItem.inputOffset (i : WorkItem) : Nat := ceilDiv i.record.length 64 * 64
/-- The bin address of a place in core `k`'s STAGING slot. -/
def State.stagingAddr (s : State) (k off : Nat) : Nat :=
  match s.stagingSlot k with
  | some (b, _) => 2 ^ 24 + b + off
  | none => 0

/-- The copied inputs land in the thief's STAGING slot, and the item starts with its rows' IN naming them. -/
theorem execStealCopyDone_starts {i : WorkItem} {bytes : List Byte} (hitem : (s.core k).incoming = some (i, bytes)) :
    execStealCopyDone k s = .next ((((s.updCore k (fun x => { x with incoming := none })).writeStaging k i.inputOffset bytes).updCluster
      (clusterOf k) (fun x => { x with sched := { x.sched with stealsIn := x.sched.stealsIn + 1 } })).startItem k
        { i with rows := relocateRows (s.stagingAddr k i.inputOffset) i.rows }) := by
  unfold execStealCopyDone
  rw [onCore_runs hk]
  dsimp only
  rw [hitem]
  rfl
end

/-! ### O20 -/

/-- Settles O20: each command by the lemmas of its outcomes. That a stolen item's inputs lie behind its work
record and that a core's abort clears its units are the model's choices (logs 11 and 12). -/
theorem workItemsRetireAbortAndMove : Obligations.WorkItemsRetireAbortAndMove := by
  intro k c ctx q i bytes s hk hc core home
  exact ⟨fun hitem hend hdone hfresh => execItemRetire_retires hk hitem hend hdone hfresh rfl, execSequencerAbort_queue (ctx := ctx) hc,
    execSequencerAbort_context hc, execCoreAbort_idle hk, execCoreAbort_drops hk, execStealRequest_gives hk hc, execStealCopyDone_starts hk⟩

end Sys2Proof.Machine
end

section
/-!
PROOFS. The vector engine's instructions that only write registers (O10 to O14), and the unit instructions that are predicated off (O17): one lemma
for each form of issue, then the statements (R164, R169 to R179, R187).
-/

namespace Sys2Proof.Machine

/-! ### Masks (R169) -/

/-- A mask register computed lane by lane: the two ways to say what a lane that is off takes (R169). -/
theorem maskResult_eq_maskUnder (r : VecRegs) (w : VWord) (f : Nat → Bool) : maskResult r w f = maskUnder r w f := by
  unfold maskResult maskUnder
  congr 1
  funext i
  cases w.z <;> rfl

section
variable {k : Nat} {w : VWord} {s : State} (hk : k < 192) (hrun : (s.core k).running = true)
include hk hrun

/-! ### What an issued body leaves behind (R190) -/

/-- A body that replaces the registers and is done. -/
theorem setVec_retires (r : VecRegs) : (s.setVec k r).retireTo k ((s.core k).vec.pc + 1) = s.retired k r := by
  have h := (issue_runs k (fun s _ => .done (s.setVec k r)) s hk hrun).symm.trans (issueRegs_runs k (fun _ => r) s hk hrun)
  exact Host.Outcome.next.inj h

/-- A body that writes lanes and is done. -/
theorem writeLanes_retires (f : Nat → LaneOut) :
    (s.writeLanes k w f).retireTo k ((s.core k).vec.pc + 1) = s.retiredLanes k w f := by
  have h := (issue_runs k (fun s _ => .done (s.writeLanes k w f)) s hk hrun).symm.trans (issueLanes_runs k w (fun _ => f) s hk hrun)
  exact Host.Outcome.next.inj h

/-- An instruction whose body is done retires at the next index. -/
theorem issue_retires {body : State → CoreState → Issue} {t : State} (hdone : body s (s.core k) = .done t) :
    issue k body s = .next (t.retireTo k ((s.core k).vec.pc + 1)) := by
  rw [issue_runs k body s hk hrun, hdone]
  rfl

/-! ### The forms of register instructions -/

/-- An instruction that writes one scalar register; s12 to s15 keep their value (R164). -/
theorem issueRegs_setScalar (f : VecRegs → Word64) :
    issueRegs k (fun r => r.setScalar w.d (f r)) s = .next (s.retired k (if 12 ≤ w.d.toNat % 16 then (s.core k).vec
      else { (s.core k).vec with x := Tbl.set 0 (s.core k).vec.x (w.d.toNat % 16) (f (s.core k).vec) })) :=
  issueRegs_runs k _ s hk hrun

/-- An instruction that writes one mask register. -/
theorem issueRegs_setMask (f : VecRegs → Word128) :
    issueRegs k (fun r => r.setMask w.d.toNat (f r)) s =
      .next (s.retired k { (s.core k).vec with m := Tbl.set 0 (s.core k).vec.m (w.d.toNat % 8) (f (s.core k).vec) }) :=
  issueRegs_runs k _ s hk hrun

/-- A unit instruction that is predicated off retires and does nothing (R169). -/
theorem issueUnit_predicatedOff (body : State → CoreState → Issue) (hmasked : w.masked = true)
    (hoff : ((s.core k).vec.mask w.m.toNat).getLsbD 0 = false) : issueUnit k w body s = .next (s.retired k (s.core k).vec) :=
  issue_retires hk hrun (if_pos (by rw [hmasked, hoff]; rfl))

end

/-! ### Reductions (R169, R175, R179) -/

/-- One level of the reduction tree on lanes: lane i with lane i + `half`, every flag kept. -/
def combineLanes (op : Word32 → Word32 → LaneOut) (half : Nat) (x : Nat → LaneOut) (i : Nat) : LaneOut :=
  let r := op (x i).1 (x (i + half)).1
  (r.1, ((x i).2.join (x (i + half)).2).join r.2)

/-- The seven levels of the tree on 128 lanes, down to lane 0. -/
def combineTree (op : Word32 → Word32 → LaneOut) (x : Nat → LaneOut) : LaneOut :=
  combineLanes op 1 (combineLanes op 2 (combineLanes op 4 (combineLanes op 8 (combineLanes op 16 (combineLanes op 32
    (combineLanes op 64 x)))))) 0

theorem getD_map_range {α : Type} {n i : Nat} (x : Nat → α) (d : α) (h : i < n) : ((List.range n).map x).getD i d = x i := by
  simp [h]

/-- A level of the model's tree on a list of lanes is one on the lanes. -/
theorem reduceLevel_range {op : Word32 → Word32 → LaneOut} {half n : Nat} (x : Nat → LaneOut) (h : 2 * half ≤ n) :
    reduceLevel op half ((List.range n).map x) = (List.range half).map (combineLanes op half x) := by
  refine List.map_congr_left fun i hi => ?_
  have hi : i < half := List.mem_range.1 hi
  dsimp only
  rw [getD_map_range x _ (by omega), getD_map_range x _ (by omega)]
  rfl

theorem reduceTree_range (op : Word32 → Word32 → LaneOut) (x : Nat → LaneOut) :
    reduceTree op ((List.range 128).map x) = combineTree op x := by
  simp (disch := decide) only [reduceTree, List.foldl_cons, List.foldl_nil, reduceLevel_range]
  exact getD_map_range _ _ Nat.one_pos

/-- The lanes that a reduction combines: one that is off gives the identity (R169). -/
def reducedLane (r : VecRegs) (w : VWord) (kind i : Nat) : LaneOut :=
  (if r.enabled w i then r.lane w.a i else reduceIdentity (laneFmt w) kind, flagNone)

/-- Flags on lane 0 alone (R179). -/
def onLaneZero (f : NumFlags) (i : Nat) : NumFlags := if i = 0 then f else flagNone

/-- Core `k` after a reduction has retired with `out`: its value in the scalar register, its flags on lane 0 and in CORE_VEC_STATUS. -/
def State.retiredReduction (s : State) (k : Nat) (w : VWord) (out : LaneOut) : State :=
  (s.updCore k (fun c => { c with
    vec := { (c.vec.setScalar w.d (out.1.zeroExtend 64)).raise (onLaneZero out.2) with pc := (c.vec.pc + 1) % 2 ^ 18 }
    vecStatus := c.vecStatus ||| BitVec.ofNat 6 (anyFlags (onLaneZero out.2)).toNat
    retired := c.retired + 1
    stalls := c.stalls + s.free })).tookFree

/-- A reduction retires with the tree over its lanes. -/
theorem issueReduce_runs {k : Nat} {w : VWord} {s : State} (hk : k < 192) (hrun : (s.core k).running = true) (kind : Nat)
    (op : Word32 → Word32 → LaneOut) :
    issueReduce k w kind op s = .next (s.retiredReduction k w (combineTree op (reducedLane (s.core k).vec w kind))) := by
  refine (issue_retires hk hrun rfl).trans (congrArg _ ?_)
  rw [← reduceTree_range]
  simp only [State.retireTo, State.raiseLanes, State.setVec, State.updCore, core_setCore_same, setCore_setCore, State.free, setCore_freeCtr]
  rfl

/-! ### O14 -/

/-- Settles O14: a level of the model's tree pairs lane i with lane i + half (`reduceLevel_range`), so the seven levels are the statement's. The
extremes of INT32 that a masked lane gives are the model's reading (log 8). -/
theorem reductionsCombineLanesAsAFixedTree : Obligations.ReductionsCombineLanesAsAFixedTree := by
  intro k w s hk hrun f level tree gives
  exact ⟨issueReduce_runs hk hrun 0 _, issueReduce_runs hk hrun 1 _, issueReduce_runs hk hrun 2 _⟩

/-! ### O10 to O13 -/

/-- Settles O10: NOP writes nothing, every other scalar instruction one scalar register. That the immediate of SADDI is signed is the model's
reading (log 9). -/
theorem scalarInstructionsWriteTheirResult : Obligations.ScalarInstructionsWriteTheirResult := by
  intro k w s hk hrun r gives a b m
  dsimp only [exec]
  have writes (f : VecRegs → Word64) : issueRegs k (fun r => r.setScalar w.d (f r)) s = .next (gives (f r)) :=
    issueRegs_setScalar hk hrun f
  have binary (f : Word64 → Word64 → Word64) : issueScalar k w f s = .next (gives (f a b)) := writes _
  exact ⟨issueRegs_runs k _ s hk hrun, writes _, writes _, binary _, binary _, writes _, binary _, binary _, binary _, binary _, binary _,
    binary _, binary _, writes _, writes _, writes _⟩

/-- Settles O11: each instruction writes one mask register; VCMP and VXCMP compute theirs under the mask (R169). -/
theorem maskInstructionsWriteTheirResult : Obligations.MaskInstructionsWriteTheirResult := by
  intro k w s hk hrun r gives a b
  dsimp only [exec]
  have writes (f : VecRegs → Word128) : issueRegs k (fun r => r.setMask w.d.toNat (f r)) s = .next (gives (f r)) :=
    issueRegs_setMask hk hrun f
  have binary (f : Word128 → Word128 → Word128) : issueMask k w f s = .next (gives (f a b)) := writes _
  have compares (f : VecRegs → Nat → Bool) :
      issueRegs k (fun r => r.setMask w.d.toNat (maskResult r w (f r))) s = .next (gives (maskUnder r w (f r))) := by
    rw [writes, maskResult_eq_maskUnder]
  exact ⟨binary _, binary _, binary _, binary _, binary _, binary _, writes _, compares _, compares _⟩

/-- Settles O12: lane arithmetic is one form of issue, with the lane's result and flags as the instruction's operation gives them. -/
theorem laneArithmeticWritesEnabledLanes : Obligations.LaneArithmeticWritesEnabledLanes := by
  intro k w s hk hrun r f plain
  dsimp only [exec]
  have lanes (f : VecRegs → Nat → LaneOut) : issueLanes k w f s = .next (s.retiredLanes k w (f r)) := issueLanes_runs k w f s hk hrun
  exact ⟨lanes _, lanes _, lanes _, lanes _, lanes _, lanes _, lanes _, lanes _, lanes _⟩

/-- Settles O13: the moves are lane instructions without flags; VSEL and VXCHG are issued with no mask (R169). -/
theorem laneMovesWriteEnabledLanes : Obligations.LaneMovesWriteEnabledLanes := by
  intro k w s hk hrun r gives a b m j
  dsimp only [exec]
  have moves (v : VWord) (f : VecRegs → Nat → Word32) : issueLanes k v (fun r i => (f r i, flagNone)) s = .next (gives v (f r)) :=
    issueLanes_runs k v _ s hk hrun
  have bits (f : Word32 → Word32 → Word32) : issueBits k w f s = .next (gives w (fun i => f (a i) (b i))) :=
    moves w (fun r i => f (r.lane w.a i) (r.lane w.b i))
  exact ⟨bits _, bits _, bits _, bits _, bits _, bits _, moves w _, moves w _, moves w _, moves w _, moves w _,
    moves (unmasked w) _, moves (unmasked w) _⟩

/-! ### O17 -/

/-- Settles O17: every unit instruction is issued with the predicate, whatever its body. -/
theorem predicatedOffUnitInstructionsDoNothing : Obligations.PredicatedOffUnitInstructionsDoNothing := by
  intro k w ecc run s hk hrun hmasked hoff noop
  dsimp only [exec]
  have off (body : State → CoreState → Issue) : issueUnit k w body s = noop := issueUnit_predicatedOff hk hrun body hmasked hoff
  exact ⟨off _, off _, off _, off _, off _, off _, off _, off _, off _⟩

end Sys2Proof.Machine
end

section
/-!
PROOFS. The vector engine's control instructions (O15): loops, FENCE, VRDT and END, and those that only write its registers (R166, R178 to R182).
-/

namespace Sys2Proof.Machine

section
variable {k : Nat} {w : VWord} {s : State} (hk : k < 192) (hrun : (s.core k).running = true)
include hk hrun

/-! ### Loops (R181) -/

/-- LOOP with a count opens a loop whose body is the next instruction. -/
theorem execLoopOpen_opens (hn : 0 < loopCount (s.core k).vec w) : execLoopOpen k w s = .next (s.retired k { (s.core k).vec with
    loops := { body := (s.core k).vec.pc + 1, remaining := loopCount (s.core k).vec w } :: (s.core k).vec.loops }) := by
  refine (issue_retires hk hrun (if_neg hn.ne')).trans (congrArg _ ?_)
  exact setVec_retires hk hrun _

/-- LOOP with a count of 0 goes on behind its ENDLOOP. -/
theorem execLoopOpen_skips (hn : loopCount (s.core k).vec w = 0) :
    execLoopOpen k w s = .next (s.retireTo k (findLoopEnd (s.opcodeAt k) 262144 ((s.core k).vec.pc + 1) 0)) := by
  unfold execLoopOpen
  rw [issue_runs k _ s hk hrun]
  dsimp only
  rw [if_pos hn]
  rfl

/-- ENDLOOP of the last run closes its loop. -/
theorem execLoopClose_closes {f : LoopFrame} {fs : List LoopFrame} (hloops : (s.core k).vec.loops = f :: fs) (hlast : f.remaining ≤ 1) :
    execLoopClose k w s = .next (s.retired k { (s.core k).vec with loops := fs }) := by
  unfold execLoopClose
  rw [issue_runs k _ s hk hrun, hloops]
  dsimp only
  rw [if_neg (Nat.not_lt.2 hlast)]
  exact congrArg _ (setVec_retires hk hrun _)

/-- ENDLOOP with runs left goes back to the body. -/
theorem execLoopClose_repeats {f : LoopFrame} {fs : List LoopFrame} (hloops : (s.core k).vec.loops = f :: fs) (hmore : 1 < f.remaining) :
    execLoopClose k w s = .next ((s.setVec k { (s.core k).vec with
      loops := { f with remaining := f.remaining - 1 } :: fs }).retireTo k f.body) := by
  unfold execLoopClose
  rw [issue_runs k _ s hk hrun, hloops]
  dsimp only
  rw [if_pos hmore]
  rfl

/-! ### END, FENCE and VRDT (R166, R182) -/

/-- END leaves the item to its retirement. -/
theorem execCoreEnd_ends : execCoreEnd k w s = .next (s.updCore k (fun c => { c with phase := .atEnd })) :=
  issue_runs k _ s hk hrun

/-- FENCE goes on once the core's units are done. -/
theorem execFence_goesOn (hdone : s.unitsDone k = true) : execFence k w s = .next (s.retired k (s.core k).vec) :=
  issue_retires hk hrun (if_pos hdone)

/-- VRDT gives the verdict of a layer, once it stands, as a mask: no lane for narrow and every lane for WIDE. -/
theorem execVrdt_reads {v : Nat}
    (hverdict : (s.cluster ((s.core k).home k)).verdict ((s.core k).vec.scalar w.a).toNat (w.imm.toNat % 4096) = v + 1) :
    execVrdt k w s = .next (s.retired k ((s.core k).vec.setMask w.d.toNat (if v = 0 then 0 else BitVec.allOnes 128))) := by
  unfold execVrdt
  rw [issue_runs k _ s hk hrun, hverdict]
  cases v <;> exact congrArg _ (setVec_retires hk hrun _)
end

/-! ### O15 -/

/-- Settles O15: SEED and VFCLR write registers alone, the others each by the lemma of its outcome. What VFCLR leaves of the flags that an
instruction sets as it completes, and where a LOOP of count 0 goes on, are the model's readings (logs 44 and 18). -/
theorem controlInstructionsActOnTheEngine : Obligations.ControlInstructionsActOnTheEngine := by
  intro k w s hk hrun r n keep
  dsimp only [exec]
  exact ⟨issueRegs_runs k _ s hk hrun, fun _ => issueRegs_runs k _ s hk hrun, execLoopOpen_opens hk hrun, execLoopOpen_skips hk hrun,
    fun _ _ => execLoopClose_closes hk hrun, fun _ _ => execLoopClose_repeats hk hrun, execCoreEnd_ends hk hrun, execFence_goesOn hk hrun,
    execVrdt_reads hk hrun, execVrdt_reads hk hrun⟩

end Sys2Proof.Machine
end

section
/-!
PROOFS. The vector engine's bin accesses (O16) and what a store leaves of the bins (O5): bytes and elements, writes of a bin, the instructions,
then the two statements (R169, R176, R178, R188, R286 to R288).
-/

namespace Sys2Proof.Machine

/-! ### Bytes and elements (R7, R88) -/

@[simp] theorem length_natLE (n v : Nat) : (natLE n v).length = n := by
  induction n generalizing v with
  | zero => rfl
  | succ n ih => simp [natLE, ih]

/-- A run of bytes just written reads as written. -/
theorem Mem.bytes_put_same (m : Mem) (a : Nat) (bs : List Byte) : (m.put a bs).bytes a bs.length = bs := by
  refine List.ext_getElem (by simp [Mem.bytes, Tbl.getRun]) fun i _ hi => ?_
  simpa [Mem.bytes, Tbl.getRun, Mem.byte] using Mem.byte_put_same m a i bs hi

@[simp] theorem length_binRead (s : State) (k : Nat) (pl : BinPlace) (n : Nat) : (s.binRead k pl n).length = n := by
  cases pl <;> simp [State.binRead, Mem.bytes, Tbl.getRun]

/-- An element put among 128 leaves the run's length. -/
theorem length_putElement {f : Format} {bs : List Byte} {i : Nat} (x : Nat) (hbs : bs.length = bytesFor f 128) (hi : i < 128) :
    (putElement f bs i x).length = bytesFor f 128 := by
  unfold putElement
  extract_lets b
  split
  case isTrue => simpa using hbs
  case isFalse =>
    have hwhole : 128 * (b / 8) ≤ bytesFor f 128 := by
      change 128 * (b / 8) ≤ (128 * b + 7) / 8
      omega
    have hlast : (i + 1) * (b / 8) ≤ 128 * (b / 8) := Nat.mul_le_mul_right _ hi
    have hnext : (i + 1) * (b / 8) = i * (b / 8) + b / 8 := Nat.succ_mul _ _
    simp only [List.length_append, List.length_take, List.length_drop, length_natLE, hbs]
    omega

/-- The run `bs` with the elements of the enabled lanes replaced (R169, R176). -/
def VecRegs.putLanes (r : VecRegs) (w : VWord) (element : Nat → Nat) (bs : List Byte) : List Byte :=
  (List.range 128).foldl (fun bs i => if r.enabled w i then putElement (otherFmt w) bs i (element i) else bs) bs

theorem length_putLanes {r : VecRegs} {w : VWord} {bs : List Byte} (element : Nat → Nat) (hbs : bs.length = bytesFor (otherFmt w) 128) :
    (r.putLanes w element bs).length = bytesFor (otherFmt w) 128 := by
  refine List.foldlRecOn (motive := fun bs : List Byte => bs.length = bytesFor (otherFmt w) 128) _ _ hbs fun bs hbs i hi => ?_
  split
  · exact length_putElement _ hbs (List.mem_range.1 hi)
  · exact hbs

/-! ### Writes of a bin (R188, R286, R443) -/

/-- A change of a core that leaves one part of it leaves that part of every core. -/
theorem core_updCore_part {β : Type} (part : CoreState → β) {f : CoreState → CoreState} {s : State} {k : Nat}
    (hf : ∀ c, part (f c) = part c) (j : Nat) : part ((s.updCore k f).core j) = part (s.core j) := by
  by_cases hj : j = k
  · subst hj
    rw [core_updCore_same, hf]
  · rw [core_updCore_other _ _ _ _ hj]

section
variable {s : State} {k : Nat} {pl : BinPlace} {bs : List Byte}

/-- A write of a cluster's bin leaves that bin written, and either nothing else changed or core `k`'s item with its note of written STAGING units. -/
theorem binWrite_cluster_cases {off : Nat} {P : State → Prop}
    (hwritten : P (s.updCluster (clusterOf k) (fun c => { c with bin := c.bin.put off bs })))
    (hnoted : ∀ g : Option WorkItem → Option WorkItem,
      P ((s.updCluster (clusterOf k) (fun c => { c with bin := c.bin.put off bs })).updCore k (fun c => { c with item := g c.item }))) :
    P (s.binWrite k (.cluster off) bs) := by
  unfold State.binWrite
  dsimp only
  split
  · split
    · exact hnoted (Option.map _)
    · exact hwritten
  · exact hwritten

@[simp] theorem binWrite_gleaners : (s.binWrite k pl bs).gleaners = s.gleaners := by
  cases pl with
  | core off => rfl
  | cluster off => exact binWrite_cluster_cases (P := fun t => t.gleaners = s.gleaners) rfl fun _ => rfl

@[simp] theorem binWrite_free : (s.binWrite k pl bs).free = s.free := by
  cases pl with
  | core off => rfl
  | cluster off => exact binWrite_cluster_cases (P := fun t => t.free = s.free) rfl fun _ => rfl

/-- A write of a bin leaves every core's vector registers. -/
@[simp] theorem binWrite_vec (j : Nat) : ((s.binWrite k pl bs).core j).vec = (s.core j).vec := by
  cases pl with
  | core off => exact core_updCore_part CoreState.vec (fun _ => by rfl) j
  | cluster off =>
    exact binWrite_cluster_cases (P := fun t => (t.core j).vec = (s.core j).vec) rfl fun _ =>
      core_updCore_part CoreState.vec (fun _ => by rfl) j

/-- A write of a bin leaves the bytes of the cores' bins that it does not cover. -/
theorem binWrite_coreByte {j o : Nat} (h : ∀ off, pl = .core off → j = k → o < off ∨ off + bs.length ≤ o) :
    ((s.binWrite k pl bs).core j).bin.byte o = (s.core j).bin.byte o := by
  cases pl with
  | core off =>
    by_cases hj : j = k
    · subst hj
      exact (congrArg (fun c : CoreState => c.bin.byte o) (core_updCore_same _ _ _)).trans (Mem.byte_put_other _ _ _ _ (h off rfl rfl))
    · exact congrArg (fun c : CoreState => c.bin.byte o) (core_updCore_other _ _ _ _ hj)
  | cluster off =>
    exact binWrite_cluster_cases (P := fun t => (t.core j).bin.byte o = (s.core j).bin.byte o) rfl fun _ =>
      core_updCore_part (fun c => c.bin.byte o) (fun _ => by rfl) j

/-- A write of a bin leaves the bytes of the clusters' bins that it does not cover. -/
theorem binWrite_clusterByte {c o : Nat} (h : ∀ off, pl = .cluster off → c = clusterOf k → o < off ∨ off + bs.length ≤ o) :
    ((s.binWrite k pl bs).cluster c).bin.byte o = (s.cluster c).bin.byte o := by
  cases pl with
  | core off => rfl
  | cluster off =>
    have hwritten : ((s.updCluster (clusterOf k) (fun c => { c with bin := c.bin.put off bs })).cluster c).bin.byte o =
        (s.cluster c).bin.byte o := by
      by_cases hc : c = clusterOf k
      · subst hc
        rw [cluster_updCluster_same]
        exact Mem.byte_put_other _ _ _ _ (h off rfl rfl)
      · rw [cluster_updCluster_other _ _ _ _ hc]
    exact binWrite_cluster_cases (P := fun t => (t.cluster c).bin.byte o = (s.cluster c).bin.byte o) hwritten fun _ => hwritten

/-- The bytes just written are read back. -/
theorem binRead_binWrite_same : (s.binWrite k pl bs).binRead k pl bs.length = bs := by
  cases pl with
  | core off =>
    exact (congrArg (fun c : CoreState => c.bin.bytes off bs.length) (core_updCore_same _ _ _)).trans (Mem.bytes_put_same _ _ _)
  | cluster off =>
    have hwritten : (s.updCluster (clusterOf k) (fun c => { c with bin := c.bin.put off bs })).binRead k (.cluster off) bs.length = bs :=
      (congrArg (fun c : ClusterState => c.bin.bytes off bs.length) (cluster_updCluster_same _ _ _)).trans (Mem.bytes_put_same _ _ _)
    exact binWrite_cluster_cases (P := fun t => t.binRead k (.cluster off) bs.length = bs) hwritten fun _ => hwritten

/-- In `t`, every byte of every bin but the `n` at `pl`, as core `k` names the place, is that of `s`, and so is all of DRAM. -/
def State.OnlyWrites (s : State) (k : Nat) (pl : BinPlace) (n : Nat) (t : State) : Prop :=
  (∀ j o, (∀ off, pl = .core off → j = k → o < off ∨ off + n ≤ o) → (t.core j).bin.byte o = (s.core j).bin.byte o) ∧
  (∀ c o, (∀ off, pl = .cluster off → c = clusterOf k → o < off ∨ off + n ≤ o) → (t.cluster c).bin.byte o = (s.cluster c).bin.byte o) ∧
  t.gleaners = s.gleaners

/-- A store that ends in a change of its core beside the bin writes the bytes of its access only. -/
theorem onlyWrites_store {f : CoreState → CoreState} {n : Nat} (hn : bs.length = n) (hf : ∀ c, (f c).bin = c.bin) :
    s.OnlyWrites k pl n ((s.binWrite k pl bs).updCore k f).tookFree := by
  subst hn
  refine ⟨fun j o h => ?_, fun _ _ h => binWrite_clusterByte h, binWrite_gleaners⟩
  exact (core_updCore_part (fun c => c.bin.byte o) (fun c => by simp only [hf]) j).trans (binWrite_coreByte h)

/-- The bytes that a store wrote are read back after it. -/
theorem binRead_store {f : CoreState → CoreState} {n : Nat} (hn : bs.length = n) (hf : ∀ c, (f c).bin = c.bin) :
    ((s.binWrite k pl bs).updCore k f).tookFree.binRead k pl n = bs := by
  subst hn
  refine Eq.trans ?_ (binRead_binWrite_same (s := s) (k := k) (pl := pl))
  cases pl with
  | core off => exact core_updCore_part (fun c => c.bin.bytes off bs.length) (fun c => by simp only [hf]) k
  | cluster off => rfl
end

/-! ### The instructions (R169, R171, R176, R178) -/

/-- Lane `i` of vC as a store converts it into an element, with its lane's draw where format G draws (R96, R176, R178). -/
def State.storedLane (s : State) (k : Nat) (w : VWord) (i : Nat) : Nat × NumFlags :=
  let r := (s.core k).vec
  convert (laneFmt w) plainScale (otherFmt w) (scaleInfoOf (s.clusterPlan (clusterOf k)) (otherFmt w) (r.scalar w.b)) (roundMode w)
    (if drawsInto (otherFmt w) (roundMode w) then drawOf (nextDrawState (r.gen i)) else 0) (r.lane w.c i).toNat

/-- The generators after a store: those of the enabled lanes have drawn, where format G draws (R178). -/
def VecRegs.drawnGens (r : VecRegs) (w : VWord) : Tbl Word32 :=
  if drawsInto (otherFmt w) (roundMode w) then
    (List.range 128).foldl (fun t i => if r.enabled w i then Tbl.set 1 t i (nextDrawState (r.gen i)) else t) r.gens
  else r.gens

/-- A core whose store has retired from registers `r`, with the flags its lanes raise. -/
def CoreState.afterStore (c : CoreState) (r : VecRegs) (flags : Nat → NumFlags) (clocks : Word64) : CoreState :=
  { c with
    vec := { r.raise flags with pc := (r.pc + 1) % 2 ^ 18 }
    vecStatus := c.vecStatus ||| BitVec.ofNat 6 (anyFlags flags).toNat
    retired := c.retired + 1
    stalls := c.stalls + clocks }

theorem updCore_updCore (s : State) (k : Nat) (f g : CoreState → CoreState) :
    (s.updCore k f).updCore k g = s.updCore k (fun c => g (f c)) := by
  simp only [State.updCore, core_setCore_same, setCore_setCore]

/-- A change of a core depends on what it makes of that core only. -/
theorem updCore_congr {s : State} {k : Nat} {f g : CoreState → CoreState} (h : f (s.core k) = g (s.core k)) : s.updCore k f = s.updCore k g :=
  congrArg (s.setCore k) h

/-- An instruction that raises flags and retires. -/
theorem raiseLanes_retires {t : State} {k pc : Nat} {flags : Nat → NumFlags} (hpc : (t.core k).vec.pc = pc) :
    (t.raiseLanes k flags).retireTo k (pc + 1) = (t.updCore k (fun c => c.afterStore c.vec flags t.free)).tookFree := by
  subst hpc
  refine congrArg State.tookFree ((updCore_updCore _ _ _ _).trans (updCore_congr ?_))
  rfl

/-- The draws of a store from registers `r`, where format G draws (R178). -/
def State.drawLanes (t : State) (k : Nat) (w : VWord) (r : VecRegs) : State :=
  if drawsInto (otherFmt w) (roundMode w) then
    t.updCore k (fun c => { c with vec := { c.vec with
      gens := (List.range 128).foldl (fun gens i => if r.enabled w i then Tbl.set 1 gens i (nextDrawState (r.gen i)) else gens) c.vec.gens } })
  else t

section
variable {t : State} {k : Nat} {w : VWord} {r : VecRegs}

theorem drawLanes_free : (t.drawLanes k w r).free = t.free := by
  unfold State.drawLanes
  split <;> rfl

theorem drawLanes_vec (hvec : (t.core k).vec = r) : ((t.drawLanes k w r).core k).vec = { r with gens := r.drawnGens w } := by
  unfold State.drawLanes VecRegs.drawnGens
  split
  · rw [core_updCore_same, hvec]
  · exact hvec

/-- A core that draws and then retires its store. -/
theorem drawLanes_afterStore {flags : Nat → NumFlags} {clocks : Word64} (hvec : (t.core k).vec = r) :
    (t.drawLanes k w r).updCore k (fun c => c.afterStore c.vec flags clocks) =
      t.updCore k (fun c => c.afterStore { r with gens := r.drawnGens w } flags clocks) := by
  have hdrawn := drawLanes_vec (w := w) hvec
  revert hdrawn
  unfold State.drawLanes
  split
  · intro hdrawn
    rw [core_updCore_same] at hdrawn
    rw [updCore_updCore]
    exact updCore_congr (congrArg ((t.core k).afterStore · flags clocks) hdrawn)
  · exact fun hdrawn => updCore_congr (congrArg ((t.core k).afterStore · flags clocks) hdrawn)
end

section
variable {k : Nat} {w : VWord} {s : State} {pl : BinPlace} {reg : BinRegion} (hk : k < 192) (hrun : (s.core k).running = true)
include hk hrun

/-- SLD writes its scalar register with the 8 bytes read. -/
theorem execSld_loads (hread : s.binCheck k ((s.core k).vec.address w) 8 false true = some (pl, reg)) :
    execSld k w .clean s = .next (s.retired k ((s.core k).vec.setScalar w.d (BitVec.ofNat 64 (leNat (s.binRead k pl 8))))) := by
  unfold execSld
  rw [issue_runs k _ s hk hrun, coreLoad_clean hread]
  exact congrArg _ (setVec_retires hk hrun _)

/-- SST writes its 8 bytes. -/
theorem execSst_stores (hwrite : s.binCheck k ((s.core k).vec.address w) 8 true true = some (pl, reg)) (hfree : s.heldInput k pl 8 = false) :
    execSst k w s = .next ((s.binWrite k pl (natLE 8 ((s.core k).vec.scalar w.b).toNat)).retireTo k ((s.core k).vec.pc + 1)) := by
  refine issue_retires hk hrun ?_
  simp [State.coreStore, hwrite, hfree]

/-- VLD writes its lanes with the elements read, each converted once. -/
theorem execVld_loads (hread : s.binCheck k ((s.core k).vec.address w) (bytesFor (otherFmt w) 128) false true = some (pl, reg)) :
    execVld k w .clean s = .next (s.retiredLanes k w (fun i =>
      let x := convert (otherFmt w) (scaleInfoOf (s.clusterPlan (clusterOf k)) (otherFmt w) ((s.core k).vec.scalar w.b)) (laneFmt w) plainScale
        (roundMode w) 0 (elementOf (otherFmt w) (s.binRead k pl (bytesFor (otherFmt w) 128)) i)
      (BitVec.ofNat 32 x.1, x.2))) := by
  unfold execVld
  rw [issue_runs k _ s hk hrun]
  dsimp only
  rw [coreLoad_clean hread]
  exact congrArg _ (writeLanes_retires hk hrun _)

/-- VST writes the elements of its enabled lanes; they alone draw and raise flags. -/
theorem execVst_stores (hwrite : s.binCheck k ((s.core k).vec.address w) (bytesFor (otherFmt w) 128) true true = some (pl, reg))
    (hfree : s.heldInput k pl (bytesFor (otherFmt w) 128) = false) :
    execVst k w s = .next ((s.binWrite k pl ((s.core k).vec.putLanes w (fun i => (s.storedLane k w i).1)
      (s.binRead k pl (bytesFor (otherFmt w) 128)))).updCore k (fun c => c.afterStore
        { (s.core k).vec with gens := (s.core k).vec.drawnGens w }
        (fun i => if (s.core k).vec.enabled w i then (s.storedLane k w i).2 else flagNone) s.free)).tookFree := by
  unfold execVst
  rw [issue_runs k _ s hk hrun]
  dsimp only
  rw [hwrite]
  dsimp only
  rw [hfree, if_neg Bool.false_ne_true]
  refine congrArg _ ((raiseLanes_retires (congrArg VecRegs.pc (drawLanes_vec (w := w) (binWrite_vec k)))).trans ?_)
  rw [drawLanes_free, drawLanes_afterStore (binWrite_vec k), binWrite_free]
  rfl

/-- VGTH writes its lanes with the words read, where every enabled lane may read its own. -/
theorem execVgth_gathers (hread : ∀ i < 128, (s.core k).vec.enabled w i = true →
      (s.binCheck k (((s.core k).vec.scalar w.a).toNat + 4 * ((s.core k).vec.lane w.b i).toNat) 4 false true).isSome = true) :
    execVgth k w .clean s = .next (s.retiredLanes k w (fun i =>
      match binPlace (((s.core k).vec.scalar w.a).toNat + 4 * ((s.core k).vec.lane w.b i).toNat) with
      | some pl => (BitVec.ofNat 32 (leNat (s.binRead k pl 4)), flagNone)
      | none => (0, flagNone))) := by
  have hnone : ((List.range 128).filter ((s.core k).vec.enabled w)).find? (fun i =>
      (s.binCheck k (((s.core k).vec.scalar w.a).toNat + 4 * ((s.core k).vec.lane w.b i).toNat) 4 false true).isNone) = none := by
    refine List.find?_eq_none.2 fun i hi => ?_
    obtain ⟨hi, hon⟩ := List.mem_filter.1 hi
    simpa using Option.isSome_iff_ne_none.1 (hread i (List.mem_range.1 hi) hon)
  unfold execVgth
  rw [issue_runs k _ s hk hrun]
  dsimp only
  rw [hnone]
  dsimp only
  generalize (List.head? ((List.range 128).filter _)).bind _ = first
  obtain - | ⟨pl, reg⟩ := first <;> exact congrArg _ (writeLanes_retires hk hrun _)
end

/-! ### O5 and O16 -/

/-- Settles O5: both stores end in a write of their bytes and a change of their core beside its bin (`onlyWrites_store`); the elements of a VST
fill its access exactly (`length_putLanes`). -/
theorem binStoresWriteOnlyTheirBytes : Obligations.BinStoresWriteOnlyTheirBytes := by
  intro k w s pl reg hk hrun r n only
  refine ⟨fun hwrite hfree => ⟨_, execSst_stores hk hrun hwrite hfree, ?sst, ?back⟩,
    fun hwrite hfree => ⟨_, execVst_stores hk hrun hwrite hfree, ?vst⟩⟩
  case sst => exact onlyWrites_store (length_natLE 8 _) fun _ => by rfl
  case back => exact binRead_store (length_natLE 8 _) fun _ => by rfl
  case vst => exact onlyWrites_store (length_putLanes _ (length_binRead s k pl n)) fun _ => by rfl

/-- Settles O16: each access by the lemma of its command. -/
theorem binAccessesLoadAndStore : Obligations.BinAccessesLoadAndStore := by
  intro k w s hk hrun r g plain scaled word
  dsimp only [exec]
  exact ⟨fun _ _ => execSld_loads hk hrun, fun _ _ => execSst_stores hk hrun, fun _ _ => execVld_loads hk hrun,
    fun _ _ => execVst_stores hk hrun, execVgth_gathers hk hrun⟩

end Sys2Proof.Machine
end

section
/-!
PROOFS. Requests at a gleaner (O24): what a request that is served at once becomes, one lemma for each kind that takes its point, then the statement
(R231, R254, R256, R260 to R262, R266, R272, R273, R280).
-/

namespace Sys2Proof.Machine

/-! ### Arrival (R254, R261, R262, R278) -/

/-- Whether a gleaner serves an arriving request at once: nothing diverts it, and none that waits stands before it (R254, R278). -/
def State.servesNow (s : State) (g : Nat) (r : GReq) : Prop :=
  s.admission g r = .serve ∧ (if r.forwarded then !(s.gleaner g).forwardQueue.isEmpty else (s.gleaner g).queueBlocks g r) = false

section
variable {g : Nat} {r : GReq} {ecc : Ecc} {s : State}

theorem takeIn_servesNow (hkind : r.kind ≠ 6) (h : s.servesNow g r) : s.takeIn g r ecc = s.serve g r ecc false false := by
  obtain ⟨hserve, hfree⟩ := h
  have hpass : s.refusedOnArrival g r false = none := by simp [State.refusedOnArrival, hserve]
  unfold State.takeIn
  rw [if_neg hkind]
  dsimp only
  rw [hfree, hpass]
  simp [State.passIn, hserve]

theorem takeIn_invoke (hkind : r.kind = 6) : s.takeIn g r ecc = s.enqueue g r := if_pos hkind

/-- A request of a reserved kind names no bytes and no row, so only a microcode load holds it back. -/
theorem admission_reserved (hkind : 7 ≤ r.kind) (hhold : (s.gleaner g).holding = false) : s.admission g r = .serve := by
  unfold State.admission
  dsimp only
  rw [if_neg (by simp [hhold]), if_neg (by omega), if_neg (by omega)]

theorem serve_reserved {checked again : Bool} (hkind : 7 ≤ r.kind) : s.serve g r ecc checked again = s.refuseInvalid g r := by
  unfold State.serve
  split
  case h_7 => rfl
  all_goals omega

theorem execReservedRequestKind_refuses (hg : g < 448) (hkind : 7 ≤ r.kind) (hhold : (s.gleaner g).holding = false)
    (hfree : (if r.forwarded then !(s.gleaner g).forwardQueue.isEmpty else (s.gleaner g).queueBlocks g r) = false) :
    execReservedRequestKind g r s = .next (s.refuseInvalid g r) := by
  have hnow : s.servesNow g r := ⟨admission_reserved hkind hhold, hfree⟩
  unfold execReservedRequestKind
  rw [onGleaner_runs hg, if_neg (Nat.not_lt.2 hkind), takeIn_servesNow (by omega) hnow, serve_reserved hkind]

/-! ### Service at the point (R231, R256, R260) -/

/-- The tags' refusal does not arise for SYSTEM traffic, nor where they let the access pass (R260). -/
theorem not_refused_of_admitted {system admits : Bool} (h : (system || admits) = true) : ¬(!system && !false && !admits) = true := by
  rcases Bool.or_eq_true_iff.1 h with h | h <;> simp [h]

/-- RAW_READ of whole units within the channel takes its bytes at its point. -/
theorem serveRawRead_reads {len : Nat} (hlen : leNat (r.payload.take 4) = len) (hstart : r.target % 64 = 0) (hpay : r.payload.length = 4)
    (hunits : len % 64 = 0) (hsome : len ≠ 0) (hmax : len ≤ 16384) (hin : r.target + len ≤ channelBytes (isLoft g))
    (htag : (r.system || s.rangeAdmits g r.target len r.ctx false) = true) :
    s.serveRawRead g r false = (if r.system then s else s.chargeUnits g r.ctx r.target len).pushOp g { plainOp r 0 0 with
      data := (s.gleaner g).data.bytes r.target len, bad := (s.gleaner g).rangeBad r.target len } := by
  subst hlen
  unfold State.serveRawRead
  dsimp only
  rw [if_neg (by omega), if_neg (not_refused_of_admitted htag)]

/-- RAW_WRITE of whole units within the channel writes at its points and notes its frame. -/
theorem serveRawWrite_writes (hstart : r.target % 64 = 0) (hunits : r.payload.length % 64 = 0) (hsome : r.payload.length ≠ 0)
    (hmax : r.payload.length ≤ 16384) (hin : r.target + r.payload.length ≤ channelBytes (isLoft g))
    (htag : (r.system || s.rangeAdmits g r.target r.payload.length r.ctx true) = true) :
    s.serveRawWrite g r false = ((s.putRaw g r.ctx r.tag r.target r.payload r.system).noteFrame g r.target r.payload.length).pushOp g
      (plainOp r 0 0) := by
  unfold State.serveRawWrite
  dsimp only
  rw [if_neg (by omega), if_neg (not_refused_of_admitted htag)]

/-- ROW_READ of a row found here issues its fetch. -/
theorem serveRowRead_fetches {t : TableDesc} {f : RowFetch} (htable : (s.planOf (s.reqPart r)).bind (fun pl => pl.tableOf r.table) = some t)
    (hrows : t.kind < 3) (hfind : s.findRow g (s.reqPart r) r.table r.target r.cls (if r.pinned then some r.epoch else none) = .row f)
    (htag : (r.system || s.fetchAdmits g r.ctx f) = true) :
    s.serveRowRead g r false = (s.issueFetch g r f).1.pushOp g { plainOp r 0 0 with fetch := some (s.issueFetch g r f).2 } := by
  unfold State.serveRowRead
  dsimp only
  rw [htable, Option.map_some]
  split
  case h_1 hkind => exact absurd (Option.some.inj hkind) (by omega)
  case h_2 =>
    rw [hfind]
    exact if_neg (not_refused_of_admitted htag)

section
variable {t : TableDesc} {home off : Nat} {s1 : State} (hplace : s.rowPlace g (s.reqPart r) r.table r.target = some (t, home, off))
  (htag : (r.system || s.rangeAdmits g off t.slot r.ctx true) = true) (hwaits : s.rowWaits g (s.reqPart r) r.table r.target = false)
include hplace htag hwaits

/-- ROW_WRITE of a whole slot whose check field fits replaces its row. -/
theorem serveRowWrite_replaces {again : Bool} (hslot : r.payload.length = t.slot)
    (hcheck : slotCheck r.payload = 0 ∨ slotCheck r.payload = rowCheck (slotScale r.payload) (slotElements r.payload t.elementBytes))
    (hreplace : s.replaceRow g (s.reqPart r) r.table r.target (slotScale r.payload) (slotFlags r.payload)
      (slotElements r.payload t.elementBytes) = .applied s1) :
    s.serveRowWrite g r false again =
      (if r.system then s1 else s1.chargeReplaced g (s.reqPart r) r.table r.target r.ctx).pushOp g (plainOp r 0 0) := by
  have hfits : ¬(slotCheck r.payload ≠ 0 ∧ slotCheck r.payload ≠ rowCheck (slotScale r.payload) (slotElements r.payload t.elementBytes)) :=
    fun ⟨h0, h1⟩ => hcheck.elim h0 h1
  unfold State.serveRowWrite
  dsimp only
  rw [hplace]
  dsimp only
  rw [if_neg (by simp [hslot]), if_neg (not_refused_of_admitted htag), if_neg hfits, if_neg (by simp [hwaits]), hreplace]

/-- A row operation that its row takes returns of the old value what `old` picks. -/
theorem serveModify_modifies {again adds : Bool} {f : TableDesc → List Byte → Option (Option (List Byte) × List NumFlags)}
    {old : List Byte → List Byte} {bytes : List Byte} {fl : List NumFlags}
    (hmodify : s.modifyRow g (s.reqPart r) r.table r.target ecc adds (some r) f = .done s1 bytes fl) :
    s.serveModify g r ecc false again adds f old = s1.pushOp g { plainOp r 0 (recordMarks (joinFlags fl)) with data := old bytes } := by
  unfold State.serveModify
  dsimp only
  rw [hplace]
  dsimp only
  rw [if_neg (not_refused_of_admitted htag), if_neg (by simp [hwaits]), hmodify]

/-- ROW_ADD of 1 to 4,096 addends adds them to its row. -/
theorem serveRowAdd_adds {again : Bool} {h n w : Nat} {old : List Byte} {fl : List NumFlags} (hh : leNat (r.payload.take 8) = h)
    (hn : bitsOf h 47 32 = n) (hw : addendBytes (h % 256) = w) (hlen : r.payload.length = 8 + n * w) (hsome : n ≠ 0) (hmax : n ≤ 4096)
    (hmodify : s.modifyRow g (s.reqPart r) r.table r.target ecc true (some r) (addToElements (h % 256) (bitsOf h 31 16)
      ((List.range n).map (fun i => fieldLE r.payload (8 + w * i) w))) = .done s1 old fl) :
    s.serveRowAdd g r ecc false again = s1.pushOp g (plainOp r 0 (recordMarks (joinFlags fl))) := by
  subst hh hn hw
  unfold State.serveRowAdd
  dsimp only
  rw [if_neg (by omega)]
  exact serveModify_modifies hplace htag hwaits hmodify

/-- ROW_CAS compares and swaps 8 bytes of its row, and returns their old value. -/
theorem serveRowCas_swaps {again : Bool} {old : List Byte} {fl : List NumFlags} (hlen : r.payload.length = 24)
    (hmodify : s.modifyRow g (s.reqPart r) r.table r.target ecc false (some r)
      (casElements (fieldLE r.payload 0 8) (fieldLE r.payload 8 8) (fieldLE r.payload 16 8)) = .done s1 old fl) :
    s.serveRowCas g r ecc false again = s1.pushOp g { plainOp r 0 (recordMarks (joinFlags fl)) with
      data := (old.drop (fieldLE r.payload 0 8)).take 8 } := by
  unfold State.serveRowCas
  dsimp only
  rw [if_neg (by omega)]
  exact serveModify_modifies hplace htag hwaits hmodify
end
end

/-! ### O24 -/

/-- Settles O24: a request that is served at once does what its kind's lemma says, an INVOKE joins its queue, and no reserved kind is diverted
(`admission_reserved`). -/
theorem gleanersServeRequests : Obligations.GleanersServeRequests := by
  intro g r ecc s hg p len served
  have arrives (q : GReq) (e : Ecc) {t : State} (ht : s.takeIn g q e = t) : onGleaner g s (fun s => .next (s.takeIn g q e)) = .next t :=
    (onGleaner_runs hg).trans (congrArg _ ht)
  have serves {k : Nat} (hkind : k ≠ 6) (e : Ecc) (h : s.servesNow g { r with kind := k }) {t : State}
      (ht : s.serve g { r with kind := k } e false false = t) : onGleaner g s (fun s => .next (s.takeIn g { r with kind := k } e)) = .next t :=
    arrives _ e ((takeIn_servesNow hkind h).trans ht)
  refine ⟨fun h hstart hpay hunits hsome hmax hin htag => serves (k := 0) (by decide) .clean h
      (serveRawRead_reads rfl hstart hpay hunits hsome hmax hin htag),
    fun h hstart hunits hsome hmax hin htag => serves (k := 1) (by decide) .clean h
      (serveRawWrite_writes hstart hunits hsome hmax hin htag),
    fun t f h htable hrows hfind htag => serves (k := 2) (by decide) .clean h (serveRowRead_fetches htable hrows hfind htag),
    fun t home off s1 h hplace hslot htag hcheck hwaits hreplace => serves (k := 3) (by decide) .clean h
      (serveRowWrite_replaces (r := { r with kind := 3 }) hplace htag hwaits hslot hcheck hreplace),
    fun t home off s1 old fl h hplace htag hwaits hlen hsome hmax hmodify => serves (k := 4) (by decide) ecc h
      (serveRowAdd_adds (r := { r with kind := 4 }) hplace htag hwaits rfl rfl rfl hlen hsome hmax hmodify),
    fun t home off s1 old fl h hplace htag hwaits hlen hmodify => serves (k := 5) (by decide) ecc h
      (serveRowCas_swaps (r := { r with kind := 5 }) hplace htag hwaits hlen hmodify),
    arrives _ .clean (takeIn_invoke rfl), execReservedRequestKind_refuses hg⟩

end Sys2Proof.Machine
end

section
/-!
PROOFS. Table commands (O29): a lemma for each command of a queue that nothing holds back and for what it sets off at the gleaners, then the statement
(R229, R233, R234, R236, R238, R242, R243, R249, R251, R424, R425).
-/

namespace Sys2Proof.Machine

/-! ### Writes of rows (R229, R424) -/

/-- The ROW_WRITEs that a TABLE_WRITE by row sends for the rows staged in `src`, in order: one for each row that the queue's bay map copy routes. -/
def State.rowWrites (s : State) (x : QueueState) (tag slot : Nat) (c : Cmd) (src : List Byte) : List Out :=
  ((List.range (c.field 8 4)).map (fun i =>
    (s.routeRow (24 + x.inst) x.part (c.field 0 2) (c.field 3 5 + i) false false).map (fun g =>
      Out.request g (rowWriteFor x.context tag x.inst (c.field 0 2) (c.field 3 5 + i) ((src.drop (i * slot)).take slot))))).filterMap (fun o => o)

section
variable {q seq p : Nat} {c : Cmd} {t : TableDesc} {s : State} (hq : q < 1024) (hp : (s.queue q).part = p)
  (ht : (s.planOf p).bind (fun pl => pl.tableOf (c.field 0 2)) = some t)
include hq hp ht

/-- A TABLE_WRITE by row whose rows have all been read and are all routed sends them and counts them as live. -/
theorem execTableWrite_sends {u : State} {src : List Byte} {outs : List Out} (hc : s.dispatched q seq 0x10 = some c)
    (hkey : (c.field 2 1).testBit 0 = false) (hform : (c.ref 0).form ≠ 0) (hlen : c.field 8 4 * t.slot ≤ (c.ref 0).len)
    (hfetch : s.ctxFetch (s.queue q).context (tagOf q seq) (c.ref 0).addr (c.field 8 4 * t.slot) = (u, 0, src))
    (houts : u.rowWrites (s.queue q) (tagOf q seq) t.slot c src = outs) (hsome : outs ≠ []) (hall : outs.length = c.field 8 4) :
    execTableWrite q seq s = .next ((u.sendAll outs).updCmd q seq (fun c => { c with phase := .running, live := outs.length })) := by
  subst hp
  unfold State.rowWrites at houts
  unfold execTableWrite
  rw [onQueue_runs hq, hc]
  dsimp only
  rw [ht]
  dsimp only
  simp only [hkey, Bool.false_eq_true, if_false, Nat.add_zero]
  rw [if_neg (by simp [hform, hlen]), hfetch]
  dsimp only
  rw [if_neg (by simp), houts]
  simp [hsome, hall]

/-! ### Epochs (R233, R239) -/

/-- A table's board takes a new epoch and its advance joins those under way. -/
def State.beginAdvance (s : State) (a : EpochAdvance) : State :=
  (s.updPart a.part (fun x => { x with
    boards := Tbl.modify { epoch := 0, leases := [] } x.boards a.table (fun b => { b with epoch := a.epoch })
    advances := x.advances ++ [a] })).updCmd a.queue a.seq (fun c => { c with phase := .running })
/-- The distribution of a new epoch, with the table's pinned epochs, to the gleaners that an advance awaits. -/
def State.distributeEpoch (s : State) (a : EpochAdvance) : State :=
  s.sendAll (a.waiting.map (fun g => .epoch g a.part a.table a.epoch (s.pinnedEpochs a.part a.table)))

/-- An EPOCH_ADVANCE that no pin and no other advance of its table holds back is distributed. -/
theorem execEpochAdvance_distributes {e : Nat} {gs : List Nat} (hc : s.dispatched q seq 0x11 = some c)
    (hepoch : ((s.board p (c.field 0 2)).epoch + 1) % 2 ^ 32 = e) (hgs : s.tableGleaners p (c.field 0 2) = gs)
    (hpins : (s.pinnedEpochs p (c.field 0 2)).length < 16)
    (hold : (s.pinnedEpochs p (c.field 0 2)).any (fun d => decide (2 ^ 31 ≤ (e + 2 ^ 32 - d) % 2 ^ 32)) = false)
    (hfree : (s.part p).advances.any (fun a => a.table == c.field 0 2) = false) (hsome : gs ≠ []) :
    let a : EpochAdvance := { part := p, table := c.field 0 2, epoch := e, waiting := gs, queue := q, seq := seq }
    execEpochAdvance q seq s = .next ((s.beginAdvance a).distributeEpoch a) := by
  subst hp hepoch hgs
  unfold execEpochAdvance
  rw [onQueue_runs hq, hc]
  dsimp only
  rw [ht]
  dsimp only
  rw [if_neg (by rw [hold, hfree]; simp [hpins]), if_neg (by simpa using hsome)]
  rfl

/-! ### Held pins (R234) -/

/-- TABLE_PIN of a pinnable table holds a pin on its current epoch under the lowest free handle. -/
theorem execTablePin_pins {i : Nat} {pin : HeldPin} (hc : s.dispatched q seq 0x12 = some c) (hpinnable : t.pinnable = true)
    (hhandle : (List.range 1024).find? (fun i => !(s.part p).heldPins.any (fun h => h.handle == i + 1)) = some i)
    (hpin : { handle := i + 1, table := c.field 0 2, epoch := (s.board p (c.field 0 2)).epoch, ctx := (s.queue q).context, queue := q } = pin) :
    execTablePin q seq s = .next ((s.changePins p (c.field 0 2) (fun s => s.updPart p (fun x => { x with
      heldPins := x.heldPins ++ [pin] }))).finishResult q c (c.ref 0) (natLE 4 pin.handle ++ natLE 4 pin.epoch)) := by
  subst hp hpin
  unfold execTablePin
  rw [onQueue_runs hq, hc]
  dsimp only
  rw [ht]
  dsimp only
  rw [if_neg (by simp [hpinnable]), hhandle]
end

/-- TABLE_UNPIN of a handle that the queue's context holds releases its pin. -/
theorem execTableUnpin_releases {q seq : Nat} {c : Cmd} {s : State} (hq : q < 1024) (hc : s.dispatched q seq 0x13 = some c)
    (hheld : (s.part (s.queue q).part).heldPins.any (fun h => h.handle == c.field 0 2 && h.ctx == (s.queue q).context) = true) :
    execTableUnpin q seq s =
      .next ((s.dropPins (s.queue q).part (fun h => h.handle == c.field 0 2 && h.ctx == (s.queue q).context)).finishCmd q seq 0) := by
  unfold execTableUnpin
  rw [onQueue_runs hq, hc]
  dsimp only
  rw [if_pos hheld]

/-! ### What reaches the gleaners (R233, R234, R238) -/

section
variable {g n table : Nat} {s : State} (hg : g < 448) (hn : n < 8)
include hg hn

theorem execEpochDistribute_acknowledges {epoch : Nat} {pins : List Nat} :
    execEpochDistribute g n table epoch pins s = .next (((s.updGleaner g (fun x => { x with
      epochs := Tbl.set 0 x.epochs (tableKey n table) epoch, pinned := Tbl.set [] x.pinned (tableKey n table) pins })).retryWaiting g).send
        (.epochAck g n table)) := onGleanerPart_runs hg hn

/-- The last acknowledgement that an advance awaits finishes it. -/
theorem execEpochAck_finishes {a : EpochAdvance}
    (ha : (s.part n).advances.find? (fun a => a.table == table && a.waiting.contains g) = some a) (hlast : a.waiting.erase g = []) :
    execEpochAck g n table s = .next (s.finishEpoch { a with waiting := [] }) := by
  unfold execEpochAck
  rw [onGleanerPart_runs hg hn, ha]
  dsimp only
  rw [hlast]
  exact if_pos rfl

theorem execPinSetUpdate_retries {epochs : List Nat} : execPinSetUpdate g n table epochs s = .next ((s.updGleaner g (fun x => { x with
    pinned := Tbl.set [] x.pinned (tableKey n table) epochs })).retryWaiting g) := onGleanerPart_runs hg hn
end

/-! ### The end of a load window (R242, R243, R249, R251) -/

/-- The records of a window are sent before its lookups enter the history; the reeve then withdraws, replicates and moves rows, in that order,
which is the model's choice (log 26). -/
theorem execLoadWindow_closes {g : Nat} {s : State} (hg : g < 448) :
    execLoadWindow g s = .next (((((((s.gleaner g).load.foldl (fun s e => s.emitLoad g e.1 e.2) s).updGleaner g
      GleanerState.recordWindow).settleReplicas g).replicateHot g).balance g).updGleaner g (fun x => { x with
        load := [], window := (x.window + 1) % 2 ^ 32 })) := onGleaner_runs hg

/-! ### O29 -/

/-- Settles O29: each command by the lemma of its outcome. That a TABLE_WRITE's requests carry no SYSTEM mark is the model's reading (log 35),
and the order in which a window's end withdraws, replicates and balances its choice (log 26). -/
theorem tableCommandsRun : Obligations.TableCommandsRun := by
  intro q seq g table c t s hq hg p ctx plan
  refine ⟨fun src hc ht hkey hform hlen u hfetch hsome hall =>
      execTableWrite_sends hq rfl ht hc hkey hform hlen hfetch rfl hsome hall,
    fun hc ht hpins hold hfree hsome => execEpochAdvance_distributes hq rfl ht hc rfl rfl hpins hold hfree hsome,
    fun n epoch pins hn => execEpochDistribute_acknowledges hg hn, fun n a hn => execEpochAck_finishes hg hn,
    fun i hc ht hpinnable hhandle => execTablePin_pins hq rfl ht hc hpinnable hhandle rfl, execTableUnpin_releases hq,
    fun n epochs hn => execPinSetUpdate_retries hg hn, execLoadWindow_closes hg⟩

end Sys2Proof.Machine
end

section
/-!
PROOFS. Migrations (O30): the command, the copy and its acknowledgement, the start of forwarding, the markers and the copies' updates, one lemma for
each outcome, then the statement (R244 to R248).
-/

namespace Sys2Proof.Machine

/-! ### The command (R244, R247) -/

/-- A MIGRATE that no rule refuses, with neither gleaner held for a microcode load, begins its move. -/
theorem execMigrate_begins {q seq p src off dst o : Nat} {c : Cmd} {t : TableDesc} {s : State} (hq : q < 1024) (hp : (s.queue q).part = p)
    (hc : s.dispatched q seq 0x14 = some c) (ht : (s.planOf p).bind (fun pl => pl.tableOf (c.field 0 2)) = some t)
    (hmove : s.moveCheck p (c.field 0 2) (c.field 2 5) (c.field 7 4) = .inr (src, off, dst, o))
    (hsrc : s.rolls src = false) (hdst : s.rolls dst = false) :
    execMigrate q seq s = .next ((s.startMove p (c.field 0 2) (c.field 2 5) (c.field 7 4) src off dst o (tagOf q seq)).updCmd q seq
      (fun c => { c with phase := .running })) := by
  subst hp
  unfold execMigrate
  rw [onQueue_runs hq, hc]
  dsimp only
  rw [ht]
  dsimp only
  rw [hmove]
  exact if_neg (by simp [hsrc, hdst])

/-! ### The entry of a moving row -/

/-- A gleaner's displaced-row map with one entry changed. -/
def GleanerState.changeEntry (x : GleanerState) (d : Displaced) (f : Displaced → Displaced) : GleanerState :=
  { x with map := x.map.map (fun e => if e = d then f e else e) }

section
variable {g tk row : Nat} {d : Displaced} {s : State} (hg : g < 448) (hentry : (s.gleaner g).mapOf tk row = some d)
include hg hentry

/-! ### The copy (R244) -/

/-- The copy is written at the destination, its FORWARD bit clear, and acknowledged. -/
theorem execMigrationCopy_acknowledges {source : Nat} {slot : List Byte} (hstate : d.state = .taking) :
    execMigrationCopy g source tk row slot true s =
      .next ((s.updGleaner g (fun x => x.putSlot d.offset (slotForward slot false))).send (.moveAck source tk row)) := by
  unfold execMigrationCopy
  rw [onGleaner_runs hg, hentry]
  exact if_neg (by simp [hstate])

/-- The source whose copy is acknowledged forwards from here on, and awaits a marker from every bay map copy. -/
theorem execMigrationCopyAck_forwards {t : TableDesc} (hstate : d.state = .copying)
    (ht : (s.planOf (tk / 4096)).bind (fun pl => pl.tableOf (tk % 4096)) = some t) :
    execMigrationCopyAck g tk row s = .next (((s.updGleaner g (fun x => { x.forgetRow tk row with
      data := x.data.put d.offset (slotForward (x.slotAt d.offset t.slot) true)
      map := (x.changeEntry d (fun e => { e with state := .forward, count := (s.copiesOfPart (tk / 4096)).length })).map })).send
        (.forwardStart d.peer tk row)).sendAll ((s.copiesOfPart (tk / 4096)).map (fun k => .moveUpdate k tk row d.peer g))) := by
  unfold execMigrationCopyAck
  rw [onGleaner_runs hg, hentry]
  dsimp only
  rw [if_neg (by simp [hstate]), ht]
  rfl

/-- The destination of a move away from the row's home orders the row and lists it among its moved rows. -/
theorem execForwardStart_orders {h : Plan × TableDesc × Nat × Bay} (hstate : d.state = .taking)
    (hhome : s.rowHome (tk / 4096) (tk % 4096) row = some h) (haway : d.bay ≠ h.2.2.1) :
    execForwardStart g tk row s = .next ((s.updGleaner g (fun x => x.changeEntry d (fun e => { e with state := .ordering }))).updGleaner g
      (fun x => { x with moved := x.moved ++ [(tk, row, d.offset)] })) := by
  obtain ⟨pl, t, home, b⟩ := h
  unfold execForwardStart
  rw [onGleaner_runs hg, hentry]
  dsimp only
  rw [if_neg (by simp [hstate]), hhome]
  exact if_neg haway

/-! ### The markers (R245, R246, R248) -/

section
variable {k : Nat}

/-- A marker that is not the last is forwarded and counted. -/
theorem execMoveMarker_counts (hstate : d.state = .forward) (hmore : 1 < d.count) :
    execMoveMarker g tk row k s = .next ((s.send (.moveMarkerForward d.peer tk row k)).updGleaner g (fun x =>
      x.changeEntry d (fun e => { e with count := e.count - 1 }))) := by
  unfold execMoveMarker
  rw [onGleaner_runs hg, hentry]
  dsimp only
  rw [if_neg (by simp [hstate]), if_pos hmore]
  rfl

/-- The last copy's marker applies the requests held for that copy, and the destination releases its entry: the migration is complete, which is the
model's reading of when it is (log 35). -/
theorem execMoveMarkerForward_completes {hit : GReq → Bool} (hstate : d.state = .ordering)
    (hhit : hit = fun r => tableKey (s.reqPart r) r.table == tk && r.target == row && r.requester == k)
    (hlast : (s.copiesOfPart (tk / 4096)).all (fun c => (d.marked ||| 2 ^ k).testBit c) = true) :
    execMoveMarkerForward g tk row k s = .next (((((s.updGleaner g (fun x => { x with
      held := x.held.filter (fun r => !hit r)
      map := (x.changeEntry d (fun e => { e with marked := d.marked ||| 2 ^ k })).map })).takeHeld g
        ((s.gleaner g).held.filter hit)).drainQueue g).updGleaner g (fun x => x.dropMap tk row)).finishMove d.tag 0) := by
  subst hhit
  unfold execMoveMarkerForward
  rw [onGleaner_runs hg, hentry]
  dsimp only
  rw [if_neg (by simp [hstate]), if_pos hlast]
  rfl
end
end

/-! ### The bay map copies (R245) -/

/-- A move update of a row that does not return home enters the copy's move table, and the copy's marker follows. -/
theorem execMoveUpdate_enters {k tk row dest source : Nat} {s : State} (hk : k < 28)
    (hhome : s.rowHome (tk / 4096) (tk % 4096) row = none) :
    execMoveUpdate k tk row dest source s = .next ((s.updCopyMap k (fun m => { m with
      moves := m.moves.filter (fun e => !(e.1 == tk && e.2.1 == row)) ++ [(tk, row, dest)] })).send (.moveMarker source tk row k)) := by
  unfold execMoveUpdate
  rw [if_neg (Nat.not_le.2 hk)]
  dsimp only
  rw [hhome]
  rfl

/-! ### O30 -/

/-- Settles O30: each step of a migration by the lemma of its command. That the migration is complete as the destination releases its entry is the
model's reading (log 35). -/
theorem migrationsMoveARow : Obligations.MigrationsMoveARow := by
  intro q seq g k tk row source d s hq hg hk p x upd
  refine ⟨fun c t src off dst o hc ht hmove hsrc hdst => execMigrate_begins hq rfl hc ht hmove hsrc hdst, fun hentry => ?moving,
    fun dest hhome => execMoveUpdate_enters hk hhome⟩
  case moving =>
    exact ⟨fun slot => execMigrationCopy_acknowledges hg hentry, fun t => execMigrationCopyAck_forwards hg hentry,
      fun h => execForwardStart_orders hg hentry, execMoveMarker_counts hg hentry,
      fun hstate => execMoveMarkerForward_completes hg hentry hstate rfl⟩

end Sys2Proof.Machine
end

section
/-!
PROOFS. Copies and upkeep of channels (O31): replicas and stubble rows, the patrol and the poison recheck, the evacuation of a channel and the
retraining of a package's interface, then the statement (R232, R249 to R251, R304, R305, R307, R309, R316).
-/

namespace Sys2Proof.Machine

/-! ### Replicas and stubble rows (R232, R249, R251) -/

/-- A plan's entry for a table names that table. -/
theorem table_of_tableOf {pl : Plan} {n : Nat} {t : TableDesc} (h : pl.tableOf n = some t) : t.table = n := by
  simpa using List.find?_some h

section
variable {s : State} {home p row off : Nat} {t : TableDesc}

/-- A row's replicas at `places`: the slots, then HOT and the replica directory at its home. -/
def State.placeReplicas (s : State) (home off size : Nat) (e : ReplicaEntry) : State :=
  (e.holders.foldl (fun u g => u.placeReplica g e.table e.row ((s.gleaner home).slotAt off size)) s).updGleaner home (fun x => { x with
    data := x.data.put off (slotHot ((s.gleaner home).slotAt off size) true), replicas := x.replicas ++ [e] })
/-- A row's replicas enter the replica table of every copy of the partition. -/
def State.spreadReplicas (s : State) (p : Nat) (e : ReplicaEntry) : State :=
  (s.copiesOfPart p).foldl (fun s k => s.updCopyMap k (fun m => { m with replicas := m.replicas ++ [e] })) s

/-- Where gleaners and directory have room, a row's replicas are placed and spread. -/
theorem replicateRow_places {count : Nat} {places : List Nat} (hplaces : s.replicaPlaces home p t.table t.slot count = places)
    (hall : count ≤ places.length)
    (hroom : sumNat (s.gleaners.map (fun e => (e.2.replicas.filter (fun r => r.table / 4096 == p)).length)) < 16384) :
    s.replicateRow home p t row off count =
      some ((s.placeReplicas home off t.slot { table := tableKey p t.table, row := row, holders := places, quiet := 0 }).spreadReplicas p
        { table := tableKey p t.table, row := row, holders := places, quiet := 0 }) := by
  subst hplaces
  unfold State.replicateRow
  dsimp only
  rw [if_neg (by omega)]
  rfl

/-- REPLICATE of a row that has no replicas and is in no move places them. -/
theorem execReplicate_places {q seq hbay : Nat} {c : Cmd} {u : State} (hq : q < 1024) (hp : (s.queue q).part = p)
    (hc : s.dispatched q seq 0x15 = some c) (hmode : c.field 7 1 = 0)
    (ht : (s.planOf p).bind (fun pl => pl.tableOf (c.field 0 2)) = some t) (hhome : s.holderOf p (c.field 0 2) (c.field 2 5) = some home)
    (hplace : s.rowPlace home p (c.field 0 2) (c.field 2 5) = some (t, hbay, off))
    (hnew : (s.gleaner home).replicas.find? (fun r => r.table == tableKey p (c.field 0 2) && r.row == c.field 2 5) = none)
    (hstill : (s.gleaner home).mapOf (tableKey p (c.field 0 2)) (c.field 2 5) = none)
    (hdone : s.replicateRow home p t (c.field 2 5) off (c.field 8 1) = some u) :
    execReplicate q seq s = .next (u.finishResult q c (c.ref 0) (natLE 4 0)) := by
  subst hp
  unfold execReplicate
  rw [onQueue_runs hq, hc]
  dsimp only
  rw [ht]
  dsimp only
  rw [hhome]
  dsimp only
  rw [hplace]
  dsimp only
  rw [if_pos hmode, hnew, if_neg (by decide), hstill, if_neg (by decide), hdone]
end

section
variable {g tk row : Nat} {s : State} (hg : g < 448)
include hg

/-- A replacement reaches the replicas of its row in the cache. -/
theorem execReplicaRefresh_cached {slot : List Byte} (hbay : s.bayHere g (tk / 4096) (tk % 4096) row 1 = none) :
    execReplicaRefresh g tk row slot s = .next (s.updGleaner g (fun x => { x with
      cache := x.cache.map (fun c => if c.table = tk ∧ c.row = row ∧ c.kind = 1 then { c with slot := slot } else c) })) := by
  unfold execReplicaRefresh
  rw [onGleaner_runs hg, hbay]

/-- A stubble row is written at its slot of the stubble bay. -/
theorem execStubbleRefresh_writes {slot : List Byte} {t : TableDesc} {i : Nat} {b : Bay}
    (hbay : s.bayHere g (tk / 4096) (tk % 4096) row 2 = some (t, i, b)) :
    execStubbleRefresh g tk row slot s = .next (s.updGleaner g (fun x => x.putSlot (s.baySlot b t (row - b.firstRow)) slot)) := by
  unfold execStubbleRefresh
  rw [onGleaner_runs hg, hbay]

/-- A withdrawal's marker is noted in the replica's slot, and the last one frees it. -/
theorem execReplicaWithdrawMarker_notes {k : Nat} {c : CacheSlot} (hcached : (s.gleaner g).cached tk row 1 = some c)
    (hgoing : c.withdrawing = true) :
    execReplicaWithdrawMarker g tk row k s = .next (s.updGleaner g (fun x => { x with
      cache := if (s.copiesOfPart (tk / 4096)).all (fun j => (c.markers ||| 2 ^ k).testBit j) then x.cache.erase c
        else x.cache.map (fun e => if e = c then { e with markers := c.markers ||| 2 ^ k } else e) })) := by
  unfold execReplicaWithdrawMarker
  rw [onGleaner_runs hg, hcached]
  exact if_neg (by simp [hgoing])

/-! ### Patrol and poison (R304, R305) -/

/-- A patrol read of a unit that reads clean only advances the cursor. -/
theorem execPatrolRead_advances (hgood : (s.gleaner g).unitBad (s.gleaner g).scrubCursor = 0) :
    execPatrolRead g .clean s = .next (s.updGleaner g (fun x => { x with
      scrubCursor := if (s.gleaner g).scrubCursor + 1 == channelBytes (isLoft g) / 64 then 0 else (s.gleaner g).scrubCursor + 1
      scrubLapped := x.scrubLapped || (s.gleaner g).scrubCursor + 1 == channelBytes (isLoft g) / 64 })) := by
  unfold execPatrolRead
  rw [onGleaner_runs hg]
  dsimp only
  rw [if_neg (by simp [hgood]), if_neg (by decide)]

/-- A poisoned bale of which every unit reads clean is poisoned no longer. -/
theorem execPoisonRecheck_clears {bale : Nat} (hpoison : ((s.gleaner g).tag bale).poison = true)
    (hgood : (s.gleaner g).rangeBad (65536 * bale) 65536 = false) :
    execPoisonRecheck g bale s = .next (s.updGleaner g (fun x => { x with
      tags := Tbl.set tagReset x.tags bale { x.tag bale with poison := false }, poisoned := x.poisoned - 1 })) := by
  unfold execPoisonRecheck
  rw [onGleaner_runs hg]
  exact if_neg (by simp [hpoison, hgood])
end

/-! ### Evacuation (R309) -/

section
variable {s : State} {stack n old new : Nat} {m : StackMap} (hstack : stack < 12) (hm : s.stack stack = m) (hn : m.evacuating = some n)
  (hold : stack * 32 + m.oldPhys = old) (hnew : stack * 32 + m.phys.getD n n = new)
include hstack hm hn hold hnew

/-- The state in which the marker of the bale before an evacuation's cursor has been taken, which the model does as the next bale moves (log 73). -/
def State.markerTaken (s : State) (old new cursor : Nat) : State := if cursor = 0 then s else s.evacuationMarker old new (cursor - 1)

/-- After the last bale's marker an evacuation is over. -/
theorem execEvacuateBale_ends (hend : m.cursor = channelBytes false / 65536) :
    execEvacuateBale stack s = .next ((s.markerTaken old new m.cursor).setStack stack { m with cursor := 0, evacuating := none }) := by
  subst hm hold hnew
  unfold execEvacuateBale
  rw [if_neg (Nat.not_le.2 hstack)]
  dsimp only
  rw [hn]
  exact if_pos hend

/-- A bale in which no row moves goes to the reserve, where the failing channel has a stub left for it, and the cursor advances. -/
theorem execEvacuateBale_moves (hmore : m.cursor ≠ channelBytes false / 65536)
    (hstill : ((s.markerTaken old new m.cursor).gleaner old).map.any (fun d => d.offset / 65536 == m.cursor) = false)
    (hstubs : ((s.markerTaken old new m.cursor).gleaner old).stubs.length < 16) :
    execEvacuateBale stack s = .next (((s.markerTaken old new m.cursor).evacuateBale old new m.cursor).setStack stack
      { m with cursor := m.cursor + 1 }) := by
  subst hm hold hnew
  unfold State.markerTaken at hstill hstubs
  unfold execEvacuateBale
  rw [if_neg (Nat.not_le.2 hstack)]
  dsimp only
  rw [hn]
  dsimp only
  rw [if_neg hmore, if_neg (not_or.2 ⟨ne_true_of_eq_false hstill, Nat.not_le.2 hstubs⟩)]
  rfl
end

/-! ### Interface retraining (R316) -/

section
variable {n : Nat} {s : State} (hn : n < 16)
include hn

theorem execInterfaceRetrainingStart_sets (h : s.loft.retraining.testBit n = false) : execInterfaceRetrainingStart n s =
    .next { s with loft := { s.loft with retraining := s.loft.retraining ||| 2 ^ n } }.noteUnits := by
  unfold execInterfaceRetrainingStart
  rw [onPackage_runs hn, if_neg (by simp [h])]

theorem execInterfaceRetrainingDone_clears (h : s.loft.retraining.testBit n = true) : execInterfaceRetrainingDone n s =
    .next { s with loft := { s.loft with retraining := s.loft.retraining - 2 ^ n } }.noteUnits := by
  unfold execInterfaceRetrainingDone
  rw [onPackage_runs hn, if_neg (by simp [h])]
end

/-! ### O31 -/

/-- Settles O31: each command by the lemma of its outcome. Where replicas are placed, that the copies' tables change within REPLICATE, and when
an evacuation takes a bale's marker or waits are the model's choices (logs 26, 35 and 73). -/
theorem copiesAndUpkeepOfChannels : Obligations.CopiesAndUpkeepOfChannels := by
  intro q seq g tk row k stack s hq hg hstack p x
  refine ⟨?replicate, fun slot => execReplicaRefresh_cached hg, fun slot t i b => execStubbleRefresh_writes hg,
    fun c => execReplicaWithdrawMarker_notes hg, execPatrolRead_advances hg, fun bale => execPoisonRecheck_clears hg,
    fun n hn => ⟨execEvacuateBale_ends hstack rfl hn rfl rfl, execEvacuateBale_moves hstack rfl hn rfl rfl⟩,
    fun n hn => execInterfaceRetrainingStart_sets hn, fun n hn => execInterfaceRetrainingDone_clears hn⟩
  case replicate =>
    intro c t home hbay off hc hmode n table target ht hhome hplace hnew hstill places hall hroom slot entry placed
    have htable : t.table = table := by
      obtain ⟨pl, -, hpl⟩ := Option.bind_eq_some_iff.1 ht
      exact table_of_tableOf hpl
    refine execReplicate_places hq rfl hc hmode ht hhome hplace hnew hstill ((replicateRow_places rfl ?_ hroom).trans ?_)
    · rw [htable]
      exact hall
    · rw [htable]
      rfl

end Sys2Proof.Machine
end

section
/-!
PROOFS. The DMA engine of a cluster (O23): a copy from bin to bin, what a message finds at its engine, a lemma for each command's outcome, then the
statement (R258, R293, R339 to R357).
-/

namespace Sys2Proof.Machine

section
variable {c : Nat} {x : Xfer} {s : State}

/-! ### Copies from bin to bin (R340, R346) -/

section
variable (hsrc : x.desc.srcRow = false) (hdst : x.desc.dstRow = false)
include hsrc hdst

/-- Without a row flag a COPY's elements have the source's element size. -/
theorem copySize_plain : s.copySize x = 2 ^ x.desc.src.esize := by
  simp [State.copySize, StreamDesc.size, hsrc, hdst]

theorem copyDests_plain : s.copyDests x = x.desc.dst.elements (2 ^ x.desc.src.esize) := by
  simp [State.copyDests, copySize_plain hsrc hdst, hdst]

/-- Elements in hand are written to a bin, and the transfer completes with the bytes of both its ends. -/
theorem copyOut_bin {elements : List (List Byte)} {dests : List Nat} (hfrom : x.desc.src.space = 0) (hto : x.desc.dst.space = 0)
    (hdests : x.desc.dst.elements (2 ^ x.desc.src.esize) = dests) :
    s.copyOut c x elements = (s.binElements x.core (dests.zip elements)).completeXfer c x
      (2 ^ x.desc.src.esize * dests.length + 2 ^ x.desc.src.esize * dests.length) := by
  unfold State.copyOut
  dsimp only
  rw [copyDests_plain hsrc hdst, copySize_plain hsrc hdst, hdests, if_neg (ne_true_of_eq_false hdst), if_pos hto,
    if_pos (And.intro hfrom (by simp [hsrc])), if_pos (And.intro hto (by simp [hdst]))]
end

/-! ### Segments of a tier transfer (R293, R296, R351) -/

/-- Whether a bale of a context's TIERED segment has its loft slot. -/
def State.slotHere (s : State) (ctx seg b : Nat) : Bool := match s.planSegment ctx seg with
  | some g => (s.loftSlot g b).isSome
  | none => false
theorem slotHere_of_segment {ctx seg : Nat} {g : Segment} (h : s.planSegment ctx seg = some g) :
    s.slotHere ctx seg = fun b => (s.loftSlot g b).isSome := by
  funext b
  simp [State.slotHere, h]

/-- A transfer for which the loft has room names a segment of the plan. -/
theorem planSegment_of_tierRoom {ctx seg : Nat} {bales : List Nat} (h : s.tierRoom ctx seg bales = true) :
    ∃ g, s.planSegment ctx seg = some g := by
  unfold State.tierRoom at h
  split at h
  case h_1 => cases h
  case h_2 g hplan => exact ⟨g, hplan⟩

/-! ### Transfers that may be admitted (R293, R348, R349, R351, R354) -/

section
variable {q : Nat} (hc : c < 24) (hx : (s.dma c).admissible q = some x)
include hc hx

/-- A COPY from bin to bin, whose destination is not held, whose source reads without error. -/
theorem execDmaCopy_copies {dests : List Nat} (hop : x.desc.op = .copy) (hsrc : x.desc.srcRow = false) (hdst : x.desc.dstRow = false)
    (hfrom : x.desc.src.space = 0) (hto : x.desc.dst.space = 0) (hdests : x.desc.dst.elements (2 ^ x.desc.src.esize) = dests)
    (hfree : s.destHeld x.core dests (2 ^ x.desc.src.esize) = false)
    (hecc : (s.admitXfer c x).sourceEcc x ((x.desc.src.elements (2 ^ x.desc.src.esize)).headD 0) .clean = (s.admitXfer c x, true)) :
    execDmaCopy c q .clean s = .next (((s.admitXfer c x).binElements x.core
      (dests.zip ((s.admitXfer c x).streamBytes x.core x.ctx x.desc.src (2 ^ x.desc.src.esize)).2)).completeXfer c
        { x with status := 0, marks := 0 } (2 ^ x.desc.src.esize * dests.length + 2 ^ x.desc.src.esize * dests.length)) := by
  have hheld : s.copyHeld x = false := by
    unfold State.copyHeld
    rw [copyDests_plain hsrc hdst, copySize_plain hsrc hdst, hdests, hfree, Bool.and_false]
  unfold execDmaCopy
  rw [onAdmissible_runs hc hx hop, hheld, if_neg (by decide)]
  dsimp only
  rw [copySize_plain hsrc hdst, hecc]
  dsimp only
  rw [if_neg (by simp [hsrc]), if_pos hfrom, if_neg (not_not.2 rfl)]
  exact congrArg _ (copyOut_bin (x := { x with status := 0, marks := 0 }) hsrc hdst hfrom hto hdests)

/-- A REQUEST without a payload goes to its gleaner. -/
theorem execDmaRequest_sends {g : Nat} {r : GReq} (hop : x.desc.op = .request) (hempty : x.desc.src.isEmpty = true)
    (hfree : s.defaultHeld c x = false) (hto : (s.admitXfer c x).requestOf c x = some (g, r)) : execDmaRequest c q .clean s =
      .next ((((s.admitXfer c x).updXfer c x.serial (fun y => { y with parts := [(x.desc.tag, g)] })).movedBytes c x.ctx
        x.desc.binSource).send (.request g r)) := by
  unfold execDmaRequest
  rw [onAdmissible_runs hc hx hop, hfree, if_neg (by decide)]
  dsimp only
  rw [if_pos hempty]
  dsimp only
  rw [if_pos (Or.inl hempty), if_neg (not_not.2 rfl)]
  dsimp only
  rw [hto]

/-- The parts of a LOOKUP as its INVOKEs leave. -/
def Xfer.asked (x : Xfer) : Xfer := { x with parts := x.requests.map (fun e => (e.2.tag % 4096, e.1)) }

/-- A LOOKUP with keys for a gleaner sends its INVOKEs. -/
theorem execDmaLookup_sends (hop : x.desc.op = .lookup) (hread : x.status = 0) (hkeys : x.requests ≠ []) : execDmaLookup c q s =
    .next ((((s.admitXfer c x).updXfer c x.serial (fun _ => x.asked)).sendAll (x.requests.map (fun e => Out.request e.1 e.2))).movedBytes c
      x.ctx (if x.desc.src.space = 0 then x.desc.src.total * x.desc.keyBytes else 0)) := by
  have hsome : x.requests.isEmpty = false := by simpa using hkeys
  unfold execDmaLookup
  rw [onAdmissible_runs hc hx hop]
  dsimp only
  rw [if_neg (by simp [hread]), hsome, Bool.false_and, if_neg (by decide), if_neg (by decide)]
  rfl

section
variable {seg : Nat} {t : TieredSeg} {need : List Nat} (hseg : x.desc.src.addr / 2 ^ 48 % 16 = seg) (ht : s.tier x.ctx seg = t)
  (hroom : s.tierRoom x.ctx seg need = true) (hsome : need ≠ [])
include hseg ht hroom hsome

/-- A PROMOTE puts its bales, all of which have their loft slots, last in the segment's order and among those that wait. -/
theorem execDmaPromote_queues (hop : x.desc.op = .promote) (hneed : x.baleRange.filter (fun b => Tbl.get 0 t.resident b == 0 &&
      !t.moves.any (fun m => m.bale == b && m.promote && !m.flipped) && !t.waiting.any (fun w => w.1 == b)) = need)
    (hall : need.all (s.slotHere x.ctx seg) = true) : execDmaPromote c q s =
      .next ((((s.admitXfer c x).updXfer c x.serial (fun _ => { x with bales := need })).setTier x.ctx seg { t with
        order := t.order.filter (fun b => !need.contains b) ++ need
        waiting := t.waiting ++ need.map (fun b => (b, c, x.serial)) }).pumpTier x.ctx seg) := by
  obtain ⟨g, hplan⟩ := planSegment_of_tierRoom hroom
  rw [slotHere_of_segment hplan] at hall
  have hhere : need.filter (fun b => (s.loftSlot g b).isSome) = need := List.filter_eq_self.2 (List.all_eq_true.1 hall)
  unfold execDmaPromote
  rw [onAdmissible_runs hc hx hop]
  dsimp only
  rw [hseg, ht, hneed, hroom, if_neg (by decide), hplan]
  dsimp only
  rw [hhere, hall, if_neg (by simpa using hsome)]
  rfl

/-- A DEMOTE puts its bales among those that leave. -/
theorem execDmaDemote_queues (hop : x.desc.op = .demote) (hneed : x.baleRange.filter (fun b => Tbl.get 0 t.resident b != 0 &&
      !t.moves.any (fun m => m.bale == b) && !t.leaving.any (fun w => w.1 == b) && s.slotHere x.ctx seg b) = need) :
    execDmaDemote c q s = .next ((((s.admitXfer c x).updXfer c x.serial (fun y => { y with bales := need })).setTier x.ctx seg { t with
      leaving := t.leaving ++ need.map (fun b => (b, c, x.serial)) }).pumpTier x.ctx seg) := by
  obtain ⟨g, hplan⟩ := planSegment_of_tierRoom hroom
  simp only [slotHere_of_segment hplan] at hneed
  unfold execDmaDemote
  rw [onAdmissible_runs hc hx hop]
  dsimp only
  rw [hseg, ht, hplan]
  dsimp only
  rw [hneed, hroom, if_neg (by decide), if_neg (by simpa using hsome)]
end
end

/-! ### Records and ENDs (R117, R258, R350, R352) -/

/-- A message behind which none of its transfer stalls is taken. -/
theorem recordAtDma_taken {m : RecordMsg} (hfirst : (s.dma c).stalled.any (fun n => n.serial == m.tag / 4096) = false) :
    s.recordAtDma c m = s.takeRecord c m := if_neg (ne_true_of_eq_false hfirst)
theorem endAtDma_taken {g : Nat} {m : EndMsg} (hfirst : (s.dma c).stalled.any (fun n => n.serial == m.tag / 4096) = false) :
    s.endAtDma c g m = s.takeEnd c g m := if_neg (ne_true_of_eq_false hfirst)

/-- A record as it lies at its slot: header, then payload. -/
def slotBytes (m : RecordMsg) : List Byte :=
  natLE 8 (m.record % 4096 + m.part % 256 * 2 ^ 16 + m.marks % 256 * 2 ^ 24 + m.count % 65536 * 2 ^ 32 + m.payload.length % 65536 * 2 ^ 48) ++
    m.payload
/-- The place of a record among those of its transfer. -/
def Xfer.recordIndex (x : Xfer) (m : RecordMsg) : Nat := (m.addr - x.desc.returnAddr) / (8 * max 1 x.desc.stride)
/-- A transfer that a record at place `i` has reached. -/
def Xfer.recorded (y : Xfer) (i : Nat) (m : RecordMsg) : Xfer :=
  { y with
    marks := y.marks ||| m.marks
    records := match y.records[i]? with
      | some r => y.records.set i { r with count := m.count, marks := m.marks, length := m.payload.length, arrived := true }
      | none => y.records }
/-- A transfer of which an END has completed the last part. -/
def Xfer.ended (x : Xfer) (m : EndMsg) : Xfer := { x with parts := [], status := max x.status m.status, marks := x.marks ||| m.marks }

section
variable {g : Nat} (hc : c < 24) (hg : g < 448)
include hc hg

/-- A record of work that goes on is written at its slot, where no input region is held. -/
theorem execRecordReceive_writes {m : RecordMsg} {bs : List Byte} {pl : BinPlace} {reg : BinRegion}
    (hx : s.xferOf c (m.tag / 4096) = some x) (hcore : x.core ≠ 255)
    (hfirst : (s.dma c).stalled.any (fun n => n.serial == m.tag / 4096) = false) (hop : x.desc.op ≠ .copy)
    (hbytes : slotBytes m = bs) (hplace : s.binCheck x.core m.addr bs.length true false = some (pl, reg))
    (hfree : s.heldInput x.core pl bs.length = false) : execRecordReceive c g m s =
      .next (((s.binWrite x.core pl bs).movedBytes c x.ctx bs.length).updXfer c x.serial (fun y => y.recorded (x.recordIndex m) m)) := by
  unfold slotBytes at hbytes
  unfold execRecordReceive
  rw [onGleaner_runs hg, if_pos hc, recordAtDma_taken hfirst]
  unfold State.takeRecord
  rw [hx]
  dsimp only
  rw [if_neg hcore, if_neg hop, hbytes, hplace]
  dsimp only
  rw [hfree, if_neg (by decide)]
  rfl

/-- The END of a transfer's last part completes it, where nothing is left to merge or to write. -/
theorem execEndRecordReceive_completes {m : EndMsg} (hx : s.xferOf c (m.tag / 4096) = some x) (hparts : x.parts = [(m.tag % 4096, g)])
    (hfirst : (s.dma c).stalled.any (fun n => n.serial == m.tag / 4096) = false) (hlookup : x.desc.op ≠ .lookup)
    (hcopy : x.desc.op ≠ .copy ∨ x.rows = []) : execEndRecordReceive c g m s =
      .next ((s.updXfer c x.serial (fun _ => x.ended m)).completeXfer c (x.ended m) 0) := by
  have hmerges : (x.desc.op == .lookup) = false := beq_eq_false_iff_ne.2 hlookup
  have hcopies : (x.desc.op == .copy && !x.rows.isEmpty) = false := by
    rcases hcopy with hcopy | hcopy <;> simp [hcopy]
  have hfind : x.parts.find? (fun p => p == (m.tag % 4096, g)) = some (m.tag % 4096, g) := by simp [hparts]
  have hlast : x.parts.erase (m.tag % 4096, g) = [] := by simp [hparts]
  unfold execEndRecordReceive
  rw [onGleaner_runs hg, if_pos hc, endAtDma_taken hfirst]
  unfold State.takeEnd
  rw [hx]
  dsimp only
  rw [hfind, Option.some_or]
  dsimp only
  rw [hlast]
  simp only [List.isEmpty_nil, Bool.true_and, hmerges, hcopies, Bool.false_and, Bool.or_self, Bool.not_true, Bool.false_eq_true, if_false,
    hlookup, false_and]
  rfl
end
end

/-! ### O23 -/

/-- Settles O23: an abort runs as it stands at any cluster that the device has; every other command by the lemma of its outcome. -/
theorem dmaEngineRunsItsTransfers : Obligations.DmaEngineRunsItsTransfers := by
  intro c q x s hc d seg t
  dsimp only [exec]
  refine ⟨fun hx => ⟨fun hop hsrc hdst hfrom hto => execDmaCopy_copies hc hx hop hsrc hdst hfrom hto rfl, fun g r => execDmaRequest_sends hc hx,
      execDmaLookup_sends hc hx,
      fun hop hroom hsome => execDmaPromote_queues hc hx rfl rfl hroom hsome hop rfl,
      fun hop hroom hsome => execDmaDemote_queues hc hx rfl rfl hroom hsome hop rfl⟩,
    fun ctx tag mask cause => onCluster_runs hc,
    fun g m pl reg hg hx hcore hfirst hop => execRecordReceive_writes hc hg hx hcore hfirst hop rfl,
    fun g m hg => execEndRecordReceive_completes hc hg⟩

end Sys2Proof.Machine
end

section
/-!
PROOFS. What reaches a gleaner beside requests (O25): an event on a row read, then a lemma for each command's outcome, then the statement
(R258 to R262, R269, R270, R278, R280, R281, R299, R306, R307).
-/

namespace Sys2Proof.Machine

section
variable {g t n : Nat} {s : State}

/-! ### Events on row reads (R269, R299, R300) -/

/-- An event on the row read of a built-in operation, which ends if the read is then resolved. -/
theorem onOp_rowRead {o : ChannelOp} {q : RowFetch} {f : State → GReq → RowFetch → State × RowFetch} (hop : (s.gleaner g).ops[n]? = some o)
    (hread : o.fetch = some q) : s.onOp g n f = (f s o.req q).1.finishRowRead g n o (f s o.req q).2 := by
  unfold State.onOp
  rw [hop]
  dsimp only
  rw [hread]

/-- An event on the one row read of a thread's pending row, after which resolved rows combine. -/
theorem onPending_rowRead {th : Thread} {q : PendingRow} {f : State → GReq → RowFetch → State × RowFetch} {a : State × RowFetch}
    {c : State × Thread} (hthread : Tbl.get none (s.gleaner g).threads t = some th) (hrow : th.pendingRows[n]? = some q)
    (hone : q.second = none) (ha : f s th.req q.fetch = a)
    (hc : a.1.combineReady g { th with pendingRows := th.pendingRows.set n { q with fetch := a.2 } } = c) :
    s.onPending g t n f = c.1.putThread g t c.2 := by
  subst ha hc
  unfold State.onPending
  rw [hthread]
  dsimp only
  rw [hrow]
  dsimp only
  rw [hone]

variable (hg : g < 448)
include hg

/-! ### Channel operations (R280, R299, R300, R306, R307) -/

section
variable {o : ChannelOp} (hop : (s.gleaner g).ops[n]? = some o)
include hop

/-- A RAW_READ of readable units returns from the channel with its bytes. -/
theorem execChannelAccessComplete_answers (hlink : s.retrains g = false) (hraw : o.fetch = none) (hkind : o.req.kind = 0)
    (hmirror : o.mirror = 0) (hgood : o.bad = false) :
    execChannelAccessComplete g n .clean s = .next ((s.updGleaner g (fun x => x.dropOp n)).answerOp g o.req 0 o.data) := by
  unfold execChannelAccessComplete
  rw [onGleaner_runs hg, hop]
  dsimp only
  rw [hlink, if_neg (by simp), hraw]
  dsimp only
  rw [if_pos hkind, if_neg (by simp [hmirror]), if_neg (by simp [hgood])]
  rfl

/-- An operation that returns no record ends when it leaves the channel. -/
theorem execChannelAccessComplete_ends (hlink : s.retrains g = false) (hraw : o.fetch = none) (hread : o.req.kind ≠ 0)
    (hcas : o.req.kind ≠ 5) : execChannelAccessComplete g n .clean s =
      .next ((s.updGleaner g (fun x => x.dropOp n)).endRequest g o.req o.status 0 o.marks) := by
  unfold execChannelAccessComplete
  rw [onGleaner_runs hg, hop]
  dsimp only
  rw [hlink, if_neg (by simp), hraw]
  dsimp only
  rw [if_neg hread, if_neg hcas]

/-- A stubble row that a row read waits for arrives. -/
theorem execStubbleRowArrive_arrives {f : RowFetch} {a : State × Option (List Byte)} (hread : o.fetch = some f) (hwaits : f.stubble = 1)
    (hopen : f.got = none) (ha : s.stubbleAnswer o.req f .clean = a) : execStubbleRowArrive g (8 + n) 0 .clean s =
      .next ((a.1.fetchStubble g f a.2).1.finishRowRead g n o (a.1.fetchStubble g f a.2).2) := by
  subst ha
  unfold execStubbleRowArrive State.onFetch
  rw [onGleaner_runs hg, if_pos (Nat.le_add_right 8 n), Nat.add_sub_cancel_left, onOp_rowRead hop hread,
    if_neg (by simp [hwaits, hopen])]

/-- The mirror's units of a raw read that met an unreadable one come back. -/
theorem execMirrorReadReturn_mends (hraw : o.fetch = none) (hmirror : o.mirror = 1) :
    execMirrorReadReturn g (8 + n) 0 .clean s = .next ((s.mirrorMeets g o.req .clean).finishRawMirror g n o) := by
  unfold execMirrorReadReturn
  rw [onGleaner_runs hg, if_pos (Nat.le_add_right 8 n), Nat.add_sub_cancel_left, hop]
  dsimp only
  rw [hraw, if_neg (by decide), if_neg (by simp [hmirror]), if_neg (by decide)]

/-- The deadline of a row read expires. -/
theorem execLoftDeadline_expires {f : RowFetch} (hread : o.fetch = some f) : execLoftDeadline g (8 + n) s =
    .next ((s.fetchExpires g f).1.finishRowRead g n o (s.fetchExpires g f).2) := by
  unfold execLoftDeadline
  rw [onGleaner_runs hg, if_pos (Nat.le_add_right 8 n), Nat.add_sub_cancel_left, onOp_rowRead hop hread]
end

/-! ### Context tags (R261) -/

/-- The oldest tag write is acknowledged once nothing on its way or waiting names its bales. -/
theorem execTagWriteDrained_acknowledges {c : TagChange} {rest : List TagChange} (hchange : (s.gleaner g).tagChanges = c :: rest)
    (hidle : c.bales.any (fun b => (s.gleaner g).busyBales.contains b) = false)
    (hdone : c.old.any (fun r => (s.gleaner g).waitingReqs.contains r) = false) :
    execTagWriteDrained g s = .next ((s.updGleaner g (fun x => { x with tagChanges := rest })).send (.tagAck g c.ctx)) := by
  unfold execTagWriteDrained
  rw [onGleaner_runs hg, hchange]
  dsimp only
  rw [hidle, hdone, if_neg (by decide)]

/-! ### Threads (R262, R269, R270) -/

/-- The oldest INVOKE takes the lowest free thread, and its place in the queue is free. -/
theorem execThreadStart_starts {r : GReq} (hfirst : ((s.gleaner g).queue.take 64).find? (fun r => r.kind == 6) = some r)
    (hfree : (List.range 8).find? (fun t => (Tbl.get none (s.gleaner g).threads t).isNone) = some t)
    (hhold : (s.gleaner g).holding = false) : execThreadStart g s = .next (((s.updGleaner g (fun x => { x with
      queue := x.queue.erase r })).putThread g t (threadOf r s.devTime)).drainQueue g) := by
  unfold execThreadStart
  rw [onGleaner_runs hg]
  dsimp only
  rw [hfirst, hfree]
  dsimp only
  rw [hhold, if_neg (by decide)]

section
variable {th : Thread} (hthread : Tbl.get none (s.gleaner g).threads t = some th)
include hthread

/-- A thread at END whose rows have all come sends its last record and its END, and is free. -/
theorem execGlnEndRetire_retires (hend : th.phase = .atEnd) (hrows : th.pendingRows = []) : execGlnEndRetire g t s =
    .next (((s.closeRecord g th).1.freeThread g t).endRequest g th.req 0 (s.closeRecord g th).2.sent (s.closeRecord g th).2.allMarks) := by
  unfold execGlnEndRetire
  rw [onGleaner_runs hg, hthread]
  dsimp only
  rw [hend]
  dsimp only
  rw [hrows, if_neg (by decide)]

/-- A thread that has issued all its instructions stops with OVERRUN. -/
theorem execRequestOverrun_stops (hrun : th.phase = .running) (hlimit : issueLimit ≤ th.issued) :
    execRequestOverrun g t s = .next (s.stopThread g t th 3 0) := by
  unfold execRequestOverrun
  rw [onGleaner_runs hg, hthread]
  exact if_pos ⟨hrun, hlimit⟩

/-- A thread's row arrives, and resolved rows combine. -/
theorem execGpoolRowArrive_arrives {q : PendingRow} {a : State × RowFetch} {c : State × Thread} (ht : t < 8)
    (hrow : th.pendingRows[n]? = some q) (hone : q.second = none) (hnew : q.fetch.arrived = false) (hlink : s.retrains g = false)
    (ha : s.fetchArrives g th.req q.fetch .clean = a)
    (hc : a.1.combineReady g { th with pendingRows := th.pendingRows.set n { q with fetch := a.2 } } = c) :
    execGpoolRowArrive g t n .clean s = .next (c.1.putThread g t c.2) := by
  unfold execGpoolRowArrive
  rw [onGleaner_runs hg, if_neg (Nat.not_le.2 ht)]
  refine congrArg _ (onPending_rowRead hthread hrow hone ?_ hc)
  exact (if_neg (by simp [hnew, hlink])).trans ha
end
end

/-! ### O25 -/

/-- Settles O25: a tag write and an abort (R281) run as they stand at any gleaner that the device has; every other command by the lemma of its
outcome. -/
theorem gleanersCompleteAndRelease : Obligations.GleanersCompleteAndRelease := by
  intro g t n s hg x
  dsimp only [exec]
  exact ⟨fun o => execChannelAccessComplete_answers hg, fun o => execChannelAccessComplete_ends hg,
    fun o f hop hread hwaits hopen => execStubbleRowArrive_arrives hg hop hread hwaits hopen rfl,
    fun o => execMirrorReadReturn_mends hg, fun o f hop => execLoftDeadline_expires hg hop,
    fun first count word ctx => onGleaner_runs hg, fun c rest => execTagWriteDrained_acknowledges hg,
    fun ctx requester value mask cause => onGleaner_runs hg, fun r => execThreadStart_starts hg,
    fun th => execGlnEndRetire_retires hg, fun th => execRequestOverrun_stops hg,
    fun th q ht hthread hrow hone hnew hlink => execGpoolRowArrive_arrives hg hthread ht hrow hone hnew hlink rfl rfl⟩

end Sys2Proof.Machine
end

section
/-!
PROOFS. Programs of a gleaner: an instruction of a thread that may issue, a lemma for each instruction that is no scalar operation, then the
statements about the scalar instructions (O26), loops and END (O27), and vectors, records and rows (O28) (R224, R252, R263 to R274).
-/

namespace Sys2Proof.Machine

/-! ### Issue (R269, R270) -/

/-- A thread that may issue: it runs and has instructions left. -/
def State.mayIssue (s : State) (g t : Nat) (th : Thread) : Prop :=
  g < 448 ∧ Tbl.get none (s.gleaner g).threads t = some th ∧ th.phase = .running ∧ th.issued < 2 ^ 20
/-- A thread as the body of an instruction that counts as issued sees it. -/
def Thread.ran (th : Thread) : Thread := { th with pc := th.pc + 1, issued := th.issued + 1 }

section
variable {th : Thread}

@[simp] theorem Thread.ran_req : th.ran.req = th.req := rfl
@[simp] theorem Thread.ran_record : th.ran.record = th.record := rfl
@[simp] theorem Thread.ran_pendingRows : th.ran.pendingRows = th.pendingRows := rfl
@[simp] theorem Thread.ran_scalar (i : BitVec 5) : th.ran.scalar i = th.scalar i := rfl
@[simp] theorem Thread.ran_busy (i : Nat) : th.ran.busy i = th.busy i := rfl
@[simp] theorem Thread.ran_arg (off n : Nat) : th.ran.arg off n = th.arg off n := rfl
@[simp] theorem Thread.ran_poolEntry (w : GWord) : th.ran.poolEntry w = th.poolEntry w := rfl
end

/-- The answer of an instruction that is done, its thread put back. -/
def finished (g t : Nat) (r : State × Thread) : Answer := .next (r.1.putThread g t r.2)

/-- The low two bits of a multiple of 4 are clear. -/
theorem getLsbD_of_mod_four {m i : Nat} {b : BitVec m} (hb : b.toNat % 4 = 0) (hi : i < 2) : b.getLsbD i = false := by
  have hbit := Nat.testBit_mod_two_pow b.toNat 2 i
  rw [show b.toNat % 2 ^ 2 = 0 from hb] at hbit
  simpa [hi, BitVec.testBit_toNat] using hbit.symm

section
variable {g t : Nat} {w : GWord} {s : State} {th : Thread} (h : s.mayIssue g t th)
include h

/-- An instruction whose body is done puts its thread back. -/
theorem issueG_finishes {n : Nat} {body : State → Thread → GStep} {u : State} {th1 : Thread} (hn : n ≤ 1)
    (hbody : body s { th with pc := th.pc + 1, issued := th.issued + n } = .done u th1) : issueG g t n body s = finished g t (u, th1) := by
  obtain ⟨hg, hthread, hrun, hleft⟩ := h
  rw [issueG_runs hg hthread hrun hleft hn, hbody]
  rfl
/-- The same of an instruction that counts as issued. -/
theorem issueG_counted {body : State → Thread → GStep} {u : State} {th1 : Thread} (hbody : body s th.ran = .done u th1) :
    issueG g t 1 body s = finished g t (u, th1) := issueG_finishes h le_rfl hbody
/-- An instruction that changes the thread alone. -/
theorem issueThread_changes (f : Thread → Thread) : issueThread g t f s = .next (s.putThread g t (f th.ran)) := issueG_counted h rfl

/-! ### Scalars that read the argument buffer or hash (R224, R265, R270) -/

theorem execSarg_reads {bs : List Byte} (harg : th.arg (th.scalar w.a + w.imm.signExtend 64).toNat 8 = some bs) :
    execSarg g t w s = .next (s.putThread g t (th.ran.setScalar w.d (BitVec.ofNat 64 (leNat bs)))) := by
  refine issueG_counted h ?_
  rw [Thread.ran_scalar, Thread.ran_arg, harg]
  rfl

/-- HASH of a key, not reduced to a row. -/
theorem execHash_hashes (hwhole : w.mode.getLsbD 2 = false) : execHash g t w s = .next (s.putThread g t (th.ran.setScalar w.d
    (BitVec.ofNat 64 (hashKey (th.scalar w.a).toNat (th.scalar w.b).toNat (w.mode.toNat % 4))))) := by
  refine issueG_counted h ?_
  dsimp only
  rw [hwhole]
  rfl

/-! ### Loops (R252, R265) -/

/-- The runs of a LOOP: IMM or, with MODE[0], sA, and at most 65,535. -/
def Thread.loopRuns (th : Thread) (w : GWord) : Nat := min (if w.mode.getLsbD 0 then (th.scalar w.a).toNat else w.imm.toNat) 65535

/-- LOOP with a count opens a loop whose body is the next instruction. -/
theorem execGlnLoop_opens (hn : 0 < th.loopRuns w) : execGlnLoop g t w s = .next (s.putThread g t { th.ran with
    loops := { body := th.pc + 1, remaining := th.loopRuns w } :: th.loops }) :=
  issueG_counted h (if_neg hn.ne')

/-- LOOP with a count of 0 goes on behind its ENDLOOP. -/
theorem execGlnLoop_skips (hn : th.loopRuns w = 0) : execGlnLoop g t w s = .next (s.putThread g t { th.ran with
    pc := findLoopEnd (fun i => (s.gleanerCode g th.req).getD i 0 % 256) 512 (th.pc + 1) 0 }) :=
  issueG_counted h (if_pos hn)

section
variable {f : LoopFrame} {fs : List LoopFrame} (hloops : th.loops = f :: fs)
include hloops

/-- ENDLOOP with runs left goes back to the body. -/
theorem execGlnEndloop_repeats (hmore : 1 < f.remaining) : execGlnEndloop g t w s =
    .next (s.putThread g t { th with pc := f.body, loops := { f with remaining := f.remaining - 1 } :: fs }) := by
  refine issueG_finishes h (Nat.zero_le 1) ?_
  dsimp only
  rw [hloops]
  exact if_pos hmore

/-- ENDLOOP of the last run closes its loop. -/
theorem execGlnEndloop_closes (hlast : f.remaining ≤ 1) : execGlnEndloop g t w s =
    .next (s.putThread g t { th with pc := th.pc + 1, loops := fs }) := by
  refine issueG_finishes h (Nat.zero_le 1) ?_
  dsimp only
  rw [hloops]
  exact if_neg (Nat.not_lt.2 hlast)
end

/-! ### Vector registers (R264, R266 to R268) -/

/-- One lane of a VOP, with its flags. -/
def Thread.vopLane (th : Thread) (w : GWord) (i : Nat) : Word64 × NumFlags :=
  let fmt := w.fmt.toNat
  let a := th.lane w.a.toNat i
  let b := th.lane w.b.toNat i
  match w.mode.toNat % 4 with
  | 0 => wideSum fmt (wideValue fmt a) (wideValue fmt b)
  | 1 => wideProd fmt (wideValue fmt a) (wideValue fmt b)
  | 2 => wideMax fmt a b
  | _ => (0, flagNone)

/-- VOP of registers that await no row. -/
theorem execVop_computes (hd : th.busy w.d.toNat = false) (ha : th.busy w.a.toNat = false) (hb : th.busy w.b.toNat = false) :
    execVop g t w s = finished g t (raiseG s g (th.ran.setWide w.d.toNat (fun i => (th.vopLane w i).1))
      ((List.range 128).map (fun i => (th.vopLane w i).2))) := by
  have hfree : ¬(th.busy w.d.toNat || th.busy w.a.toNat || th.busy w.b.toNat) = true := by simp [hd, ha, hb]
  exact issueG_counted h (if_neg hfree)

/-- The exact product of lane `i` of vA with the query's element (R267). -/
def Thread.dotProduct (th : Thread) (w : GWord) (q : List Byte) (i : Nat) : Value × Bool :=
  mulValue (wideValue w.fmt.toNat (th.lane w.a.toNat i)) (valueB32 (fieldLE q (4 * i) 4))
/-- The sum of a DOT's exact products by the tree of R175. -/
def Thread.dotSum (th : Thread) (w : GWord) (q : List Byte) : LaneOut :=
  let prods := (List.range 128).map (th.dotProduct w q)
  let first : List LaneOut := (List.range 64).map (fun i =>
    let x := prods.getD i (.nan, false)
    let y := prods.getD (i + 64) (.nan, false)
    let z := addValue .rne x.1 y.1
    roundArith .b32 .rne (z.1, x.2 || y.2 || z.2))
  ([32, 16, 8, 4, 2, 1].foldl (fun ys h => reduceLevel (laneAdd .b32 .rne) h ys) first).getD 0 (0, flagNone)

/-- DOT of a register that awaits no row with a query in the argument buffer writes sD. -/
theorem execDot_writes {q : List Byte} (ha : th.busy w.a.toNat = false) (hplace : w.imm.toNat % 4 = 0)
    (harg : th.arg w.imm.toNat 512 = some q) (hwrite : w.mode.getLsbD 0 = false) : execDot g t w s =
      finished g t (raiseG s g (th.ran.setScalar w.d ((th.dotSum w q).1.zeroExtend 64)) [(th.dotSum w q).2]) := by
  refine issueG_counted h ?_
  dsimp only
  rw [Thread.ran_busy, ha, if_neg (by decide), if_pos hplace, Thread.ran_arg, harg, hwrite]
  rfl

/-- The exponential that an EXPACC adds, with its flags (R268). -/
def Thread.expTerm (th : Thread) (w : GWord) : Nat × NumFlags := sfuBuiltin .exp .sf32 (valueB32 ((th.scalar w.a).toNat % 2 ^ 32))
/-- sD with the exponential added. -/
def Thread.expSum (th : Thread) (w : GWord) : Word64 × NumFlags :=
  wideSum 1 (wideValue 1 (th.scalar w.d)) (decodeFloat .sf32 layoutSF32 (th.expTerm w).1)

/-- EXPACC without a vector adds to sD alone. -/
theorem execExpacc_adds (hscalar : w.mode.getLsbD 0 = false) : execExpacc g t w s =
    finished g t (raiseG s g (th.ran.setScalar w.d (th.expSum w).1) [(th.expTerm w).2, (th.expSum w).2]) := by
  refine issueG_counted h ?_
  dsimp only
  rw [hscalar]
  rfl

/-! ### Rows gathered (R266, R269) -/

/-- A row that a GPOOL reads, as it joins those on their way. -/
def poolRow (w : GWord) (f : RowFetch) (weight : Nat) : PendingRow :=
  { fetch := f, second := none, vd := w.d.toNat % 8, block := w.imm.toNat % 32, comb := w.mode.toNat % 4, fmt := w.fmt.toNat, weight := weight }

/-- GPOOL of a row found here issues its read and joins the rows on their way, of which those that are resolved combine. -/
theorem execGpool_issues {row weight : Nat} {tb : TableDesc} {f : RowFetch} {i : State × RowFetch}
    (hroom : (th.pendingRows.filter (fun q => q.vd == w.d.toNat % 8)).length < 32) (hentry : th.poolEntry w = some (row, weight))
    (htable : (s.planOf (s.reqPart th.req)).bind (fun pl => pl.tableOf th.req.table) = some tb) (hrows : tb.kind < 3)
    (hfloat : wideInt w.fmt.toNat = false) (hstay : w.mode.getLsbD 2 = false) (hheld : s.poolHeld g th.req row = false)
    (hfind : s.findRow g (s.reqPart th.req) th.req.table row th.req.cls (if th.req.pinned then some th.req.epoch else none) = .row f)
    (htag : (th.req.system || s.fetchAdmits g th.req.ctx f) = true) (hi : s.issueFetch g th.req { f with expired := th.late } = i) :
    execGpool g t w s = finished g t (i.1.combineReady g { th.ran with
      count := th.count + 1
      pendingRows := th.pendingRows ++ [poolRow w i.2 weight] }) := by
  subst hi
  refine issueG_counted h ?_
  dsimp only
  rw [Thread.ran_pendingRows, if_neg (Nat.not_le.2 hroom), Thread.ran_poolEntry, hentry, Thread.ran_req, htable]
  dsimp only
  rw [if_neg (by simp [hfloat, hrows.ne]), hheld, if_neg (by decide), hfind]
  dsimp only
  rw [if_neg (by simp [htag]), hstay]
  rfl

/-! ### Records (R258, R264, R265) -/

/-- The bytes of the lanes that an EMIT appends, each lane with its own flags: the model's reading (log 35). -/
def Thread.emitCells (th : Thread) (w : GWord) : List (List Byte × NumFlags) :=
  (List.range w.imm.toNat).map (fun i => recordBytes w.fmt.toNat (th.lane w.a.toNat i))

/-- EMIT that neither clears its register nor closes the record appends to it. -/
theorem execEmit_appends {th1 : Thread} (ha : th.busy w.a.toNat = false) (hmode : w.mode.toNat % 4 = 0) (hsome : 1 ≤ w.imm.toNat)
    (hmax : w.imm.toNat ≤ 128) (happend : th.ran.append ((th.emitCells w).flatMap Prod.fst) = some th1) :
    execEmit g t w s = finished g t (raiseG s g th1 ((th.emitCells w).map Prod.snd)) := by
  have hcells : (List.range w.imm.toNat).map (fun i => recordBytes w.fmt.toNat (th.ran.lane w.a.toNat i)) = th.emitCells w := rfl
  refine issueG_counted h ?_
  dsimp only
  rw [Thread.ran_busy, ha, if_neg (by decide), if_neg (by omega), hcells, happend]
  dsimp only
  rw [getLsbD_of_mod_four hmode (by decide), getLsbD_of_mod_four hmode (by decide)]
  rfl

/-- EMITS appends a scalar. -/
theorem execEmits_appends {th1 : Thread} (happend : th.ran.append (recordBytes w.fmt.toNat (th.scalar w.a)).1 = some th1) :
    execEmits g t w s = finished g t (raiseG s g th1 [(recordBytes w.fmt.toNat (th.scalar w.a)).2]) := by
  refine issueG_counted h ?_
  dsimp only
  rw [Thread.ran_scalar, happend]
  rfl
end

/-! ### Rows replaced (R255, R272, R273) -/

/-- The gleaner at which a program's request acts on a row: the one that orders it, which is the model's reading (log 72). -/
def State.rowOrderer (s : State) (g : Nat) (r : GReq) (row : Nat) : Nat := s.ordererOf g (tableKey (s.reqPart r) r.table) row
/-- A row that a program's replacement may take at once: it is not on its way, nothing of the thread and nothing of the row waits there, and no
write is stopped. -/
def State.rowFreeFor (s : State) (g t : Nat) (r : GReq) (row : Nat) : Prop :=
  s.rowHeld g r r.table row = false ∧ (s.gleaner (s.rowOrderer g r row)).waiting.any (fun q => q.kind == progKind g t) = false ∧
    s.rowWaits (s.rowOrderer g r row) (s.reqPart r) r.table row = false ∧
    s.stopsWrites (s.rowOrderer g r row) { r with kind := 4, target := row } = false

/-- The elements that an ADDM adds: lanes of vB as far as block IMM of the row has elements. -/
def Thread.addends (th : Thread) (w : GWord) (tb : TableDesc) : List Nat :=
  (List.range (min 128 (tb.elements - 128 * w.imm.toNat))).map (fun i =>
    if w.fmt.toNat = 11 then (th.lane w.b.toNat i).toNat else (th.lane w.b.toNat i).toNat % 2 ^ 32)

/-- A part of a list holds nothing that the list does not. -/
theorem any_takeWhile_eq_false {α : Type} {l : List α} {p q : α → Bool} (h : l.any p = false) : (l.takeWhile q).any p = false := by
  rw [List.any_eq_false] at h ⊢
  exact fun x hx => h x ((List.takeWhile_sublist q).subset hx)

section
variable {g t : Nat} {s s1 : State} {th : Thread} {row off : Nat} {old : List Byte} {fl : List NumFlags}
  (hwrite : s.rowWritable g th.req row = some (true, off)) (hfree : s.rowFreeFor g t th.req row)
include hwrite hfree

/-- A replacement that its row takes at once. -/
theorem progReplace_applies {op : RowOpEnd} {keep : Thread → List Byte → Thread} (hop : op = .done s1 old fl) :
    s.progReplace g t th row op keep =
      .done s1 { keep th old with allMarks := (keep th old).allMarks ||| recordMarks (joinFlags fl), replaced := true } := by
  subst hop
  unfold State.rowFreeFor State.rowOrderer at hfree
  obtain ⟨hhere, hmine, hrow, hopen⟩ := hfree
  unfold State.progReplace
  dsimp only
  rw [hmine, hhere, if_neg (by decide), hwrite]
  dsimp only
  rw [if_neg (by decide), any_takeWhile_eq_false hrow, if_neg (by decide), hopen, if_neg (by decide)]
  rfl

variable {w : GWord} (h : s.mayIssue g t th) (hrow : (th.scalar w.a).toNat = row)
include h hrow

/-- ADDM of a register that awaits no row adds to its row. -/
theorem execAddm_adds {ecc : Ecc} {tb : TableDesc} (hb : th.busy w.b.toNat = false)
    (htable : (s.planOf (s.reqPart th.req)).bind (fun pl => pl.tableOf th.req.table) = some tb)
    (hmodify : s.modifyRow g (s.reqPart th.req) th.req.table row ecc true (some th.req)
      (addToElements w.fmt.toNat (128 * w.imm.toNat) (th.addends w tb)) = .done s1 old fl) :
    execAddm g t w ecc s = finished g t (s1, { th.ran with allMarks := th.allMarks ||| recordMarks (joinFlags fl), replaced := true }) := by
  subst hrow
  refine issueG_counted h ?_
  dsimp only
  rw [Thread.ran_busy, hb, if_neg (by decide), Thread.ran_req, htable]
  exact progReplace_applies (th := th.ran) hwrite hfree hmodify

/-- CASM compares and swaps 8 bytes of its row, and their old value goes into sD. -/
theorem execCasm_swaps {ecc : Ecc}
    (hmodify : s.modifyRow g (s.reqPart th.req) th.req.table row ecc false (some th.req)
      (casElements w.imm.toNat (th.scalar w.b).toNat (th.scalar w.d).toNat) = .done s1 old fl) :
    execCasm g t w ecc s = finished g t (s1, { th.ran.setScalar w.d (BitVec.ofNat 64 (fieldLE old w.imm.toNat 8)) with
      allMarks := th.allMarks ||| recordMarks (joinFlags fl), replaced := true }) := by
  subst hrow
  refine issueG_counted h ?_
  exact progReplace_applies (th := th.ran) hwrite hfree hmodify

/-- WROW of a record that fills its row replaces it, and the record is consumed. -/
theorem execWrow_replaces {tb : TableDesc} (htable : (s.planOf (s.reqPart th.req)).bind (fun pl => pl.tableOf th.req.table) = some tb)
    (hlength : th.record.length = tb.elementBytes)
    (hreplace : s.replaceRow (s.rowOrderer g th.req row) (s.reqPart th.req) th.req.table row ((th.scalar w.b).toNat % 65536) 0 th.record =
      .applied s1) :
    execWrow g t w s = finished g t (s1.chargeReplaced (s.rowOrderer g th.req row) (s.reqPart th.req) th.req.table row th.req.ctx,
      { th.ran with isOpen := false, record := [], marks := 0, count := 0, allMarks := th.allMarks ||| th.marks, replaced := true }) := by
  subst hrow
  unfold State.rowOrderer at hreplace ⊢
  have hmarks : recordMarks (joinFlags []) = 0 := rfl
  refine issueG_counted h ?_
  dsimp only
  rw [Thread.ran_req, htable]
  dsimp only
  rw [if_neg (by simp [hlength]), Thread.ran_record, Thread.ran_scalar, Thread.ran_scalar, hreplace]
  refine (progReplace_applies (th := th.ran) hwrite hfree rfl).trans ?_
  rw [hmarks, Nat.or_zero]
  rfl
end

/-! ### O26 -/

/-- Settles O26: NOP writes nothing, every other scalar instruction one scalar register. That the immediates of SADDI and SARG are signed is the
model's reading (logs 9 and 35). -/
theorem gleanerScalarsWriteTheirResult : Obligations.GleanerScalarsWriteTheirResult := by
  intro g t w th s hg hthread hrun hleft gives a b
  have h : s.mayIssue g t th := ⟨hg, hthread, hrun, hleft⟩
  dsimp only [exec]
  have writes (f : Thread → Word64) : issueThread g t (fun th => th.setScalar w.d (f th)) s = .next (gives (f th.ran)) :=
    issueThread_changes h _
  have binary (f : Word64 → Word64 → Word64) : issueGScalar g t w f s = .next (gives (f a b)) := writes _
  exact ⟨issueThread_changes h _, writes _, writes _, binary _, binary _, writes _, binary _, binary _, binary _, binary _, binary _,
    binary _, binary _, fun _ => execSarg_reads h, execHash_hashes h⟩

/-! ### O27 -/

/-- Settles O27: LOOP and ENDLOOP by the lemmas of their outcomes; END changes the thread alone. That ENDLOOP is not counted as issued, and where
a LOOP of count 0 goes on, are the model's readings (log 18). -/
theorem gleanerLoopsAndEnd : Obligations.GleanerLoopsAndEnd := by
  intro g t w th s hg hthread hrun hleft n ran
  have h : s.mayIssue g t th := ⟨hg, hthread, hrun, hleft⟩
  dsimp only [exec]
  exact ⟨execGlnLoop_opens h, execGlnLoop_skips h, fun _ _ => execGlnEndloop_repeats h, fun _ _ => execGlnEndloop_closes h,
    issueThread_changes h _⟩

/-! ### O28 -/

/-- Settles O28: each instruction by the lemma of its command. Where a row operation acts is the model's reading (log 72), as are the formats of
DOT and EMIT (log 35). -/
theorem gleanerVectorAndRowInstructions : Obligations.GleanerVectorAndRowInstructions := by
  intro g t w th s hg hthread hrun hleft ran p a fmt done orders free
  have h : s.mayIssue g t th := ⟨hg, hthread, hrun, hleft⟩
  dsimp only [exec]
  exact ⟨execVop_computes h, fun q => execDot_writes h, execExpacc_adds h,
    fun row weight tb f hroom hentry htable hrows hfloat hstay hheld hfind htag =>
      execGpool_issues h hroom hentry htable hrows hfloat hstay hheld hfind htag rfl,
    fun ecc tb off s1 old fl hb htable hwrite hfree => execAddm_adds hwrite hfree h rfl hb htable,
    fun ecc off s1 old fl hwrite hfree => execCasm_swaps hwrite hfree h rfl,
    fun ha hmode hsome hmax th1 => execEmit_appends h ha hmode hsome hmax, fun th1 => execEmits_appends h,
    fun tb off s1 htable hwrite hfree hlength => execWrow_replaces hwrite hfree h rfl htable hlength⟩

end Sys2Proof.Machine
end

section
/-!
PROOFS. Bales of TIERED segments (O32): the two ends of a move, a lemma for the outcome of a flip and one for that of a drain marker, then the
statement (R285, R293, R294).
-/

namespace Sys2Proof.Machine

/-! ### The two ends of a move (R294) -/

/-- The place that holds the live copy of a bale in a move, of its loft slot and its frame: a promotion leaves loft, a demotion its frame. -/
def BaleMove.source (m : BaleMove) (slot frame : Nat × Nat) : Nat × Nat := if m.promote then slot else frame
/-- The place of the new copy of a bale in a move. -/
def BaleMove.dest (m : BaleMove) (slot frame : Nat × Nat) : Nat × Nat := if m.promote then frame else slot

/-- Both ends of a move, as BALE_FLIP and BALE_DRAIN_MARKER name them. -/
theorem BaleMove.ends_eq (m : BaleMove) (lg lo fg fo : Nat) : (if m.promote then (lg, lo, fg, fo) else (fg, fo, lg, lo)) =
    ((m.source (lg, lo) (fg, fo)).1, (m.source (lg, lo) (fg, fo)).2, m.dest (lg, lo) (fg, fo)) := by
  unfold BaleMove.source BaleMove.dest
  cases m.promote
  · rfl
  · rfl

/-! ### The flip (R285, R294) -/

/-- The gleaners at a flip: the source keeps a stub, and the destination holds the requests that arrive at it directly. -/
def State.stubBale (s : State) (src dst : Nat × Nat) : State :=
  (s.updGleaner src.1 (fun x => { x with stubs := x.stubs ++ [{ bale := src.2 / 65536, dest := dst.1, destBale := dst.2 / 65536 }] })).updGleaner
    dst.1 (fun x => { x with baleHold := x.baleHold ++ [dst.2 / 65536] })
/-- A segment's residency after the flip of a move, whose marker awaits the transfers `drains`. -/
def TieredSeg.flip (t : TieredSeg) (m : BaleMove) (bale : Nat) (drains : List (Nat × Nat)) : TieredSeg :=
  { t with
    resident := Tbl.set 0 t.resident bale (if m.promote then m.frame + 1 else 0)
    order := if m.promote then t.order else t.order.erase bale
    dirty := t.dirty.filter (fun e => e.1 / 1024 != bale)
    moves := t.moves.map (fun x => if x = m then { m with flipped := true, drains := drains } else x) }
/-- A flip counted in its direction. -/
def State.countFlip (s : State) (m : BaleMove) : State :=
  { s with loft := if m.promote then { s.loft with promoted := s.loft.promoted + 1 } else { s.loft with demoted := s.loft.demoted + 1 } }

section
variable {c seg bale lg lo fg fo : Nat} {g : Segment} {m : BaleMove} {s : State} (hplan : s.planSegment c seg = some g)
  (hslot : s.loftSlot g bale = some (lg, lo)) (hframe : s.frameSlot g m.frame = some (fg, fo))
include hplan hslot hframe

/-- A flip whose source has room for a stub: the units that the destination lacks are copied, the entry flips, and the transfer that asked for
the move loses the bale. -/
theorem execBaleFlip_flips {src dst : Nat × Nat} (hsrc : m.source (lg, lo) (fg, fo) = src) (hdst : m.dest (lg, lo) (fg, fo) = dst)
    (hmove : (s.tier c seg).moves.find? (fun m => m.bale == bale && !m.flipped) = some m) (hroom : (s.gleaner src.1).stubs.length < 16) :
    execBaleFlip c seg bale s = .next (((((s.copyBale src.1 dst.1 src.2 dst.2 0
        (fun i => m.promote || Tbl.get false (s.tier c seg).dirty (1024 * bale + i))).stubBale src dst).setTier c seg
      ((s.tier c seg).flip m bale (s.translated c))).countFlip m).baleDone m.cluster m.serial bale).pumpTiers := by
  subst hsrc hdst
  unfold execBaleFlip
  dsimp only
  rw [hplan, hmove]
  dsimp only
  rw [hslot, hframe]
  dsimp only
  rw [BaleMove.ends_eq, if_neg (Nat.not_le.2 hroom)]
  dsimp only [State.stubBale, TieredSeg.flip, State.countFlip]

/-! ### The drain marker (R246, R294) -/

/-- The marker of a move whose earlier transfers have completed: the stub goes, the move ends, and the destination takes the requests that it
held for the bale. -/
theorem execBaleDrainMarker_ends {src dst : Nat × Nat} {unstub freed : State} (hsrc : m.source (lg, lo) (fg, fo) = src)
    (hdst : m.dest (lg, lo) (fg, fo) = dst) (hmove : (s.tier c seg).moves.find? (fun m => m.bale == bale && m.flipped) = some m)
    (hdrained : m.drains.any (fun d => (s.xferOf d.1 d.2).isSome) = false)
    (hunstub : s.updGleaner src.1 (fun x => { x with stubs := x.stubs.filter (fun y => y.bale != src.2 / 65536) }) = unstub)
    (hfreed : unstub.updGleaner dst.1 (fun x => { x with
      baleHold := x.baleHold.erase (dst.2 / 65536), heldBale := x.heldBale.filter (fun r => r.target / 65536 != dst.2 / 65536) }) = freed) :
    execBaleDrainMarker c seg bale s = .next (((freed.setTier c seg { freed.tier c seg with moves := (s.tier c seg).moves.erase m }).takeHeld dst.1
      ((unstub.gleaner dst.1).heldBale.filter (fun r => r.target / 65536 == dst.2 / 65536))).pumpTier c seg) := by
  subst hsrc hdst hunstub hfreed
  unfold execBaleDrainMarker
  dsimp only
  rw [hplan, hmove]
  dsimp only
  rw [hdrained, if_neg (by decide), hslot, hframe]
  dsimp only
  rw [BaleMove.ends_eq]
end

/-! ### O32 -/

/-- Settles O32: the flip and the drain marker by the lemmas of their outcomes. -/
theorem balesFlipBetweenTiers : Obligations.BalesFlipBetweenTiers := by
  intro c seg bale g m lg lo fg fo s hplan hslot hframe t from_ dst
  dsimp only [exec]
  refine ⟨fun hmove hroom => ?flip, fun hmove hdrained =>
    execBaleDrainMarker_ends hplan hslot hframe rfl rfl hmove hdrained rfl rfl⟩
  case flip =>
    refine (execBaleFlip_flips (src := from_) (dst := dst) hplan hslot hframe rfl rfl hmove hroom).trans ?_
    dsimp only [State.stubBale, TieredSeg.flip, State.countFlip]

end Sys2Proof.Machine
end

section
/-!
PROOFS. Segment changes (O37), window changes and the segment window (O38): how an administrative change begins, a lemma for each outcome of a
command, then the two statements (R369 to R374, R379, R380).
-/

namespace Sys2Proof.Machine

/-! ### A change begins (R369, R370, R372, R379) -/

/-- The entry that a SEG_WRITE or SEG_DRAIN asks for. -/
def segAsked (c : AdminCmd) : SegCur := { limit := c.field 3 4 * 65536, perm := c.field 2 1 }
/-- A change of a segment's entry in range or drain form as it begins: what the copies take first is the entry with the revoking part alone (R371;
log 32). -/
def newSegChange (f ctx seg : Nat) (drain : Bool) (cur new : SegCur) : SegChange :=
  { ctx := ctx, seg := seg, between := revoked cur new, after := new, form := if drain then 1 else 0, drain := drain
    phase := if drain then .waiting else .revokeCopies, updated := 0, copies := 0, marks := [], subs := [], stations := 0, fn := f }

/-- A mapping as a WINDOW_WRITE leaves it: cleared, or with a new PERM, KEY, PEER and LENGTH (R379). -/
def mappingAsked (c : AdminCmd) (m : MappingCur) : MappingCur :=
  if c.field 3 1 != 0 then { m with cleared := true }
  else { m with perm := c.field 4 1, key := c.field 5 2, peer := c.field 7 4, length := c.field 11 4 * 65536, cleared := false }
/-- A WINDOW_WRITE lies within the plan's mapping: it clears, or keeps PERM within the plan's and shortens LENGTH at most (R379). -/
def windowWithinPlan (c : AdminCmd) (pm : WindowMapping) : Prop :=
  c.field 3 1 ≠ 0 ∨ ((c.field 4 1 ||| pm.perm) = pm.perm ∧ c.field 11 4 * 65536 ≤ pm.length ∧ c.field 11 4 * 65536 ≠ 0)

section
variable {f ctx : Nat} {c : AdminCmd} {s u : State}

/-- A change whose result can be written, and that no earlier one holds up, begins at once. -/
theorem onChange_begins {op at_ : Nat} (h : s.runsAdmin f op c u) (hr : u.adminResultOk f (c.field at_ 8) 16 = true)
    (hfree : u.changeWaits f u.xlt.changeQueue = false) : onChange f op at_ s = .next (u.beginChange f) := by
  unfold onChange
  rw [onAdminRaw_runs h, if_neg (by simp [hr]), if_neg (by simp [hfree])]

theorem beginChange_seg (ha : u.admin f = some c) (hop : c.op ≠ 0x87) : u.beginChange f = u.beginSegChange f c := by
  simp [State.beginChange, ha, hop]
theorem beginChange_window (ha : u.admin f = some c) (hop : c.op = 0x87) : u.beginChange f = u.beginWindowChange f c := by
  simp [State.beginChange, ha, hop]

variable (hctx : u.changeCtx f = some ctx) (hlive : (u.ctx ctx).state ≠ 2)
include hctx hlive

/-- A change within the plan's entry that expects the context's version and revokes something joins the changes; while the subscribers fit the board
its form is the command's own (R372). -/
theorem beginSegChange_begins {g : Segment} (hplan : u.planSegment ctx (c.field 1 1) = some g)
    (hperm : ((segAsked c).perm ||| (g.perm ||| permValid)) = (g.perm ||| permValid)) (hlimit : (segAsked c).limit ≤ g.limit)
    (hver : c.field 7 4 = (u.ctx ctx).version.toNat) (hboard : (u.subscribers ctx).length ≤ 32)
    (hrevokes : (grants (u.segCur ctx (c.field 1 1)) (segAsked c) &&
      revoked (u.segCur ctx (c.field 1 1)) (segAsked c) == u.segCur ctx (c.field 1 1)) = false) :
    u.beginSegChange f c = (u.beginAdmin f).setChanges
      (u.xlt.changes ++ [newSegChange f ctx (c.field 1 1) (c.op == 0x86) (u.segCur ctx (c.field 1 1)) (segAsked c)]) := by
  have hfew : decide (32 < (u.subscribers ctx).length) = false := decide_eq_false (Nat.not_lt.2 hboard)
  dsimp only [segAsked] at hrevokes
  unfold State.beginSegChange
  rw [hctx]
  refine (if_neg hlive).trans ?_
  rw [hplan]
  refine (if_neg (not_or.2 ⟨not_not.2 hperm, Nat.not_lt.2 hlimit⟩)).trans ((if_neg (not_not.2 hver)).trans ?_)
  rw [hfew]
  refine (if_neg (Bool.eq_false_iff.1 hrevokes)).trans ((if_neg (fun h => Bool.false_ne_true h.2)).trans ?_)
  rw [if_neg (Bool.eq_false_iff.1 hrevokes), Bool.or_false]
  rfl

/-- A WINDOW_WRITE within the plan's mapping that expects the context's version changes the mapping and joins the window changes. -/
theorem beginWindowChange_begins {d : PartitionDesc} {pl : Plan} {m : MappingCur} {pm : WindowMapping}
    (hd : (u.part (u.changePart f)).desc = some d) (hplan : u.planOf (u.changePart f) = some pl)
    (hm : (Tbl.get [] u.xlt.windows (d.windows.1 + c.field 0 2))[c.field 2 1]? = some m)
    (hpm : (pl.windows.filter (fun m => m.window == c.field 0 2))[c.field 2 1]? = some pm) (hwithin : windowWithinPlan c pm)
    (hver : c.field 15 4 = (u.ctx ctx).version.toNat) :
    u.beginWindowChange f c = { u.beginAdmin f with xlt := { u.xlt with
      windows := Tbl.set [] u.xlt.windows (d.windows.1 + c.field 0 2)
        (replaceAt (Tbl.get [] u.xlt.windows (d.windows.1 + c.field 0 2)) (c.field 2 1) (mappingAsked c m))
      windowChanges := u.xlt.windowChanges ++ [{ window := d.windows.1 + c.field 0 2, mapping := c.field 2 1, ctx := ctx, acks := 0
                                                 mark := u.links.serial, fn := f }] } } := by
  have hok : ¬((!(c.field 3 1 != 0)) = true ∧
      ((c.field 4 1 ||| pm.perm) ≠ pm.perm ∨ pm.length < c.field 11 4 * 65536 ∨ c.field 11 4 * 65536 = 0)) := by
    rintro ⟨hkeeps, hout⟩
    rcases hwithin with hclear | ⟨hperm, hlen, hne⟩
    · simp [hclear] at hkeeps
    · rcases hout with h | h | h
      · exact h hperm
      · exact absurd hlen (Nat.not_le.2 h)
      · exact hne h
  unfold State.beginWindowChange
  dsimp only
  rw [hctx, hd, hplan]
  dsimp only
  rw [hm, hpm]
  exact (if_neg hlive).trans ((if_neg hok).trans (if_neg (not_not.2 hver)))
end

/-! ### The copies (R371, R373, R374) -/

/-- What copy `n` holds of context `ctx` once it has taken the entry with the revoking part of a change, with the context's generation. -/
def State.narrowedCopy (s : State) (ch : SegChange) (n ctx : Nat) : CopyCtx :=
  { segs := putSeg (s.copyCtx n ctx).segs ch.seg ch.between, gen := (s.ctx ctx).gen }
/-- The change once copy `n` has taken its entry: up to which serial the cluster's transfers, or the Igrum engine's operations, are old (log 32). -/
def State.markCopy (s : State) (ch : SegChange) (n : Nat) : SegChange :=
  { ch with
    updated := ch.updated ||| 2 ^ n
    marks := if n < 24 then Tbl.set 0 ch.marks n (s.dma n).serial
      else if 26 ≤ n ∧ n < 28 then Tbl.set 0 ch.marks n s.links.serial else ch.marks }
/-- The change once copy `n` has acknowledged. -/
def SegChange.ackCopy (ch : SegChange) (n : Nat) : SegChange := { ch with copies := ch.copies ||| 2 ^ n }

/-- A drain form change advances the generation only out of its first phase. -/
theorem startDrain_started {s : State} {ch : SegChange} (h : ch.phase ≠ .waiting) : s.startDrain ch = (s, ch) :=
  if_neg (fun hw => h hw.1)

section
variable {n ctx : Nat} {s : State} {ch : SegChange} (hch : s.change ctx = some ch)
include hch

/-- A copy that has not taken the revoking part of a change takes it, with the generation, in one step. -/
theorem execXltCopyUpdate_narrows (hn : n < 30) (hphase : ch.phase = .revokeCopies) (hnew : ch.updated.testBit n = false) :
    execXltCopyUpdate n ctx s = .next (State.putChange { s with xlt := { s.xlt with
      copies := Tbl.set copyReset s.xlt.copies (n * 256 + ctx) (s.narrowedCopy ch n ctx) } } (s.markCopy ch n)) := by
  unfold execXltCopyUpdate
  rw [onCopy_runs hn, hch]
  dsimp only
  rw [startDrain_started (by simp [hphase])]
  dsimp only
  rw [if_neg (by simp [hphase, hnew]), if_pos hphase]
  rfl

section
variable (hn : n < 30) (htaken : ch.updated.testBit n = true) (hfirst : ch.copies.testBit n = false)
  (hsettled : ch.phase = .grantCopies ∨ s.copySettled ch n = true)
include hn htaken hfirst hsettled

/-- A copy acknowledges once: what it awaits, for a revoking part alone, has completed. Its change goes on with the last copy. -/
theorem execXltCopyAck_acks : execXltCopyAck n ctx s = (if (ch.ackCopy n).copies ≠ 2 ^ 30 - 1 then .next (s.putChange (ch.ackCopy n))
    else .next ((if ch.phase = .revokeCopies then (s.putChange (ch.ackCopy n)).revokeTags (ch.ackCopy n)
      else (s.putChange (ch.ackCopy n)).endChange (ch.ackCopy n)).pumpChanges)) := by
  have hready : ¬(ch.phase = .revokeCopies ∧ (!s.copySettled ch n) = true) := by
    rintro ⟨hrevoke, hbusy⟩
    rcases hsettled with hgrant | hdone
    · simp [hgrant] at hrevoke
    · simp [hdone] at hbusy
  unfold execXltCopyAck
  rw [onCopy_runs hn, hch]
  exact if_neg (not_or.2 ⟨by simp [htaken], not_or.2 ⟨by simp [hfirst], hready⟩⟩)
/-- An acknowledgement before the last is noted. -/
theorem execXltCopyAck_notes (hmore : (ch.ackCopy n).copies ≠ 2 ^ 30 - 1) :
    execXltCopyAck n ctx s = .next (s.putChange (ch.ackCopy n)) :=
  (execXltCopyAck_acks hch hn htaken hfirst hsettled).trans (if_pos hmore)
/-- After the last acknowledgement the tags follow a revoking part, and a granting part ends the change. -/
theorem execXltCopyAck_last (hall : (ch.ackCopy n).copies = 2 ^ 30 - 1) : execXltCopyAck n ctx s =
    .next ((if ch.phase = .revokeCopies then (s.putChange (ch.ackCopy n)).revokeTags (ch.ackCopy n)
      else (s.putChange (ch.ackCopy n)).endChange (ch.ackCopy n)).pumpChanges) :=
  (execXltCopyAck_acks hch hn htaken hfirst hsettled).trans (if_neg (not_not.2 hall))
end

/-! ### The tags (R371, R373, R374) -/

/-- A subscriber that has applied the tags leaves the board of a range form change, which goes on once the board is empty. -/
theorem execSubscriberAck_clears {g : Nat} (hg : g < 448) (hrange : ch.drain = false) (hsub : ch.subs.contains g = true)
    (happlied : s.tagsApplied ch g = true) {left : SegChange} (hleft : { ch with subs := ch.subs.filter (fun x => x != g) } = left) :
    execSubscriberAck g ctx s =
      .next (if left.subs.isEmpty then ((s.putChange left).tagsDone left).pumpChanges else s.putChange left) := by
  subst hleft
  unfold execSubscriberAck
  rw [onGleaner_runs hg, hch]
  exact if_neg (by rw [hrange, hsub, happlied]; decide)

/-- A station whose gleaners have applied the tags is noted once in a drain form change, which goes on with the last of the fourteen. -/
theorem execStationTagAck_notes (hn : n < 14) (hdrain : ch.drain = true) (hphase : ch.phase = .revokeTags ∨ ch.phase = .grantTags)
    (hfirst : ch.stations.testBit n = false) (happlied : (stationGleaners n).all (fun g => s.tagsApplied ch g) = true)
    {heard : SegChange} (hheard : { ch with stations := ch.stations ||| 2 ^ n } = heard) :
    execStationTagAck n ctx s =
      .next (if heard.stations = 2 ^ 14 - 1 then ((s.putChange heard).tagsDone heard).pumpChanges else s.putChange heard) := by
  subst hheard
  have htags : ¬(ch.phase ≠ .revokeTags ∧ ch.phase ≠ .grantTags) := fun h => hphase.elim h.1 h.2
  unfold execStationTagAck
  rw [if_neg (Nat.not_le.2 hn), hch]
  exact if_neg (not_or.2 ⟨by simp [hdrain], not_or.2 ⟨htags, not_or.2 ⟨by simp [hfirst], by rw [happlied]; decide⟩⟩⟩)
end

/-! ### Window drains (R379) -/

/-- Whether an operation that the old mapping of a window change admitted is in flight at an Igrum engine. -/
def State.windowBusy (s : State) (w : WindowChange) (e ctx : Nat) : Bool :=
  s.links.recv.any (fun r => r.ctx == ctx && r.inFlight && decide (r.serial < w.mark) && entryHome (s.peerEntry r.peer) == e &&
    fieldLE r.header 2 2 == w.window)
/-- The state with the window changes replaced. -/
def State.setWindowChanges (s : State) (ws : List WindowChange) : State := { s with xlt := { s.xlt with windowChanges := ws } }
/-- The state with a context's version advanced (R370). -/
def State.advanceVersion (s : State) (ctx : Nat) : State := s.setCtx ctx { s.ctx ctx with version := (s.ctx ctx).version + 1 }

section
variable {e ctx : Nat} {s : State} {w : WindowChange} (he : e < 2) (hw : s.xlt.windowChanges.find? (fun w => w.ctx == ctx) = some w)
  (hidle : s.windowBusy w e ctx = false)
include he hw hidle

/-- The drain of one Igrum engine is noted. -/
theorem execWindowDrainAck_notes (hmore : w.acks ||| 2 ^ e ≠ 3) : execWindowDrainAck e ctx s =
    .next (s.setWindowChanges (s.xlt.windowChanges.filter (fun x => x.ctx != ctx) ++ [{ w with acks := w.acks ||| 2 ^ e }])) := by
  unfold execWindowDrainAck
  rw [if_neg (Nat.not_le.2 he), hw]
  exact (if_neg (Bool.eq_false_iff.1 hidle)).trans (if_pos hmore)
/-- With the drain of both engines the change ends, the context's version advances and the command is answered. -/
theorem execWindowDrainAck_ends (hall : w.acks ||| 2 ^ e = 3) {v : State}
    (hv : (s.setWindowChanges (s.xlt.windowChanges.filter (fun x => x.ctx != ctx))).advanceVersion ctx = v) :
    execWindowDrainAck e ctx s = .next (v.answerChange w.fn 0 0 (v.ctx ctx).version.toNat).pumpChanges := by
  subst hv
  unfold execWindowDrainAck
  rw [if_neg (Nat.not_le.2 he), hw]
  exact (if_neg (Bool.eq_false_iff.1 hidle)).trans (if_neg (not_not.2 hall))
end

/-! ### The segment window (R380) -/

/-- What a function holds that has captured a version and the bytes of an entry. -/
def segCapture (select : BitVec 12) (version : Word32) (bytes : List Byte) : SegCapture :=
  { select := select, version := version, data := (List.range 12).map (fun i => BitVec.ofNat 32 (fieldLE bytes (4 * i) 4)) }
/-- The state once function `f` has captured a version and the bytes of an entry. -/
def State.captured (s : State) (f : Nat) (select : BitVec 12) (version : Word32) (bytes : List Byte) : State :=
  { s with xlt := { s.xlt with captures := Tbl.set captureReset s.xlt.captures f (segCapture select version bytes) } }

/-- A segment that a plan declares is no load segment, which stands only while the partition has no plan (R413). -/
theorem isLoadSeg_of_planSegment {s : State} {ctx seg : Nat} {g : Segment} (h : s.planSegment ctx seg = some g) :
    s.isLoadSeg ctx seg = false := by
  cases hplan : s.planOf (s.ctx ctx).part with
  | none => simp [State.planSegment, hplan] at h
  | some pl => simp [State.isLoadSeg, hplan]

section
variable {f ctx seg : Nat} {value : Word32} {s : State} (hf : f ≤ 32) (hs : s.served = true)
  (hctx : (BitVec.ofNat 12 value.toNat).toNat % 256 = ctx)
include hf hs hctx

/-- An owner of the context's partition, or the reeve, captures the entry of a segment that the plan declares. -/
theorem execXltSegSelect_owned {p : Nat} {g : Segment} (hseg : (BitVec.ofNat 12 value.toNat).toNat / 256 = seg)
    (hp : s.partOfCtx ctx = some p) (hown : f = 32 ∨ s.ownsPart f p = true) (hg : s.planSegment ctx seg = some g) :
    execXltSegSelect f value s = .next (s.captured f (BitVec.ofNat 12 value.toNat) (s.ctx ctx).version (g.record (s.segCur ctx seg))) := by
  subst hctx hseg
  have hsees : (f == 32 || s.ownsPart f p) = true := by simpa using hown
  unfold execXltSegSelect
  rw [if_neg (Nat.not_lt.2 hf), if_neg (by simp [hs])]
  simp only [hp, hsees, hg, isLoadSeg_of_planSegment hg, Bool.not_true, Bool.and_false, Bool.false_eq_true, if_true, if_false]
  rfl
/-- Any other function captures zeros. -/
theorem execXltSegSelect_zeros (hother : ∀ p, s.partOfCtx ctx = some p → f ≠ 32 ∧ s.ownsPart f p = false) :
    execXltSegSelect f value s = .next (s.captured f (BitVec.ofNat 12 value.toNat) 0 []) := by
  subst hctx
  unfold execXltSegSelect
  rw [if_neg (Nat.not_lt.2 hf), if_neg (by simp [hs])]
  cases hp : s.partOfCtx ((BitVec.ofNat 12 value.toNat).toNat % 256) with
  | none =>
    simp only [hp, Bool.not_false, Bool.false_and, Bool.false_eq_true, if_true, if_false]
    rfl
  | some p =>
    obtain ⟨hreeve, hown⟩ := hother p hp
    have hblind : (f == 32 || s.ownsPart f p) = false := by simp [hreeve, hown]
    simp only [hp, hblind, Bool.not_false, Bool.false_and, Bool.false_eq_true, if_true, if_false]
    rfl
end

/-! ### O37 -/

/-- Settles O37: each command by the lemma of its outcome. Which transfers and operations a copy awaits, and that it first takes the entry with the
revoking part alone, are the model's reading (log 32). -/
theorem segmentChangesReachEveryCopy : Obligations.SegmentChangesReachEveryCopy := by
  intro f n ctx s
  dsimp only [exec]
  refine ⟨fun op c u g hop h ha hc hr hfree hctx hlive hplan hperm hlimit hver hboard hrevokes => ?begin,
    fun ch hn hch => execXltCopyUpdate_narrows hch hn,
    fun ch hn hch htaken hfirst hsettled =>
      ⟨execXltCopyAck_notes hch hn htaken hfirst hsettled, execXltCopyAck_last hch hn htaken hfirst hsettled⟩,
    fun g ch hg hch hrange hsub happlied => execSubscriberAck_clears hch hg hrange hsub happlied rfl,
    fun ch hn hch hdrain hphase hfirst happlied => execStationTagAck_notes hch hn hdrain hphase hfirst happlied rfl⟩
  case begin =>
    have hbegun : ∀ {at_}, u.adminResultOk f (c.field at_ 8) 16 = true → onChange f op at_ s = .next _ := fun hr =>
      (onChange_begins h hr hfree).trans (congrArg _ ((beginChange_seg ha (by omega)).trans
        (beginSegChange_begins hctx hlive hplan hperm hlimit hver hboard hrevokes)))
    constructor
    · rintro rfl
      rw [execSegWrite, hbegun hr, hc]
      rfl
    · rintro rfl
      rw [execSegDrain, hbegun hr, hc]
      rfl

/-! ### O38 -/

/-- Settles O38: the write of a mapping, the drains of the two engines and the capture, each by its command's lemma. -/
theorem windowsChangeAndSegmentsAreRead : Obligations.WindowsChangeAndSegmentsAreRead := by
  intro f s
  dsimp only [exec]
  refine ⟨fun c u ctx d pl m pm h ha hc hr hfree hctx hlive hd hplan hm hpm hwithin hver => ?write,
    fun e ctx w he hw hidle => ⟨execWindowDrainAck_notes he hw hidle, fun hall => execWindowDrainAck_ends he hw hidle hall rfl⟩,
    fun value hf hs => ⟨fun p g => execXltSegSelect_owned hf hs rfl rfl, execXltSegSelect_zeros hf hs rfl⟩⟩
  case write =>
    have hplanned : windowWithinPlan c pm := by simpa [windowWithinPlan, and_assoc] using hwithin
    exact (onChange_begins h hr hfree).trans (congrArg _ ((beginChange_window ha hc).trans
      (beginWindowChange_begins hctx hlive hd hplan hm hpm hplanned hver)))

end Sys2Proof.Machine
end

section
/-!
PROOFS. The host interface (spec 14): reads of the window (O3), what the host does to a port or a function (O39), attachments (O40), and window
writes, slots, handles and check reads (O41). A lemma for each outcome of a command that has several, then the statements.
-/

namespace Sys2Proof.Machine

/-! ### Reads of the window (R388) -/

/-- Settles O3: the checks stated are those of `windowCheck` for a read, which tests the flags by their negations; with them the command runs as it
stands, at any function that the device has. -/
theorem windowReadsNeverFail : Obligations.WindowReadsNeverFail := by
  intro f offset requester len s hf check one out
  have hcheck : check = fun t off => t.windowCheck f off requester false := by
    funext t off
    simp only [check, State.windowCheck, Bool.not_eq_true', Bool.false_eq_true, if_false] <;> rfl
  clear_value check
  subst hcheck
  exact onFn_runs hf

/-! ### Events of ports and functions (R381, R396) -/

/-- Each of the sixteen sizes of R381 is taken as the new size of BAR2. -/
theorem execBar2Resize_takes {f i : Nat} {s : State} (hf : f < 32) (hi : i < 16) : execBar2Resize f (2 ^ (21 + i)) s =
    .next ((s.releaseSlots f).updFn f (fun h => { h with bar2 := 2 ^ (21 + i) })) :=
  (onFn_runs hf).trans (if_pos (by simpa using hi))

/-- Settles O39: each command as it stands at a port or function that the device has, under the condition that it names. That a capture is part of the
reset's own step is the model's choice (log 52), as is the end of the first training by the link's L0 (log 37). -/
theorem hostEventsDetachAndReassign : Obligations.HostEventsDetachAndReassign := by
  intro q f size clksel s hq hf fns reset
  dsimp only [exec]
  exact ⟨onPort_runs hq, onPort_runs hq, onPort_runs hq, fun hperst => (onPort_runs hq).trans (if_pos hperst),
    fun hup => (onPort_runs hq).trans (if_pos hup), fun hperst => (onPort_runs hq).trans (if_neg (Bool.eq_false_iff.1 hperst)),
    fun hretrains => (onPort_runs hq).trans (if_pos hretrains), onFn_runs hf, onFn_runs hf, onFn_runs hf, onFn_runs hf,
    execBar2Resize_takes hf⟩

/-! ### Attachments (R395 to R400) -/

/-- A register of an attachment is served through BAR0 (R401). -/
theorem onAttBar0_runs {f a : Nat} {s : State} {h : State → Answer} (hf : f < 32) (ha : a < 32) (hready : s.mgmt.ready = true) :
    onAtt a s (fun s => onBar0 f s h) = h s := (onAtt_runs ha).trans (onBar0_runs hf hready)

/-- A command on the block of an attachment runs for the function that holds it (R401). -/
theorem onHeld_runs {f a : Nat} {s : State} {h : State → State} (hf : f < 32) (ha : a < 32) (hready : s.mgmt.ready = true)
    (hheld : s.attOf f = some a) : onHeld f a s h = .next (h s) :=
  (onAttBar0_runs hf ha hready).trans (if_pos hheld)

section
variable {f : Nat} {s : State} (hf : f < 32) (hready : s.mgmt.ready = true)
include hf hready

/-- A function that holds none gets its own attachment where that is free, else the lowest free one (R395). -/
theorem execAttachNew_creates {b : Nat} (hnone : s.attOf f = none)
    (hfree : (if (s.att f).state == 0 then some f else (List.range 32).find? (fun a => (s.att a).state == 0)) = some b) : execAttachNew f s =
      .next ((((s.updAtt b (fun _ => { attReset with state := 1, fn := f, beatAt := s.devTime })).newCredential b).updFn f (fun h => { h with
        disabled := false })).attachResult f 0 (s.fn f).ctlAttachment.toNat 1) := by
  unfold execAttachNew
  rw [onBar0_runs hf hready, hnone]
  dsimp only
  rw [if_neg (by simp), hfree]

/-- A function that holds an attachment is given no second one (R395). -/
theorem execAttachNew_held (hheld : (s.attOf f).isSome = true) : execAttachNew f s =
    .next (s.attachResult f 0 (s.fn f).ctlAttachment.toNat 5) := (onBar0_runs hf hready).trans (if_pos hheld)

/-- The reader of R401 is shown a word of a credential that has not been read, and CRED3 once. -/
theorem execCredRead_shows {a word : Nat} (ha : a < 32) (hheld : s.attOf f = some a) (hfresh : (s.att a).credRead = false) (hword : word < 4) :
    execCredRead f a word s = .next ((if word = 3 then s.updAtt a (fun x => { x with credRead := true }) else s).send
      (.completion f (natLE 4 ((s.att a).credential.toNat / 2 ^ (32 * word) % 2 ^ 32)))) := by
  unfold execCredRead
  rw [onFn_runs hf, onAtt_runs ha]
  simp [State.served, hready, hheld, hfresh, Nat.mod_eq_of_lt hword]
end

section
variable {f a : Nat} {s : State} (hnone : s.attOf f = none) (hunlocked : (s.att a).locked = false) (hdetached : (s.att a).state = 2)
include hnone hunlocked hdetached

/-- A detached attachment goes over to a function that holds none and gives its credential (R399). -/
theorem takeOver_takes (adopt : Bool) (hcred : (s.att a).credential = (s.fn f).cred) : s.takeOver f a adopt =
    (((((s.moveFunction (s.att a).fn f).updAtt a (fun x => { x with
      state := 3, fn := f, refusals := 0, adoptHold := adopt, beatAt := s.devTime
      handles := if adopt then x.handles.map (fun e => (e.1, e.2.map (fun h => { h with suspended := true }))) else x.handles })).updFn f
        (fun h => { h with disabled := false })).attachResult f (if adopt then 2 else 1) a 1).pumpJournal a) := by
  unfold State.takeOver
  dsimp only
  rw [hnone, if_neg (by simp), if_neg (by simp [hunlocked]), if_neg (by simp [hdetached]), if_neg (by simp [hcred])]

/-- A wrong credential is counted, and the fourth locks the attachment (R399). -/
theorem takeOver_refuses (adopt : Bool) (hcred : (s.att a).credential ≠ (s.fn f).cred) : s.takeOver f a adopt =
    (s.updAtt a (fun x => { x with refusals := x.refusals + 1, locked := decide (4 ≤ x.refusals + 1) })).attachResult f
      (if adopt then 2 else 1) a 2 := by
  unfold State.takeOver
  dsimp only
  rw [hnone, if_neg (by simp), if_neg (by simp [hunlocked]), if_neg (by simp [hdetached]), if_pos hcred]
end

/-- REPLAY releases what an adoption holds back (R399). -/
theorem execAttachReplay_pumps {f a : Nat} {s : State} (hf : f < 32) (hready : s.mgmt.ready = true) (hheld : s.attOf f = some a) :
    execAttachReplay f s = .next ((s.updAtt a (fun x => { x with adoptHold := false })).pumpJournal a) := by
  unfold execAttachReplay
  rw [onBar0_runs hf hready, hheld]

/-- A replay that has drained its journal, with no check read on its way, ends in ATTACHED (R400). -/
theorem execJournalEmpty_attaches {a : Nat} {s : State} (ha : a < 32) (hreplay : (s.att a).state = 3) (hgoes : (s.att a).adoptHold = false)
    (hempty : (s.att a).journal = []) (hunchecked : s.host.checks.any (fun c => c.att == a) = false) : execJournalEmpty a s =
      .next ((((s.att a).pendingVectors.foldl (fun s v => s.sendVector a v)
        (s.updAtt a (fun x => { x with state := 1, pendingVectors := [] }))).newCredential a).freeWrites a) :=
  (onAtt_runs ha).trans (if_neg (by simp only [hreplay, hgoes, hempty, hunchecked]; decide))

/-- Settles O40: a new attachment, the take-over, the replay and the credential by the lemmas of their outcomes; the others as they stand, under the
condition that each names. -/
theorem attachmentsAreHeldAndTakenOver : Obligations.AttachmentsAreHeldAndTakenOver := by
  intro f a n word s hf ha x old free take
  dsimp only [exec]
  refine ⟨fun hready hnone b hfree => execAttachNew_creates hf hready hnone hfree,
    fun hready hheld => execAttachNew_held hf hready hheld, ?takes, ?refuses,
    fun hlocked => (onAtt_runs ha).trans (if_pos hlocked), ?held,
    fun htimeout => (onAtt_runs ha).trans (if_neg htimeout), fun hlive => (onAtt_runs ha).trans (if_neg hlive),
    fun hreplay => (onAtt_runs ha).trans (if_pos hreplay),
    fun hreplay hgoes hempty hunchecked => execJournalEmpty_attaches ha hreplay hgoes hempty hunchecked,
    fun hready hheld hfresh hword => execCredRead_shows hf hready ha hheld hfresh hword⟩
  case takes =>
    intro hready hnone hunlocked hdetached hcred
    exact ⟨(onAttBar0_runs hf ha hready).trans (congrArg _ (takeOver_takes hnone hunlocked hdetached false hcred)),
      (onAttBar0_runs hf ha hready).trans (congrArg _ (takeOver_takes hnone hunlocked hdetached true hcred))⟩
  case refuses =>
    intro hready hnone hunlocked hdetached hcred
    exact (onAttBar0_runs hf ha hready).trans (congrArg _ (takeOver_refuses hnone hunlocked hdetached false hcred))
  case held =>
    intro hready hheld
    exact ⟨execAttachReplay_pumps hf hready hheld, onHeld_runs hf ha hready hheld, onHeld_runs hf ha hready hheld⟩

/-! ### Slots and handles (R386, R392) -/

section
variable {f : Nat} {c : AdminCmd} {s u : State}

/-- A well-formed entry for a slot that the function has, into a context of a partition that it owns, is set (R386). -/
theorem execSlotMap_sets {e : SlotEntry} (h : s.runsAdmin f 0x88 c u) (hresult : u.adminResultOk f (c.field 0 8) 4 = true)
    (hslot : fieldLE (c.inline.take 32) 0 2 < (u.fn f).slotCount)
    (howns : ∃ p, u.partOfCtx (fieldLE (c.inline.take 32) 3 1) = some p ∧ u.ownsPart f p = true)
    (hentry : parseSlotEntry (c.inline.take 32) = some e) : execSlotMap f s = .next (({ u with host := { u.host with
      slots := Tbl.set none u.host.slots ((u.fn f).slotBase + fieldLE (c.inline.take 32) 0 2) (some e) } }).answerAdmin f (c.field 0 8)
        (natLE 4 outDone)) := by
  obtain ⟨p, hpart, hown⟩ := howns
  unfold execSlotMap
  rw [onAdmin_runs h hresult]
  dsimp only
  rw [hpart, hentry]
  dsimp only
  rw [if_neg (by simp [hown, hslot])]

/-- A well-formed handle is set where RESULT can then be written through the function's handles (R392; log 31). -/
theorem execHandleSet_sets {a : Nat} {e : HandleEntry} {v : State} (h : s.runsAdmin f 0x89 c u) (hheld : u.attOf f = some a)
    (hentry : parseHandleEntry (c.inline.take 32) = some e)
    (hset : u.updAtt a (fun x => { x with handles := Tbl.set none x.handles (fieldLE (c.inline.take 32) 0 2) (some e) }) = v)
    (hresult : v.adminResultOk f (c.field 0 8) 4 = true) : execHandleSet f s = .next (v.answerAdmin f (c.field 0 8) (natLE 4 outDone)) := by
  subst hset
  unfold execHandleSet
  rw [onAdminRaw_runs h]
  dsimp only
  rw [hheld, hentry]
  dsimp only
  rw [if_pos hresult]
end

/-! ### Check reads (R393, R394) -/

section
variable {q : Nat} {c : CheckRead} {s : State} (hq : q < 1024) (hcheck : s.host.checks.find? (fun c => c.queue == q) = some c)
include hq hcheck

/-- A check read that has landed lets its vector go, and what waited behind it (R393). -/
theorem execCheckReadComplete_lands : execCheckReadComplete q true s =
    .next (((match c.vector with
      | some v => { s with host := { s.host with checks := s.host.checks.filter (fun k => k.queue != q) } }.sendVector c.att v
      | none => { s with host := { s.host with checks := s.host.checks.filter (fun k => k.queue != q) } }).drainWithheld c.att q).pumpJournal
        c.att) := by
  unfold execCheckReadComplete
  rw [onQueue_runs hq, hcheck]
  rfl
theorem execCheckReadComplete_fails : execCheckReadComplete q false s = .next (s.checkFailed q c) := by
  unfold execCheckReadComplete
  rw [onQueue_runs hq, hcheck]
  rfl
/-- One that gets no answer is handled as one that fails (R393). -/
theorem execCheckReadTimeout_fails : execCheckReadTimeout q s = .next (s.checkFailed q c) := by
  unfold execCheckReadTimeout
  rw [onQueue_runs hq, hcheck]
end

/-- The holder of a stopped queue's attachment starts it again (R394). -/
theorem execCstopResume_drains {f q : Nat} {s : State} (hf : f < 32) (hq : q < 1024) (hready : s.mgmt.ready = true)
    (hheld : s.attOf f = some (s.queue q).attachment) (hstopped : (s.queue q).cstop = true) : execCstopResume f q s =
      .next ((s.updQueue q (fun x => { x with cstop := false })).drainWithheld (s.queue q).attachment q) :=
  (onQueue_runs hq).trans ((onBar0_runs hf hready).trans (if_neg (by simp [hheld, hstopped])))

/-- Settles O41: a window write as it stands; each other command by the lemma of its outcome. That RESULT of a HANDLE_SET is translated through the
handle just set is the model's reading (log 31). -/
theorem windowSlotsHandlesAndCheckReads : Obligations.WindowSlotsHandlesAndCheckReads := by
  intro f q offset requester bytes s hf hq
  dsimp only [exec]
  exact ⟨onFn_runs hf, fun c u e h hresult hslot howns hentry => execSlotMap_sets h hresult hslot howns hentry,
    fun c u a e h hheld hentry hresult => execHandleSet_sets h hheld hentry rfl hresult,
    fun c hcheck => ⟨execCheckReadComplete_lands hq hcheck, execCheckReadComplete_fails hq hcheck, execCheckReadTimeout_fails hq hcheck⟩,
    fun hready hheld hstopped => execCstopResume_drains hf hq hready hheld hstopped⟩

end Sys2Proof.Machine
end

section
/-!
PROOFS. What each operation and command leaves of the queue and the fuses (`State.kept`; O7, O8), file by file of the model: the operations on the
state and the commands of the cores. The guards and the wrappers of commands come first; every other lemma stands in the order of the definition it is
about.
A proof written `(rfl)` keeps its lemma one that `simp` rewrites by, also where it has to prove the hypothesis of another lemma.
-/

namespace Sys2Proof.Machine

/-! ### The guards on unit numbers -/

section
variable {K : List Instr × Bool × Bool × Nat × Nat × Nat} {s : State} {a : Answer}

theorem guard_keeps {p : Prop} [Decidable p] (h : keeps K a) : keeps K (if p then a else .fault .noSuchUnit) := by
  split
  · exact h
  · trivial
theorem absent_keeps {p : Prop} [Decidable p] (h : keeps K a) : keeps K (if p then .fault .noSuchUnit else a) := by
  split
  · trivial
  · exact h
theorem stays_keeps {p : Prop} [Decidable p] (h : keeps s.kept a) : keeps s.kept (if p then .next s else a) := by
  split
  · rfl
  · exact h
theorem else_keeps {p : Prop} [Decidable p] (h : keeps s.kept a) : keeps s.kept (if p then a else .next s) := by
  split
  · exact h
  · rfl
end

section
variable {s : State} {f : State → Answer} (h : keeps s.kept (f s))
include h

theorem onCore_keeps {k : Nat} : keeps s.kept (onCore k s f) := guard_keeps h
theorem onCluster_keeps {c : Nat} : keeps s.kept (onCluster c s f) := guard_keeps h
theorem onPart_keeps {p : Nat} : keeps s.kept (onPart p s f) := guard_keeps h
theorem onGleaner_keeps {g : Nat} : keeps s.kept (onGleaner g s f) := guard_keeps h
theorem onFn_keeps {n : Nat} : keeps s.kept (onFn n s f) := guard_keeps h
theorem onPort_keeps {q : Nat} : keeps s.kept (onPort q s f) := guard_keeps h
theorem onAtt_keeps {a : Nat} : keeps s.kept (onAtt a s f) := guard_keeps h
theorem onQueue_keeps {q : Nat} : keeps s.kept (onQueue q s f) := guard_keeps h
theorem onEth_keeps {p : Nat} : keeps s.kept (onEth p s f) := guard_keeps h
theorem onPeer_keeps {k : Nat} : keeps s.kept (onPeer k s f) := guard_keeps h
theorem onCopy_keeps {n : Nat} : keeps s.kept (onCopy n s f) := guard_keeps h
theorem onPackage_keeps {p : Nat} : keeps s.kept (onPackage p s f) := guard_keeps h
theorem onStream_keeps {k vc : Nat} : keeps s.kept (onStream k vc s f) := guard_keeps h
theorem onLink_keeps {l d : Nat} : keeps s.kept (onLink l d s f) := guard_keeps h
theorem onGleanerPart_keeps {g p : Nat} : keeps s.kept (onGleanerPart g p s f) := guard_keeps (guard_keeps h)
theorem onBar0_keeps {n : Nat} : keeps s.kept (onBar0 n s f) := guard_keeps (else_keeps h)
end

theorem kept_gleaners {s : State} {l : Tbl GleanerState} : { s with gleaners := l }.kept = s.kept := rfl
theorem getD_kept {K : List Instr × Bool × Bool × Nat × Nat × Nat} {o : Option State} {t : State} (ho : keepsSome K o) (ht : t.kept = K) :
    (o.getD t).kept = K := by
  cases o
  · exact ht
  · exact ho
@[simp] theorem updMgmt_kept {s : State} {f : MgmtState → MgmtState} (h : (f s.mgmt).fuses = s.mgmt.fuses) : (s.updMgmt f).kept = s.kept :=
  congrArg (Prod.mk s.pending) h
@[simp] theorem updHist_kept {s : State} {f : History → History} : (s.updHist f).kept = s.kept := (rfl)

section
variable {s : State} {a addr bale c cause code ctx d ep f g k kind len n off p q row seg seq t table tag tk u v vc : Nat}
  {ecc : Ecc} {half : Bool} {frame bs msg : List Byte} {r : GReq} {w : VWord}

/-! ### Units and records -/

@[simp] theorem updCore_kept {f : CoreState → CoreState} : (s.updCore k f).kept = s.kept := (rfl)
@[simp] theorem setCluster_kept {x : ClusterState} : (s.setCluster c x).kept = s.kept := (rfl)
@[simp] theorem updCluster_kept {f : ClusterState → ClusterState} : (s.updCluster c f).kept = s.kept := (rfl)
@[simp] theorem setPart_kept {x : PartState} : (s.setPart p x).kept = s.kept := (rfl)
@[simp] theorem updPart_kept {f : PartState → PartState} : (s.updPart p f).kept = s.kept := (rfl)
@[simp] theorem tookFree_kept : s.tookFree.kept = s.kept := (rfl)
@[simp] theorem send_kept {o : Out} : (s.send o).kept = s.kept := (rfl)
@[simp] theorem sendAll_kept {os : List Out} : (s.sendAll os).kept = s.kept := (rfl)
@[simp] theorem charge_kept {f : Charges → Charges} : (s.charge c f).kept = s.kept := (rfl)
@[simp] theorem chargeCore_kept : (s.chargeCore c n).kept = s.kept := (rfl)
@[simp] theorem chargeGleaner_kept : (s.chargeGleaner c n).kept = s.kept := (rfl)
@[simp] theorem chargeHost_kept : (s.chargeHost c n).kept = s.kept := (rfl)
@[simp] theorem chargeLink_kept : (s.chargeLink c n).kept = s.kept := (rfl)
@[simp] theorem noteUnits_kept : s.noteUnits.kept = s.kept := (rfl)
@[simp] theorem noteReady_kept : s.noteReady.kept = s.kept := (rfl)
@[simp] theorem binWrite_kept {pl : BinPlace} : (s.binWrite k pl bs).kept = s.kept := by
  unfold State.binWrite
  (repeat' split) <;> simp

/-! ### Memory -/

@[simp] theorem setGleaner_kept {x : GleanerState} : (s.setGleaner g x).kept = s.kept := (rfl)
@[simp] theorem updGleaner_kept {f : GleanerState → GleanerState} : (s.updGleaner g f).kept = s.kept := (rfl)
@[simp] theorem setStack_kept {m : StackMap} : (s.setStack n m).kept = s.kept := by
  unfold State.setStack
  (repeat' split) <;> simp [kept_mk, kept_pair]
@[simp] theorem setCtx_kept {x : CtxState} : (s.setCtx c x).kept = s.kept := (rfl)
@[simp] theorem setTier_kept {t : TieredSeg} : (s.setTier c seg t).kept = s.kept := (rfl)
@[simp] theorem xltBounds_kept : s.xltBounds.kept = s.kept := (rfl)
@[simp] theorem chargeUnits_kept : (s.chargeUnits g c off len).kept = s.kept := (rfl)
@[simp] theorem chargeRaw_kept : (s.chargeRaw g c off len).kept = s.kept := by simp [State.chargeRaw]
@[simp] theorem noteRefusal_kept : (s.noteRefusal g c tag off).kept = s.kept := (rfl)
@[simp] theorem retireRaw_kept : (s.retireRaw g len).kept = s.kept := (rfl)
@[simp] theorem putRaw_kept {system : Bool} : (s.putRaw g c tag off bs system).kept = s.kept := by simp [State.putRaw, kept_ite]
@[simp] theorem rawWrite_kept {system : Bool} : (s.rawWrite g c tag off bs system).1.kept = s.kept := by
  unfold State.rawWrite
  (repeat' split) <;> simp
@[simp] theorem noteDirty_kept : (s.noteDirty c addr n).kept = s.kept := by
  unfold State.noteDirty
  dsimp only
  (repeat' split) <;> simp

/-! ### The host interface's operations -/

@[simp] theorem updFn_kept {h : HostFn → HostFn} : (s.updFn f h).kept = s.kept := (rfl)
@[simp] theorem updAtt_kept {h : Attachment → Attachment} : (s.updAtt a h).kept = s.kept := (rfl)
@[simp] theorem updPort_kept {h : HostPort → HostPort} : (s.updPort q h).kept = s.kept := (rfl)
@[simp] theorem sendMsix_kept : (s.sendMsix f v).kept = s.kept := by simp [State.sendMsix, kept_ite]
@[simp] theorem sendVector_kept {vector : Nat} : (s.sendVector a vector).kept = s.kept := by
  unfold State.sendVector
  split <;> simp
@[simp] theorem fnVector_kept {vector : Nat} : (s.fnVector f vector).kept = s.kept := by
  unfold State.fnVector
  split <;> simp
@[simp] theorem writeMsix_kept {w : Word32} : (s.writeMsix f off w).kept = s.kept := by simp [State.writeMsix, kept_ite]
@[simp] theorem writeMsixWords_kept {f off : Nat} {ws : List Word32} {s : State} : (writeMsixWords s f off ws).kept = s.kept := by
  induction ws generalizing s off with
  | nil => rfl
  | cons w ws ih => exact ih.trans writeMsix_kept
@[simp] theorem afterRecord_kept {h : Nat} {w : OutWrite} : (s.afterRecord a h w).kept = s.kept := by
  unfold State.afterRecord
  (repeat' split) <;> simp [kept_mk, kept_pair]
@[simp] theorem postWrite_kept {w : OutWrite} : (s.postWrite a w).kept = s.kept := by
  unfold State.postWrite
  split <;> simp
@[simp] theorem skipLost_kept : (s.skipLost a).kept = s.kept := by simp [State.skipLost, kept_ite]
@[simp] theorem pumpJournal_kept : (s.pumpJournal a).kept = s.kept := by
  unfold State.pumpJournal
  dsimp only
  split
  · rfl
  · refine updAtt_kept.trans ((kept_foldl_eq fun _ _ => ?_).trans skipLost_kept)
    split
    · exact afterRecord_kept.trans send_kept
    · rfl
@[simp] theorem issueOut_kept {w : OutWrite} : (s.issueOut w).kept = s.kept := by
  unfold State.issueOut
  dsimp only
  (repeat' split) <;> simp
@[simp] theorem releaseWrites_kept : (s.releaseWrites a).kept = s.kept := by simp [State.releaseWrites, kept_foldl_eq]
@[simp] theorem issueCompletion_kept {w : OutWrite} : (s.issueCompletion q w).kept = s.kept := by simp [State.issueCompletion, kept_ite]
@[simp] theorem drainWithheld_kept : (s.drainWithheld a q).kept = s.kept := by simp [State.drainWithheld, kept_ite, kept_foldl_eq]

/-! ### Sequencers and sheaves -/

@[simp] theorem writeStaging_kept : (s.writeStaging k off bs).kept = s.kept := by
  unfold State.writeStaging
  split <;> simp
@[simp] theorem updBoard_kept {f : TableBoard → TableBoard} : (s.updBoard p table f).kept = s.kept := by simp [State.updBoard, kept_ite]
@[simp] theorem takePins_kept {pins : List (Nat × Nat)} : (s.takePins c pins).kept = s.kept := (rfl)
@[simp] theorem releasePin_kept {e : Nat × Nat} : (s.releasePin c p e).kept = s.kept := by simp [State.releasePin, kept_ite]
@[simp] theorem releasePins_kept {i : WorkItem} : (s.releasePins i).kept = s.kept := by simp [State.releasePins, kept_foldl_eq]
@[simp] theorem startItem_kept {i : WorkItem} : (s.startItem k i).kept = s.kept := by simp [State.startItem, kept_ite]
@[simp] theorem takeListed_kept {pool : StagePool} {i : WorkItem} : (s.takeListed k pool i).kept = s.kept := by simp [State.takeListed]
@[simp] theorem startResume_kept : (s.startResume k).kept = s.kept := (rfl)
@[simp] theorem takeNext_kept : (s.takeNext k).kept = s.kept := by
  unfold State.takeNext
  dsimp only
  (repeat' split) <;> simp
@[simp] theorem dispatch_kept : (s.dispatch c).kept = s.kept := kept_foldl_eq fun _ _ => by (repeat' split) <;> simp
@[simp] theorem enlist_kept {i : WorkItem} : (s.enlist c i).kept = s.kept := by simp [State.enlist]
@[simp] theorem freeRecord_kept {i : WorkItem} : (s.freeRecord i).kept = s.kept := by
  unfold State.freeRecord
  split <;> simp
@[simp] theorem chargeItem_kept : (s.chargeItem k).kept = s.kept := by
  unfold State.chargeItem
  split <;> simp
@[simp] theorem dropPreempt_kept : (s.dropPreempt k).kept = s.kept := (rfl)
@[simp] theorem abortDone_kept : (s.abortDone k).kept = s.kept := by simp [State.abortDone, kept_ite]
@[simp] theorem clearUnits_kept : (s.clearUnits k).kept = s.kept := by simp [State.clearUnits]
@[simp] theorem afterEnd_kept {stopped : Bool} : (s.afterEnd k stopped).kept = s.kept := by simp [State.afterEnd, kept_ite]
@[simp] theorem endItem_kept {stopped : Bool} : (s.endItem k code stopped).kept = s.kept := by
  unfold State.endItem
  split <;> simp
@[simp] theorem resetRows_kept {i : WorkItem} : (s.resetRows i).kept = s.kept := by
  unfold State.resetRows
  split <;> simp
@[simp] theorem replayItem_kept {stopped : Bool} : (s.replayItem k stopped).kept = s.kept := by
  unfold State.replayItem
  (repeat' split) <;> simp
@[simp] theorem coreFailedWith_kept {r : FaultReport} : (s.coreFailedWith k r).kept = s.kept := by simp [State.coreFailedWith]
@[simp] theorem coreFailed_kept {detail : Nat} : (s.coreFailed k kind detail).kept = s.kept := by simp [State.coreFailed]
@[simp] theorem closeSheaf_kept {o : OpenSheaf} {cause : CloseCause} : (s.closeSheaf c o cause).kept = s.kept := by simp [State.closeSheaf]
@[simp] theorem flushSheaf_kept {stage : Nat} {cause : CloseCause} : (s.flushSheaf c ctx stage cause).kept = s.kept := by
  unfold State.flushSheaf
  split <;> simp
@[simp] theorem joinRow_kept {r : RowDesc} : (s.joinRow c p ctx r).kept = s.kept := by
  unfold State.joinRow
  dsimp only
  (repeat' split) <;> simp
@[simp] theorem release_kept {i : WorkItem} {h : Held} : (s.release k i h).kept = s.kept := by
  unfold State.release
  dsimp only
  (repeat' split) <;> simp
@[simp] theorem confirmPatterns_kept {i : WorkItem} : (s.confirmPatterns k i).kept = s.kept := (rfl)
@[simp] theorem landRow_kept {stage : Nat} {r : RowArg} {input : List Byte} : (s.landRow c stage r input).1.kept = s.kept := by
  unfold State.landRow
  dsimp only
  (repeat' split) <;> simp
@[simp] theorem execRowArrive_keeps {to_ part stage : Nat} {row : Option RowArg} {input : List Byte} :
    keeps s.kept (execRowArrive to_ part ctx stage row input s) :=
  onCluster_keeps (by (repeat' split) <;> simp [keeps_next])
@[simp] theorem execSheafTimer_keeps {cluster stage : Nat} : keeps s.kept (execSheafTimer cluster ctx stage s) :=
  onCluster_keeps (by (repeat' split) <;> simp [keeps_next])
@[simp] theorem execItemRetire_keeps : keeps s.kept (execItemRetire k s) := by
  refine onCore_keeps ?_
  dsimp only
  (repeat' split) <;> simp [keeps_next, kept_foldl_eq]
@[simp] theorem abortRows_kept {p : OpenSheaf → RowDesc → Bool} : (s.abortRows c p).kept = s.kept := by
  simp [State.abortRows, kept_ite, kept_foldl_eq]
@[simp] theorem abortListed_kept {p : WorkItem → Bool} : (s.abortListed c p).kept = s.kept := by simp [State.abortListed, kept_foldl_eq]
@[simp] theorem moveTransfers_kept {src dst : Nat} {held : Bool} : (s.moveTransfers c src dst held).kept = s.kept := (rfl)
@[simp] theorem dropTransfers_kept {src : Nat} : (s.dropTransfers c src).kept = s.kept := (rfl)
@[simp] theorem abortSaved_kept {p : WorkItem → Bool} : (s.abortSaved c p).kept = s.kept :=
  kept_foldl_eq fun _ _ => by dsimp only; (repeat' split) <;> simp
@[simp] theorem execSequencerAbort_keeps {cluster : Nat} {queue : Option Nat} : keeps s.kept (execSequencerAbort cluster ctx queue s) :=
  onCluster_keeps (by split <;> simp [keeps_next])
@[simp] theorem execCoreAbort_keeps : keeps s.kept (execCoreAbort k s) := onCore_keeps (by split <;> simp [keeps_next])
@[simp] theorem execStealRequest_keeps {thief asked : Nat} : keeps s.kept (execStealRequest thief asked s) :=
  onCore_keeps (onCluster_keeps (by (repeat' split) <;> rfl))
@[simp] theorem execStealCopyDone_keeps {thief : Nat} : keeps s.kept (execStealCopyDone thief s) :=
  onCore_keeps (by dsimp only; (repeat' split) <;> simp [keeps_next])

/-! ### The vector unit -/

@[simp] theorem retireTo_kept {pc : Nat} : (s.retireTo k pc).kept = s.kept := (rfl)
theorem finishIssue_kept {K : List Instr × Bool × Bool × Nat × Nat × Nat} {k pc : Nat} {i : Issue} (h : i.keeps K) :
    (finishIssue k pc i).kept = K := by
  cases i <;> exact h
theorem issue_keeps {k : Nat} {s : State} {body : State → CoreState → Issue} (h : ∀ c, (body s c).keeps s.kept) : keeps s.kept (issue k body s) :=
  onCore_keeps (else_keeps (a := .next _) (finishIssue_kept (h _)))
theorem issueUnit_keeps {k : Nat} {w : VWord} {s : State} {body : State → CoreState → Issue} (h : ∀ c, (body s c).keeps s.kept) :
    keeps s.kept (issueUnit k w body s) := issue_keeps fun c => by
  split
  · rfl
  · exact h c
@[simp] theorem issueRegs_keeps {f : VecRegs → VecRegs} : keeps s.kept (issueRegs k f s) := issue_keeps (fun _ => rfl)
@[simp] theorem stopWith_kept {bit : Nat} {addrKind : Nat} : (s.stopWith k bit kind addrKind addr).kept = s.kept := (rfl)
@[simp] theorem binFault_kept : (s.binFault k addr).kept = s.kept := (rfl)
@[simp] theorem binEcc_kept {pl : BinPlace} : (s.binEcc k pl ecc kind).1.kept = s.kept := by
  unfold State.binEcc
  (repeat' split) <;> simp
@[simp] theorem coreLoad_kept {align : Bool} : (s.coreLoad k addr n align ecc).1.kept = s.kept := by
  unfold State.coreLoad
  split
  · exact binFault_kept
  · split <;> exact kept_of_pair ‹_› binEcc_kept
@[simp] theorem coreStore_keeps : (s.coreStore k addr bs).keeps s.kept := by
  unfold State.coreStore
  split
  · exact binFault_kept
  · split
    · rfl
    · exact binWrite_kept
@[simp] theorem raiseLanes_kept {f : Nat → NumFlags} : (s.raiseLanes k f).kept = s.kept := (rfl)
@[simp] theorem writeLanes_kept {f : Nat → LaneOut} : (s.writeLanes k w f).kept = s.kept := (rfl)
@[simp] theorem issueLanes_keeps {f : VecRegs → Nat → LaneOut} : keeps s.kept (issueLanes k w f s) := issue_keeps (fun _ => rfl)
@[simp] theorem issueBits_keeps {f : Word32 → Word32 → Word32} : keeps s.kept (issueBits k w f s) := issueLanes_keeps
@[simp] theorem issueScalar_keeps {f : Word64 → Word64 → Word64} : keeps s.kept (issueScalar k w f s) := issueRegs_keeps
@[simp] theorem issueMask_keeps {f : Word128 → Word128 → Word128} : keeps s.kept (issueMask k w f s) := issueRegs_keeps
@[simp] theorem execSld_keeps : keeps s.kept (execSld k w ecc s) := issue_keeps fun c => by
  split
  · exact updCore_kept.trans (kept_of_pair ‹_› coreLoad_kept)
  · exact kept_of_pair ‹_› coreLoad_kept
@[simp] theorem execSst_keeps : keeps s.kept (execSst k w s) := issue_keeps (fun _ => by simp)
@[simp] theorem execLoopOpen_keeps : keeps s.kept (execLoopOpen k w s) := issue_keeps (fun _ => by dsimp only; split <;> rfl)
@[simp] theorem execLoopClose_keeps {_w : VWord} : keeps s.kept (execLoopClose k _w s) := issue_keeps (fun _ => by (repeat' split) <;> rfl)
@[simp] theorem execCoreEnd_keeps {_w : VWord} : keeps s.kept (execCoreEnd k _w s) := issue_keeps (fun _ => rfl)
@[simp] theorem execFence_keeps {_w : VWord} : keeps s.kept (execFence k _w s) := issue_keeps (fun _ => by split <;> rfl)
@[simp] theorem execVrdt_keeps : keeps s.kept (execVrdt k w s) := issue_keeps (fun _ => by split <;> rfl)
@[simp] theorem issueReduce_keeps {op : Word32 → Word32 → LaneOut} : keeps s.kept (issueReduce k w kind op s) := issue_keeps (fun _ => rfl)
@[simp] theorem execVld_keeps : keeps s.kept (execVld k w ecc s) := issue_keeps fun c => by
  dsimp only
  split
  · exact kept_of_pair ‹_› coreLoad_kept
  · exact writeLanes_kept.trans (kept_of_pair ‹_› coreLoad_kept)
@[simp] theorem execVst_keeps : keeps s.kept (execVst k w s) := issue_keeps fun c => by
  dsimp only
  split
  · exact binFault_kept
  split
  · rfl
  · exact raiseLanes_kept.trans (kept_ite.trans (by simp))
@[simp] theorem execVgth_keeps : keeps s.kept (execVgth k w ecc s) := issue_keeps fun c => by
  extract_lets addr lanes
  split
  · exact binFault_kept
  · have hread (o : Option (BinPlace × BinRegion)) : (match o with
        | some (pl, reg) => s.binEcc k pl ecc reg.kind
        | none => (s, true)).1.kept = s.kept := by split <;> simp
    split
    · exact writeLanes_kept.trans (hread _)
    · exact hread _

/-! ### The winnow unit -/

@[simp] theorem updRecord_kept {slot : Nat} {f : SheafRecord → SheafRecord} : (s.updRecord c slot f).kept = s.kept := (rfl)
@[simp] theorem takeVerdict_kept {slot layer : Nat} : (s.takeVerdict c slot layer).kept = s.kept := by
  unfold State.takeVerdict
  dsimp only
  (repeat' split) <;> simp
@[simp] theorem holdInput_kept {d : WinnowDesc} {l : Layer} : (s.holdInput k d l).kept = s.kept := by
  unfold State.holdInput
  split <;> simp
@[simp] theorem execWnw_keeps : keeps s.kept (execWnw k w ecc s) := issueUnit_keeps fun c => by
  split
  · rfl
  split
  · exact kept_of_pair ‹_› coreLoad_kept
  next h =>
    have hload := kept_of_pair h coreLoad_kept
    dsimp only
    split
    · exact holdInput_kept.trans (updCore_kept.trans hload)
    · exact hload
@[simp] theorem execWwait_keeps : keeps s.kept (execWwait k w s) := issueUnit_keeps (fun _ => by split <;> rfl)
@[simp] theorem winnowRetire_kept {r : WinnowedRow} {clips : Nat} : (s.winnowRetire k r clips).kept = s.kept := (rfl)
@[simp] theorem winnowReport_kept {s : State} {k : Nat} {d : WinnowDesc} {r : WinnowedRow} : (s.winnowReport k d r).kept = s.kept := by
  unfold State.winnowReport
  dsimp only
  (repeat' split) <;> rfl

/-! ### The grid -/

@[simp] theorem tileFault_kept : (s.tileFault k).kept = s.kept := (rfl)
@[simp] theorem execGtile_keeps : keeps s.kept (execGtile k w ecc s) := issueUnit_keeps fun c => by
  split
  · rfl
  split
  · exact kept_of_pair ‹_› coreLoad_kept
  next h =>
    have hload := kept_of_pair h coreLoad_kept
    extract_lets t entry
    split
    · exact tileFault_kept.trans hload
    split
    · exact hload
    · exact updCore_kept.trans hload
@[simp] theorem execGwait_keeps : keeps s.kept (execGwait k w s) := issueUnit_keeps fun c => by
  dsimp only
  split
  · rfl
  split
  · exact replayItem_kept.trans retireTo_kept
  split <;> rfl
@[simp] theorem preload_kept {weightsOf : TileDesc → List (List Int)} : (s.preload k weightsOf).kept = s.kept := (rfl)
@[simp] theorem operandEcc_kept {t : TileDesc} : (s.operandEcc k t ecc).1.kept = s.kept := by
  unfold State.operandEcc
  split <;> simp
@[simp] theorem execTileIssue_keeps {block : Nat} : keeps s.kept (execTileIssue k block ecc s) := by
  refine onCore_keeps ?_
  dsimp only
  split
  · refine stays_keeps ?_
    split
    · exact updCore_kept
    split
    · exact updCore_kept
    refine stays_keeps ?_
    split
    · split
      next h => exact (kept_of_pair h operandEcc_kept).trans updCore_kept
      next h => exact preload_kept.trans (updCore_kept.trans ((kept_of_pair h operandEcc_kept).trans updCore_kept))
    · rfl
  · rfl
@[simp] theorem reportMismatch_kept {t : TileInFlight} {d c : Int} {acts : List Int} : (s.reportMismatch k t row d c acts).kept = s.kept := by
  unfold State.reportMismatch
  (repeat' split) <;> simp [kept_mk, kept_pair]
@[simp] theorem markRow_kept {t : TileDesc} {marks : Nat} : (s.markRow k t row marks).kept = s.kept := by simp [State.markRow, kept_ite]
@[simp] theorem drainRow_kept {t : TileInFlight} {entries : List AccEntry} : (s.drainRow k t row entries).kept = s.kept := by
  unfold State.drainRow
  (repeat' split) <;> simp
@[simp] theorem rowGone_kept : (s.rowGone k).kept = s.kept := by simp [State.rowGone]
@[simp] theorem execGridRowWrite_keeps {upset : Option GridUpset} : keeps s.kept (execGridRowWrite k upset s) :=
  onCore_keeps (by dsimp only; (repeat' split) <;> simp [keeps_next])
@[simp] theorem execGridAbort_keeps : keeps s.kept (execGridAbort k s) := onCore_keeps (by simp [keeps_next])

/-! ### Tables -/

@[simp] theorem repairUnits_kept : (s.repairUnits g off len).1.kept = s.kept := kept_foldl_fst (fun _ _ => by (repeat' split) <;> rfl) rfl
@[simp] theorem mendEdges_kept : (s.mendEdges g c off n).kept = s.kept := by simp [State.mendEdges, kept_ite]
@[simp] theorem ctxWrite_kept : (s.ctxWrite c tag addr bs).1.kept = s.kept := kept_foldl_fst (fun _ _ => by split <;> simp) rfl
@[simp] theorem noteFrame_kept : (s.noteFrame g off n).kept = s.kept := by
  refine kept_foldl_eq fun _ _ => ?_
  split
  · rfl
  · refine kept_foldl_eq fun _ _ => ?_
    split
    · rfl
    · exact kept_ite.trans (by simp)

/-! ### The front end's operations -/

@[simp] theorem updQueue_kept {f : QueueState → QueueState} : (s.updQueue q f).kept = s.kept := (rfl)
@[simp] theorem updSem_kept {f : Semaphore → Semaphore} : (s.updSem n f).kept = s.kept := (rfl)
@[simp] theorem gfeStatus_kept {b : BitVec 3} : (s.gfeStatus b).kept = s.kept := (rfl)
@[simp] theorem updCmd_kept {f : Cmd → Cmd} : (s.updCmd q seq f).kept = s.kept := (rfl)
@[simp] theorem setAdmin_kept {c : Option AdminCmd} : (s.setAdmin f c).kept = s.kept := (rfl)
@[simp] theorem beginAdmin_kept : (s.beginAdmin f).kept = s.kept := (rfl)
@[simp] theorem recordAdmin_kept : (s.recordAdmin f code).kept = s.kept := by
  unfold State.recordAdmin
  dsimp only
  (repeat' split) <;> simp
@[simp] theorem stopWaiting_kept {w : Nat} : (s.stopWaiting n w).kept = s.kept := (rfl)
@[simp] theorem markGranted_kept {w : Nat} : (s.markGranted w).kept = s.kept := by simp [State.markGranted, kept_ite]
@[simp] theorem abandonWait_kept {w : Nat} : (s.abandonWait n w).kept = s.kept := by simp [State.abandonWait, kept_ite]
@[simp] theorem grantSem_kept : (s.grantSem n).kept = s.kept := by
  unfold State.grantSem
  extract_lets m s1
  have hs1 : s1.kept = s.kept := kept_foldl_eq fun _ _ => by (repeat' split) <;> simp
  split
  · exact kept_foldl_eq fun _ _ => abandonWait_kept
  · exact kept_foldl_fst (fun _ _ => by (repeat' split) <;> simp) hs1
@[simp] theorem grantLanding_kept {i : Nat} : (s.grantLanding a i).kept = s.kept := by
  unfold State.grantLanding
  extract_lets met s1
  have hmet (u : State) (w : Nat) : (met u w).kept = u.kept := by
    simp only [met]
    (repeat' split) <;> simp
  exact (kept_foldl_eq fun _ _ => by split <;> simp [hmet]).trans (kept_foldl_eq fun _ _ => by split <;> simp [hmet])
@[simp] theorem signalCmd_kept {c : Cmd} : (s.signalCmd q c code).kept = s.kept := by simp [State.signalCmd, kept_ite]
@[simp] theorem finishCmd_kept : (s.finishCmd q seq code).kept = s.kept := by
  unfold State.finishCmd
  (repeat' split) <;> simp
@[simp] theorem settleEnded_kept : s.settleEnded.kept = s.kept := by simp [State.settleEnded, kept_foldl_eq]
@[simp] theorem freeWrites_kept : (s.freeWrites a).kept = s.kept := by simp [State.freeWrites]
@[simp] theorem writeRef_keeps {copy : Nat} {r : Ref} : keepsSome s.kept (s.writeRef ctx tag copy r bs) := by
  unfold State.writeRef
  split
  · split
    · trivial
    · split
      · trivial
      next h => exact kept_of_pair h ctxWrite_kept
  · split
    · exact chargeHost_kept.trans issueOut_kept
    · trivial
  · rfl
@[simp] theorem finishResult_kept {c : Cmd} {r : Ref} : (s.finishResult q c r bs).kept = s.kept := by
  unfold State.finishResult
  dsimp only
  split
  next h => exact finishCmd_kept.trans (kept_of_some h writeRef_keeps)
  · exact finishCmd_kept
@[simp] theorem finishMove_kept {outcome : Nat} : (s.finishMove tag outcome).kept = s.kept := by
  unfold State.finishMove
  (repeat' split) <;> simp
@[simp] theorem finishAdmin_kept : (s.finishAdmin f code).kept = s.kept := by
  unfold State.finishAdmin
  dsimp only
  (repeat' split) <;> simp
@[simp] theorem answerAdmin_kept : (s.answerAdmin f addr bs).kept = s.kept := by simp [State.answerAdmin, kept_ite]
@[simp] theorem semWait_keeps {w value : Nat} : (s.semWait w n kind value).keeps s.kept := by
  unfold State.semWait
  dsimp only
  (repeat' split) <;> trivial
@[simp] theorem adminWait_keeps {c : AdminCmd} : (s.adminWait f c).keeps s.kept := by
  unfold State.adminWait
  dsimp only
  (repeat' split) <;> simp [wait_keeps_go, wait_keeps_waits]
@[simp] theorem joinWaiters_kept {w : Nat} : (s.joinWaiters n w).kept = s.kept := (rfl)
theorem onAdminRaw_keeps {f op : Nat} {s : State} {body : State → AdminCmd → State} (h : ∀ u c, (body u c).kept = u.kept) :
    keeps s.kept (onAdminRaw f op s body) := by
  refine onFn_keeps ?_
  dsimp only
  split
  · rfl
  split
  · exact kept_ite.trans (by simp)
  · exact finishAdmin_kept.trans stopWaiting_kept
  next h1 => exact (h _ _).trans (kept_of_go h1 adminWait_keeps)
theorem onAdmin_keeps {f op n : Nat} {s : State} {body : State → AdminCmd → State} (h : ∀ u c, (body u c).kept = u.kept) :
    keeps s.kept (onAdmin f op n s body) := onAdminRaw_keeps fun u c => by
  split
  · exact h u c
  · exact finishAdmin_kept

/-! ### Replacement of rows -/

@[simp] theorem mendRow_kept {old : Option (List Byte)} {bytes : List Byte} : (s.mendRow g off old bytes).kept = s.kept := by
  simp [State.mendRow, kept_ite, kept_foldl_eq]
@[simp] theorem repairRow_kept {home : Nat} : (s.repairRow g p table home row off).1.kept = s.kept := by
  unfold State.repairRow
  dsimp only
  (repeat' split) <;> simp
@[simp] theorem followHome_kept {home : Nat} {slot : List Byte} : (s.followHome g p table row home slot).kept = s.kept := by
  unfold State.followHome
  split
  · rfl
  split
  · rfl
  extract_lets tk at' s1 static hot s2
  have hs2 : s2.kept = s.kept := sendAll_kept.trans (kept_foldl_eq fun _ _ => by split <;> simp)
  split
  · exact sendAll_kept.trans hs2
  · exact hs2
@[simp] theorem cancelMove_kept : (s.cancelMove g tk row).kept = s.kept := by
  unfold State.cancelMove
  split <;> simp
@[simp] theorem retainCopy_kept {home size : Nat} : (s.retainCopy g p table row home off size).kept = s.kept := (rfl)
@[simp] theorem replaceRow_keeps {scale flags : Nat} {elements : List Byte} : (s.replaceRow g p table row scale flags elements).keeps s.kept := by
  unfold State.replaceRow
  split
  · trivial
  extract_lets tk size bads s0 x retains moving s1 s2 y keeps hot fl slot s3 s4
  have hs0 : s0.1.kept = s.kept := by simp only [s0]; split <;> simp
  have hs1 : s1.kept = s0.1.kept := kept_ite.trans (by simp)
  have hs2 : s2.kept = s1.kept := kept_ite.trans (by simp)
  have hs4 : s4.kept = s2.kept := by simp only [s4]; (repeat' split) <;> rfl
  split
  · trivial
  split
  · trivial
  · exact followHome_kept.trans (hs4.trans (hs2.trans (hs1.trans hs0)))

end

end Sys2Proof.Machine
end

section
/-!
PROOFS. What is left of the queue and the fuses (`State.kept`; O7, O8): the gleaners, their programs, the table commands and the DMA engines.
-/

namespace Sys2Proof.Machine

section
variable {s : State} {a addr bale c cause code ctx d ep f g k kind len n off p q row seg seq t table tag tk u v vc : Nat}
  {ecc : Ecc} {half : Bool} {frame bs msg : List Byte} {r : GReq} {w : GWord}

/-! ### Fetches of rows -/

@[simp] theorem endRequest_kept {status records marks : Nat} : (s.endRequest g r status records marks).kept = s.kept := by
  simp [State.endRequest, kept_ite]
@[simp] theorem reportGleaner_kept {detail : Nat} : (s.reportGleaner g r kind off detail).kept = s.kept := (rfl)
@[simp] theorem refuseRequest_kept {status detail : Nat} : (s.refuseRequest g r status kind off detail).kept = s.kept := by simp [State.refuseRequest]
@[simp] theorem refuseTag_kept : (s.refuseTag g r off).kept = s.kept := by simp [State.refuseTag]
@[simp] theorem refuseInvalid_kept : (s.refuseInvalid g r).kept = s.kept := by simp [State.refuseInvalid]
@[simp] theorem loseRequest_kept : (s.loseRequest g r off).kept = s.kept := by simp [State.loseRequest]
@[simp] theorem reportUnit_kept {r : Option GReq} {unit : Nat} : (s.reportUnit g r unit cause).kept = s.kept := by
  unfold State.reportUnit
  split <;> simp
@[simp] theorem meetUncorrectable_kept {r : Option GReq} : (s.meetUncorrectable g r off len cause).kept = s.kept := by
  simp [State.meetUncorrectable, kept_ite]
@[simp] theorem meetMismatch_kept {r : Option GReq} : (s.meetMismatch g r off).kept = s.kept := by simp [State.meetMismatch]
@[simp] theorem meetUnreadable_kept {r : Option GReq} : (s.meetUnreadable g r off len ecc).kept = s.kept := by simp [State.meetUnreadable, kept_ite]
@[simp] theorem fillCache_kept {f : RowFetch} : (s.fillCache g f).kept = s.kept := by
  unfold State.fillCache
  dsimp only
  (repeat' split) <;> simp
@[simp] theorem countLookup_kept {f : RowFetch} : (s.countLookup g f).kept = s.kept := by simp [State.countLookup, kept_ite]
@[simp] theorem countDramRow_kept {f : RowFetch} : (s.countDramRow g f).kept = s.kept := by simp [State.countDramRow, kept_ite]
@[simp] theorem chargeFetch_kept {f : RowFetch} : (s.chargeFetch g c f).kept = s.kept := by simp [State.chargeFetch, kept_ite]
@[simp] theorem settle_kept {f : RowFetch} {got : List Byte × Bool × Bool} : (s.settle g f got).1.kept = s.kept := by simp [State.settle, kept_ite]
@[simp] theorem settleDegraded_kept {f : RowFetch} {unread : Bool} {got : List Byte × Bool} :
    (s.settleDegraded g f unread got).1.kept = s.kept := by
  unfold State.settleDegraded
  (repeat' split) <;> simp [kept_mk, kept_pair]
@[simp] theorem sendStubble_kept {sg : Nat} {f : RowFetch} : (s.sendStubble g sg r f).kept = s.kept := (rfl)
@[simp] theorem armFetch_kept {f : RowFetch} : (s.armFetch g r f).1.kept = s.kept := by
  unfold State.armFetch
  (repeat' split) <;> simp
@[simp] theorem issueFetch_kept {f : RowFetch} : (s.issueFetch g r f).1.kept = s.kept := by simp [State.issueFetch, kept_ite]
@[simp] theorem fallStubble_kept {f : RowFetch} : (s.fallStubble g r f).1.kept = s.kept := by
  unfold State.fallStubble
  dsimp only
  (repeat' split) <;> simp
@[simp] theorem fallMirror_kept {f : RowFetch} : (s.fallMirror g r f).1.kept = s.kept := by
  unfold State.fallMirror
  split <;> simp
@[simp] theorem fallHome_kept {f : RowFetch} : (s.fallHome g f).1.kept = s.kept := by
  unfold State.fallHome
  dsimp only
  (repeat' split) <;> simp
@[simp] theorem fetchLate_kept {f : RowFetch} : (s.fetchLate g r f ecc).kept = s.kept := by
  unfold State.fetchLate
  (repeat' split) <;> simp [kept_mk, kept_pair]
@[simp] theorem remoteArrives_kept {f : RowFetch} : (s.remoteArrives g r f ecc).1.kept = s.kept := by
  unfold State.remoteArrives
  dsimp only
  (repeat' split) <;> simp
@[simp] theorem fetchArrives_kept {f : RowFetch} : (s.fetchArrives g r f ecc).1.kept = s.kept := by
  unfold State.fetchArrives
  extract_lets f1 inCache s1 bad from_ s2 x p s3 lost
  have hs1 : s1.kept = s.kept := kept_ite.trans (by simp)
  have hs3 : s3.kept = s.kept := updGleaner_kept.trans (kept_ite.trans (by simp [s2, hs1]))
  have hlost : lost.kept = s.kept := meetUnreadable_kept.trans hs1
  clear_value lost s3 s1
  split
  · exact kept_ite.trans (by simp)
  split
  · exact remoteArrives_kept
  split
  · split <;> simp [kept_ite, hs1]
  · split
    case h_1 => exact settleDegraded_kept.trans hs1
    case h_2 => simp [kept_ite, hs1]
    case h_3 => exact settle_kept.trans (send_kept.trans (updGleaner_kept.trans hs1))
    case h_4 => exact armFetch_kept.trans hs3
    all_goals split <;> simp [kept_ite, hlost]
@[simp] theorem fetchExpires_kept {f : RowFetch} : (s.fetchExpires g f).1.kept = s.kept := by
  unfold State.fetchExpires
  (repeat' split) <;> simp
@[simp] theorem fetchStubble_kept {f : RowFetch} {slot : Option (List Byte)} : (s.fetchStubble g f slot).1.kept = s.kept := by
  unfold State.fetchStubble
  (repeat' split) <;> simp
@[simp] theorem fetchMirror_kept {f : RowFetch} {slot : Option (List Byte)} : (s.fetchMirror g r f slot).1.kept = s.kept := by
  unfold State.fetchMirror
  (repeat' split) <;> simp
@[simp] theorem rawFetch_kept : (s.rawFetch g c tag off len).1.kept = s.kept := by
  unfold State.rawFetch
  dsimp only
  split
  · exact noteRefusal_kept.trans retireRaw_kept
  split
  · exact chargeRaw_kept.trans retireRaw_kept
  split
  next h => simp [kept_of_pair h repairUnits_kept]
  next h => simp [kept_of_pair h repairUnits_kept]
@[simp] theorem ctxFetch_kept : (s.ctxFetch c tag addr n).1.kept = s.kept := kept_foldl_fst (fun _ _ => by (repeat' split) <;> simp) rfl

/-! ### Gleaners -/

@[simp] theorem chargeReplaced_kept : (s.chargeReplaced g p table row c).kept = s.kept := by
  unfold State.chargeReplaced
  split
  · exact (kept_foldl_eq fun _ _ => by split <;> simp).trans chargeUnits_kept
  · rfl
@[simp] theorem readForWrite_kept {o home : Nat} {t : TableDesc} {req : Option GReq} :
    (s.readForWrite o p table row home off t ecc req).1.kept = s.kept := by
  unfold State.readForWrite
  dsimp only
  (repeat' split) <;> simp
@[simp] theorem modifyRow_keeps {adds : Bool} {req : Option GReq} {f : TableDesc → List Byte → Option (Option (List Byte) × List NumFlags)} :
    (s.modifyRow g p table row ecc adds req f).keeps s.kept := by
  unfold State.modifyRow
  extract_lets tk o
  split
  · trivial
  split
  · trivial
  extract_lets s2 slot old
  have hs2 : s2.1.kept = s.kept := by simp only [s2]; split <;> simp
  split
  · trivial
  split
  · trivial
  · exact hs2
  · split
    next h =>
      refine updGleaner_kept.trans (Eq.trans ?_ ((kept_of_applied h replaceRow_keeps).trans hs2))
      (repeat' split) <;> simp
    · trivial
    · trivial
@[simp] theorem pushOp_kept {o : ChannelOp} : (s.pushOp g o).kept = s.kept := (rfl)
@[simp] theorem serveRawRead_kept {checked : Bool} : (s.serveRawRead g r checked).kept = s.kept := by simp [State.serveRawRead, kept_ite]
@[simp] theorem serveRawWrite_kept {checked : Bool} : (s.serveRawWrite g r checked).kept = s.kept := by simp [State.serveRawWrite, kept_ite]
@[simp] theorem serveRowRead_kept {checked : Bool} : (s.serveRowRead g r checked).kept = s.kept := by
  unfold State.serveRowRead
  dsimp only
  (repeat' split) <;> simp
@[simp] theorem waitReplace_kept {home : Nat} {again : Bool} : (s.waitReplace g p home r again).kept = s.kept := (rfl)
@[simp] theorem writeStubble_keeps {slot : List Byte} : keepsSome s.kept (s.writeStubble g p table row slot) := by
  unfold State.writeStubble
  split
  · split <;> trivial
  · trivial
@[simp] theorem serveRowWrite_kept {checked again : Bool} : (s.serveRowWrite g r checked again).kept = s.kept := by
  unfold State.serveRowWrite
  extract_lets p bad check computed discard
  have hdiscard (t : TableDesc) : (discard t).kept = s.kept := endRequest_kept.trans (reportGleaner_kept.trans updGleaner_kept)
  clear_value discard
  split
  · split
    · exact refuseInvalid_kept
    split
    · exact refuseTag_kept
    split
    · exact hdiscard _
    split
    · exact waitReplace_kept
    split
    next h => exact pushOp_kept.trans ((kept_ite.trans (by simp)).trans (kept_of_applied h replaceRow_keeps))
    · exact waitReplace_kept
    · exact loseRequest_kept
  · split
    · extract_lets off
      split
      · exact refuseInvalid_kept
      split
      · exact refuseTag_kept
      split
      · exact hdiscard _
      split
      next h => exact pushOp_kept.trans (kept_of_some h writeStubble_keeps)
      · exact refuseInvalid_kept
    · split <;> simp
    · exact refuseInvalid_kept
@[simp] theorem serveModify_kept {checked again adds : Bool} {f : TableDesc → List Byte → Option (Option (List Byte) × List NumFlags)} {old : List
  Byte → List Byte} :
    (s.serveModify g r ecc checked again adds f old).kept = s.kept := by
  unfold State.serveModify
  dsimp only
  split
  · split <;> simp
  split
  · exact refuseTag_kept
  split
  · exact waitReplace_kept
  split
  next h => exact pushOp_kept.trans (kept_of_rowop h modifyRow_keeps)
  · exact waitReplace_kept
  · exact loseRequest_kept
  · exact refuseInvalid_kept
@[simp] theorem serveRowAdd_kept {checked again : Bool} : (s.serveRowAdd g r ecc checked again).kept = s.kept := by simp [State.serveRowAdd, kept_ite]
@[simp] theorem serveRowCas_kept {checked again : Bool} : (s.serveRowCas g r ecc checked again).kept = s.kept := by simp [State.serveRowCas, kept_ite]
@[simp] theorem serve_kept {checked again : Bool} : (s.serve g r ecc checked again).kept = s.kept := by
  unfold State.serve
  split <;> simp
@[simp] theorem passIn_keeps {checked : Bool} : keepsSome s.kept (s.passIn g r ecc checked) := by
  unfold State.passIn
  split
  · exact serve_kept
  all_goals trivial
@[simp] theorem enqueue_kept : (s.enqueue g r).kept = s.kept := (rfl)
@[simp] theorem takeIn_kept : (s.takeIn g r ecc).kept = s.kept := by
  unfold State.takeIn
  split
  · exact enqueue_kept
  extract_lets x blocked
  split
  · exact refuseTag_kept
  · refine getD_kept ?_ enqueue_kept
    split
    · trivial
    · exact passIn_keeps
@[simp] theorem takeHeld_kept {rs : List GReq} : (s.takeHeld g rs).kept = s.kept := kept_foldl_eq fun _ _ => getD_kept passIn_keeps enqueue_kept
@[simp] theorem drainQueue_kept : (s.drainQueue g).kept = s.kept := by
  unfold State.drainQueue
  extract_lets f q
  have hpass {u : State} {r : GReq} {p : Prop} [Decidable p] : keepsSome u.kept (if p then u.passIn g r .clean true else none) := by
    split
    · exact passIn_keeps
    · trivial
  have hf : f.1.kept = s.kept := kept_foldl_fst (fun u r => by
    split
    next h => exact kept_of_some h hpass
    · rfl) rfl
  refine updGleaner_kept.trans (kept_foldl_fst (fun u r => ?_) hf)
  dsimp only
  split
  next h =>
    refine kept_of_some h ?_
    split
    · trivial
    · exact passIn_keeps
  · rfl
@[simp] theorem retryWaiting_kept : (s.retryWaiting g).kept = s.kept := by simp [State.retryWaiting, kept_ite, kept_foldl_eq]
@[simp] theorem execRawRead_keeps : keeps s.kept (execRawRead g r s) := onGleaner_keeps (by simp [keeps_next])
@[simp] theorem execRawWrite_keeps : keeps s.kept (execRawWrite g r s) := onGleaner_keeps (by simp [keeps_next])
@[simp] theorem execRowRead_keeps : keeps s.kept (execRowRead g r s) := onGleaner_keeps (by simp [keeps_next])
@[simp] theorem execRowWrite_keeps : keeps s.kept (execRowWrite g r s) := onGleaner_keeps (by simp [keeps_next])
@[simp] theorem execRowAdd_keeps : keeps s.kept (execRowAdd g r ecc s) := onGleaner_keeps (by simp [keeps_next])
@[simp] theorem execRowCas_keeps : keeps s.kept (execRowCas g r ecc s) := onGleaner_keeps (by simp [keeps_next])
@[simp] theorem execInvoke_keeps : keeps s.kept (execInvoke g r s) := onGleaner_keeps (by simp [keeps_next])
@[simp] theorem execReservedRequestKind_keeps : keeps s.kept (execReservedRequestKind g r s) := onGleaner_keeps (by split <;> simp [keeps_next])
@[simp] theorem answerOp_kept {marks : Nat} {payload : List Byte} : (s.answerOp g r marks payload).kept = s.kept := by simp [State.answerOp]
@[simp] theorem finishRowRead_kept {o : ChannelOp} {f : RowFetch} : (s.finishRowRead g n o f).kept = s.kept := by
  unfold State.finishRowRead
  split <;> simp
@[simp] theorem finishRawMirror_kept {o : ChannelOp} : (s.finishRawMirror g n o).kept = s.kept := by
  unfold State.finishRawMirror
  dsimp only
  split
  next h => exact answerOp_kept.trans ((kept_of_pair h repairUnits_kept).trans updGleaner_kept)
  next h => exact loseRequest_kept.trans ((kept_of_pair h repairUnits_kept).trans updGleaner_kept)
@[simp] theorem execChannelAccessComplete_keeps : keeps s.kept (execChannelAccessComplete g n ecc s) :=
  onGleaner_keeps (by dsimp only; (repeat' split) <;> simp [keeps_next])
@[simp] theorem execTagWrite_keeps {first count word : Nat} : keeps s.kept (execTagWrite g first count word ctx s) :=
  onGleaner_keeps (by simp [keeps_next])
@[simp] theorem execTagWriteDrained_keeps : keeps s.kept (execTagWriteDrained g s) := onGleaner_keeps (by (repeat' split) <;> rfl)
@[simp] theorem dropProg_kept : (s.dropProg g t).kept = s.kept := by simp [State.dropProg, kept_foldl_eq]
@[simp] theorem freeThread_kept : (s.freeThread g t).kept = s.kept := by
  unfold State.freeThread
  (repeat' split) <;> simp
@[simp] theorem execGleanerAbort_keeps {requester : Option Nat} {value mask : Nat} :
    keeps s.kept (execGleanerAbort g ctx requester value mask cause s) := by
  refine onGleaner_keeps ?_
  refine send_kept.trans (drainQueue_kept.trans ((kept_foldl_eq fun _ _ => ?_).trans
    ((kept_foldl_eq fun _ _ => endRequest_kept).trans updGleaner_kept)))
  split
  · exact kept_ite.trans (by simp)
  · rfl

/-! ### Gleaner programs -/

@[simp] theorem putThread_kept {th : Thread} : (s.putThread g t th).kept = s.kept := (rfl)
@[simp] theorem execThreadStart_keeps : keeps s.kept (execThreadStart g s) := onGleaner_keeps (by dsimp only; (repeat' split) <;> simp [keeps_next])
@[simp] theorem raiseG_kept {th : Thread} {fs : List NumFlags} : (raiseG s g th fs).1.kept = s.kept := by simp [raiseG]
@[simp] theorem stopThread_kept {th : Thread} {status : Nat} : (s.stopThread g t th status off).kept = s.kept := by
  unfold State.stopThread
  split <;> simp
theorem issueG_keeps {g t n : Nat} {s : State} {body : State → Thread → GStep} (h : ∀ th, (body s th).keeps s.kept) :
    keeps s.kept (issueG g t n body s) := by
  refine onGleaner_keeps ?_
  split
  · rfl
  next th hth =>
    refine stays_keeps ?_
    have hb := h { th with pc := th.pc + 1, issued := th.issued + n }
    split
    next h1 => exact (putThread_kept).trans (kept_of_gdone h1 hb)
    · rfl
    next h1 => exact kept_of_gheld h1 hb
    next h1 => exact (stopThread_kept).trans (kept_of_gstop h1 hb)
@[simp] theorem issueThread_keeps {f : Thread → Thread} : keeps s.kept (issueThread g t f s) := issueG_keeps (fun _ => rfl)
@[simp] theorem issueGScalar_keeps {f : Word64 → Word64 → Word64} : keeps s.kept (issueGScalar g t w f s) := issueThread_keeps
@[simp] theorem execSarg_keeps : keeps s.kept (execSarg g t w s) := issueG_keeps (fun _ => by split <;> rfl)
@[simp] theorem execGlnLoop_keeps : keeps s.kept (execGlnLoop g t w s) := issueG_keeps fun th => by
  extract_lets n
  split <;> rfl
@[simp] theorem execGlnEndloop_keeps {_w : GWord} : keeps s.kept (execGlnEndloop g t _w s) := issueG_keeps (fun _ => by (repeat' split) <;> rfl)
@[simp] theorem execHash_keeps : keeps s.kept (execHash g t w s) := issueG_keeps (fun _ => by (repeat' split) <;> rfl)
@[simp] theorem execVop_keeps : keeps s.kept (execVop g t w s) := issueG_keeps fun th => by
  extract_lets
  split
  · trivial
  · exact raiseG_kept
@[simp] theorem execDot_keeps : keeps s.kept (execDot g t w s) := issueG_keeps fun th => by
  extract_lets
  split
  · trivial
  split
  · rfl
  · exact raiseG_kept
@[simp] theorem execExpacc_keeps : keeps s.kept (execExpacc g t w s) := issueG_keeps fun th => by
  extract_lets
  split
  · trivial
  · exact raiseG_kept
@[simp] theorem combineRow_kept {th : Thread} {q : PendingRow} {vals : List (Value × NumFlags)} {degraded : Bool} :
    (s.combineRow g th q vals degraded).1.kept = s.kept := by
  simp [State.combineRow]
@[simp] theorem combineReady_kept {th : Thread} : (s.combineReady g th).1.kept = s.kept :=
  kept_foldl_fst (fun _ _ => by dsimp only; (repeat' split) <;> simp) rfl
@[simp] theorem execGpool_keeps : keeps s.kept (execGpool g t w s) := issueG_keeps fun th => by
  dsimp only
  split
  · trivial
  split
  · split
    · rfl
    split
    · trivial
    split
    · split
      · rfl
      · exact combineReady_kept.trans issueFetch_kept
    · split
      · rfl
      · exact combineReady_kept.trans issueFetch_kept
    · split
      · rfl
      split
      · rfl
      · exact combineReady_kept.trans (issueFetch_kept.trans issueFetch_kept)
    · rfl
  · rfl
@[simp] theorem onPending_kept {f : State → GReq → RowFetch → State × RowFetch}
    (h : ∀ u r q, (f u r q).1.kept = u.kept) : (s.onPending g t n f).kept = s.kept := by
  unfold State.onPending
  dsimp only
  split
  · rfl
  split
  · rfl
  split <;> simp [h]
@[simp] theorem onOp_kept {f : State → GReq → RowFetch → State × RowFetch}
    (h : ∀ u r q, (f u r q).1.kept = u.kept) : (s.onOp g n f).kept = s.kept := by
  unfold State.onOp
  split
  · rfl
  split
  · rfl
  · exact finishRowRead_kept.trans (h _ _ _)
@[simp] theorem lateArrives_kept : (s.lateArrives g n ecc).kept = s.kept := by
  unfold State.lateArrives
  split <;> simp
@[simp] theorem execGpoolRowArrive_keeps : keeps s.kept (execGpoolRowArrive g t n ecc s) := by
  refine onGleaner_keeps ?_
  split
  · exact kept_ite.trans (by simp)
  · exact onPending_kept fun _ _ _ => by split <;> simp
@[simp] theorem progWait_keeps : (s.progWait g t r row).keeps s.kept := by
  unfold State.progWait
  dsimp only
  split
  · trivial
  · exact waitReplace_kept
theorem progReplace_keeps {s : State} {g t row : Nat} {th : Thread} {op : RowOpEnd} {keep : Thread → List Byte → Thread} (h : op.keeps s.kept) :
    (s.progReplace g t th row op keep).keeps s.kept := by
  unfold State.progReplace
  extract_lets p x mine s1
  have hs1 : s1.kept = s.kept := kept_ite.trans (by simp)
  clear_value s1
  split
  · trivial
  split
  · exact hs1
  split
  · exact hs1
  split
  · exact progWait_keeps
  split
  · trivial
  split
  · exact (kept_ite.trans (by simp)).trans h
  · exact progWait_keeps
  · exact hs1
  · exact hs1
@[simp] theorem execAddm_keeps : keeps s.kept (execAddm g t w ecc s) := issueG_keeps fun th => by
  split
  · trivial
  split
  · rfl
  · exact progReplace_keeps modifyRow_keeps
@[simp] theorem execCasm_keeps : keeps s.kept (execCasm g t w ecc s) := issueG_keeps fun _ => progReplace_keeps modifyRow_keeps
@[simp] theorem closeRecord_kept {th : Thread} : (s.closeRecord g th).1.kept = s.kept := by
  unfold State.closeRecord
  split <;> simp
@[simp] theorem execEmit_keeps : keeps s.kept (execEmit g t w s) := issueG_keeps fun th => by
  have hclose {u : State} {p : Prop} [Decidable p] {a b : Thread} : (if p then u.closeRecord g a else (u, b)).1.kept = u.kept := by
    split <;> simp
  dsimp only
  split
  · trivial
  split
  · rfl
  split
  · rfl
  · exact hclose.trans raiseG_kept
@[simp] theorem execEmits_keeps : keeps s.kept (execEmits g t w s) := issueG_keeps (fun _ => by dsimp only; split <;> rfl)
@[simp] theorem execWrow_keeps : keeps s.kept (execWrow g t w s) := issueG_keeps fun th => by
  extract_lets row p o
  split
  · split
    · rfl
    · refine progReplace_keeps ?_
      split
      · exact chargeReplaced_kept.trans (kept_of_applied ‹_› replaceRow_keeps)
      · trivial
      · trivial
  · rfl
@[simp] theorem execGlnEndRetire_keeps : keeps s.kept (execGlnEndRetire g t s) := onGleaner_keeps (by (repeat' split) <;> simp [keeps_next])
@[simp] theorem execRequestOverrun_keeps : keeps s.kept (execRequestOverrun g t s) := onGleaner_keeps (by (repeat' split) <;> rfl)

/-! ### Table commands -/

@[simp] theorem updCopyMap_kept {f : BayMapCopy → BayMapCopy} : (s.updCopyMap k f).kept = s.kept := (rfl)
@[simp] theorem changePins_kept {s : State} {p table : Nat} {f : State → State} (h : (f s).kept = s.kept) :
    (s.changePins p table f).kept = s.kept := by
  unfold State.changePins
  dsimp only
  split
  · exact h
  · exact h
@[simp] theorem finishEpoch_kept {a : EpochAdvance} : (s.finishEpoch a).kept = s.kept := by
  unfold State.finishEpoch
  dsimp only
  (repeat' split) <;> simp [kept_ite, kept_foldl_eq]
@[simp] theorem execEpochAdvance_keeps : keeps s.kept (execEpochAdvance q seq s) :=
  onQueue_keeps (by dsimp only; (repeat' split) <;> simp [keeps_next])
@[simp] theorem execEpochDistribute_keeps {epoch : Nat} {pins : List Nat} : keeps s.kept (execEpochDistribute g p table epoch pins s) :=
  onGleanerPart_keeps (by simp [keeps_next])
@[simp] theorem execEpochAck_keeps : keeps s.kept (execEpochAck g p table s) :=
  onGleanerPart_keeps (by dsimp only; (repeat' split) <;> simp [keeps_next])
@[simp] theorem execTablePin_keeps : keeps s.kept (execTablePin q seq s) := onQueue_keeps (by dsimp only; (repeat' split) <;> simp [keeps_next])
@[simp] theorem dropPins_kept {gone : HeldPin → Bool} : (s.dropPins p gone).kept = s.kept := kept_foldl_eq fun _ _ => changePins_kept rfl
@[simp] theorem execTableUnpin_keeps : keeps s.kept (execTableUnpin q seq s) := onQueue_keeps (by dsimp only; (repeat' split) <;> simp [keeps_next])
@[simp] theorem execPinSetUpdate_keeps {epochs : List Nat} : keeps s.kept (execPinSetUpdate g p table epochs s) :=
  onGleanerPart_keeps (by simp [keeps_next])
@[simp] theorem execTableWrite_keeps : keeps s.kept (execTableWrite q seq s) := onQueue_keeps (by dsimp only; (repeat' split) <;> simp [keeps_next])
@[simp] theorem emitLoad_kept {key : Nat} {l : BayLoad} : (s.emitLoad g key l).kept = s.kept := by
  unfold State.emitLoad
  dsimp only
  (repeat' split) <;> simp
@[simp] theorem startMove_kept {bay src dst dstOff : Nat} : (s.startMove p table row bay src off dst dstOff tag).kept = s.kept := by
  simp [State.startMove]
@[simp] theorem countRefusal_kept : (s.countRefusal p table row code).kept = s.kept := by
  unfold State.countRefusal
  split <;> simp
@[simp] theorem execMigrate_keeps : keeps s.kept (execMigrate q seq s) := onQueue_keeps (by dsimp only; (repeat' split) <;> simp [keeps_next])
@[simp] theorem execMigrationCopy_keeps {source : Nat} {slot : List Byte} {first : Bool} :
    keeps s.kept (execMigrationCopy g source tk row slot first s) :=
  onGleaner_keeps (by (repeat' split) <;> rfl)
@[simp] theorem execMigrationCopyAck_keeps : keeps s.kept (execMigrationCopyAck g tk row s) := onGleaner_keeps (by (repeat' split) <;> rfl)
@[simp] theorem execForwardStart_keeps : keeps s.kept (execForwardStart g tk row s) :=
  onGleaner_keeps (by dsimp only; (repeat' split) <;> simp [keeps_next])
@[simp] theorem execMoveUpdate_keeps {dest source : Nat} : keeps s.kept (execMoveUpdate k tk row dest source s) := absent_keeps (rfl)
@[simp] theorem execMoveMarker_keeps : keeps s.kept (execMoveMarker g tk row k s) := onGleaner_keeps (by (repeat' split) <;> rfl)
@[simp] theorem execMoveMarkerForward_keeps : keeps s.kept (execMoveMarkerForward g tk row k s) :=
  onGleaner_keeps (by dsimp only; (repeat' split) <;> simp [keeps_next])
@[simp] theorem placeReplica_kept {slot : List Byte} : (s.placeReplica g tk row slot).kept = s.kept := (rfl)
@[simp] theorem replicateRow_keeps {home : Nat} {t : TableDesc} {count : Nat} : keepsSome s.kept (s.replicateRow home p t row off count) := by
  unfold State.replicateRow
  dsimp only
  split
  · trivial
  · rw [keeps_some]
    exact (kept_foldl_eq fun _ _ => updCopyMap_kept).trans (updGleaner_kept.trans (kept_foldl_eq fun _ _ => placeReplica_kept))
@[simp] theorem withdrawRow_kept {home size : Nat} {e : ReplicaEntry} : (s.withdrawRow home p off size e).kept = s.kept := by
  simp [State.withdrawRow, kept_foldl_eq]
@[simp] theorem execReplicate_keeps : keeps s.kept (execReplicate q seq s) := by
  refine onQueue_keeps ?_
  split
  · rfl
  extract_lets p table row tk count answer
  have hanswer (u : State) (n : Nat) : keeps u.kept (answer u n) := finishResult_kept
  clear_value answer
  split
  · exact finishCmd_kept
  split
  · exact hanswer _ _
  split
  · exact hanswer _ _
  extract_lets x entry
  split
  · split
    · exact hanswer _ _
    split
    · rfl
    split
    · exact kept_of_some ‹_› replicateRow_keeps ▸ hanswer _ _
    · exact hanswer _ _
  · cases entry with
    | none => exact hanswer _ _
    | some e => exact withdrawRow_kept (s := s) ▸ hanswer _ _
@[simp] theorem execReplicaRefresh_keeps {slot : List Byte} : keeps s.kept (execReplicaRefresh g tk row slot s) := onGleaner_keeps (by split <;> rfl)
@[simp] theorem execStubbleRefresh_keeps {slot : List Byte} : keeps s.kept (execStubbleRefresh g tk row slot s) := onGleaner_keeps (by split <;> rfl)
@[simp] theorem execReplicaWithdrawMarker_keeps : keeps s.kept (execReplicaWithdrawMarker g tk row k s) :=
  onGleaner_keeps (by (repeat' split) <;> rfl)
@[simp] theorem balanceRow_kept : (s.balanceRow g p table row).1.kept = s.kept := by
  unfold State.balanceRow
  (repeat' split) <;> simp
@[simp] theorem balance_kept : (s.balance g).kept = s.kept := kept_foldl_fst (fun _ _ => by
    dsimp only
    split
    · rfl
    · exact kept_foldl_fst (fun _ _ => by split <;> simp) rfl) rfl
@[simp] theorem replicateHot_kept : (s.replicateHot g).kept = s.kept := kept_foldl_eq fun u e => by
  simp only
  generalize (if e.2.1.replThreshold = 0 then 100000 else e.2.1.replThreshold) = threshold
  split
  · rfl
  · refine kept_foldl_eq fun v h => ?_
    split
    · rfl
    · split
      · rfl
      · exact getD_kept replicateRow_keeps rfl
@[simp] theorem settleReplicas_kept : (s.settleReplicas g).kept = s.kept := by
  refine kept_foldl_eq fun u e => ?_
  dsimp only
  split
  · have hcold {v : State} {f : Nat → GleanerState → GleanerState} : (e.holders.foldl (fun s h => s.updGleaner h (f h)) v).kept = v.kept :=
      kept_foldl_eq fun _ _ => updGleaner_kept
    refine kept_ite.trans ?_
    rw [withdrawRow_kept, updGleaner_kept, hcold, ite_self]
  · rfl
@[simp] theorem execLoadWindow_keeps : keeps s.kept (execLoadWindow g s) :=
  onGleaner_keeps (by simp [keeps_next, kept_foldl_eq])

/-! ### DMA transfers -/

@[simp] theorem updDma_kept {f : DmaEngine → DmaEngine} : (s.updDma c f).kept = s.kept := (rfl)
@[simp] theorem dmaStatus_kept {bit : Nat} : (s.dmaStatus c bit).kept = s.kept := (rfl)
@[simp] theorem boundsEnd_kept {space : Nat} : (s.boundsEnd k addr space).kept = s.kept := by simp [State.boundsEnd, kept_ite]
@[simp] theorem fetchKeys_kept {i : WorkItem} {d : XferDesc} : (s.fetchKeys k i d).1.kept = s.kept := by
  unfold State.fetchKeys
  split
  · rfl
  · exact kept_foldl_fst (fun _ _ => ctxFetch_kept) rfl
@[simp] theorem submitXfer_keeps {i : WorkItem} : (s.submitXfer k i bs).keeps s.kept := by
  unfold State.submitXfer
  extract_lets c
  split
  · rfl
  extract_lets d keys u x s1
  have hu : u.kept = s.kept := fetchKeys_kept
  clear_value u
  split
  · rfl
  split
  · rfl
  split
  · rfl
  split
  · exact hu
  split
  · exact hu
  · exact hu
  · exact boundsEnd_kept.trans hu
  · exact hu
@[simp] theorem execDmaq_keeps {w : VWord} : keeps s.kept (execDmaq k w ecc s) := issueUnit_keeps fun c => by
  split
  · rfl
  split
  · exact kept_of_pair ‹_› coreLoad_kept
  · exact kept_of_pair ‹_› coreLoad_kept ▸ submitXfer_keeps
@[simp] theorem execDmark_keeps {w : VWord} : keeps s.kept (execDmark k w s) := issueUnit_keeps fun c => by
  dsimp only
  (repeat' split) <;> rfl

/-! ### DMA commands -/

@[simp] theorem admitXfer_kept {x : Xfer} : (s.admitXfer c x).kept = s.kept := (rfl)
@[simp] theorem updXfer_kept {serial : Nat} {f : Xfer → Xfer} : (s.updXfer c serial f).kept = s.kept := (rfl)
theorem onAdmissible_keeps {c q : Nat} {op : XferOp} {s : State} {f : State → Xfer → State} (h : ∀ x, (f s x).kept = s.kept) :
    keeps s.kept (onAdmissible c q op s f) := by
  refine onCluster_keeps ?_
  split
  · exact else_keeps (a := .next _) (h _)
  · rfl
@[simp] theorem movedBytes_kept : (s.movedBytes c ctx n).kept = s.kept := (rfl)
@[simp] theorem completeXfer_kept {x : Xfer} {moved : Nat} : (s.completeXfer c x moved).kept = s.kept := by
  unfold State.completeXfer
  (repeat' split) <;> simp
@[simp] theorem binElements_kept {es : List (Nat × List Byte)} : (s.binElements k es).kept = s.kept := kept_foldl_eq fun _ _ => by split <;> simp
@[simp] theorem memElements_kept {es : List (Nat × List Byte)} : (s.memElements c tag es).1.kept = s.kept :=
  kept_foldl_fst (fun _ _ => ctxWrite_kept) rfl
@[simp] theorem outElements_kept {x : Xfer} {es : List (Nat × List Byte)} : (s.outElements x es).kept = s.kept := by
  simp [State.outElements, kept_foldl_eq]
@[simp] theorem sourceEcc_kept {x : Xfer} : (s.sourceEcc x a ecc).1.kept = s.kept := by
  unfold State.sourceEcc
  (repeat' split) <;> simp
@[simp] theorem copyOut_kept {x : Xfer} {elements : List (List Byte)} : (s.copyOut c x elements).kept = s.kept := by simp [State.copyOut, kept_ite]
@[simp] theorem sendRowReads_kept {x : Xfer} : (s.sendRowReads c x).kept = s.kept := by
  unfold State.sendRowReads
  dsimp only
  (repeat' split) <;> simp
@[simp] theorem execDmaCopy_keeps : keeps s.kept (execDmaCopy c q ecc s) := onAdmissible_keeps fun x => by
  split
  · rfl
  extract_lets size s1
  have hs1 : s1.kept = s.kept := admitXfer_kept
  clear_value s1
  split
  · exact (kept_of_pair ‹_› sourceEcc_kept).trans hs1
  next h =>
    have hs2 := (kept_of_pair h sourceEcc_kept).trans hs1
    split
    · exact sendRowReads_kept.trans hs2
    extract_lets src y
    have hsrc : src.1.kept = s.kept := by
      simp only [src]
      split
      · exact hs2
      · exact kept_foldl_fst (fun _ _ => ctxFetch_kept) hs2
    split
    · exact completeXfer_kept.trans hsrc
    · exact copyOut_kept.trans hsrc
@[simp] theorem execDmaRequest_keeps : keeps s.kept (execDmaRequest c q ecc s) := onAdmissible_keeps fun x => by
  split
  · rfl
  extract_lets s1
  have hs1 : s1.kept = s.kept := admitXfer_kept
  clear_value s1
  have hread : (if x.desc.src.isEmpty then (s1, true) else
      s1.sourceEcc x ((x.desc.src.elements (2 ^ x.desc.src.esize)).headD 0) ecc).1.kept = s.kept := by
    split
    · exact hs1
    · exact sourceEcc_kept.trans hs1
  split
  · exact kept_of_pair ‹_› hread
  next h =>
    have hs2 := kept_of_pair h hread
    extract_lets src
    have hsrc : src.1.kept = s.kept := by
      simp only [src]
      split
      · exact hs2
      · exact kept_foldl_fst (fun _ _ => ctxFetch_kept) hs2
    clear_value src
    (repeat' split) <;> simp [hsrc]
@[simp] theorem mergeLookup_kept {x : Xfer} : (s.mergeLookup c x).kept = s.kept := by simp [State.mergeLookup, kept_ite]
@[simp] theorem execDmaLookup_keeps : keeps s.kept (execDmaLookup c q s) := onAdmissible_keeps (fun _ => by (repeat' split) <;> simp)
@[simp] theorem stallMsg_kept {m : StalledMsg} : (s.stallMsg c m).kept = s.kept := (rfl)
@[simp] theorem takeRecord_kept {m : RecordMsg} : (s.takeRecord c m).kept = s.kept := by
  unfold State.takeRecord
  dsimp only
  (repeat' split) <;> simp
@[simp] theorem takeEnd_kept {m : EndMsg} : (s.takeEnd c g m).kept = s.kept := by
  unfold State.takeEnd
  dsimp only
  (repeat' split) <;> simp
@[simp] theorem takeMsg_kept {m : StalledMsg} : (s.takeMsg c m).kept = s.kept := by
  unfold State.takeMsg
  (repeat' split) <;> simp
@[simp] theorem recordAtDma_kept {m : RecordMsg} : (s.recordAtDma c m).kept = s.kept := by simp [State.recordAtDma]
@[simp] theorem endAtDma_kept {m : EndMsg} : (s.endAtDma c g m).kept = s.kept := by simp [State.endAtDma]
@[simp] theorem pumpStalled_kept : (s.pumpStalled c).kept = s.kept := by simp [State.pumpStalled, kept_foldl_eq]
@[simp] theorem execDmaAbort_keeps {mask : Nat} : keeps s.kept (execDmaAbort c ctx tag mask cause s) := onCluster_keeps (by simp [keeps_next])

end

end Sys2Proof.Machine
end

section
/-!
PROOFS. What is left of the queue and the fuses (`State.kept`; O7, O8): the host interface, the front end, the links and the translation tables.
-/

namespace Sys2Proof.Machine

section
variable {s : State} {a addr bale c cause code ctx d ep f g k kind len n off p q row seg seq t table tag tk u v vc : Nat}
  {ecc : Ecc} {half : Bool} {frame bs msg : List Byte} {r : GReq}

/-! ### Captures -/

@[simp] theorem updFaults_kept {f : FaultState → FaultState} : (s.updFaults f).kept = s.kept := (rfl)
@[simp] theorem takeSlot_kept : s.takeSlot.1.kept = s.kept := by simp [State.takeSlot]
@[simp] theorem captureFor_kept {domain : Nat} {cs : List Nat} : (s.captureFor domain cs).kept = s.kept := (rfl)

/-! ### Host commands -/

@[simp] theorem releaseSlots_kept : (s.releaseSlots f).kept = s.kept := (rfl)
@[simp] theorem assignSlots_kept : (s.assignSlots f).kept = s.kept := by
  unfold State.assignSlots
  dsimp only
  (repeat' split) <;> simp
@[simp] theorem execMemSpaceEnable_keeps : keeps s.kept (execMemSpaceEnable f s) := onFn_keeps (by simp [keeps_next])
@[simp] theorem execBar2Resize_keeps {size : Nat} : keeps s.kept (execBar2Resize f size s) := onFn_keeps (by split <;> rfl)
@[simp] theorem detach_kept {release : Bool} : (s.detach a cause release).kept = s.kept := by
  unfold State.detach
  dsimp only
  (repeat' split) <;> simp [kept_mk, kept_pair]
@[simp] theorem resetFn_kept : (s.resetFn f).kept = s.kept := by simp [State.resetFn]
@[simp] theorem detachFn_kept {release : Bool} : (s.detachFn f cause release).kept = s.kept := by
  unfold State.detachFn
  split <;> simp
@[simp] theorem resetPort_kept : (s.resetPort q cause).kept = s.kept := by simp [State.resetPort, kept_foldl_eq]
@[simp] theorem takePortReset_kept : (s.takePortReset q cause).kept = s.kept := by simp [State.takePortReset]
@[simp] theorem execPerstAssert_keeps : keeps s.kept (execPerstAssert q s) := onPort_keeps (by simp [keeps_next])
@[simp] theorem execHotReset_keeps : keeps s.kept (execHotReset q s) := onPort_keeps (by simp [keeps_next])
@[simp] theorem execPcieLinkDown_keeps : keeps s.kept (execPcieLinkDown q s) := onPort_keeps (by simp [keeps_next])
@[simp] theorem execPerstDeassert_keeps {clksel : Bool} : keeps s.kept (execPerstDeassert q clksel s) := onPort_keeps (by split <;> rfl)
@[simp] theorem execPcieLinkRetrain_keeps : keeps s.kept (execPcieLinkRetrain q s) := onPort_keeps (by split <;> rfl)
@[simp] theorem execPcieLinkL0_keeps : keeps s.kept (execPcieLinkL0 q s) :=
  onPort_keeps (by (repeat' split) <;> simp [keeps_next, kept_ite, kept_foldl_eq])
@[simp] theorem execPcieRetrainTimeout_keeps : keeps s.kept (execPcieRetrainTimeout q s) :=
  onPort_keeps (by (repeat' split) <;> simp [keeps_next, kept_foldl_eq])
@[simp] theorem execFlr_keeps : keeps s.kept (execFlr f s) := onFn_keeps (by simp [keeps_next])
@[simp] theorem execBusMasterDisable_keeps : keeps s.kept (execBusMasterDisable f s) := onFn_keeps (by simp [keeps_next])
@[simp] theorem execD3hotEntry_keeps : keeps s.kept (execD3hotEntry f s) := onFn_keeps (by simp [keeps_next])
@[simp] theorem execHeartbeatTimeout_keeps : keeps s.kept (execHeartbeatTimeout a s) := onAtt_keeps (by split <;> simp [keeps_next])
theorem onHeld_keeps {f a : Nat} {s : State} {g : State → State} (h : (g s).kept = s.kept) : keeps s.kept (onHeld f a s g) :=
  onAtt_keeps (onBar0_keeps (else_keeps (a := .next _) h))
@[simp] theorem execHeartbeatBeat_keeps : keeps s.kept (execHeartbeatBeat f a s) := onHeld_keeps ( rfl)
@[simp] theorem execHostDetach_keeps : keeps s.kept (execHostDetach f a s) := onHeld_keeps ( by simp)
@[simp] theorem execTlpAcknowledge_keeps : keeps s.kept (execTlpAcknowledge a n s) := onAtt_keeps (by split <;> simp [keeps_next])
@[simp] theorem attachResult_kept {mode : Nat} {result : BitVec 3} : (s.attachResult f mode a result).kept = s.kept := (rfl)
@[simp] theorem newCredential_kept : (s.newCredential a).kept = s.kept := (rfl)
@[simp] theorem execAttachNew_keeps : keeps s.kept (execAttachNew f s) := onBar0_keeps (by dsimp only; (repeat' split) <;> simp [keeps_next])
@[simp] theorem moveFunction_kept {old new : Nat} : (s.moveFunction old new).kept = s.kept := kept_foldl_eq fun _ _ => by (repeat' split) <;> simp
@[simp] theorem takeOver_kept {adopt : Bool} : (s.takeOver f a adopt).kept = s.kept := by simp [State.takeOver, kept_ite]
@[simp] theorem execAttachResume_keeps : keeps s.kept (execAttachResume f a s) := onAtt_keeps (onBar0_keeps (by simp [keeps_next]))
@[simp] theorem execAttachAdopt_keeps : keeps s.kept (execAttachAdopt f a s) := onAtt_keeps (onBar0_keeps (by simp [keeps_next]))
@[simp] theorem execAttachReplay_keeps : keeps s.kept (execAttachReplay f s) := onBar0_keeps (by split <;> simp [keeps_next])
@[simp] theorem execAttachLockoutExpire_keeps : keeps s.kept (execAttachLockoutExpire a s) := onAtt_keeps (by split <;> rfl)
@[simp] theorem execJournalEmpty_keeps : keeps s.kept (execJournalEmpty a s) := by
  refine onAtt_keeps ?_
  dsimp only
  (repeat' split) <;> simp [keeps_next, kept_foldl_eq]
@[simp] theorem execCredRead_keeps {word : Nat} : keeps s.kept (execCredRead f a word s) := onFn_keeps (onAtt_keeps (by dsimp only; split <;> rfl))
@[simp] theorem checkFailed_kept {c : CheckRead} : (s.checkFailed q c).kept = s.kept := by
  unfold State.checkFailed
  simp [kept_mk, kept_pair]
@[simp] theorem execCheckReadComplete_keeps {ok : Bool} : keeps s.kept (execCheckReadComplete q ok s) :=
  onQueue_keeps (by (repeat' split) <;> simp [keeps_next, kept_mk, kept_pair])
@[simp] theorem execCheckReadTimeout_keeps : keeps s.kept (execCheckReadTimeout q s) := onQueue_keeps (by split <;> simp [keeps_next])
@[simp] theorem execCstopResume_keeps : keeps s.kept (execCstopResume f q s) :=
  onQueue_keeps (onBar0_keeps (by dsimp only; (repeat' split) <;> simp [keeps_next]))
@[simp] theorem windowRefused_kept {slot check : Nat} : (s.windowRefused slot check).kept = s.kept := (rfl)
@[simp] theorem hostUnit_kept {bytes : List (Option Byte)} : (s.hostUnit c addr bytes).kept = s.kept := by
  unfold State.hostUnit
  dsimp only
  (repeat' split) <;> simp
@[simp] theorem execBar2Write_keeps {offset requester : Nat} {bytes : List (Option Byte)} :
    keeps s.kept (execBar2Write f offset requester bytes s) := by
  refine onFn_keeps ?_
  refine kept_foldl_eq fun _ _ => ?_
  dsimp only
  split
  · exact windowRefused_kept
  · split <;> simp
@[simp] theorem execBar2Read_keeps {offset requester : Nat} : keeps s.kept (execBar2Read f offset requester len s) := by
  refine onFn_keeps ?_
  refine send_kept.trans (kept_foldl_fst (fun _ _ => ?_) rfl)
  split <;> simp
@[simp] theorem execSlotMap_keeps : keeps s.kept (execSlotMap f s) :=
  onAdmin_keeps (fun _ _ => by dsimp only; (repeat' split) <;> simp [kept_mk, kept_pair])
@[simp] theorem execHandleSet_keeps : keeps s.kept (execHandleSet f s) :=
  onAdminRaw_keeps (fun _ _ => by dsimp only; (repeat' split) <;> simp)

/-! ### The links' operations -/

@[simp] theorem updEth_kept {f : EthPort → EthPort} : (s.updEth p f).kept = s.kept := (rfl)
@[simp] theorem updIgt_kept {f : IgtRegs → IgtRegs} : (s.updIgt f).kept = s.kept := (rfl)
@[simp] theorem updPeer_kept {f : PeerState → PeerState} : (s.updPeer k f).kept = s.kept := (rfl)
@[simp] theorem updStream_kept {f : Stream → Stream} : (s.updStream k vc f).kept = s.kept := (rfl)
@[simp] theorem updRing_kept {f : RingState → RingState} : (s.updRing n f).kept = s.kept := (rfl)
@[simp] theorem sendPacket_kept {i type psn epoch ackPsn credit flags : Nat} {body : List Byte} :
    (s.sendPacket k vc i type psn epoch ackPsn credit flags body).kept = s.kept := by
  unfold State.sendPacket
  dsimp only
  (repeat' split) <;> simp
@[simp] theorem sendAck_kept {i type : Nat} : (s.sendAck k vc i type).kept = s.kept := by simp [State.sendAck]
@[simp] theorem sendData_kept {p : TxPacket} {more : Bool} : (s.sendData k vc p more).kept = s.kept := by simp [State.sendData]
@[simp] theorem resend_kept : (s.resend k vc).kept = s.kept := by simp [State.resend, kept_foldl_eq]
@[simp] theorem writeReady_kept {fuel n : Nat} {s : State} : (writeReady fuel s n).kept = s.kept := by
  induction fuel generalizing s with
  | zero => rfl
  | succ fuel ih =>
    unfold writeReady
    dsimp only
    split
    · rfl
    · rw [ih]
      (repeat' split) <;> simp
@[simp] theorem ringComplete_kept {index : Nat} {slot : List Byte} {status marks detail : Nat} :
    (s.ringComplete n index slot status marks detail len).kept = s.kept :=
  writeReady_kept
@[simp] theorem endOp_kept {o : SendOp} {status : Nat} : (s.endOp k vc o status).kept = s.kept := by simp [State.endOp]
@[simp] theorem settlePath_kept : (s.settlePath k).kept = s.kept := by
  unfold State.settlePath
  dsimp only
  (repeat' split) <;> simp
@[simp] theorem applyAck_kept {ackPsn credit : Nat} {echo : Bool} : (s.applyAck k vc ackPsn credit echo).kept = s.kept := by simp [State.applyAck]
@[simp] theorem peerDown_kept : (s.peerDown k).kept = s.kept := by
  unfold State.peerDown
  dsimp only
  simp [kept_mk, kept_pair, kept_foldl_eq]
@[simp] theorem sendProbe_kept {i : Nat} : (s.sendProbe k i).kept = s.kept := by
  unfold State.sendProbe
  split <;> simp
@[simp] theorem nextPath_kept : (s.nextPath k).kept = s.kept := by
  unfold State.nextPath
  dsimp only
  (repeat' split) <;> simp [kept_foldl_eq]
@[simp] theorem failPath_kept {i : Nat} : (s.failPath k i).kept = s.kept := by simp [State.failPath, kept_ite]
@[simp] theorem failPaths_kept {gone : Nat → Bool} : (s.failPaths gone).kept = s.kept := by simp [State.failPaths, kept_ite, kept_foldl_eq]
@[simp] theorem linksDown_kept {halves : List Bool} : (s.linksDown p halves).kept = s.kept := by simp [State.linksDown]
@[simp] theorem restartPeer_kept {epoch : Nat} : (s.restartPeer k epoch).kept = s.kept := by simp [State.restartPeer, kept_foldl_eq]

/-! ### Places -/

@[simp] theorem settleSysArea_kept : s.settleSysArea.kept = s.kept := by
  unfold State.settleSysArea
  (repeat' split) <;> simp [kept_mk, kept_pair]

/-! ### Front-end commands -/

@[simp] theorem execDoorbell_keeps {tail cqHead : Option Nat} : keeps s.kept (execDoorbell f q tail cqHead s) :=
  onQueue_keeps (onBar0_keeps (by dsimp only; (repeat' split) <;> simp [keeps_next, kept_mk, kept_pair]))
@[simp] theorem execAdminDoorbell_keeps {tail : Nat} : keeps s.kept (execAdminDoorbell f tail s) := onBar0_keeps (by simp [keeps_next])
@[simp] theorem takeWork_kept {head : List Byte} {exts : List (List Byte)} : (s.takeWork q head exts).kept = s.kept := by
  unfold State.takeWork
  dsimp only
  (repeat' split) <;> simp
@[simp] theorem countEarly_kept : s.countEarly.kept = s.kept := (rfl)
@[simp] theorem fetchHead_kept : (s.fetchHead q).kept = s.kept := by
  unfold State.fetchHead
  (repeat' split) <;> simp
@[simp] theorem fetchAdmin_kept : (s.fetchAdmin f).kept = s.kept := by
  unfold State.fetchAdmin
  dsimp only
  (repeat' split) <;> simp
@[simp] theorem passTurn_kept : (s.passTurn q).kept = s.kept := (rfl)
@[simp] theorem execCommandFetch_keeps : keeps s.kept (execCommandFetch q s) := by
  unfold execCommandFetch
  split
  · generalize q - 1024 = f
    refine onFn_keeps ?_
    exact kept_ite.trans (by simp)
  · refine onQueue_keeps ?_
    dsimp only [keeps_next]
    (repeat' split) <;> simp
@[simp] theorem execSealRecheck_keeps : keeps s.kept (execSealRecheck q s) := onQueue_keeps (by split <;> simp [keeps_next])
@[simp] theorem workWait_keeps {c : Cmd} : (s.workWait q c).keeps s.kept := by
  unfold State.workWait
  dsimp only
  (repeat' split) <;> simp [wait_keeps_go, wait_keeps_waits]
@[simp] theorem beginWait_kept {c : Cmd} : (s.beginWait q c).kept = s.kept := by simp [State.beginWait, kept_ite]
@[simp] theorem execCommandDispatch_keeps : keeps s.kept (execCommandDispatch q s) := by
  refine onQueue_keeps ?_
  split
  · rfl
  extract_lets x
  split
  · rfl
  split
  · rfl
  split
  · exact beginWait_kept
  · exact finishCmd_kept.trans (updQueue_kept.trans stopWaiting_kept)
  next h =>
    have hgo := kept_of_go h workWait_keeps
    dsimp only
    split <;> exact hgo
@[simp] theorem execCmdNop_keeps : keeps s.kept (execCmdNop q seq s) := onQueue_keeps (by split <;> simp [keeps_next])
@[simp] theorem execSemSet_keeps : keeps s.kept (execSemSet q seq s) := onQueue_keeps (by dsimp only; (repeat' split) <;> simp [keeps_next])
@[simp] theorem execSemSelect_keeps : keeps s.kept (execSemSelect f n s) := onBar0_keeps (by dsimp only; split <;> rfl)
@[simp] theorem execRun_keeps : keeps s.kept (execRun q seq s) := by
  refine onQueue_keeps ?_
  dsimp only
  (repeat' split) <;> simp [keeps_next, kept_mk, kept_pair, kept_foldl_eq]
@[simp] theorem execWorkEndNotice_keeps {marks ended released : Nat} : keeps s.kept (execWorkEndNotice tag marks code ended released s) := by
  unfold execWorkEndNotice
  dsimp only
  (repeat' split) <;> simp [keeps_next]
@[simp] theorem execCompletionRecordIssue_keeps : keeps s.kept (execCompletionRecordIssue q s) := by
  refine onQueue_keeps ?_
  dsimp only
  (repeat' split) <;> simp [keeps_next, kept_mk, kept_pair]
@[simp] theorem clearSeals_kept : (s.clearSeals q).kept = s.kept := kept_foldl_eq fun _ _ => by split <;> simp
@[simp] theorem execQueueCreate_keeps : keeps s.kept (execQueueCreate f s) :=
  onAdmin_keeps (fun _ _ => by dsimp only; (repeat' split) <;> simp [kept_mk, kept_pair])
@[simp] theorem execQueueDestroy_keeps : keeps s.kept (execQueueDestroy f s) :=
  onAdmin_keeps (fun _ _ => by dsimp only; (repeat' split) <;> simp [kept_mk, kept_pair])
@[simp] theorem execQueueDestroyFinal_keeps : keeps s.kept (execQueueDestroyFinal q s) := by
  refine onQueue_keeps ?_
  dsimp only
  (repeat' split) <;> simp [keeps_next, kept_mk, kept_pair, kept_foldl_eq]

/-! ### Packets received -/

@[simp] theorem acceptFrame_keeps : (s.acceptFrame p half frame).keeps s.kept := by
  unfold State.acceptFrame
  dsimp only
  (repeat' split) <;> rfl
@[simp] theorem takeAck_kept {pkt : List Byte} : (s.takeAck k pkt).kept = s.kept := by simp [State.takeAck, kept_ite]
theorem onFrame_keeps {p type op : Nat} {half : Bool} {frame : List Byte} {s : State} {f : State → Nat → Nat → Bool → List Byte → State}
    (h : ∀ u k i ce pkt, (f u k i ce pkt).kept = u.kept) : keeps s.kept (onFrame p half frame type op s f) := by
  refine onEth_keeps (stays_keeps ?_)
  split
  next h1 => exact kept_of_dropped h1 acceptFrame_keeps
  next h1 => exact (h _ _ _ _ _).trans (takeAck_kept.trans (kept_of_packet h1 acceptFrame_keeps))
@[simp] theorem deliver_kept {s : State} {k i : Nat} {ce : Bool} {pkt : List Byte} {f : State → State} (h : ∀ u, (f u).kept = u.kept) :
    (s.deliver k i ce pkt f).kept = s.kept := by
  unfold State.deliver
  dsimp only
  (repeat' split) <;> simp [h]
@[simp] theorem countRefused_kept {w step : Nat} : (s.countRefused w step).kept = s.kept := (rfl)
@[simp] theorem pushData_kept {response more : Bool} {body : List Byte} : (s.pushData k vc response more body).kept = s.kept := by
  simp [State.pushData]
@[simp] theorem respond_kept {r : RecvOp} {data : List Byte} : (s.respond r data).kept = s.kept := by
  unfold State.respond
  dsimp only
  (repeat' split) <;> simp [kept_mk, kept_pair, kept_foldl_eq]
@[simp] theorem putRecv_kept {r : RecvOp} : (s.putRecv r).kept = s.kept := by
  unfold State.putRecv
  (repeat' split) <;> simp [kept_mk, kept_pair]
@[simp] theorem startRecv_keeps {oh : List Byte} : keepsSomeFst s.kept (s.startRecv k vc oh) := by
  unfold State.startRecv
  dsimp only
  split
  · rfl
  · cases s.assembling k vc <;> trivial
@[simp] theorem admitWrite_kept {node : Nat} {oh : List Byte} {r : RecvOp} : (s.admitWrite p half k node oh r).1.kept = s.kept := by
  unfold State.admitWrite
  dsimp only
  (repeat' split) <;> simp
@[simp] theorem writePacket_kept {oh data : List Byte} {r : RecvOp} : (s.writePacket oh data r).1.kept = s.kept := by
  unfold State.writePacket
  split
  · rfl
  · dsimp only
    split
    · rfl
    · split
      next h => exact countRefused_kept.trans (kept_of_pair h ctxWrite_kept)
      next h => exact chargeLink_kept.trans (kept_of_pair h ctxWrite_kept)
@[simp] theorem remoteWrite_kept {node : Nat} {body : List Byte} : (s.remoteWrite p half k vc node body).kept = s.kept := by
  unfold State.remoteWrite
  dsimp only
  split
  · rfl
  next s0 r0 h =>
    have h0 : s0.kept = s.kept := kept_of_some_fst h startRecv_keeps
    have h1 {b : Bool} {oh : List Byte} : (if b then s0.admitWrite p half k node oh r0 else (s0, r0)).1.kept = s.kept := by
      split
      · exact admitWrite_kept.trans h0
      · exact h0
    split
    · exact respond_kept.trans (putRecv_kept.trans (writePacket_kept.trans h1))
    · exact putRecv_kept.trans (writePacket_kept.trans h1)
@[simp] theorem remoteRead_kept {node : Nat} {body : List Byte} : (s.remoteRead p half k vc node body).kept = s.kept := by
  unfold State.remoteRead
  dsimp only
  split
  · rfl
  next h =>
    have h0 := kept_of_some_fst h startRecv_keeps
    split
    · simp [h0]
    split
    · simp [h0]
    split
    · simp [h0]
    split
    all_goals next h1 => simp [kept_of_pair h1 ctxFetch_kept, h0]
@[simp] theorem remoteRowOp_kept {node : Nat} {body : List Byte} : (s.remoteRowOp p half k vc node body).kept = s.kept := by
  unfold State.remoteRowOp
  dsimp only
  split
  · rfl
  next h =>
    have h0 := kept_of_some_fst h startRecv_keeps
    (repeat' split) <;> simp [h0]
@[simp] theorem recordAtIgrum_kept {m : RecordMsg} : (s.recordAtIgrum m).kept = s.kept := (rfl)
@[simp] theorem endAtIgrum_kept {m : EndMsg} : (s.endAtIgrum m).kept = s.kept := by
  unfold State.endAtIgrum
  (repeat' split) <;> simp
theorem onRequest_keeps {p op : Nat} {half : Bool} {frame : List Byte} {s : State} {f : State → Nat → Bool → Nat → Nat → Nat → List Byte → State}
    (h : ∀ u k vc node pkt, (f u p half k vc node pkt).kept = u.kept) : keeps s.kept (onRequest p half frame op s f) :=
  onFrame_keeps fun _ _ _ _ _ => deliver_kept fun u => h u _ _ _ _
@[simp] theorem execRemoteWrite_keeps : keeps s.kept (execRemoteWrite p half frame s) := onRequest_keeps (fun _ _ _ _ _ => by simp)
@[simp] theorem execRemoteRead_keeps : keeps s.kept (execRemoteRead p half frame s) := onRequest_keeps (fun _ _ _ _ _ => by simp)
@[simp] theorem execRemoteRowRead_keeps : keeps s.kept (execRemoteRowRead p half frame s) := onRequest_keeps (fun _ _ _ _ _ => by simp)
@[simp] theorem execRemoteRowWrite_keeps : keeps s.kept (execRemoteRowWrite p half frame s) := onRequest_keeps (fun _ _ _ _ _ => by simp)
@[simp] theorem execRemoteRowAdd_keeps : keeps s.kept (execRemoteRowAdd p half frame s) := onRequest_keeps (fun _ _ _ _ _ => by simp)
@[simp] theorem execRemoteRowCas_keeps : keeps s.kept (execRemoteRowCas p half frame s) := onRequest_keeps (fun _ _ _ _ _ => by simp)
@[simp] theorem execRemoteInvoke_keeps : keeps s.kept (execRemoteInvoke p half frame s) := onRequest_keeps (fun _ _ _ _ _ => by simp)
@[simp] theorem takeResponse_kept {body : List Byte} : (s.takeResponse k vc body).kept = s.kept := by
  unfold State.takeResponse
  dsimp only
  (repeat' split) <;> simp
@[simp] theorem execRemoteResp_keeps : keeps s.kept (execRemoteResp p half frame s) := onRequest_keeps (fun _ _ _ _ _ => by simp)
@[simp] theorem execIgrumAck_keeps : keeps s.kept (execIgrumAck p half frame s) := onFrame_keeps (fun _ _ _ _ _ => rfl)
@[simp] theorem execIgrumNak_keeps : keeps s.kept (execIgrumNak p half frame s) := onFrame_keeps (fun _ _ _ _ _ => by simp)
@[simp] theorem sendReplies_kept {i epoch : Nat} : (s.sendReplies k i epoch).kept = s.kept := by simp [State.sendReplies, kept_foldl_eq]
@[simp] theorem execIgrumProbe_keeps : keeps s.kept (execIgrumProbe p half frame s) :=
  onFrame_keeps (fun _ _ _ _ _ => by simp [kept_ite, kept_foldl_eq])
@[simp] theorem execIgrumProbeReply_keeps : keeps s.kept (execIgrumProbeReply p half frame s) := by
  refine onEth_keeps ?_
  refine onFrame_keeps fun u k i _ pkt => ?_
  dsimp only
  (repeat' split) <;> simp

/-! ### Translation commands -/

@[simp] theorem setChanges_kept {cs : List SegChange} : (s.setChanges cs).kept = s.kept := (rfl)
@[simp] theorem putChange_kept {ch : SegChange} : (s.putChange ch).kept = s.kept := (rfl)
@[simp] theorem setSegCur_kept {e : SegCur} : (s.setSegCur c seg e).kept = s.kept := (rfl)
@[simp] theorem answerChange_kept {outcome form version : Nat} : (s.answerChange f outcome form version).kept = s.kept := by
  unfold State.answerChange
  split <;> simp
@[simp] theorem sendTags_kept {ch : SegChange} : (s.sendTags ch).1.kept = s.kept := by
  unfold State.sendTags
  dsimp only
  split <;> simp
@[simp] theorem endChange_kept {ch : SegChange} : (s.endChange ch).kept = s.kept := by simp [State.endChange]
@[simp] theorem grantPart_kept {ch : SegChange} : (s.grantPart ch).kept = s.kept := by simp [State.grantPart, kept_ite]
@[simp] theorem revokeTags_kept {ch : SegChange} : (s.revokeTags ch).kept = s.kept := by simp [State.revokeTags, kept_ite]
@[simp] theorem tagsDone_kept {ch : SegChange} : (s.tagsDone ch).kept = s.kept := by simp [State.tagsDone, kept_ite]
@[simp] theorem beginSegChange_kept {c : AdminCmd} : (s.beginSegChange f c).kept = s.kept := by
  unfold State.beginSegChange
  dsimp only
  (repeat' split) <;> simp [kept_mk, kept_pair]
@[simp] theorem beginWindowChange_kept {c : AdminCmd} : (s.beginWindowChange f c).kept = s.kept := by
  unfold State.beginWindowChange
  dsimp only
  (repeat' split) <;> simp [kept_mk, kept_pair]
@[simp] theorem beginChange_kept : (s.beginChange f).kept = s.kept := by
  unfold State.beginChange
  (repeat' split) <;> simp
theorem pumpChangesN_kept {fuel : Nat} {s : State} : (Sys2Proof.Machine.pumpChanges fuel s).kept = s.kept := by
  induction fuel generalizing s with
  | zero => rfl
  | succ fuel ih =>
    unfold Sys2Proof.Machine.pumpChanges
    split
    · rfl
    · exact ih.trans beginChange_kept
@[simp] theorem pumpChanges_kept {s : State} : s.pumpChanges.kept = s.kept := pumpChangesN_kept
@[simp] theorem onChange_keeps {op at_ : Nat} : keeps s.kept (onChange f op at_ s) :=
  onAdminRaw_keeps (fun _ _ => by (repeat' split) <;> simp [kept_mk, kept_pair])
@[simp] theorem startDrain_kept {ch : SegChange} : (s.startDrain ch).1.kept = s.kept := by
  unfold State.startDrain
  split <;> simp
@[simp] theorem execXltCopyUpdate_keeps : keeps s.kept (execXltCopyUpdate n c s) := by
  refine onCopy_keeps ?_
  dsimp only
  (repeat' split) <;> simp [keeps_next, kept_mk, kept_pair]
@[simp] theorem execXltCopyAck_keeps : keeps s.kept (execXltCopyAck n c s) := onCopy_keeps (by dsimp only; (repeat' split) <;> simp [keeps_next])
@[simp] theorem execSubscriberAck_keeps : keeps s.kept (execSubscriberAck g c s) :=
  onGleaner_keeps (by dsimp only; (repeat' split) <;> simp [keeps_next])
@[simp] theorem execStationTagAck_keeps : keeps s.kept (execStationTagAck n c s) :=
  absent_keeps (by dsimp only; (repeat' split) <;> simp [keeps_next])
@[simp] theorem execXltSegSelect_keeps {value : Word32} : keeps s.kept (execXltSegSelect f value s) := by
  unfold execXltSegSelect
  exact absent_keeps (stays_keeps (by dsimp only; exact rfl))

/-! ### Link commands -/

@[simp] theorem execPortModeWrite_keeps {value : Word32} : keeps s.kept (execPortModeWrite f p value s) :=
  onEth_keeps (onBar0_keeps (by dsimp only; (repeat' split) <;> simp [keeps_next]))
@[simp] theorem execEthLinkDown_keeps : keeps s.kept (execEthLinkDown p half s) := onEth_keeps (by simp [keeps_next])
@[simp] theorem execEthLinkUp_keeps : keeps s.kept (execEthLinkUp p half s) := onEth_keeps (by dsimp only; split <;> rfl)
@[simp] theorem execEthFrameReceive_keeps {fcs : Bool} {corrected uncorrected : Nat} :
    keeps s.kept (execEthFrameReceive p half fcs corrected uncorrected frame s) :=
  onEth_keeps (by dsimp only; split <;> rfl)
@[simp] theorem execPfcFrame_keeps {enabled : Nat} {times : List Nat} : keeps s.kept (execPfcFrame p half enabled times s) :=
  onEth_keeps (by (repeat' split) <;> rfl)
@[simp] theorem execPfcPauseExpire_keeps {priority : Nat} : keeps s.kept (execPfcPauseExpire p half priority s) := onEth_keeps (by simp [keeps_next])
@[simp] theorem execAckTimer_keeps : keeps s.kept (execAckTimer k vc s) := onStream_keeps (by dsimp only; (repeat' split) <;> simp [keeps_next])
@[simp] theorem execRetxTimer_keeps : keeps s.kept (execRetxTimer k vc s) := onStream_keeps (by dsimp only; (repeat' split) <;> simp [keeps_next])
@[simp] theorem execProbeTimeout_keeps : keeps s.kept (execProbeTimeout k s) := onPeer_keeps (by split <;> simp [keeps_next])
@[simp] theorem execPathProbeTimer_keeps {i : Nat} : keeps s.kept (execPathProbeTimer k i s) :=
  onPeer_keeps (by dsimp only; (repeat' split) <;> simp [keeps_next])
@[simp] theorem execPacingTimer_keeps : keeps s.kept (execPacingTimer k vc s) := onStream_keeps (by simp [keeps_next])
@[simp] theorem execRxReservationRelease_keeps : keeps s.kept (execRxReservationRelease k vc p half s) := onStream_keeps (by split <;> rfl)
@[simp] theorem execSendRingPoll_keeps : keeps s.kept (execSendRingPoll n s) := by
  refine absent_keeps ?_
  dsimp only
  (repeat' split) <;> simp [keeps_next, kept_mk, kept_pair]
@[simp] theorem sendPackets_kept {fuel k vc : Nat} {s : State} {o : SendOp} : (sendPackets fuel s k vc o).kept = s.kept := by
  induction fuel generalizing s o with
  | zero => rfl
  | succ fuel ih =>
    unfold sendPackets
    dsimp only
    split
    · rfl
    split
    next h =>
      split
      · simp [kept_of_pair h ctxFetch_kept]
      · simp [ih, kept_of_pair h ctxFetch_kept]
    next h => simp [kept_of_pair h ctxFetch_kept]
@[simp] theorem execSendOperation_keeps : keeps s.kept (execSendOperation k vc s) :=
  onStream_keeps (by dsimp only; (repeat' split) <;> simp [keeps_next])
@[simp] theorem entryResult_kept : (s.entryResult n).kept = s.kept := (rfl)
@[simp] theorem entrySelect_kept {value : Word32} : (s.entrySelect value).kept = s.kept := (rfl)
@[simp] theorem closePeer_kept : (s.closePeer k).kept = s.kept := by
  unfold State.closePeer
  dsimp only
  simp [kept_mk, kept_pair, kept_foldl_eq]
@[simp] theorem applyEntry_kept {e : List Byte} : (s.applyEntry kind n e).kept = s.kept := by
  unfold State.applyEntry
  (repeat' split) <;> simp [kept_mk, kept_pair]
@[simp] theorem execIgtEntryRead_keeps {value : Word32} : keeps s.kept (execIgtEntryRead f value s) := onBar0_keeps (by split <;> rfl)
@[simp] theorem execIgtEntryWrite_keeps {value : Word32} : keeps s.kept (execIgtEntryWrite f value s) :=
  onBar0_keeps (by dsimp only; (repeat' split) <;> simp [keeps_next])
@[simp] theorem execWindowDrainAck_keeps {e : Nat} : keeps s.kept (execWindowDrainAck e c s) := by
  refine absent_keeps ?_
  dsimp only
  (repeat' split) <;> simp [keeps_next, kept_mk, kept_pair]
@[simp] theorem execRecordReceive_keeps {m : RecordMsg} : keeps s.kept (execRecordReceive k g m s) :=
  onGleaner_keeps (by (repeat' split) <;> simp [keeps_next])
@[simp] theorem endAtFront_kept {m : EndMsg} : (s.endAtFront m).kept = s.kept := by
  unfold State.endAtFront
  dsimp only
  (repeat' split) <;> simp
@[simp] theorem execEndRecordReceive_keeps {m : EndMsg} : keeps s.kept (execEndRecordReceive k g m s) :=
  onGleaner_keeps (by (repeat' split) <;> simp [keeps_next])

end

end Sys2Proof.Machine
end

section
/-!
PROOFS. What is left of the queue and the fuses (`State.kept`; O7, O8): loads, teardown, pre-emption, tiers, repair, faults and integrity checks.
-/

namespace Sys2Proof.Machine

section
variable {s : State} {a addr bale c cause code ctx d ep f g k kind len n off p q row seg seq t table tag tk u v vc : Nat}
  {ecc : Ecc} {half : Bool} {frame bs msg : List Byte} {r : GReq}

/-! ### Teardown -/

@[simp] theorem stopCommands_kept : (s.stopCommands c code).kept = s.kept := kept_foldl_eq fun _ _ => by simp
@[simp] theorem revokeHeld_kept : (s.revokeHeld c).kept = s.kept := kept_foldl_eq fun _ _ => by split <;> simp
@[simp] theorem dropSegments_kept : (s.dropSegments c).kept = s.kept := pumpChanges_kept.trans (kept_foldl_eq fun _ _ => finishAdmin_kept)
@[simp] theorem dropWindows_kept : (s.dropWindows c).kept = s.kept := (rfl)
@[simp] theorem abortOps_kept : (s.abortOps c).kept = s.kept := by simp [State.abortOps, kept_ite, kept_foldl_eq]
@[simp] theorem stopContext_kept : (s.stopContext c code).kept = s.kept := by simp [State.stopContext]
@[simp] theorem sendContextTags_kept : (s.sendContextTags c).kept = s.kept := by
  unfold State.sendContextTags
  dsimp only
  split <;> simp
@[simp] theorem finishStopped_kept : (s.finishStopped c).kept = s.kept := by simp [State.finishStopped, kept_foldl_eq]
@[simp] theorem execTeardownComplete_keeps : keeps s.kept (execTeardownComplete c s) :=
  absent_keeps (by (repeat' split) <;> simp [keeps_next, kept_mk, kept_pair])

/-! ### Installation -/

@[simp] theorem updLoader_kept {f : LoaderState → LoaderState} : (s.updLoader f).kept = s.kept := (rfl)
@[simp] theorem putPhys_kept {as : List Nat} : (s.putPhys as bs).kept = s.kept := kept_foldl_eq fun _ _ => by split <;> simp
@[simp] theorem clearTags_kept {gs : List Nat} : (s.clearTags gs).kept = s.kept := by simp [State.clearTags, kept_foldl_eq]
@[simp] theorem putTags_kept {es : List (Nat × Nat × BaleTag)} : (s.putTags es).kept = s.kept := by simp [State.putTags, kept_foldl_eq]
@[simp] theorem putContext_kept {state : Nat} {version : Word32} {segs : List SegCur} : (s.putContext c p state version segs).kept = s.kept := (rfl)
@[simp] theorem putLoadSegment_kept : (s.putLoadSegment p).kept = s.kept := by simp [State.putLoadSegment, kept_ite, kept_foldl_eq]
@[simp] theorem putContexts_kept {pl : Plan} : (s.putContexts p pl).kept = s.kept := kept_foldl_eq fun _ _ => by split <;> simp
@[simp] theorem putWindows_kept {maps : List WindowMapping} : (s.putWindows p maps).kept = s.kept := by
  unfold State.putWindows
  (repeat' split) <;> simp [kept_mk, kept_pair]
@[simp] theorem returnRows_kept : (s.returnRows p).kept = s.kept := by
  unfold State.returnRows
  extract_lets back s1
  have hback {u : State} {g : Nat} {m : Nat × Nat × Nat} : (back u g m).kept = u.kept := by
    simp only [back]
    (repeat' split) <;> simp
  have hs1 : s1.kept = s.kept := kept_foldl_eq fun _ _ => kept_foldl_eq fun _ _ => updGleaner_kept
  exact (kept_foldl_eq fun _ _ => kept_foldl_eq fun _ _ => hback).trans hs1
@[simp] theorem takePlan_kept {bins : Bool} : (s.takePlan p bins).kept = s.kept := by
  unfold State.takePlan
  dsimp only
  (repeat' split) <;> simp [kept_mk, kept_pair, kept_foldl_eq]
@[simp] theorem putCore_kept {j : Nat} {pl : Plan} : (s.putCore c j k pl).kept = s.kept := by
  unfold State.putCore
  split <;> simp
@[simp] theorem putCores_kept {pl : Plan} : (s.putCores p pl).kept = s.kept := by
  refine kept_foldl_eq fun _ _ => kept_foldl_eq fun _ _ => ?_
  split
  · exact putCore_kept
  · rfl
@[simp] theorem putBoards_kept {pl : Plan} {reg : List RegEntry} : (s.putBoards p pl reg).kept = s.kept := by simp [State.putBoards, kept_foldl_eq]
@[simp] theorem putTable_kept {pl : Plan} {t : TableDesc} {epoch : Nat} : (s.putTable g p pl t epoch).kept = s.kept := (rfl)
@[simp] theorem install_kept {e : LoadEnv} : (s.install e).kept = s.kept := by
  unfold State.install
  dsimp only
  simp [kept_mk, kept_pair, kept_foldl_eq]
@[simp] theorem uninstall_kept : (s.uninstall p).kept = s.kept := by simp [State.uninstall]

/-! ### The loader -/

@[simp] theorem redefine_kept {d : PartitionDesc} : (s.redefine p d f).kept = s.kept := by simp [State.redefine, kept_foldl_eq]
@[simp] theorem deletePart_kept : (s.deletePart p).kept = s.kept := by simp [State.deletePart, kept_foldl_eq]
@[simp] theorem execPartitionDefine_keeps : keeps s.kept (execPartitionDefine f s) :=
  onAdminRaw_keeps (fun _ _ => by dsimp only; (repeat' split) <;> simp)
@[simp] theorem execPartitionScrubDone_keeps : keeps s.kept (execPartitionScrubDone p s) := by
  refine onPart_keeps ?_
  dsimp only
  (repeat' split) <;> simp [keeps_next, kept_foldl_eq]
@[simp] theorem execPlanLoad_keeps : keeps s.kept (execPlanLoad f s) :=
  onAdminRaw_keeps (fun _ _ => by dsimp only; (repeat' split) <;> simp)
@[simp] theorem updLoad_kept {f : Load → Load} : (s.updLoad p f).kept = s.kept := (rfl)
@[simp] theorem execLoadStart_keeps : keeps s.kept (execLoadStart s) := by
  unfold execLoadStart
  dsimp only
  (repeat' split) <;> simp [keeps_next]
@[simp] theorem endLoad_kept {l : Load} {r : Refused} {elapsed : Nat} : (s.endLoad l r elapsed).kept = s.kept := by simp [State.endLoad]
@[simp] theorem raiseFloor_kept {l : Load} : (s.raiseFloor l).kept = s.kept := by simp [State.raiseFloor, kept_ite]
@[simp] theorem execLoadDecide_keeps : keeps s.kept (execLoadDecide s) := by
  unfold execLoadDecide
  (repeat' split) <;> simp [keeps_next]
@[simp] theorem execLoadInstallDone_keeps : keeps s.kept (execLoadInstallDone p s) := onPart_keeps (by (repeat' split) <;> simp [keeps_next])
@[simp] theorem execPlanSwitch_keeps : keeps s.kept (execPlanSwitch p s) := onPart_keeps (by (repeat' split) <;> simp [keeps_next])
@[simp] theorem execPlanUnload_keeps : keeps s.kept (execPlanUnload f s) :=
  onAdmin_keeps (fun _ _ => by simp [kept_ite, kept_foldl_eq])
@[simp] theorem revokePart_kept : (s.revokePart p).kept = s.kept := kept_foldl_eq fun _ _ => by split <;> simp
@[simp] theorem unloadPart_kept : (s.unloadPart p).kept = s.kept := by simp [State.unloadPart]
@[simp] theorem execUnloadComplete_keeps : keeps s.kept (execUnloadComplete p s) :=
  onPart_keeps (by (repeat' split) <;> simp [keeps_next, kept_foldl_eq])

/-! ### Pre-emption -/

@[simp] theorem startQuiesce_kept {i : Option WorkItem} : (s.startQuiesce k i).kept = s.kept := (rfl)
@[simp] theorem tryPreempt_kept {i : WorkItem} : (s.tryPreempt c i).kept = s.kept := by
  unfold State.tryPreempt
  dsimp only
  (repeat' split) <;> simp
@[simp] theorem preemptCheck_kept : (s.preemptCheck c).kept = s.kept := by simp [State.preemptCheck, kept_foldl_eq]
@[simp] theorem execPriorityUpdate_keeps : keeps s.kept (execPriorityUpdate p s) := by
  refine onPart_keeps ?_
  dsimp only
  (repeat' split) <;> simp [keeps_next, kept_mk, kept_pair, kept_foldl_eq]
@[simp] theorem execPreemptCheck_keeps : keeps s.kept (execPreemptCheck c s) := onCluster_keeps (by simp [keeps_next])
@[simp] theorem addSaveNs_kept : (s.addSaveNs c n).kept = s.kept := (rfl)
@[simp] theorem execPreemptQuiesceDone_keeps : keeps s.kept (execPreemptQuiesceDone k s) :=
  onCore_keeps (by dsimp only; (repeat' split) <;> simp [keeps_next])
@[simp] theorem saveBytes_kept : (s.saveBytes k kind off bs).1.kept = s.kept := kept_foldl_fst (fun _ _ => by split <;> simp) rfl
@[simp] theorem saveState_kept {i : WorkItem} : (s.saveState k i).1.kept = s.kept := kept_foldl_fst (fun _ _ => saveBytes_kept) rfl
@[simp] theorem saveUnits_kept {i : WorkItem} : (s.saveUnits k i).1.kept = s.kept := by
  unfold State.saveUnits
  extract_lets bin r
  have hr : r.1.kept = s.kept := kept_foldl_fst (fun _ _ => by simp) rfl
  split
  · exact hr
  · exact kept_foldl_fst (fun _ _ => by simp) hr
@[simp] theorem leaveCore_kept {i : WorkItem} : (s.leaveCore k i).kept = s.kept := by simp [State.leaveCore]
@[simp] theorem takeWaiting_kept {p : Preemption} : (s.takeWaiting k p).kept = s.kept := by
  unfold State.takeWaiting
  (repeat' split) <;> simp
@[simp] theorem execPreemptSaveDone_keeps : keeps s.kept (execPreemptSaveDone k s) :=
  onCore_keeps (by dsimp only; (repeat' split) <;> simp [keeps_next])
@[simp] theorem restoreUnits_kept {i : WorkItem} : (s.restoreUnits k i).1.kept = s.kept := by
  unfold State.restoreUnits
  extract_lets r
  have hr : r.1.kept = s.kept := kept_foldl_fst (fun _ _ => by split <;> rfl) rfl
  split
  · exact hr
  · exact kept_foldl_fst (fun _ _ => by dsimp only; split <;> rfl) hr
@[simp] theorem execResumeDone_keeps : keeps s.kept (execResumeDone k s) := onCore_keeps (by dsimp only; (repeat' split) <;> simp [keeps_next])
@[simp] theorem execEnergyCommit_keeps {measured idle : Nat} {pending : List (Nat × Nat)} :
    keeps s.kept (execEnergyCommit measured idle pending s) := by
  unfold execEnergyCommit
  dsimp only
  simp [keeps_next, kept_mk, kept_pair, kept_foldl_eq]
@[simp] theorem execAccSnap_keeps : keeps s.kept (execAccSnap s) := by
  unfold execAccSnap
  split <;> rfl

/-! ### Tiers -/

@[simp] theorem pumpTier_kept : (s.pumpTier c seg).kept = s.kept := by
  unfold State.pumpTier
  split
  · rfl
  extract_lets d r
  have hd : d.1.kept = s.kept := kept_foldl_fst (fun _ _ => by split <;> rfl) rfl
  exact setTier_kept.trans (kept_foldl_fst (fun _ _ => by dsimp only; (repeat' split) <;> rfl) hd)
@[simp] theorem pumpTiers_kept : s.pumpTiers.kept = s.kept := by simp [State.pumpTiers, kept_foldl_eq]
@[simp] theorem execDmaPromote_keeps : keeps s.kept (execDmaPromote c q s) :=
  onAdmissible_keeps (fun _ => by dsimp only; (repeat' split) <;> simp)
@[simp] theorem execDmaDemote_keeps : keeps s.kept (execDmaDemote c q s) :=
  onAdmissible_keeps (fun _ => by dsimp only; (repeat' split) <;> simp)
@[simp] theorem copyUnit_kept {from_ to_ src dst : Nat} : (s.copyUnit from_ to_ src dst cause).kept = s.kept := by
  unfold State.copyUnit
  dsimp only
  split
  · exact updGleaner_kept
  · split
    next h => exact updGleaner_kept.trans ((kept_of_pair h repairUnits_kept).trans meetUncorrectable_kept)
    next h => exact updGleaner_kept.trans ((kept_of_pair h repairUnits_kept).trans meetUncorrectable_kept)
@[simp] theorem copyBale_kept {from_ to_ src dst : Nat} {which : Nat → Bool} : (s.copyBale from_ to_ src dst cause which).kept = s.kept := by
  simp [State.copyBale, kept_foldl_eq]
@[simp] theorem baleDone_kept {cluster serial : Nat} : (s.baleDone cluster serial bale).kept = s.kept := by
  unfold State.baleDone
  dsimp only
  (repeat' split) <;> simp
@[simp] theorem execBaleFlip_keeps : keeps s.kept (execBaleFlip c seg bale s) := by
  unfold execBaleFlip
  dsimp only
  (repeat' split) <;> simp [keeps_next, kept_mk, kept_pair]
@[simp] theorem execBaleDrainMarker_keeps : keeps s.kept (execBaleDrainMarker c seg bale s) := by
  unfold execBaleDrainMarker
  dsimp only
  (repeat' split) <;> simp [keeps_next]
@[simp] theorem execLoftDeadline_keeps : keeps s.kept (execLoftDeadline g t s) := by
  refine onGleaner_keeps ?_
  split
  · exact onOp_kept fun _ _ _ => fetchExpires_kept
  split
  · rfl
  · refine putThread_kept.trans (combineReady_kept.trans (kept_foldl_fst (fun _ _ => ?_) rfl))
    dsimp only
    split <;> simp
@[simp] theorem stubbleAnswer_kept {f : RowFetch} : (s.stubbleAnswer r f ecc).1.kept = s.kept := by
  unfold State.stubbleAnswer
  dsimp only
  (repeat' split) <;> simp
@[simp] theorem onFetch_kept {f : State → GReq → RowFetch → State × RowFetch}
    (h : ∀ u r q, (f u r q).1.kept = u.kept) : (s.onFetch g t n f).kept = s.kept := by
  unfold State.onFetch
  split
  · exact onOp_kept h
  · exact onPending_kept h
@[simp] theorem execStubbleRowArrive_keeps : keeps s.kept (execStubbleRowArrive g t n ecc s) := by
  refine onGleaner_keeps ?_
  refine onFetch_kept fun u r f => ?_
  split
  · rfl
  · exact fetchStubble_kept.trans stubbleAnswer_kept
@[simp] theorem mirrorAnswer_kept {f : RowFetch} : (s.mirrorAnswer r f ecc).1.kept = s.kept := by
  unfold State.mirrorAnswer
  dsimp only
  (repeat' split) <;> simp
@[simp] theorem mirrorMeets_kept : (s.mirrorMeets g r ecc).kept = s.kept := by
  unfold State.mirrorMeets
  (repeat' split) <;> simp
@[simp] theorem execMirrorReadReturn_keeps : keeps s.kept (execMirrorReadReturn g t n ecc s) := by
  unfold execMirrorReadReturn
  extract_lets row
  have hrow : ∀ u r q, (row u r q).1.kept = u.kept := fun u r q => by
    unfold row
    split
    · rfl
    · simp
  refine onGleaner_keeps ?_
  split
  · split
    · rfl
    · split
      · exact onOp_kept hrow
      · refine stays_keeps ?_
        dsimp only
        split <;> simp [keeps_next]
  · exact onPending_kept hrow
@[simp] theorem execPatrolRead_keeps : keeps s.kept (execPatrolRead g ecc s) := onGleaner_keeps (by dsimp only; (repeat' split) <;> simp [keeps_next])
@[simp] theorem execPoisonRecheck_keeps : keeps s.kept (execPoisonRecheck g bale s) := onGleaner_keeps (by dsimp only; split <;> rfl)
@[simp] theorem bindReserve_kept {stack : Nat} : (s.bindReserve stack n).kept = s.kept := by simp [State.bindReserve]
@[simp] theorem handRows_kept {old new : Nat} {lies : Nat → Bool} : (s.handRows old new lies).kept = s.kept := (rfl)
@[simp] theorem evacuationMarker_kept {old new : Nat} : (s.evacuationMarker old new bale).kept = s.kept := by simp [State.evacuationMarker]
@[simp] theorem evacuateBale_kept {old new b : Nat} : (s.evacuateBale old new b).kept = s.kept := by simp [State.evacuateBale]
@[simp] theorem execEvacuateBale_keeps {stack : Nat} : keeps s.kept (execEvacuateBale stack s) :=
  absent_keeps (by dsimp only; (repeat' split) <;> simp [keeps_next])
@[simp] theorem execInterfaceRetrainingStart_keeps : keeps s.kept (execInterfaceRetrainingStart p s) := onPackage_keeps (by split <;> rfl)
@[simp] theorem execInterfaceRetrainingDone_keeps : keeps s.kept (execInterfaceRetrainingDone p s) := onPackage_keeps (by split <;> rfl)

/-! ### Repair -/

@[simp] theorem histEvent_kept {uk part unit index serial : Nat} {f : HistEntry → HistEntry} :
    (s.histEvent uk part unit index serial f).kept = s.kept := by
  unfold State.histEvent
  dsimp only
  split <;> rfl
@[simp] theorem setMap_kept {m : CoreMap} : (s.setMap c m).kept = s.kept := (rfl)
@[simp] theorem spareTakes_kept {old : Nat} : (s.spareTakes c old k).kept = s.kept := by
  unfold State.spareTakes
  split <;> simp
@[simp] theorem coreServes_kept : (s.coreServes k).kept = s.kept := by
  unfold State.coreServes
  dsimp only
  split <;> simp
@[simp] theorem relist_kept {i : WorkItem} : (s.relist c k i).kept = s.kept := by simp [State.relist, kept_ite]
@[simp] theorem coreCleared_kept : (s.coreCleared k).kept = s.kept := by simp [State.coreCleared, kept_foldl_eq]
@[simp] theorem emptyCore_kept : (s.emptyCore k).kept = s.kept := by
  unfold State.emptyCore
  dsimp only
  (repeat' split) <;> simp
@[simp] theorem retireCore_kept : (s.retireCore k).kept = s.kept := by
  unfold State.retireCore
  dsimp only
  (repeat' split) <;> simp
@[simp] theorem retireCluster_kept : (s.retireCluster c).kept = s.kept := by
  unfold State.retireCluster
  refine (kept_foldl_eq fun _ _ => enlist_kept).trans (updCluster_kept.trans ((kept_foldl_eq fun _ _ => closeSheaf_kept).trans
    ((kept_foldl_eq fun _ _ => ?_).trans (setMap_kept.trans (updCluster_kept.trans (kept_foldl_eq fun _ _ => updCore_kept.trans emptyCore_kept))))))
  split <;> simp
@[simp] theorem spareRow_kept : (s.spareRow k addr).kept = s.kept := by simp [State.spareRow, kept_ite]
@[simp] theorem rebuildBays_kept : (s.rebuildBays code g).kept = s.kept := by
  refine kept_foldl_eq fun _ _ => ?_
  split
  · rfl
  · refine kept_foldl_eq fun _ _ => ?_
    split
    · rfl
    · split
      · rfl
      · exact kept_foldl_eq fun _ _ => repairUnits_kept
@[simp] theorem dropGranary_kept {readable : Bool} : (s.dropGranary g readable).kept = s.kept := by
  unfold State.dropGranary
  dsimp only
  (repeat' split) <;> simp
@[simp] theorem loseReplicas_kept : (s.loseReplicas g).kept = s.kept := by
  unfold State.loseReplicas
  extract_lets left s1 s2 s3
  have hs1 : s1.kept = s.kept := kept_foldl_eq fun _ _ => kept_foldl_eq fun _ _ => by (repeat' split) <;> simp
  have hs2 : s2.kept = s1.kept := kept_foldl_eq fun _ _ => kept_ite.trans (by simp)
  have hs3 : s3.kept = s2.kept := kept_foldl_eq fun _ _ => updCopyMap_kept
  exact updGleaner_kept.trans (hs3.trans (hs2.trans hs1))
@[simp] theorem loseMoves_kept : (s.loseMoves g).kept = s.kept := kept_foldl_eq fun _ _ => by (repeat' split) <;> simp
@[simp] theorem loseJournals_kept : s.loseJournals.kept = s.kept := by
  unfold State.loseJournals
  dsimp only
  simp [kept_mk, kept_pair, kept_ite, kept_foldl_eq]
@[simp] theorem mapOut_kept {readable : Bool} : (s.mapOut g readable).kept = s.kept := by
  unfold State.mapOut
  dsimp only
  (repeat' split) <;> simp [kept_mk, kept_pair]
@[simp] theorem answerReset_kept {o : ChannelOp} : (s.answerReset g o).kept = s.kept := by
  unfold State.answerReset
  split <;> simp
@[simp] theorem resetGleaner_kept : (s.resetGleaner g).kept = s.kept := by simp [State.resetGleaner, kept_foldl_eq]
@[simp] theorem freeQueue_kept : (s.freeQueue q).kept = s.kept := kept_foldl_eq fun _ _ => by split <;> simp
@[simp] theorem abortPart_kept : (s.abortPart p).kept = s.kept := by simp [State.abortPart, kept_ite, kept_foldl_eq]
@[simp] theorem warmCompute_kept : (s.warmCompute d).kept = s.kept :=
  kept_gleaners.trans ((kept_foldl_eq fun _ _ => updCluster_kept).trans (kept_foldl_eq fun _ _ => updCore_kept))
@[simp] theorem warmIo_kept : (s.warmIo d).kept = s.kept := by
  unfold State.warmIo
  dsimp only
  simp [kept_mk, kept_pair, kept_foldl_eq]
@[simp] theorem warmReset_kept {bit : Nat} : (s.warmReset bit).kept = s.kept := by
  unfold State.warmReset
  extract_lets s1 s2
  have hs1 : s1.kept = s.kept := kept_foldl_eq fun _ _ => by (repeat' split) <;> simp
  clear_value s1
  have hs2 : s2.kept = s1.kept := rfl
  split
  · exact warmCompute_kept.trans (hs2.trans hs1)
  · exact warmIo_kept.trans (hs2.trans hs1)

/-! ### Faults and recovery -/

@[simp] theorem holdFault_kept {r : FaultReport} {serial capture : Nat} : (s.holdFault r serial capture).kept = s.kept := (rfl)
@[simp] theorem faultVectors_kept : s.faultVectors.kept = s.kept := by simp [State.faultVectors, kept_ite]
@[simp] theorem settleInts_kept : s.settleInts.kept = s.kept := kept_foldl_eq fun u f => by
  extract_lets i now rose s1
  have hs1 : s1.kept = u.kept := by
    simp only [s1]
    split
    · exact kept_foldl_eq fun _ _ => fnVector_kept
    · rfl
  exact hs1
@[simp] theorem clearing_kept {s : State} {g : State → State} (h : ∀ u, (g u).kept = u.kept) : (s.clearing g).kept = s.kept :=
  settleInts_kept.trans ((h _).trans settleInts_kept)
@[simp] theorem writeRecord_kept {h : HeldFault} {flags : Nat} : (s.writeRecord h flags).kept = s.kept := by
  unfold State.writeRecord
  dsimp only
  (repeat' split) <;> simp [kept_mk, kept_pair]
@[simp] theorem overflow_kept {h : HeldFault} : (s.overflow h).kept = s.kept := (rfl)
@[simp] theorem recordDue_kept {h : HeldFault} : (s.recordDue h).kept = s.kept := by simp [State.recordDue, kept_ite]
@[simp] theorem releaseOverflow_kept : s.releaseOverflow.kept = s.kept := by
  unfold State.releaseOverflow
  dsimp only
  (repeat' split) <;> simp
@[simp] theorem countDram_kept {r : FaultReport} {serial : Nat} : (s.countDram r serial).kept = s.kept := by simp [State.countDram, kept_ite]
@[simp] theorem noteHarrow_kept {serial : Nat} : (s.noteHarrow u serial).kept = s.kept := by
  unfold State.noteHarrow
  dsimp only
  split <;> rfl
@[simp] theorem countUnit_kept {h : HeldFault} : (s.countUnit h u).kept = s.kept := by
  unfold State.countUnit
  dsimp only
  (repeat' split) <;> simp
@[simp] theorem countEvents_kept {h : HeldFault} : (s.countEvents h).kept = s.kept := by
  unfold State.countEvents
  dsimp only
  (repeat' split) <;> simp [kept_mk, kept_pair, kept_foldl_eq]
@[simp] theorem discardPatterns_kept : s.discardPatterns.kept = s.kept := kept_foldl_eq fun _ _ => by simp
@[simp] theorem execMergeWindowExpire_keeps {e : Nat} : keeps s.kept (execMergeWindowExpire e s) := absent_keeps (by split <;> simp [keeps_next])
@[simp] theorem openTeardown_kept : (s.openTeardown c).1.kept = s.kept := by
  unfold State.openTeardown
  split <;> simp
@[simp] theorem stopUnit_kept {uk : Nat} : (s.stopUnit uk u).kept = s.kept := by
  unfold State.stopUnit
  split <;> simp
@[simp] theorem openRecovery_kept {r : FaultReport} {uk domain : Nat} : (s.openRecovery r uk u domain).1.kept = s.kept := by
  unfold State.openRecovery
  split <;> simp
@[simp] theorem channelsLost_kept {r : FaultReport} : (s.channelsLost r).kept = s.kept := by
  unfold State.channelsLost
  (repeat' split) <;> simp [kept_foldl_eq]
@[simp] theorem report_kept {r : FaultReport} : (s.report r).kept = s.kept := by
  unfold State.report
  (repeat' split) <;> simp
@[simp] theorem execFaultReport_keeps {r : FaultReport} : keeps s.kept (execFaultReport r s) := by
  unfold execFaultReport
  simp [keeps_next]
@[simp] theorem execFltTailWrite_keeps {v : Word32} : keeps s.kept (execFltTailWrite f v s) :=
  onBar0_keeps (by (repeat' split) <;> simp [keeps_next, kept_ite])
@[simp] theorem execFltTeardown_keeps : keeps s.kept (execFltTeardown f c s) := onBar0_keeps (by (repeat' split) <;> simp [keeps_next])
@[simp] theorem execRecoveryStart_keeps {e : Nat} : keeps s.kept (execRecoveryStart e s) :=
  absent_keeps (by dsimp only; (repeat' split) <;> simp [keeps_next])
@[simp] theorem writeCapture_kept {slot domain uk : Nat} {ctx : Option Nat} {written : Bool} :
    (s.writeCapture slot domain uk u ctx written).kept = s.kept := by
  simp [State.writeCapture, kept_ite]
@[simp] theorem resetCluster_kept : (s.resetCluster c).kept = s.kept := by simp [State.resetCluster, kept_foldl_eq]
@[simp] theorem closeRecovery_kept {uk : Nat} : (s.closeRecovery uk u).kept = s.kept := (rfl)
@[simp] theorem coresReturn_kept : (s.coresReturn c).kept = s.kept := by simp [State.coresReturn, kept_ite, kept_foldl_eq]
@[simp] theorem execUnitResetDone_keeps {unitKind unit : Nat} {passed : Bool} : keeps s.kept (execUnitResetDone unitKind unit passed s) := by
  unfold execUnitResetDone
  dsimp only
  (repeat' split) <;> simp [keeps_next]
@[simp] theorem openDieReset_kept {die : Nat} : (s.openDieReset die).kept = s.kept := by simp [State.openDieReset]
@[simp] theorem execDiePllLoss_keeps {die : Nat} : keeps s.kept (execDiePllLoss die s) := absent_keeps (by simp [keeps_next])
theorem retrainLinks_fuses {m : MgmtState} {die : Nat} : (m.retrainLinks die).fuses = m.fuses :=
  List.foldlRecOn (motive := fun u : MgmtState => u.fuses = m.fuses) _ _ rfl fun _ h _ _ => h
@[simp] theorem execWarmResetDone_keeps {die : Nat} : keeps s.kept (execWarmResetDone die s) := by
  refine absent_keeps (stays_keeps ?_)
  extract_lets s1
  have hs1 : s1.kept = s.kept := closeRecovery_kept.trans (updMgmt_kept retrainLinks_fuses)
  exact kept_ite.trans (by simp [hs1])
@[simp] theorem execEngineHeartbeatTimeout_keeps {e : Nat} : keeps s.kept (execEngineHeartbeatTimeout e s) :=
  absent_keeps (by split <;> simp [keeps_next])

/-! ### Flits -/

@[simp] theorem setFlitPath_kept {l : Nat} {p : FlitPath} : (s.setFlitPath l d p).kept = s.kept := (rfl)
@[simp] theorem replayFlits_kept {l : Nat} : (s.replayFlits l d).kept = s.kept := (rfl)
@[simp] theorem execD2dFlitReceive_keeps {l : Nat} {crcOk : Bool} {payload : List Byte} :
    keeps s.kept (execD2dFlitReceive l d seq crcOk payload s) :=
  onLink_keeps (by dsimp only; (repeat' split) <;> simp [keeps_next])
@[simp] theorem execD2dModuleFail_keeps {l module : Nat} : keeps s.kept (execD2dModuleFail l module s) := by
  refine onLink_keeps ?_
  refine stays_keeps ?_
  exact send_kept.trans (replayFlits_kept.trans (replayFlits_kept.trans (updMgmt_kept rfl)))

/-! ### Progress -/

@[simp] theorem sampleOne_kept : (s.sampleOne code u).kept = s.kept := (rfl)
@[simp] theorem declareStall_kept {cause : Cause} : (s.declareStall code u cause).kept = s.kept := by
  unfold State.declareStall
  (repeat' split) <;> simp
@[simp] theorem judgeStall_kept : (s.judgeStall code u).kept = s.kept := by simp [State.judgeStall, kept_ite, kept_foldl_eq]
@[simp] theorem execProgressSample_keeps {e : Nat} : keeps s.kept (execProgressSample e s) :=
  absent_keeps (by simp [keeps_next, kept_foldl_eq])

/-! ### Integrity -/

@[simp] theorem execCoreLockstep_keeps {index : Nat} : keeps s.kept (execCoreLockstep k index s) := onCore_keeps (by split <;> simp [keeps_next])
@[simp] theorem execClusterLockstep_keeps : keeps s.kept (execClusterLockstep c s) := onCluster_keeps (by split <;> rfl)
@[simp] theorem execClusterSelftestDone_keeps {failedCopy : Option Nat} : keeps s.kept (execClusterSelftestDone c failedCopy s) :=
  onCluster_keeps (by (repeat' split) <;> simp [keeps_next])
@[simp] theorem repairColumn_kept {where_ : Attribution} {repairOk : Bool} : (s.repairColumn k where_ repairOk).kept = s.kept := by
  unfold State.repairColumn
  (repeat' split) <;> simp
@[simp] theorem diagnose_kept {differ : List (Nat × Int)} {repairOk : Bool} : (s.diagnose k differ repairOk).kept = s.kept := by
  unfold State.diagnose
  dsimp only
  (repeat' split) <;> simp [kept_mk, kept_pair]
@[simp] theorem execColumnDiagnosis_keeps : keeps s.kept (execColumnDiagnosis k s) := onCore_keeps (by dsimp only; split <;> rfl)
@[simp] theorem execDiagnosisDone_keeps {differ : List (Nat × Int)} {repairOk : Bool} : keeps s.kept (execDiagnosisDone k differ repairOk s) :=
  onCore_keeps (by split <;> simp [keeps_next])
@[simp] theorem execHarrowDue_keeps : keeps s.kept (execHarrowDue k s) := onCore_keeps (by dsimp only; split <;> rfl)
@[simp] theorem execHarrowStart_keeps : keeps s.kept (execHarrowStart k s) := onCore_keeps (by dsimp only; split <;> rfl)
@[simp] theorem execHarrowDeferExpire_keeps : keeps s.kept (execHarrowDeferExpire k s) :=
  onCore_keeps (by dsimp only; (repeat' split) <;> simp [keeps_next])
@[simp] theorem harrowFailed_kept {f : HarrowFailure} {suspect repairOk : Bool} : (s.harrowFailed k f suspect repairOk).kept = s.kept := by
  simp [State.harrowFailed, kept_ite]
@[simp] theorem clearSuspect_kept : (s.clearSuspect k).kept = s.kept := by simp [State.clearSuspect, kept_ite]
@[simp] theorem execHarrowComplete_keeps {failure : Option HarrowFailure} {differ : List (Nat × Int)} {repairOk : Bool} :
    keeps s.kept (execHarrowComplete k failure differ repairOk s) :=
  onCore_keeps (by dsimp only; (repeat' split) <;> simp [keeps_next])
@[simp] theorem execHistoryWriteDone_keeps {entry : Nat} : keeps s.kept (execHistoryWriteDone entry s) := by
  unfold execHistoryWriteDone
  dsimp only
  split <;> rfl
@[simp] theorem execServiceTimeTick_keeps : keeps s.kept (execServiceTimeTick s) := rfl
@[simp] theorem execHistSelect_keeps : keeps s.kept (execHistSelect f n s) := onBar0_keeps (by split <;> rfl)
@[simp] theorem zeroTested_kept : (s.zeroTested g).kept = s.kept := by simp [State.zeroTested, kept_ite]
@[simp] theorem execTrafficTestDone_keeps {errors : Nat} : keeps s.kept (execTrafficTestDone g errors s) := by
  refine onGleaner_keeps ?_
  dsimp only
  refine stays_keeps ?_
  have hnoted {u : State} {p : Prop} [Decidable p] {n : Nat} :
      (if p then u.updMgmt (fun m => { m with untested := clearBit m.untested n }) else u).kept = u.kept := by split <;> rfl
  exact kept_ite.trans (by simp only [mapOut_kept, ite_self, kept_ite, hnoted, zeroTested_kept, updGleaner_kept])

end

end Sys2Proof.Machine
end

section
/-!
PROOFS. What is left of the queue and the fuses (`State.kept`; O7, O8): power, registers, management, row operations and sheaves.
-/

namespace Sys2Proof.Machine

section
variable {s : State} {a addr bale c cause code ctx d ep f g k kind len n off p q row seg seq t table tag tk u v vc : Nat}
  {ecc : Ecc} {half : Bool} {frame bs msg : List Byte} {r : GReq}

/-! ### Power -/

@[simp] theorem execPowerOn_keeps : keeps s.kept (execPowerOn s) := by
  unfold execPowerOn
  split <;> rfl
@[simp] theorem execPwrGoodRise_keeps : keeps s.kept (execPwrGoodRise s) := by
  unfold execPwrGoodRise
  split <;> rfl
@[simp] theorem execImageVerifyDone_keeps : keeps s.kept (execImageVerifyDone s) := by
  unfold execImageVerifyDone
  (repeat' split) <;> rfl
@[simp] theorem startFaults_kept {rs : List FaultReport} : (s.startFaults rs).kept = s.kept := by simp [State.startFaults, kept_foldl_eq]
@[simp] theorem execDiePowerUpDone_keeps {absent : Nat} : keeps s.kept (execDiePowerUpDone absent s) :=
  stays_keeps (a := .next _) (startFaults_kept.trans (updMgmt_kept rfl))
@[simp] theorem trainingFailed_kept {gs : List Nat} : (s.trainingFailed gs).kept = s.kept := by simp [State.trainingFailed, kept_ite, kept_foldl_eq]
@[simp] theorem startGranaryTests_kept : s.startGranaryTests.kept = s.kept := by simp [State.startGranaryTests, kept_ite, kept_foldl_eq]
@[simp] theorem execHbmTrainingDone_keeps {failed : List Nat} : keeps s.kept (execHbmTrainingDone failed s) :=
  stays_keeps (a := .next _) ((updMgmt_kept rfl).trans (startGranaryTests_kept.trans trainingFailed_kept))
@[simp] theorem execLpddrTrainingDone_keeps {failed : List Nat} : keeps s.kept (execLpddrTrainingDone failed s) :=
  stays_keeps (a := .next _) ((updMgmt_kept rfl).trans trainingFailed_kept)
@[simp] theorem applyHist_kept {e : HistEntry} : (s.applyHist e).kept = s.kept := by
  unfold State.applyHist
  (repeat' split) <;> simp
@[simp] theorem startTests_kept : s.startTests.kept = s.kept := by simp [State.startTests, kept_foldl_eq]
@[simp] theorem updDie_kept {f : DieClock → DieClock} : (s.updDie d f).kept = s.kept := (rfl)
@[simp] theorem updSensor_kept {f : Sensor → Sensor} : (s.updSensor n f).kept = s.kept := (rfl)
@[simp] theorem powerDecision_kept : s.powerDecision.kept = s.kept := by
  unfold State.powerDecision
  dsimp only
  (repeat' split) <;> simp [kept_foldl_eq]
@[simp] theorem execPowerLoopTick_keeps {power average volts watts0 watts1 : Nat} {temps : List Nat} :
    keeps s.kept (execPowerLoopTick power average volts watts0 watts1 temps s) := by
  unfold execPowerLoopTick
  refine stays_keeps ?_
  exact powerDecision_kept.trans (updDie_kept.trans (updDie_kept.trans ((updMgmt_kept rfl).trans
    (kept_foldl_eq fun _ _ => kept_ite.trans (by simp)))))
@[simp] theorem execClockStepDone_keeps : keeps s.kept (execClockStepDone d s) := absent_keeps (rfl)
@[simp] theorem execCurrentLimitTrip_keeps : keeps s.kept (execCurrentLimitTrip d s) := absent_keeps (rfl)
@[simp] theorem execInputDip_keeps : keeps s.kept (execInputDip s) :=
  stays_keeps (a := .next _) (updDie_kept.trans (updDie_kept.trans (updMgmt_kept rfl)))
@[simp] theorem execInputRestored_keeps : keeps s.kept (execInputRestored s) := rfl
@[simp] theorem execThresholdCrossing_keeps : keeps s.kept (execThresholdCrossing n s) := absent_keeps (a := .next _) (send_kept.trans updSensor_kept)
@[simp] theorem execReeveTakeover_keeps : keeps s.kept (execReeveTakeover s) :=
  stays_keeps (a := .next _) (send_kept.trans ((kept_foldl_eq fun _ _ => endLoad_kept).trans (updMgmt_kept rfl)))
@[simp] theorem execReeveRestart_keeps : keeps s.kept (execReeveRestart s) := by
  unfold execReeveRestart
  split <;> rfl

/-! ### Register accesses -/

@[simp] theorem accessError_kept : (s.accessError f off).kept = s.kept := (rfl)
@[simp] theorem execAccessClear_keeps {value : Word32} : keeps s.kept (execAccessClear f value s) :=
  onBar0_keeps (by (repeat' split) <;> simp [keeps_next, kept_foldl_eq])
@[simp] theorem writeDev_kept : (s.writeDev f off v).kept = s.kept := by
  unfold State.writeDev
  repeat' split
  any_goals rfl
  all_goals exact clearing_kept fun _ => rfl
@[simp] theorem writeGfe_kept : (s.writeGfe f off v).kept = s.kept := by
  unfold State.writeGfe
  repeat' split
  any_goals rfl
  all_goals exact clearing_kept fun _ => rfl
@[simp] theorem writeXlt_kept : (s.writeXlt off v).kept = s.kept := by
  unfold State.writeXlt
  repeat' split
  any_goals rfl
  all_goals exact clearing_kept fun _ => rfl
@[simp] theorem writeHost_kept : (s.writeHost f off v).kept = s.kept := by
  unfold State.writeHost
  dsimp only
  repeat' split
  any_goals rfl
  all_goals exact clearing_kept fun _ => rfl
@[simp] theorem writeCluster_kept : (s.writeCluster c off v).kept = s.kept := by
  unfold State.writeCluster
  (repeat' split) <;> simp
@[simp] theorem writeCore_kept : (s.writeCore k off v).kept = s.kept := by
  unfold State.writeCore
  split <;> simp
/-- The unit's register that a write of a die's window reaches; `writeDie` is this at the place of its offset. -/
def State.writeAtDie (s : State) (f v : Nat) : DiePlace → State
  | .cluster c r => if s.writesUnit f (s.partOfCluster c) then s.writeCluster c r v else s
  | .core k r => if s.writesUnit f (s.partOfCluster (clusterOf k)) then s.writeCore k r v else s
  | .unused => s
theorem writeDie_eq : s.writeDie f off v = s.writeAtDie f v (diePlace off) := rfl
@[simp] theorem writeAtDie_kept {p : DiePlace} : (s.writeAtDie f v p).kept = s.kept := by
  cases p with
  | cluster => exact kept_ite.trans (by simp)
  | core => exact kept_ite.trans (by simp)
  | unused => rfl
@[simp] theorem writeDie_kept : (s.writeDie f off v).kept = s.kept := writeDie_eq ▸ writeAtDie_kept
@[simp] theorem writeGleaner_kept : (s.writeGleaner f g off v).kept = s.kept := by
  unfold State.writeGleaner
  (repeat' split) <;> simp
@[simp] theorem writePort_kept {r : Nat} : (s.writePort f p r v).kept = s.kept := by
  unfold State.writePort
  repeat' split
  any_goals rfl
  all_goals exact clearing_kept fun _ => rfl
@[simp] theorem writeIgt_kept : (s.writeIgt f t v).kept = s.kept := by
  unfold State.writeIgt
  dsimp only
  repeat' split
  any_goals rfl
  all_goals exact clearing_kept fun _ => rfl
@[simp] theorem writeSys_kept {w : Nat} : (s.writeSys f w v).kept = s.kept := by
  unfold State.writeSys
  dsimp only
  repeat' split
  any_goals rfl
  all_goals exact clearing_kept fun _ => rfl
@[simp] theorem writeSingle_kept : (s.writeSingle f off v).kept = s.kept := by simp [State.writeSingle, kept_ite]
@[simp] theorem setPair_kept {h : Option PairHold} : (s.setPair k h).kept = s.kept := (rfl)
@[simp] theorem writePair_kept : (s.writePair f off v).kept = s.kept := by
  unfold State.writePair
  dsimp only
  (repeat' split) <;> simp
@[simp] theorem holdLow_kept {w : Word32} : (s.holdLow f off w).kept = s.kept := by simp [State.holdLow]
@[simp] theorem writeHigh_kept {w : Word32} : (s.writeHigh f off w).kept = s.kept := by simp [State.writeHigh]
@[simp] theorem writeOne_kept {w : Word32} : (s.writeOne f off w).kept = s.kept := by
  unfold State.writeOne
  (repeat' split) <;> simp
@[simp] theorem writeWords_kept {f off : Nat} {ws : List Word32} {s : State} : (writeWords s f off ws).kept = s.kept := by
  induction ws generalizing s off with
  | nil => rfl
  | cons w ws ih => exact ih.trans writeOne_kept
@[simp] theorem execRegisterWrite_keeps {words : List Word32} {narrow : Bool} : keeps s.kept (execRegisterWrite f off words narrow s) :=
  onFn_keeps (by (repeat' split) <;> simp [keeps_next])
@[simp] theorem execPairHiWrite_keeps {value : Word32} : keeps s.kept (execPairHiWrite f off value s) := onBar0_keeps (by split <;> simp [keeps_next])
@[simp] theorem takeWord_kept {high : Nat} : (s.takeWord f off v high).1.kept = s.kept := by
  unfold State.takeWord
  (repeat' split) <;> simp
@[simp] theorem readWord_kept {at_ : Nat} : (s.readWord f off at_).1.kept = s.kept := by
  unfold State.readWord
  (repeat' split) <;> simp
@[simp] theorem readWords_kept {f at_ n off : Nat} {s : State} : (s.readWords f at_ n off).1.kept = s.kept := by
  induction n generalizing s off with
  | zero => rfl
  | succ n ih => exact ih.trans readWord_kept
@[simp] theorem execPairLoRead_keeps {r : BarRead} : keeps s.kept (execPairLoRead f r s) := onFn_keeps (by (repeat' split) <;> simp [keeps_next])
@[simp] theorem execIntCtlWrite_keeps {value : Word32} : keeps s.kept (execIntCtlWrite f value s) := by
  refine onBar0_keeps ?_
  split
  · rfl
  extract_lets s0 i ctl on s1
  have hs1 : s1.kept = s.kept := settleInts_kept
  exact kept_ite.trans (by simp [hs1])

/-! ### Maintenance -/

@[simp] theorem manage_kept {outcome : Nat} {data : List Byte} : (s.manage ep outcome data).kept = s.kept := (rfl)
@[simp] theorem dropNonce_kept : (s.dropNonce ep).kept = s.kept := (rfl)
theorem maintenance_keeps {command ep : Nat} {msg : List Byte} {s : State} {body : State → List Byte → State × Nat × List Byte}
    (h : ∀ u bs, (body u bs).1.kept = u.kept) : keeps s.kept (maintenance command ep msg s body) := by
  refine stays_keeps ?_
  split
  · exact manage_kept.trans ((h _ _).trans dropNonce_kept)
  · exact manage_kept.trans (kept_ite.trans (by simp))
@[simp] theorem refuse_kept : s.refuse.1.kept = s.kept := by simp [State.refuse]
@[simp] theorem done_kept : s.done.1.kept = s.kept := by simp [State.done]
@[simp] theorem setKeySlot_kept {slot : Nat} {k : KeySlot} : (s.setKeySlot kind slot k).kept = s.kept := by
  unfold State.setKeySlot
  split <;> rfl
@[simp] theorem execKeyEnroll_keeps : keeps s.kept (execKeyEnroll ep msg s) :=
  maintenance_keeps (fun _ _ => by dsimp only; (repeat' split) <;> simp)
@[simp] theorem execKeyRevoke_keeps : keeps s.kept (execKeyRevoke ep msg s) :=
  maintenance_keeps (fun _ _ => by dsimp only; (repeat' split) <;> simp)
@[simp] theorem editHist_kept {p : Nat → HistEntry → Bool} {f : HistEntry → HistEntry} : (s.editHist p f).kept = s.kept := (rfl)
@[simp] theorem execHistoryClear_keeps : keeps s.kept (execHistoryClear ep msg s) := maintenance_keeps (fun _ _ => by dsimp only; split <;> rfl)
@[simp] theorem execTestStart_keeps : keeps s.kept (execTestStart ep msg s) := maintenance_keeps (fun _ _ => by dsimp only; split <;> rfl)
@[simp] theorem returnChannel_kept : (s.returnChannel g).kept = s.kept := by
  unfold State.returnChannel
  dsimp only
  (repeat' split) <;> simp [kept_mk, kept_pair]
@[simp] theorem execStackRepair_keeps {rows : List Nat} {resources passed : Bool} :
    keeps s.kept (execStackRepair ep msg g rows resources passed s) :=
  onGleaner_keeps (maintenance_keeps (fun _ _ => by (repeat' split) <;> simp))
@[simp] theorem execImagePrefer_keeps : keeps s.kept (execImagePrefer ep msg s) := maintenance_keeps (fun _ _ => by split <;> rfl)
theorem onReeve_keeps {s : State} {f : State → State} (h : (f s).kept = s.kept) : keeps s.kept (onReeve s f) := else_keeps (a := .next _) h
@[simp] theorem execGetNonce_keeps : keeps s.kept (execGetNonce ep s) := onReeve_keeps ( rfl)
@[simp] theorem execNonceExpire_keeps : keeps s.kept (execNonceExpire ep s) := rfl
@[simp] theorem mgmtWords_kept {kind index n off : Nat} {s : State} : (s.mgmtWords kind index n off).1.kept = s.kept := by
  induction n generalizing s off with
  | zero => rfl
  | succ n ih =>
    unfold State.mgmtWords
    dsimp only
    rw [ih]
    split
    · split
      · exact takeWord_kept
      · rfl
    · rfl
    · rfl
@[simp] theorem execMgmtRead_keeps {index words : Nat} : keeps s.kept (execMgmtRead ep kind index off words s) := onReeve_keeps ( by simp)
@[simp] theorem execMgmtReset_keeps {die : Option Nat} : keeps s.kept (execMgmtReset ep die s) :=
  onReeve_keeps ( by (repeat' split) <;> simp)
@[simp] theorem setBmcCap_kept : (s.setBmcCap v).kept = s.kept := (rfl)
@[simp] theorem setBmcCeiling_kept : (s.setBmcCeiling d k).kept = s.kept := (rfl)
@[simp] theorem execMgmtCap_keeps {cap ceiling0 ceiling1 : Option Nat} : keeps s.kept (execMgmtCap ep cap ceiling0 ceiling1 s) :=
  onReeve_keeps ( by (repeat' split) <;> simp)

/-! ### PLDM and test access -/

@[simp] theorem execMctpControl_keeps {binding command : Nat} {data : List Byte} : keeps s.kept (execMctpControl binding command data s) :=
  absent_keeps (onReeve_keeps ( by split <;> rfl))
@[simp] theorem execPldmGetSensor_keeps : keeps s.kept (execPldmGetSensor ep n s) := onReeve_keeps ( rfl)
@[simp] theorem execPldmSetEffecter_keeps {value : Nat} : keeps s.kept (execPldmSetEffecter ep n value s) := onReeve_keeps ( by split <;> rfl)
@[simp] theorem execPldmFwTransfer_keeps {overSmbus : Bool} {image : FwImage} : keeps s.kept (execPldmFwTransfer ep overSmbus image s) := by
  unfold execPldmFwTransfer
  split <;> rfl
@[simp] theorem execPldmActivateFirmware_keeps {overSmbus : Bool} : keeps s.kept (execPldmActivateFirmware ep overSmbus s) := by
  unfold execPldmActivateFirmware
  dsimp only
  split <;> rfl
@[simp] theorem execActivationStep_keeps : keeps s.kept (execActivationStep s) := by
  unfold execActivationStep
  (repeat' split) <;> rfl
@[simp] theorem execMicrocodeRollStep_keeps : keeps s.kept (execMicrocodeRollStep s) := by
  unfold execMicrocodeRollStep
  split
  · rfl
  · exact stays_keeps (a := .next _) ((kept_foldl_eq fun _ _ => updGleaner_kept).trans (updMgmt_kept rfl))
@[simp] theorem execMicrocodeLoad_keeps {failed : List Nat} : keeps s.kept (execMicrocodeLoad failed s) := by
  unfold execMicrocodeLoad
  split
  · exact stays_keeps (a := .next _) (sendAll_kept.trans ((kept_foldl_eq fun _ _ => drainQueue_kept.trans updGleaner_kept).trans (updMgmt_kept rfl)))
  · rfl
@[simp] theorem execTapInstruction_keeps : keeps s.kept (execTapInstruction n s) :=
  stays_keeps (a := .next _) (kept_ite.trans ((if_congr Iff.rfl send_kept rfl).trans (ite_self _ |>.trans (updMgmt_kept rfl))))
@[simp] theorem execTapReset_keeps : keeps s.kept (execTapReset s) := rfl

/-! ### Row operations -/

@[simp] theorem execRowput_keeps {w : VWord} : keeps s.kept (execRowput k w ecc s) := issueUnit_keeps fun c => by
  split
  · exact kept_of_pair ‹_› coreLoad_kept
  next h =>
    have hload := kept_of_pair h coreLoad_kept
    split
    · exact stopWith_kept.trans hload
    · exact updCore_kept.trans hload
@[simp] theorem execSflush_keeps {w : VWord} : keeps s.kept (execSflush k w s) := issueUnit_keeps (fun _ => rfl)

/-! ### The SFU -/

@[simp] theorem sfuError_kept : (s.sfuError k n).kept = s.kept := by simp [State.sfuError]
@[simp] theorem execSfu_keeps {w : VWord} {run : SfuRun} : keeps s.kept (execSfu k w run s) := issueUnit_keeps fun c => by
  split
  · rfl
  extract_lets n
  split
  · rfl
  split
  · exact sfuError_kept
  · exact kept_ite.trans (by simp)

/-! ### Sheaf commands -/

@[simp] theorem execClipCount_keeps {cluster sheaf pos layer count : Nat} : keeps s.kept (execClipCount cluster sheaf pos layer count s) :=
  onCluster_keeps (by split <;> simp [keeps_next])
@[simp] theorem execWinnowRowDone_keeps : keeps s.kept (execWinnowRowDone k ecc s) := by
  refine onCore_keeps ?_
  dsimp only
  refine stays_keeps ?_
  split
  · rfl
  split
  · split
    · exact kept_of_pair ‹_› coreLoad_kept
    next h =>
      have hload := kept_of_pair h coreLoad_kept
      split
      · refine stays_keeps ?_
        refine pumpStalled_kept.trans (winnowReport_kept.trans (winnowRetire_kept.trans ?_))
        split <;> simp [hload]
      · exact binFault_kept.trans hload
      · exact binFault_kept.trans hload
  · rfl

end

end Sys2Proof.Machine
end

section
/-!
PROOFS. The queue of waiting commands (O7) and the fuses (O8, O9). A command keeps both (`State.kept`), but for the few that reset the device, raise FW_FLOOR
or act on DEBUG_LOCK; those blow fuses and clear none (`State.Blows`).
-/

namespace Sys2Proof.Machine

/-! ### States whose fuses were blown and never cleared (R555, R576) -/

/-- `t` has the queue of `s`, the bits of FW_FLOOR and DEBUG_LOCK that are blown in `s`, its serial number and its root key's digest, and is legal if
`s` is. -/
structure State.Blows (s t : State) : Prop where
  pending : t.pending = s.pending
  legal : s.fusesLegal = true → t.fusesLegal = true
  floor : s.mgmt.fwFloor ≤ t.mgmt.fwFloor
  lock : s.mgmt.debugLock = true → t.mgmt.debugLock = true
  serial : t.mgmt.serial = s.mgmt.serial
  rootKey : t.mgmt.rootKeyHash = s.mgmt.rootKeyHash

/-- The next state, if there is one, blows fuses of `s` at most. -/
def blows (s : State) : Answer → Prop
  | .next t => s.Blows t
  | _ => True

section
variable {s t u : State}

theorem State.Blows.trans (h : s.Blows t) (h' : t.Blows u) : s.Blows u where
  pending := h'.pending.trans h.pending
  legal hs := h'.legal (h.legal hs)
  floor := h.floor.trans h'.floor
  lock hs := h'.lock (h.lock hs)
  serial := h'.serial.trans h.serial
  rootKey := h'.rootKey.trans h.rootKey
theorem kept_eq_iff : t.kept = s.kept ↔ t.pending = s.pending ∧ t.mgmt.debugLock = s.mgmt.debugLock ∧ t.mgmt.debugOpen = s.mgmt.debugOpen ∧
    t.mgmt.fwFloor = s.mgmt.fwFloor ∧ t.mgmt.serial = s.mgmt.serial ∧ t.mgmt.rootKeyHash = s.mgmt.rootKeyHash := by
  simp [State.kept, MgmtState.fuses]
theorem blows_of_kept (h : t.kept = s.kept) : s.Blows t := by
  obtain ⟨hp, hl, ho, hf, hn, hk⟩ := kept_eq_iff.1 h
  exact ⟨hp, fun hs => by simpa [State.fusesLegal, hl, ho, hf] using hs, hf.ge, fun hs => hl.trans hs, hn, hk⟩
theorem blows_of_keeps {a : Answer} (h : keeps s.kept a) : blows s a := by
  cases a with
  | next t => exact blows_of_kept h
  | fault => trivial
  | refused => trivial
theorem State.Blows.refl : s.Blows s := blows_of_kept rfl
theorem stays_blows {p : Prop} [Decidable p] {a : Answer} (h : blows s a) : blows s (if p then .next s else a) := by
  split
  · exact State.Blows.refl
  · exact h

/-! ### Resets: the fuses stay, and a debug port shuts (R507, R576) -/

theorem coldReset_kept {lost : Bool} : (s.coldReset lost).kept = (s.pending, s.mgmt.cold.fuses) := settleSysArea_kept.trans rfl
theorem coldReset_blows {lost : Bool} : s.Blows (s.coldReset lost) := by
  have h := coldReset_kept (s := s) (lost := lost)
  simp only [State.kept, MgmtState.fuses, Prod.mk.injEq] at h
  obtain ⟨hp, hl, ho, hf, hn, hk⟩ := h
  have ho' : (s.coldReset lost).mgmt.debugOpen = false := ho
  have hl' : (s.coldReset lost).mgmt.debugLock = s.mgmt.debugLock := hl
  have hf' : (s.coldReset lost).mgmt.fwFloor = s.mgmt.fwFloor := hf
  refine ⟨hp, fun hs => ?_, hf'.ge, fun hs => hl'.trans hs, hn, hk⟩
  simp only [State.fusesLegal, Bool.and_eq_true, decide_eq_true_eq] at hs
  simp [State.fusesLegal, ho', hf', hs.1]
theorem powerDown_blows {trip : Bool} : s.Blows (s.powerDown trip) := coldReset_blows.trans (blows_of_kept (updMgmt_kept rfl))
theorem performReset_blows {r : Recovery} : s.Blows (s.performReset r) := by
  unfold State.performReset
  split
  case h_5 => exact coldReset_blows.trans (blows_of_kept (updMgmt_kept rfl))
  all_goals refine blows_of_kept ?_
  case h_1 =>
    dsimp only
    (repeat' split) <;> simp
  case h_2 => exact kept_ite.trans (by simp)
  all_goals simp

/-! ### FW_FLOOR and DEBUG_LOCK (R555, R576) -/

theorem raiseFwFloor_blows : s.Blows s.raiseFwFloor := by
  unfold State.raiseFwFloor
  split
  · split
    · refine ⟨rfl, fun hs => ?_, le_max_left _ _, id, rfl, rfl⟩
      simp only [State.fusesLegal, Bool.and_eq_true, decide_eq_true_eq] at hs ⊢
      exact ⟨max_le hs.1 (min_le_left _ _), hs.2⟩
    · exact State.Blows.refl
  · exact State.Blows.refl
theorem openDebug_blows (h : s.mgmt.debugLock = false) : s.Blows (s.updMgmt (fun m => { m with debugOpen := true })) :=
  ⟨rfl, fun hs => by simpa [State.fusesLegal, State.updMgmt, h] using hs, le_rfl, id, rfl, rfl⟩
theorem blowLock_blows : s.Blows (s.updMgmt (fun m => { m with debugLock := true, debugOpen := false })) :=
  ⟨rfl, fun hs => by simp_all [State.fusesLegal, State.updMgmt], le_rfl, fun _ => rfl, rfl, rfl⟩
theorem maintenance_blows {command ep : Nat} {msg : List Byte} {body : State → List Byte → State × Nat × List Byte}
    (h : ∀ (u : State) (bs : List Byte), u.Blows (body u bs).1) : blows s (maintenance command ep msg s body) := by
  refine stays_blows ?_
  split
  · exact (blows_of_kept dropNonce_kept).trans ((h _ _).trans (blows_of_kept manage_kept))
  · exact blows_of_kept (manage_kept.trans (kept_ite.trans (by simp)))

/-! ### The commands that may blow a fuse -/

theorem execCaptureDone_blows {slot : Nat} {written : Bool} : blows s (execCaptureDone slot written s) := by
  unfold execCaptureDone
  split
  · exact blows_of_kept (stopContext_kept.trans (updFaults_kept.trans writeCapture_kept))
  · split
    · exact (blows_of_kept (updFaults_kept.trans writeCapture_kept)).trans performReset_blows
    · exact State.Blows.refl
theorem execBistDone_blows {cores clusters : List Nat} {rows : List (Nat × Nat)} : blows s (execBistDone cores clusters rows s) := by
  refine stays_blows ?_
  refine ((blows_of_kept ?_).trans raiseFwFloor_blows).trans (blows_of_kept (noteReady_kept.trans startTests_kept))
  refine (updMgmt_kept rfl).trans (startFaults_kept.trans ((kept_foldl_eq fun _ _ => retireCluster_kept).trans ?_))
  exact (kept_foldl_eq fun _ _ => spareRow_kept).trans ((kept_foldl_eq fun _ _ => retireCluster_kept.trans histEvent_kept).trans
    ((kept_foldl_eq fun _ _ => retireCore_kept.trans histEvent_kept).trans (kept_foldl_eq fun _ _ => applyHist_kept)))
theorem execThermalTrip_blows {n : Nat} : blows s (execThermalTrip n s) := by
  refine stays_blows ?_
  refine ((blows_of_kept ?_).trans powerDown_blows).trans (blows_of_kept (updMgmt_kept rfl))
  split
  · exact updHist_kept.trans histEvent_kept
  · rfl
theorem execDipTimeout_blows : blows s (execDipTimeout s) := by
  unfold execDipTimeout
  split
  · exact powerDown_blows
  · exact State.Blows.refl
theorem execInputCollapse_blows : blows s (execInputCollapse s) := stays_blows (a := .next _) powerDown_blows
theorem execPowerLoss_blows : blows s (execPowerLoss s) := powerDown_blows.trans (blows_of_kept (updMgmt_kept rfl))
theorem execDebugUnlock_blows {ep : Nat} {msg : List Byte} : blows s (execDebugUnlock ep msg s) := maintenance_blows fun u _ => by
  split
  · exact blows_of_kept refuse_kept
  next h => exact openDebug_blows (Bool.eq_false_iff.2 h)
theorem execDebugLockBlow_blows {ep : Nat} {msg : List Byte} : blows s (execDebugLockBlow ep msg s) := maintenance_blows fun _ _ => blowLock_blows
end

/-! ### Every command and every step -/

/-- A command leaves the queue as it is and clears no fuse: the eight above blow fuses or reset the device, and all others keep `State.kept`. -/
theorem exec_blows (c : Instr) (s : State) : blows s (exec c s) := by
  cases c <;> dsimp only [exec]
  case captureDone => exact execCaptureDone_blows
  case bistDone => exact execBistDone_blows
  case thermalTrip => exact execThermalTrip_blows
  case dipTimeout => exact execDipTimeout_blows
  case inputCollapse => exact execInputCollapse_blows
  case powerLoss => exact execPowerLoss_blows
  case debugUnlock => exact execDebugUnlock_blows
  case debugLockBlow => exact execDebugLockBlow_blows
  all_goals apply blows_of_keeps
  -- A shared operation is all of the command.
  case nop | sli | slui | saddi | seed | vext | vcmp | vxcmp | mpop | mfirst | vflg | vfclr => exact issueRegs_keeps
  case sadd | ssub | smul | sand | sor | sxor | sshl | sshr | ssra => exact issueScalar_keeps
  case vadd | vsub | vmul | vfma | vmin | vmax | vabs | vneg | vsel | vcvt | vbcast | viota | vrev | vrot | vperm | vxchg => exact issueLanes_keeps
  case vand | vor | vxor | vshl | vshr | vsra => exact issueBits_keeps
  case vrsum | vrmax | vrmin => exact issueReduce_keeps
  case mand | mor | mxor | mandn | mnot | mfill => exact issueMask_keeps
  case glnNop | glnSli | glnSlui | glnSaddi | glnEnd => exact issueThread_keeps
  case glnSadd | glnSsub | glnSmul | smulh | glnSand | glnSor | glnSxor | glnSshl | glnSshr => exact issueGScalar_keeps
  case segWrite | segDrain | windowWrite => exact onChange_keeps
  -- The lemma of the command, `execX_keeps`.
  all_goals simp
theorem exec_next_blows {c : Instr} {s t : State} (h : exec c s = .next t) : s.Blows t := by
  have hb := exec_blows c s
  rwa [h] at hb
/-- A step of an empty queue goes on by a nanosecond; any other is that of the front command on the state without it. -/
theorem step_blows {s t : State} (h : step s = .next t) : State.Blows { s with pending := s.pending.tail } t := by
  unfold step at h
  split at h
  next hp =>
    cases h
    refine blows_of_kept (settleInts_kept.trans ?_)
    simp [State.kept, hp]
  next c rest hp =>
    rw [hp]
    exact exec_next_blows h

/-- Settles O7: `exec_blows` and `step_blows` at the queue. -/
theorem stepsTakeOnlyTheFrontCommand : Obligations.StepsTakeOnlyTheFrontCommand :=
  ⟨fun _ _ _ h => (exec_next_blows h).pending, fun _ _ h => (step_blows h).pending⟩

/-- Settles O8: a step blows fuses and clears none (`step_blows`), and taking a command away changes no fuse. -/
theorem stepsKeepTheFuses : Obligations.StepsKeepTheFuses := fun _ _ hs h =>
  have hb := step_blows h
  ⟨hb.legal hs, hb.floor, hb.lock, hb.serial, hb.rootKey⟩

/-- Settles O9: FW_FLOOR is 0 and DEBUG_LOCK is not blown after reset. -/
theorem resetFusesAreLegal : Obligations.ResetFusesAreLegal := rfl

end Sys2Proof.Machine
end

section
/-!
PROOFS. The step itself (O1), the test access port (O4), and the access errors and interrupt control of the functions (O52).
-/

namespace Sys2Proof.Machine

/-! ### O1 -/

/-- Settles O1: `step` by the two forms of the queue. The idle step of an empty queue is the model's choice (log 1). -/
theorem aStepRunsTheFirstCommand : Obligations.AStepRunsTheFirstCommand := by
  refine ⟨fun c rest s h => ?_, fun c s => rfl, fun s h => ?_⟩
  · rw [step, h]
  · unfold step
    split
    · rfl
    next h' => exact absurd (h.symm.trans h') (by simp)

/-! ### The test access port (R577) -/

section
variable {n : Nat} {s : State} (hon : s.mgmt.phase ≠ .off)
include hon

theorem execTapInstruction_bypass (hn : n = 0 ∨ n = 2) :
    execTapInstruction n s = .next (s.updMgmt (fun m => { m with tap := n, boundary := s.mgmt.boundary && !s.bothPerst })) := by
  unfold execTapInstruction
  rw [if_neg hon]
  obtain rfl | rfl := hn <;> simp [State.updMgmt]
theorem execTapInstruction_idcode :
    execTapInstruction 1 s = .next ((s.updMgmt (fun m => { m with tap := 1, boundary := s.mgmt.boundary && !s.bothPerst })).send (.tap s.idcode)) := by
  unfold execTapInstruction
  rw [if_neg hon]
  simp [State.updMgmt]
/-- EXTEST, CLAMP and HIGHZ take effect with both PERST# asserted. -/
theorem execTapInstruction_scan (hn : n = 3 ∨ n = 4 ∨ n = 5) (hboth : s.bothPerst = true) :
    execTapInstruction n s = .next (s.updMgmt (fun m => { m with tap := n, boundary := true })) := by
  unfold execTapInstruction
  rw [if_neg hon]
  obtain rfl | rfl | rfl := hn <;> simp [State.updMgmt, hboth]
theorem execTapInstruction_scan_refused (hn : n = 3 ∨ n = 4 ∨ n = 5) (hboth : s.bothPerst = false) :
    execTapInstruction n s = .next (s.updMgmt (fun m => { m with tap := 0, boundary := s.mgmt.boundary })) := by
  unfold execTapInstruction
  rw [if_neg hon]
  obtain rfl | rfl | rfl := hn <;> simp [State.updMgmt, hboth]
/-- Every instruction past the six acts as BYPASS under DEBUG_LOCK. -/
theorem execTapInstruction_locked (hn : 5 < n) (hlock : s.mgmt.debugLock = true) : execTapInstruction n s = execTapInstruction 0 s := by
  unfold execTapInstruction
  rw [if_neg hon, if_neg hon]
  have hn6 : 6 ≤ n := hn
  simp [hlock, hn6, Nat.not_le.2 hn]
end

/-- With the places as variables: at literal ones the kernel would compare the powers of two by counting. -/
theorem fieldsAt_four {a b c d i j m n : Nat} : fieldsAt [(i, a), (j, b), (m, c), (n, d)] = a * 2 ^ i + b * 2 ^ j + c * 2 ^ m + d * 2 ^ n := by
  simp [fieldsAt]
theorem idcode_eq {s : State} : s.idcode = Config.jepIdentity.toNat * 2 + 0x9120 * 2 ^ 12 + s.loader.stepping % 16 * 2 ^ 28 + 1 := by
  have hsum (a b c : Nat) : 1 * 2 ^ 0 + a * 2 ^ 1 + b + c = a * 2 + b + c + 1 := by omega
  exact fieldsAt_four.trans (hsum _ _ _)

/-- Settles O4: the six instructions offered, each by its lemma, and all others under DEBUG_LOCK. The states of the port and IDCODE's selection after
Test-Logic-Reset are the model's (log 60). -/
theorem testAccessUnderDebugLock : Obligations.TestAccessUnderDebugLock := by
  intro n s hon
  dsimp only [exec]
  refine ⟨execTapInstruction_bypass hon, ?idcode, execTapInstruction_scan hon, ?refused, execTapInstruction_locked hon, rfl⟩
  case idcode =>
    rintro rfl
    rw [execTapInstruction_idcode hon, idcode_eq]
  case refused => exact fun hn hboth => execTapInstruction_scan_refused hon hn hboth

/-! ### Access errors and DEV_INT_CTL (R601, R604, R605) -/

section
variable {f : Nat} {value : Word32} {s : State} (hf : f < 32) (hphys : f % 16 = 0) (hready : s.mgmt.ready = true)
include hf hphys hready

theorem execAccessClear_clears (hclear : value.getLsbD 0 = true) : execAccessClear f value s =
    .next ((List.range 32).foldl (fun s g => s.updFn g (fun h => { h with accessErr := 0 })) s) :=
  (onBar0_runs hf hready).trans (if_pos (by simp [isPhysical, hf, hphys, hclear]))
/-- A write of DEV_INT_CTL, with the vector sent where it enables a bit of the summary that the old value did not. -/
theorem execIntCtlWrite_writes {u written : State} {old ctl : BitVec 22} (hu : s.settleInts = u) (hold : (Tbl.get intReset u.mgmt.ints f).ctl = old)
    (hctl : BitVec.ofNat 22 value.toNat = ctl)
    (hwritten : u.updMgmt (fun m => { m with ints := Tbl.modify intReset m.ints f (fun i => { i with ctl := ctl }) }) = written) :
    execIntCtlWrite f value s = .next (if (bitsSet (u.intSummary f) 10).any
      (fun n => ctl.getLsbD 0 && ctl.getLsbD (12 + n) && !(old.getLsbD 0 && old.getLsbD (12 + n))) then written.fnVector f (ctl.toNat / 2 % 2048)
      else written) := by
  subst hu hold hctl hwritten
  exact (onBar0_runs hf hready).trans (if_neg (by simp [isPhysical, hf, hphys]))
end

/-- Settles O52: CLEAR, and the two outcomes of a write of DEV_INT_CTL. What is pending is settled first, before the access takes effect, as the model chooses (log 58). -/
theorem accessErrorsAndInterruptControl : Obligations.AccessErrorsAndInterruptControl := by
  intro f value s hf hphys hready u old ctl written sends
  dsimp only [exec]
  have hwrite := execIntCtlWrite_writes (value := value) hf hphys hready rfl rfl rfl rfl
  refine ⟨execAccessClear_clears hf hphys hready, fun n hn hnew hold => ?enabled, fun hnone => ?none⟩
  case enabled => exact hwrite.trans (congrArg _ (if_pos (List.any_eq_true.2 ⟨n, hn, Bool.and_eq_true_iff.2 ⟨hnew, (Bool.not_eq_true' _).mpr hold⟩⟩)))
  case none =>
    refine hwrite.trans (congrArg _ (if_neg fun h => ?_))
    obtain ⟨n, hn, h⟩ := List.any_eq_true.1 h
    obtain ⟨hnew, hold⟩ := Bool.and_eq_true_iff.1 h
    exact Bool.false_ne_true (((Bool.not_eq_true' _).mp hold).symm.trans (hnone n hn hnew))

end Sys2Proof.Machine
end

section
/-!
PROOFS. The attribution of energy (O43), the Ethernet ports (O47), and the timers of streams and paths (O48): a lemma for each outcome of a command that
has several, then the statements.
-/

namespace Sys2Proof.Machine

/-! ### Energy (R451, R452) -/

/-- The factor lies between 0.80 and 1.25 in Q2.14, and says whether it had to be held there; with nothing pending it stays. -/
theorem energyFactor_held {old measured idle total raw : Nat} (hraw : (measured - idle) * 2 ^ 14 / total = raw) :
    energyFactor old measured idle total =
      (if total = 0 then old else max 13107 (min 20480 raw), decide (total ≠ 0 ∧ (raw < 13107 ∨ 20480 < raw))) := by
  have hraw' : (measured - idle) * 0x4000 / total = raw := hraw
  unfold energyFactor
  rw [hraw']
  split
  case isTrue h => simp [h]
  case isFalse h => grind

/-- Settles O43: every context named is one of the 256, so that all of `pending` is attributed, and the factor is that of `energyFactor_held`. That a total
of 0 leaves ACC_TRIM as it was is the model's choice (log 47). -/
theorem energyIsAttributedAndSnapshotsTaken : Obligations.EnergyIsAttributedAndSnapshotsTaken := by
  intro measured idle pending s hctx total raw t clamped share charged left
  have hown : pending.filter (fun e => decide (e.1 < 256)) = pending := List.filter_eq_self.2 fun e he => decide_eq_true (hctx e he)
  have hclamped : (decide (total ≠ 0 ∧ (raw < 13107 ∨ 20480 < raw))).toNat = clamped := Bool.cond_decide ..
  refine ⟨?commit, fun h => congrArg _ (if_pos h)⟩
  have hshares : (pending.map (fun e => (e.1, e.2 * t / 0x4000))).map Prod.snd = pending.map (fun e => share e.2) := List.map_map
  dsimp only [exec, execEnergyCommit]
  rw [hown, energyFactor_held rfl]
  dsimp only
  rw [hclamped, hshares]
  rfl

/-! ### Ethernet ports (R456 to R458, R463) -/

section
variable {f p : Nat} {half : Bool} {value : Word32} {s : State} (hp : p < 8)
include hp

theorem execPortModeWrite_writes {q : Nat} (hf : f < 32) (hready : s.mgmt.ready = true) (howner : s.portOwner p = some q) (howns : s.ownsPart f q = true)
    (hmode : value.toNat % 4 ≠ 3) (hfits : s.modeFits p (value.toNat % 4) = true) {u : State}
    (hu : s.updEth p (fun e => { e with
      mode := BitVec.ofNat 2 (value.toNat % 4), pmd := BitVec.ofNat 2 (value.toNat / 4 % 4), pfcEn := value.getLsbD 4 }) = u) :
    execPortModeWrite f p value s =
      .next (if value.toNat % 4 = (s.eth p).mode.toNat ∧ value.toNat / 4 % 4 = (s.eth p).pmd.toNat then u
        else (u.captureFor 4 []).linksDown p [false, true]) := by
  refine (onEth_runs hp).trans ((onBar0_runs hf hready).trans ?_)
  subst hu
  simp only [howner, howns, hfits, hmode, Bool.not_true, Bool.false_eq_true, or_self, if_false]
  split <;> rfl
theorem execEthLinkUp_rises (hmode : (s.eth p).mode ≠ 0) (hhalf : half = true → (s.eth p).mode = 2) :
    execEthLinkUp p half s = .next (s.updEth p (fun e => if half then { e with linkB := true } else { e with linkA := true })) :=
  (onEth_runs hp).trans (if_neg (by
    rintro (h | ⟨hb, h⟩)
    · exact hmode h
    · exact h (hhalf hb)))
/-- A whole frame that is neither a pause nor an igrum packet is dropped. -/
theorem execEthFrameReceive_drops {fcs : Bool} {corrected uncorrected : Nat} {frame : List Byte} (hup : (s.eth p).up half = true) (hfcs : fcs = true)
    (hlo : 64 ≤ frame.length + 4) (hhi : frame.length + 4 ≤ 9216) (htype : beNat ((frame.drop 12).take 2) ≠ 0x8808) (hmatch : s.matchFrame frame = none) :
    execEthFrameReceive p half fcs corrected uncorrected frame s = .next ((s.updEth p (fun e => { e with
      fecCorrected := e.fecCorrected + BitVec.ofNat 32 corrected, fecUncorrected := e.fecUncorrected + BitVec.ofNat 32 uncorrected })).updEth p
        (fun e => { e with rxDropped := e.rxDropped + 1 })) :=
  (onEth_runs hp).trans (if_neg (by simp [hup, hfcs, frameLengthOk, hlo, hhi, htype, hmatch]))
theorem execPfcFrame_pauses {enabled : Nat} {times : List Nat} (hup : (s.eth p).up half = true) (hpfc : (s.eth p).pfcEn = true) :
    execPfcFrame p half enabled times s = .next (s.updEth p (fun e => { e with
      paused := (List.range 8).foldl (fun m i =>
        if !enabled.testBit i then m
        else if times.getD i 0 = 0 then m &&& ~~~(BitVec.ofNat 16 (2 ^ ((if half then 8 else 0) + i)))
        else m ||| BitVec.ofNat 16 (2 ^ ((if half then 8 else 0) + i))) e.paused })) := by
  refine (onEth_runs hp).trans ?_
  rw [hup, hpfc]
  rfl
end

/-- Settles O47: each command at a port that the device has, under the condition that it names. That a change of mode captures the port's state within the
write is R502's capture before the loss, as the model places it (log 52). -/
theorem ethernetPortsFollowTheirLinks : Obligations.EthernetPortsFollowTheirLinks := by
  intro f p half fcs value priority enabled corrected uncorrected times frame s hf hp
  dsimp only [exec]
  exact ⟨fun q hready howner howns hmode hfits => execPortModeWrite_writes hp hf hready howner howns hmode hfits rfl, onEth_runs hp,
    execEthLinkUp_rises hp, execEthFrameReceive_drops hp, execPfcFrame_pauses hp, onEth_runs hp⟩

/-! ### Timers (R465, R472 to R474, R482, R484) -/

section
variable {k vc i : Nat} {s : State} (hk : k < 128)
include hk

theorem execAckTimer_acks (hvc : vc < 8) (hdue : (s.stream k vc).ackDue = true) :
    execAckTimer k vc s = .next (s.sendAck k vc (s.stream k vc).ackPath 1) :=
  (onStream_runs hk hvc).trans (if_pos hdue)

section
variable (hvc : vc < 8) (hunacked : (s.stream k vc).unacked ≠ []) (hdown : (s.peer k).down = false) (hprobing : (s.peer k).probing = none)
include hvc hunacked hdown hprobing

/-- What a retransmission timer that has something to do does. -/
theorem execRetxTimer_acts : execRetxTimer k vc s =
    if 3 ≤ (s.stream k vc).retries then .next ((s.updStream k vc (fun x => { x with retries := 0 })).failPath k (s.peer k).active)
    else .next ((s.updStream k vc (fun x => { x with retries := x.retries + 1 })).resend k vc) :=
  (onStream_runs hk hvc).trans (if_neg (by simp [hunacked, hdown, hprobing]))
end

theorem execProbeTimeout_fails (hprobing : (s.peer k).probing = some i) : execProbeTimeout k s = .next (s.failPath k i) := by
  refine (onPeer_runs hk).trans ?_
  rw [hprobing]
theorem execPathProbeTimer_probes (hvalid : entryValid (s.peerEntry k) = true) (hpath : (peerPath (s.peerEntry k) i).isSome = true)
    (hdown : (s.peer k).pathsUp.testBit i = false) : execPathProbeTimer k i s = .next ((s.updPeer k (fun q => { q with
      replies := if q.probed.testBit i then Tbl.set 0 q.replies i 0 else q.replies, probed := q.probed ||| 2 ^ i })).sendProbe k i) :=
  (onPeer_runs hk).trans (if_neg (by simp [hvalid, Option.isSome_iff_ne_none.1 hpath, hdown]))
theorem execRxReservationRelease_frees {p : Nat} {half : Bool} (hvc : vc < 8) (hheld : s.heldCells k vc = 0) :
    execRxReservationRelease k vc p half s = .next (s.updStream k vc (fun y => { y with reserved := Tbl.set false y.reserved (2 * p + half.toNat) false })) :=
  (onStream_runs hk hvc).trans (if_neg (by simp [hheld]))
end

/-- Settles O48: each timer at a stream or peer that the device has, under the condition that it names. That the retries count from 0 again after a failover,
and the rate in units of 2^-32, are the model's (log 42). -/
theorem streamAndPathTimersAct : Obligations.StreamAndPathTimersAct := by
  intro k vc i p half s hk hvc st x
  dsimp only [exec]
  exact ⟨execAckTimer_acks hk hvc, fun hunacked hdown hprobing =>
      ⟨fun h => (execRetxTimer_acts hk hvc hunacked hdown hprobing).trans (if_neg (Nat.not_le.2 h)),
        fun h => (execRetxTimer_acts hk hvc hunacked hdown hprobing).trans (if_pos h)⟩,
    execProbeTimeout_fails hk, fun hvalid hpath hdown _ => execPathProbeTimer_probes hk hvalid hpath hdown, onStream_runs hk hvc,
    execRxReservationRelease_frees hk hvc⟩

end Sys2Proof.Machine
end

section
/-!
PROOFS. Management (spec 20): the reeve's messages (O57), MCTP, PLDM and firmware replaced in service (O58), bring-up (O59), and power (O60).
-/

namespace Sys2Proof.Machine

/-! ### Management messages (R551, R552, R557 to R559) -/

section
variable {ep d : Nat} {s : State} (hreeve : s.mgmt.reeve = true)
include hreeve

theorem execMgmtReset_die (hd : d < 4) : execMgmtReset ep (some d) s = .next ((s.openDieReset d).send (.management ep 0 [])) :=
  (onReeve_runs hreeve).trans (congrArg _ (if_pos hd))
theorem execReeveTakeover_passes (hstandby : s.mgmt.standby = true) {v : State}
    (hv : s.updMgmt (fun m => { m with activeReeve := 1 - s.mgmt.activeReeve, standby := false }) = v) : execReeveTakeover s =
      .next (((v.loader.loads.filter (fun l => l.phase == LoadPhase.waiting || l.phase == LoadPhase.staged)).foldl (fun s l =>
        s.endLoad l (refuse 0x0506) (s.devTime - l.fetched)) v).send (.fault (faultOf 0x030D 14 s.mgmt.activeReeve))) := by
  subst hv
  exact if_neg (by simp [hreeve, hstandby])
theorem execReeveRestart_restarts (hstandby : s.mgmt.standby = false) :
    execReeveRestart s = .next (if s.bootImage.isNone then s else s.updMgmt (fun m => { m with standby := true })) := by
  unfold execReeveRestart
  cases h : s.bootImage <;> simp [hreeve, hstandby]
end

/-- Settles O57: each message as a running reeve takes it (R557 to R559), and the take-over and restart of a reeve (R551, R552, R71). -/
theorem managementMessagesAreAnswered : Obligations.ManagementMessagesAreAnswered := by
  intro ep kind index off words d cap c0 c1 s hreeve hd answered nonce u
  dsimp only [exec]
  exact ⟨onReeve_runs hreeve, rfl, onReeve_runs hreeve, onReeve_runs hreeve, execMgmtReset_die hreeve hd, onReeve_runs hreeve,
    fun hstandby => execReeveTakeover_passes hreeve hstandby rfl, execReeveRestart_restarts hreeve⟩

/-! ### MCTP and PLDM (R570 to R572) -/

section
variable {ep n value binding command : Nat} {data : List Byte} {s : State} (hreeve : s.mgmt.reeve = true)
include hreeve

theorem execMctpControl_setsEid (hb : binding < 3) : execMctpControl binding 1 data s = .next ((s.updMgmt (fun m => { m with
    eids := Tbl.set 0 m.eids binding (fieldLE data 1 1) })).send (.pldm binding 0 (natLE 1 1 ++ ([0, 0] ++ natLE 1 (fieldLE data 1 1) ++ [0])))) :=
  (if_neg (Nat.not_le.2 hb)).trans (onReeve_runs hreeve)
theorem execMctpControl_getsEid (hb : binding < 3) : execMctpControl binding 2 data s =
    .next (s.send (.pldm binding 0 (natLE 1 2 ++ ([0] ++ natLE 1 (Tbl.get 0 s.mgmt.eids binding) ++ [0, 0])))) :=
  (if_neg (Nat.not_le.2 hb)).trans (onReeve_runs hreeve)
theorem execPldmGetSensor_reads {v : Nat} (hv : s.sensorValue n = some v) :
    execPldmGetSensor ep n s = .next (s.send (.pldm ep 1 (natLE 2 n ++ natLE 8 v))) := by
  refine (onReeve_runs hreeve).trans ?_
  rw [hv]
end

/-! ### Firmware replaced in service (R573, R574) -/

section
variable {ep : Nat} {smbus : Bool} {s : State}

section
variable (hupdates : s.updates smbus = true) (hidle : s.mgmt.activation = none)
include hupdates hidle

theorem execPldmFwTransfer_stores {image : FwImage} {u : State}
    (hu : s.updMgmt (fun m => { m with images := Tbl.set none m.images m.spareSlot (some image) }) = u) : execPldmFwTransfer ep smbus image s =
      .next (u.send (.pldm ep 4 [BitVec.ofNat 8 (bit01 (u.imageValid u.mgmt.spareSlot))])) := by
  subst hu
  exact if_neg (by simp [hupdates, hidle])
/-- A valid image in the spare slot is preferred, and activated at once unless it needs a cold reset. -/
theorem execPldmActivateFirmware_activates {cold : Bool}
    (hcold : (((Tbl.get none s.mgmt.images s.mgmt.spareSlot).map (fun i => i.coldOnly)).getD true || !s.mgmt.reeve) = cold) :
    execPldmActivateFirmware ep smbus s = .next (if s.imageValid s.mgmt.spareSlot then (s.updMgmt (fun m => { m with
      prefer := s.mgmt.spareSlot, activation := if cold then none else some { done := 0 } })).send (.pldm ep 5 [BitVec.ofNat 8 (bit01 cold)]) else s) := by
  subst hcold
  unfold execPldmActivateFirmware
  cases hv : s.imageValid s.mgmt.spareSlot <;> simp [hupdates, hidle, hv]
end

/-- The first step starts the new image on the standby reeve. -/
theorem execActivationStep_standby (ha : s.mgmt.activation = some { done := 0 }) : execActivationStep s =
    .next (s.updMgmt (fun m => { m with standby := true, activation := some { done := 1 } })) := by
  rw [execActivationStep, ha]
  rfl
/-- The second passes the device to it, once no load waits for a decision. -/
theorem execActivationStep_passes (ha : s.mgmt.activation = some { done := 1 }) (hundecided : s.undecided = false) : execActivationStep s =
    .next (s.updMgmt (fun m => { m with
      activeReeve := 1 - m.activeReeve, image := s.mgmt.spareSlot, standby := false, activation := some { done := 2 } })) := by
  rw [execActivationStep, ha]
  dsimp only
  rw [hundecided]
  rfl
/-- The fifth begins the roll of the gleaners' microcode. -/
theorem execActivationStep_rolls (ha : s.mgmt.activation = some { done := 4 }) : execActivationStep s =
    .next (s.updMgmt (fun m => { m with roll := some 0, rolling := false, activation := some { done := 5 } })) := by
  rw [execActivationStep, ha]
  rfl

variable {r : Nat} (hroll : s.mgmt.roll = some r)
include hroll

theorem execMicrocodeRollStep_holds (hrolling : s.mgmt.rolling = false) : execMicrocodeRollStep s = .next ((rollGleaners r).foldl
    (fun s g => s.updGleaner g (fun x => { x with holding := true })) (s.updMgmt (fun m => { m with rolling := true }))) := by
  unfold execMicrocodeRollStep
  rw [hroll]
  exact if_neg (by simp [hrolling])
/-- A batch of gleaners that is not the last takes the microcode and gives way to the next. -/
theorem execMicrocodeLoad_loads {failed : List Nat} (hrolling : s.mgmt.rolling = true) (hr : r < 27) (hquiet : (rollGleaners r).all s.quiet = true) {u : State}
    (hu : s.updMgmt (fun m => { m with rolling := false, roll := some (r + 1) }) = u) : execMicrocodeLoad failed s =
      .next (((rollGleaners r).foldl (fun s g => (s.updGleaner g (fun x => { x with
        holding := s.inRecovery (gleanerUnit g).1 (gleanerUnit g).2 })).drainQueue g) u).sendAll
          (((rollGleaners r).filter (fun g => failed.contains g)).map (fun g => Out.fault (faultOf 0x030A (gleanerUnit g).1 (gleanerUnit g).2)))) := by
  subst hu
  unfold execMicrocodeLoad
  rw [hroll, hrolling]
  have hlast : decide (27 ≤ r) = false := decide_eq_false (Nat.not_le.2 hr)
  dsimp only
  rw [hquiet, hlast]
  rfl
end

/-- Settles O58: each message as a running reeve takes it, and each step of an activation. The MCTP control codes and the messages' formats are the model's
(log 60). -/
theorem managementEndpointAndActivation : Obligations.ManagementEndpointAndActivation := by
  intro ep n value binding smbus image data failed s hb m tells
  dsimp only [exec]
  exact ⟨fun hreeve => ⟨execMctpControl_setsEid hreeve hb, execMctpControl_getsEid hreeve hb⟩,
    fun v hreeve hv => execPldmGetSensor_reads hreeve hv,
    fun hreeve => ⟨onReeve_runs hreeve, onReeve_runs hreeve, onReeve_runs hreeve⟩,
    fun hupdates hidle => execPldmFwTransfer_stores hupdates hidle rfl,
    fun hupdates hidle => execPldmActivateFirmware_activates hupdates hidle rfl,
    fun ⟨_⟩ ha => ⟨by rintro rfl; exact execActivationStep_standby ha, by rintro rfl hu; exact execActivationStep_passes ha hu,
      by rintro rfl; exact execActivationStep_rolls ha⟩,
    fun r hroll hrolling => execMicrocodeRollStep_holds hroll hrolling,
    fun r hroll hrolling hr hquiet => execMicrocodeLoad_loads hroll hrolling hr hquiet rfl⟩

/-! ### Bring-up (R560 to R566) -/

section
variable {s : State}

theorem execPowerOn_starts (hphase : s.mgmt.phase = .off) (htrip : s.mgmt.thermTrip = false) : execPowerOn s = .next (s.updMgmt (fun m => { m with
    phase := .bootRom, untested := (2 ^ 64 - 1) ^^^ (s.loft.out % 2 ^ 64) })) :=
  if_neg (by simp [hphase, htrip])
theorem execPwrGoodRise_notes (hphase : s.mgmt.phase ≠ .off) (hdip : s.mgmt.dipping = false) :
    execPwrGoodRise s = .next (s.updMgmt (fun m => { m with powerGood := true })) :=
  if_neg (by simp [hphase, hdip])
theorem execImageVerifyDone_boots (hphase : s.mgmt.phase = .bootRom) : execImageVerifyDone s = .next (match s.bootImage with
    | some n => s.updMgmt (fun m => { m with phase := .firmware, reeve := true, standby := true, image := n, activeReeve := 0 })
    | none => (s.updMgmt (fun m => { m with phase := .failed, failed := true, error := 1 })).noteReady) := by
  unfold execImageVerifyDone
  rw [if_neg (not_not_intro hphase)]
  cases s.bootImage <;> rfl
/-- The loft is trained; a package all of whose channels failed is an error. -/
theorem execLpddrTrainingDone_trains {failed : List Nat} {u : State} {lost : Bool} (hphase : s.mgmt.phase = .hbmTrained)
    (hu : s.trainingFailed ((failed.filter (fun n => decide (n < 64))).map (fun n => 384 + n)) = u)
    (hlost : ((List.range 32).all (fun i => u.loft.out.testBit i) || (List.range 32).all (fun i => u.loft.out.testBit (32 + i))) = lost) :
    execLpddrTrainingDone failed s = .next (u.updMgmt (fun m => { m with
      phase := .trained, trained := true, error := if lost then 3 else m.error })) := by
  subst hu hlost
  unfold execLpddrTrainingDone
  rw [if_neg (not_not_intro hphase)]
  simp only [List.any_cons, List.any_nil, Bool.or_false, Nat.zero_add]
end

/-- Settles O59: each step of bring-up in the phase that it names. -/
theorem bringUpReachesReady : Obligations.BringUpReachesReady := by
  intro absent failed cores clusters rows s
  dsimp only [exec]
  exact ⟨execPowerOn_starts, execPwrGoodRise_notes, execImageVerifyDone_boots, fun h => if_neg (not_not_intro h), fun h => if_neg (not_not_intro h),
    fun h => execLpddrTrainingDone_trains h rfl rfl, fun h => if_neg (not_not_intro h)⟩

/-! ### Power (R567 to R569, R588, R589) -/

section
variable {n : Nat} {s : State}

theorem execPowerLoss_powersDown (hphase : s.mgmt.phase ≠ .off) :
    execPowerLoss s = .next ((s.powerDown false).updMgmt (fun m => { m with thermTrip := false })) := by
  unfold execPowerLoss
  rw [decide_eq_false hphase]
  rfl
/-- With no reeve running a thermal trip is the hardware's alone, and nothing enters the history. -/
theorem execThermalTrip_powersDown (hphase : s.mgmt.phase ≠ .off) (hreeve : s.mgmt.reeve = false) (h1 : 1 ≤ n) (h32 : n ≤ 32) :
    execThermalTrip n s = .next ((s.powerDown false).updMgmt (fun m => { m with thermTrip := true })) := by
  have hrange : ¬ (s.mgmt.phase = .off ∨ n = 0 ∨ 32 < n) := by
    rintro (h | h | h)
    · exact hphase h
    · omega
    · omega
  unfold execThermalTrip
  rw [if_neg hrange, hreeve]
  rfl
theorem execThresholdCrossing_tells (h1 : 1 ≤ n) (h34 : n ≤ 34) : execThresholdCrossing n s =
    .next ((s.updSensor n (fun x => { x with above := true, seen := true })).send (.pldm 0 2 (natLE 1 n))) :=
  if_neg (by omega)
end

/-- Settles O60: each event under the condition that it names. A crossed threshold sends a PLDM event (R571, R593, log 55). -/
theorem powerFollowsItsLimits : Obligations.PowerFollowsItsLimits := by
  intro power average volts watts0 watts1 d n temps s hd
  dsimp only [exec]
  exact ⟨fun hreeve => if_neg (by simp [hreeve]), if_neg (Nat.not_le.2 hd), if_neg (Nat.not_le.2 hd), fun h => if_neg h, rfl, fun h => if_pos h,
    fun h => if_neg h, execPowerLoss_powersDown, execThermalTrip_powersDown, execThresholdCrossing_tells⟩

end Sys2Proof.Machine
end

section
/-!
PROOFS. Faults and integrity (spec 18, 19): fault records and teardowns (O53), recoveries (O54), and integrity checks (O55).
-/

namespace Sys2Proof.Machine

/-! ### Fault reports (R494 to R496) -/

/-- The state in which a fault has been given its serial number. -/
def State.numbered (s : State) : State := s.updFaults (fun x => { x with serial := x.serial + 1 })
/-- A context is torn down or being torn down. -/
def State.isDown (s : State) (c : Nat) : Bool := s.faults.teardowns.any (fun t => t.ctx == c) || decide ((s.ctx c).state = 2)

section
variable {s : State} {r : FaultReport} {c : Nat}

theorem numbered_isDown : s.numbered.isDown c = s.isDown c := rfl
theorem openTeardown_down (h : s.isDown c = true) : s.openTeardown c = (s, 0xFFFF) := if_pos (by simpa [State.isDown] using h)
theorem openTeardown_opens (h : s.isDown c = false) : s.openTeardown c = (s.updFaults (fun x => { x with
    captureHead := x.captureHead + 1
    teardowns := x.teardowns ++ [{ ctx := c, code := codeTornDown, slot := s.faults.captureHead.toNat, captured := false }] }),
    s.faults.captureHead.toNat) := if_neg (by simpa [State.isDown] using h)
theorem report_ofCtx (hkind : r.kind / 256 = 1) (hctx : r.ctx = some c) : s.report r =
    (s.numbered.openTeardown c).1.holdFault { r with action := 2, domain := 0 } s.faults.serial (s.numbered.openTeardown c).2 := by
  unfold State.report
  rw [hkind, hctx]
  rfl
theorem report_ofUnit (hkind : r.kind / 256 ≠ 1) (hrec : recoveryOf r = none) :
    s.report r = (s.numbered.channelsLost r).holdFault r s.faults.serial 0xFFFF := by
  unfold State.report
  split
  next hk _ => exact absurd hk hkind
  · rw [hrec]
    rfl
/-- A context's fault opens its teardown, unless one is open or the context is down. -/
theorem report_tears (hkind : r.kind / 256 = 1) (hctx : r.ctx = some c) : s.report r =
    if s.isDown c then s.numbered.holdFault { r with action := 2, domain := 0 } s.faults.serial 0xFFFF
    else (s.numbered.updFaults (fun x => { x with
      captureHead := x.captureHead + 1
      teardowns := x.teardowns ++ [{ ctx := c, code := codeTornDown, slot := s.faults.captureHead.toNat, captured := false }] })).holdFault
        { r with action := 2, domain := 0 } s.faults.serial s.faults.captureHead.toNat := by
  rw [report_ofCtx hkind hctx]
  cases h : s.isDown c with
  | true =>
    rw [openTeardown_down (numbered_isDown.trans h)]
    rfl
  | false =>
    rw [openTeardown_opens (numbered_isDown.trans h)]
    rfl
end

/-! ### Records and teardowns (R495, R497, R514) -/

section
variable {f c e : Nat} {v : Word32} {s : State}

theorem execMergeWindowExpire_records {h : HeldFault} (he : e < 2)
    (hh : s.faults.merge.find? (fun h => s.engineOf h.report.unitKind h.report.unit == e) = some h) : execMergeWindowExpire e s =
      .next ((((s.updFaults (fun x => { x with merge := x.merge.erase h })).recordDue h).countEvents h).discardPatterns) := by
  unfold execMergeWindowExpire
  rw [if_neg (Nat.not_le.2 he), hh]
theorem execFltTeardown_reports {p : Nat} (hf : f < 32) (hc : c < 256) (hready : s.mgmt.ready = true) (hpart : s.partOfCtx c = some p)
    (howns : s.ownsPart f p = true) : execFltTeardown f c s = .next (s.report { faultOf 0x0105 0 0 with ctx := some c, part := p, detail := f }) := by
  refine (onBar0_runs hf hready).trans ?_
  dsimp only
  rw [Nat.mod_eq_of_lt hc, hpart]
  exact if_pos howns
theorem execFltTailWrite_consumes (hf : f < 32) (hready : s.mgmt.ready = true) (hphys : f % 16 = 0)
    (hv : (v - s.faults.tail).toNat ≤ (s.faults.head - s.faults.tail).toNat) : execFltTailWrite f v s =
      .next (s.clearing (fun s =>
        let u := s.updFaults (fun x => { x with tail := v })
        if u.faults.unread = 0 then u.releaseOverflow else u.releaseOverflow.faultVectors)) :=
  (onBar0_runs hf hready).trans (if_neg (by simp only [hphys, serialBetween, decide_eq_true hv]; decide))
/-- A teardown that has been captured ends once the context's work has drained. -/
theorem execTeardownComplete_stops {t : Teardown} {u w : State} (hc : c < 256) (ht : s.faults.teardowns.find? (fun t => t.ctx == c) = some t)
    (hcaptured : t.captured = true) (hidle : s.ctxBusy c = false) (hu : (s.sendContextTags c).finishStopped c = u)
    (hw : u.setCtx c { u.ctx c with state := 2 } = w) : execTeardownComplete c s = .next { w with faults := { w.faults with
      teardowns := w.faults.teardowns.filter (fun t => t.ctx != c)
      ctxs := Tbl.set ctxFaultsReset w.faults.ctxs c { Tbl.get ctxFaultsReset w.faults.ctxs c with stopped := true } } } := by
  subst hu hw
  unfold execTeardownComplete
  rw [if_neg (Nat.not_le.2 hc), ht]
  exact if_neg (by simp [hcaptured, hidle])
end

/-- Settles O53: a report by whether it names a context (`report_tears`, `report_ofUnit`), and each command under the condition that it names. Faults count as
R534 says (log 50); that patterns are discarded as a merge window expires, and that tags are sent as a teardown completes, are the model's choices (logs 56
and 43). -/
theorem faultsAreRecordedAndContextsTornDown : Obligations.FaultsAreRecordedAndContextsTornDown := by
  intro f c e r v s hf hc he s0 isDown torn
  have htorn {c : Nat} {r : FaultReport} (hkind : r.kind / 256 = 1) (hctx : r.ctx = some c) : s.report r = torn c r := report_tears hkind hctx
  dsimp only [exec]
  exact ⟨fun hkind hctx => congrArg _ (htorn hkind hctx), fun hkind hrec => congrArg _ (report_ofUnit hkind hrec),
    fun p hready hpart howns => (execFltTeardown_reports hf hc hready hpart howns).trans (congrArg _ (htorn (by norm_num [faultOf]) rfl)),
    fun h hh => execMergeWindowExpire_records he hh, fun hready hphys hv => execFltTailWrite_consumes hf hready hphys hv,
    fun t ht hcaptured hidle => execTeardownComplete_stops hc ht hcaptured hidle rfl rfl⟩

/-! ### Recoveries (R499 to R512) -/

section
variable {e die slot unit : Nat} {written passed : Bool} {s : State}

theorem execCaptureDone_stopsContext {t : Teardown} (ht : s.faults.teardowns.find? (fun t => t.slot == slot && !t.captured) = some t) :
    execCaptureDone slot written s = .next (((s.writeCapture slot 0 0 0 (some t.ctx) written).updFaults (fun f => { f with
      teardowns := f.teardowns.map (fun x => if x.ctx = t.ctx then { x with captured := true } else x) })).stopContext t.ctx t.code) := by
  unfold execCaptureDone
  rw [ht]
theorem execCaptureDone_resets {r : Recovery} (ht : s.faults.teardowns.find? (fun t => t.slot == slot && !t.captured) = none)
    (hr : s.faults.recoveries.find? (fun r => r.slot == slot && r.running && !r.captured) = some r) :
    execCaptureDone slot written s = .next (((s.writeCapture slot r.domain r.unitKind r.unit r.ctx written).updFaults (fun f => { f with
      recoveries := f.recoveries.map (fun x => if x = r then { x with captured := true } else x) })).performReset r) := by
  unfold execCaptureDone
  rw [ht, hr]
theorem execRecoveryStart_starts {n : Nat} (he : e < 2) (hroom : (s.faults.recoveries.filter (fun x => x.engine == e && x.running)).length < 4)
    (hn : findIdxFrom (fun (x : Recovery) => x.engine == e && !x.running) s.faults.recoveries 0 = some n) :
    execRecoveryStart e s = .next (s.updFaults (fun f => { f with recoveries := f.recoveries.modify n (fun x => { x with running := true }) })) := by
  unfold execRecoveryStart
  dsimp only
  rw [if_neg (Nat.not_le.2 he), if_neg (Nat.not_le.2 hroom), hn]

/-- The recovery that the reset unit returns from. -/
theorem recovery_found {kind : Nat}
    (hr : s.faults.recoveries.any (fun r => r.unitKind == kind && r.unit == unit && r.captured) = true) :
    ∃ r, s.faults.recoveries.find? (fun r => r.unitKind == kind && r.unit == unit && r.captured) = some r := by
  obtain ⟨r, hmem, hp⟩ := List.any_eq_true.1 hr
  exact Option.isSome_iff_exists.1 (List.find?_isSome.2 ⟨r, hmem, hp⟩)
theorem execUnitResetDone_core (hr : s.faults.recoveries.any (fun r => r.unitKind == 1 && r.unit == unit && r.captured) = true) :
    execUnitResetDone 1 unit passed s = .next ((s.closeRecovery 1 unit).coresReturn (clusterOf unit)) := by
  obtain ⟨r, hr⟩ := recovery_found hr
  rw [execUnitResetDone, hr]
  rfl
theorem execUnitResetDone_cluster (hr : s.faults.recoveries.any (fun r => r.unitKind == 2 && r.unit == unit && r.captured) = true) :
    execUnitResetDone 2 unit passed s =
      .next ((((s.closeRecovery 2 unit).updCluster unit (fun x => { x with stopped := false })).coresReturn unit).dispatch unit) := by
  obtain ⟨r, hr⟩ := recovery_found hr
  rw [execUnitResetDone, hr]
  rfl

/-- The return of a die from its warm reset; that of an I/O die clears the engine that was lost with it. -/
theorem execWarmResetDone_returns {u : State} (hdie : die < 4) (hdown : s.mgmt.down.testBit die = true)
    (hu : (s.updMgmt (fun m => { m with down := clearBit m.down die }.retrainLinks die)).closeRecovery (if die < 2 then 15 else 16) (die % 2) = u) :
    execWarmResetDone die s = .next (if die < 2 then u else u.updFaults (fun f => { f with lost := clearBit f.lost (die - 2) })) := by
  subst hu
  exact (if_neg (Nat.not_le.2 hdie)).trans (if_neg (by simp [hdown]))
theorem execEngineHeartbeatTimeout_takesOver (he : e < 2) (hlost : s.faults.lost = 0) : execEngineHeartbeatTimeout e s =
    .next ((s.updFaults (fun f => { f with
      lost := 2 ^ (1 - e), status := f.status ||| 4, recoveries := f.recoveries.map (fun r => { r with engine := e }) })).report
        { faultOf 0x030C 9 (1 - e) with detail := e }) :=
  (if_neg (Nat.not_le.2 he)).trans (if_neg (by simp [hlost]))
end

/-- Settles O54: each command under the condition that it names. That the return of an I/O die clears the lost engine rests on R564 and log 54. -/
theorem recoveriesCaptureResetAndReturn : Obligations.RecoveriesCaptureResetAndReturn := by
  intro e die slot unit written passed s he hdie
  dsimp only [exec]
  refine ⟨fun t ht => execCaptureDone_stopsContext ht, fun r ht hr => execCaptureDone_resets ht hr, fun n hroom hn => execRecoveryStart_starts he hroom hn,
    execUnitResetDone_core, execUnitResetDone_cluster, if_neg (Nat.not_le.2 hdie), fun hdown => ⟨fun h => ?compute, fun h => ?io⟩,
    execEngineHeartbeatTimeout_takesOver he, if_neg (Nat.not_le.2 he)⟩
  case compute =>
    refine (execWarmResetDone_returns hdie hdown rfl).trans ?_
    rw [if_pos h, if_pos h]
  case io =>
    refine (execWarmResetDone_returns hdie hdown rfl).trans ?_
    rw [if_neg (Nat.not_lt.2 h), if_neg (Nat.not_lt.2 h)]

/-! ### Lockstep and self tests (R517 to R520) -/

section
variable {k c n : Nat} {s : State}

theorem execCoreLockstep_fails (hk : k < 192) (hphase : (s.core k).phase ≠ .stopped) :
    execCoreLockstep k n s = .next ((s.updCluster (clusterOf k) (fun y => { y with
      integrity := { y.integrity with lockstepCore := y.integrity.lockstepCore + 1 } })).coreFailed k 0x0301 n) :=
  (onCore_runs hk).trans (if_neg hphase)
theorem execClusterLockstep_stops (hc : c < 24) (hstopped : (s.cluster c).stopped = false) (hretired : (s.cluster c).retired = false) :
    execClusterLockstep c s = .next ((s.updCluster c (fun y => { y with
      stopped := true, integrity := { y.integrity with lockstepCluster := y.integrity.lockstepCluster + 1 } })).send (.fault (faultOf 0x0302 2 c))) :=
  (onCluster_runs hc).trans (if_neg (by simp [hstopped, hretired]))
theorem execClusterSelftestDone_retires (hc : c < 24) (hretired : (s.cluster c).retired = false) : execClusterSelftestDone c (some n) s =
    .next (((s.histEvent 2 6 c n 0 (HistEntry.permanent s.mgmt.service)).histEvent 2 0 c 0 0 (HistEntry.permanent s.mgmt.service)).retireCluster c) :=
  (onCluster_runs hc).trans (if_neg (by simp [hretired]))
end

/-! ### Diagnoses and harrow passes (R523 to R532) -/

section
variable {k : Nat} {differ : List (Nat × Int)} {ok : Bool} {s : State} (hk : k < 192)
include hk

theorem execColumnDiagnosis_starts (hphase : (s.core k).phase = .idle) (hitem : (s.core k).item = none) (hharrow : (s.core k).harrow.phase ≠ 2)
    (hpattern : s.patterns.any (fun p => p.core == k && p.confirmed) = true) :
    execColumnDiagnosis k s = .next (s.updCore k (fun y => { y with harrow := { y.harrow with diagnosing := true } })) :=
  (onCore_runs hk).trans (if_pos ⟨hphase, by rw [hitem]; rfl, hharrow, hpattern⟩)
theorem execDiagnosisDone_clears (hdiagnosing : (s.core k).harrow.diagnosing = true) : execDiagnosisDone k differ ok s =
    .next (((s.updCore k (fun y => { y with harrow := { y.harrow with diagnosing := false } })).diagnose k differ ok |>.coreCleared k).dispatch
      (clusterOf k)) :=
  (onCore_runs hk).trans (if_neg (by simp [hdiagnosing]))
theorem execHarrowDue_waits (henable : s.mgmt.harrowEnable = true) (hperm : (s.core k).harrow.permanent = false) (hphase : (s.core k).harrow.phase = 0) :
    execHarrowDue k s = .next (s.updCore k (fun y => { y with harrow := { y.harrow with phase := 1 } })) :=
  (onCore_runs hk).trans (if_neg (by simp [henable, hperm, hphase]))
theorem execHarrowStart_starts (hdue : (s.core k).harrow.phase = 1 ∨ (s.core k).harrow.phase = 3) (hphase : (s.core k).phase = .idle)
    (hitem : (s.core k).item = none) (hincoming : (s.core k).incoming = none) (hdiagnosing : (s.core k).harrow.diagnosing = false)
    (hothers : (List.range 8).any (fun j => (s.core (8 * clusterOf k + j)).harrow.phase == 2) = false)
    (hplans : s.betweenPlans (clusterOf k) = false) :
    execHarrowStart k s = .next (s.updCore k (fun y => { y with harrow := { y.harrow with phase := 2 } })) := by
  refine (onCore_runs hk).trans ?_
  dsimp only
  rw [hothers, hplans, hitem, hincoming, hdiagnosing]
  exact if_pos ⟨hdue, hphase, rfl, rfl, rfl, rfl, rfl⟩

section
variable {i : WorkItem} {a : Plan} {pool : StagePool} {b : Nat} (hitem : (s.core k).item = some i) (hpool : s.poolOf k = some (a, pool, b))
  (hphase : (s.core k).harrow.phase = 1)
include hitem hpool hphase

/-- A core that may not be pre-empted is left until its item ends. -/
theorem execHarrowDeferExpire_waits
    (h : pool.fullPreempt = false ∨ (s.cluster (clusterOf k)).sched.fullDisable = true ∨ (s.core k).saved.isSome = true) :
    execHarrowDeferExpire k s = .next (s.updCore k (fun y => { y with harrow := { y.harrow with phase := 3 } })) := by
  refine (onCore_runs hk).trans ?_
  dsimp only
  rw [hitem, hpool]
  exact (if_neg (not_not_intro hphase)).trans (if_pos (by simpa using h))
theorem execHarrowDeferExpire_quiesces (hfull : pool.fullPreempt = true) (hdisable : (s.cluster (clusterOf k)).sched.fullDisable = false)
    (hsaved : (s.core k).saved = none) (hrunning : (s.core k).phase = .running) (hroom : (s.cluster (clusterOf k)).preempts.length < 2) :
    execHarrowDeferExpire k s = .next (s.startQuiesce k none) := by
  refine (onCore_runs hk).trans ?_
  dsimp only
  rw [hitem, hpool]
  exact (if_neg (not_not_intro hphase)).trans ((if_neg (by simp [hfull, hdisable, hsaved])).trans (if_neg (by simp [hrunning, hroom])))
end

/-- A pass without a failure of a core that is neither suspect nor lost, and has nothing saved: the core takes work again. -/
theorem execHarrowComplete_passes {passed cleared : State} (hphase : (s.core k).harrow.phase = 2) (hsuspect : (s.core k).harrow.suspect = false)
    (hpassed : s.updCore k (fun y => { y with harrow := { y.harrow with
      phase := 0, lastFailed := false, passedAt := s.mgmt.service, passes := y.harrow.passes + 1 } }) = passed)
    (hcleared : (passed.diagnose k differ ok).coreCleared k = cleared) (hperm : (passed.core k).harrow.permanent = false)
    (hsaved : (cleared.core k).saved = none) : execHarrowComplete k none differ ok s = .next (cleared.dispatch (clusterOf k)) := by
  refine (onCore_runs hk).trans ?_
  dsimp only
  rw [if_neg (not_not_intro hphase), hsuspect]
  subst hcleared hpassed
  simp only [Option.isSome_none, Bool.false_eq_true, false_and, if_false]
  rw [hperm]
  simp only [Bool.false_eq_true, if_false]
  rw [hsaved]
  rfl
end

/-! ### The history, service time and traffic tests (R534 to R541) -/

section
variable {entry f n g errors : Nat} {s : State}

theorem execHistoryWriteDone_flashes {e : HistEntry} (he : s.mgmt.hist.entries[entry]? = some e)
    (hpending : s.mgmt.hist.pending.any (fun p => p.entry == entry) = true) {seqs : List Nat}
    (hseqs : (s.mgmt.hist.pending.filter (fun p => p.entry == entry)).map (fun p => Tbl.get 0 s.faults.sequences p.serial) = seqs) :
    execHistoryWriteDone entry s = .next ((s.updHist (fun h => { h with
      flash := (s.mgmt.hist.flash ++ List.replicate (entry + 1 - s.mgmt.hist.flash.length) (histBlank 0 0 0 0)).set entry e
      pending := s.mgmt.hist.pending.filter (fun p => p.entry != entry) })).updFaults (fun f => { f with
        records := Tbl.mapWhere [] f.records (fun _ b => fieldLE b 0 4 != 0 && seqs.contains (fieldLE b 0 4)) (fun b => b.set 7 (b.getD 7 0 ||| 16)) })) := by
  subst hseqs
  unfold execHistoryWriteDone
  dsimp only
  rw [he, hpending]
  rfl
theorem execHistSelect_selects (hf : f < 32) (hready : s.mgmt.ready = true) (hphys : f % 16 = 0) (hn : n < 4096) :
    execHistSelect f n s = .next (s.updHist (fun h => { h with select := n, window := h.entries[n]? })) := by
  refine (onBar0_runs hf hready).trans ((if_neg (not_not_intro hphys)).trans ?_)
  rw [Nat.mod_eq_of_lt hn]

section
variable (hg : g < 448) (hphase : (s.gleaner g).test.phase = 1) (hmode : (s.gleaner g).test.mode < 2)
include hg hphase hmode

theorem execTrafficTestDone_passes (hgranary : g < 384) : execTrafficTestDone g 0 s = .next (s.updGleaner g (fun x => { x with test := { x.test with
    phase := 2, suspect := x.test.suspect && !(x.test.mode == 1) } })) := by
  have hloft : isLoft g = false := by simp [isLoft, hgranary]
  refine (onGleaner_runs hg).trans ?_
  dsimp only
  rw [if_neg (not_not_intro hphase), if_neg (Nat.not_le.2 hmode), hloft]
  simp
theorem execTrafficTestDone_fails {u : State} (herrors : 0 < errors) (hu : s.updGleaner g (fun x => { x with test := { x.test with
    phase := 3, errors := x.test.errors + BitVec.ofNat 32 errors, failedSeen := true } }) = u) :
    execTrafficTestDone g errors s = .next (if u.mappedOut g then u else u.mapOut g true) := by
  have hbad : (errors == 0) = false := by simp [Nat.ne_of_gt herrors]
  subst hu
  refine (onGleaner_runs hg).trans ?_
  dsimp only
  rw [if_neg (not_not_intro hphase), if_neg (Nat.not_le.2 hmode), hbad]
  simp
end
end

/-- Settles O55: each command under the condition that it names; lockstep is R517 and R518. That FULL_DISABLE leaves a due pass until the item ends, and the
60 buckets of one minute, are the model's (logs 51 and 56). -/
theorem integrityChecksAct : Obligations.IntegrityChecksAct := by
  intro k c n f entry g errors differ ok s hk hc hg hf x now
  dsimp only [exec]
  exact ⟨execCoreLockstep_fails hk, execClusterLockstep_stops hc, ⟨onCluster_runs hc, execClusterSelftestDone_retires hc⟩,
    execColumnDiagnosis_starts hk, execDiagnosisDone_clears hk, execHarrowDue_waits hk, execHarrowStart_starts hk,
    fun i a pool b hitem hpool hphase => ⟨execHarrowDeferExpire_waits hk hitem hpool hphase, execHarrowDeferExpire_quiesces hk hitem hpool hphase⟩,
    fun hphase hsuspect _ _ hperm hsaved => execHarrowComplete_passes hk hphase hsuspect rfl rfl hperm hsaved,
    fun e he hpending => execHistoryWriteDone_flashes he hpending rfl, rfl, execHistSelect_selects hf, execTrafficTestDone_passes hg,
    fun hphase hmode herrors => execTrafficTestDone_fails hg hphase hmode herrors rfl⟩

end Sys2Proof.Machine
end

section
/-!
PROOFS. Maintenance commands (spec 19 R543, R544, spec 20 R556 to R559; O56): what each does once the checks let it run, and then how it is judged.
-/

namespace Sys2Proof.Machine

/-! ### The judgement (R557) -/

/-- The state that a command taken in `s` leaves: where every check passes, `t` with the command's own answer, and otherwise the answer to the first check
that fails, the nonce used up from the third on. -/
def State.judged (s : State) (ep : Nat) (msg : List Byte) (t : State) (outcome : Nat) (data : List Byte) : State :=
  match s.maintCheck ep msg with
  | 0 => t.manage ep outcome data
  | n => (if n = 2 ∨ n = 4 then s else s.dropNonce ep).manage ep n []

section
variable {ep : Nat} {msg : List Byte} {s : State} (hreeve : s.mgmt.reeve = true)
include hreeve

theorem maintenance_judged {command outcome : Nat} {data : List Byte} {t : State} {body : State → List Byte → State × Nat × List Byte}
    (hm : isMaint command msg = true) (hbody : body (s.dropNonce ep) (maintPayload msg) = (t, outcome, data)) :
    maintenance command ep msg s body = .next (s.judged ep msg t outcome data) := by
  rw [maintenance_runs hreeve hm, hbody]
  rfl

/-! ### Keys (R556, R558) -/

section
variable {k : KeySlot} {p : List Byte} {u : State} (hp : maintPayload msg = p) (hu : s.dropNonce ep = u)
include hp hu

theorem execKeyEnroll_enrolls (hm : isMaint 1 msg = true) (hk : u.keySlot (fieldLE p 0 1) (fieldLE p 1 1) = some k) (hfree : k.state ≠ 1)
    (hlen : p.length = 103) : execKeyEnroll ep msg s = .next (s.judged ep msg (u.setKeySlot (fieldLE p 0 1) (fieldLE p 1 1) {
      state := 1, key := beNat ((p.drop 2).take 97), floor := if fieldLE p 0 1 = 0 then max (fieldLE p 99 4) k.floor else 0 }) 0 []) := by
  refine maintenance_judged hreeve hm ?_
  subst hp hu
  dsimp only
  rw [hk]
  exact if_neg (by simp [hfree, hlen])
theorem execKeyRevoke_revokes (hm : isMaint 2 msg = true) (hk : u.keySlot (fieldLE p 0 1) (fieldLE p 1 1) = some k)
    (hspare : ¬ (fieldLE p 0 1 = 1 ∧ k.state = 1 ∧ u.maintActive = 1)) :
    execKeyRevoke ep msg s = .next (s.judged ep msg (u.setKeySlot (fieldLE p 0 1) (fieldLE p 1 1) { k with state := 2 }) 0 []) := by
  refine maintenance_judged hreeve hm ?_
  subst hp hu
  dsimp only
  rw [hk]
  exact if_neg hspare

/-! ### History, tests and images (R544, R558) -/

theorem execHistoryClear_clears (hm : isMaint 4 msg = true) (hn : fieldLE p 0 2 = 0xFFFF ∨ fieldLE p 0 2 < u.mgmt.hist.entries.length) :
    execHistoryClear ep msg s = .next (s.judged ep msg ((u.editHist (fun i e =>
      if fieldLE p 0 2 = 0xFFFF then e.unitKind == fieldLE p 2 1 && e.unit == fieldLE p 3 2 else i == fieldLE p 0 2) HistEntry.cleared).updHist
        (fun h => { h with full := false })) 0 []) := by
  refine maintenance_judged hreeve hm ?_
  subst hp hu
  exact if_neg fun h => hn.elim h.1 (Nat.not_lt.2 h.2)
theorem execTestStart_starts (hm : isMaint 5 msg = true) (hg : fieldLE p 0 2 < 448) (hmode : fieldLE p 2 1 < 4)
    (hidle : (u.gleaner (fieldLE p 0 2)).test.phase ≠ 1) : execTestStart ep msg s = .next (s.judged ep msg (u.updGleaner (fieldLE p 0 2) (fun x => { x with
      test := { x.test with phase := 1, mode := fieldLE p 2 1 } })) 0 []) := by
  refine maintenance_judged hreeve hm ?_
  subst hp hu
  refine if_neg ?_
  rintro (h | h | h)
  · exact Nat.not_lt.2 h hg
  · exact Nat.not_lt.2 h hmode
  · exact hidle h
theorem execImagePrefer_prefers (hm : isMaint 6 msg = true) (hlen : p.length = 1) (hslot : fieldLE p 0 1 < 2) :
    execImagePrefer ep msg s = .next (s.judged ep msg (u.updMgmt (fun m => { m with prefer := fieldLE p 0 1 })) 0 []) := by
  refine maintenance_judged hreeve hm ?_
  subst hp hu
  exact if_pos ⟨hlen, hslot⟩
end

/-! ### The debug port (R555, R576) -/

section
variable {u : State} (hu : s.dropNonce ep = u)
include hu

theorem execDebugUnlock_opens (hm : isMaint 7 msg = true) (hlock : u.mgmt.debugLock = false) :
    execDebugUnlock ep msg s = .next (s.judged ep msg (u.updMgmt (fun m => { m with debugOpen := true })) 0 []) := by
  refine maintenance_judged hreeve hm ?_
  subst hu
  exact if_neg (by simp [hlock])

/-! ### Repair of a stack (R543) -/

section
variable {g : Nat} {rows : List Nat} {resources passed : Bool} (hg : g < 448) (hm : isMaint 3 msg = true)
include hg hm

theorem execStackRepair_refuses (hout : u.isOut g = false) :
    execStackRepair ep msg g rows resources passed s = .next (s.judged ep msg u 5 (natLE 1 3)) := by
  refine (onGleaner_runs hg).trans (maintenance_judged hreeve hm ?_)
  subst hu
  exact if_pos (by simp [hout])

variable (hout : u.isOut g = true)
include hout

theorem execStackRepair_lacks : execStackRepair ep msg g rows false passed s = .next (s.judged ep msg u 0 (natLE 1 1)) := by
  refine (onGleaner_runs hg).trans (maintenance_judged hreeve hm ?_)
  subst hu
  exact if_neg (by simp [hout])
theorem execStackRepair_fails : execStackRepair ep msg g rows true false s = .next (s.judged ep msg
    (u.updGleaner g (fun x => { x with test := { x.test with phase := 3, mode := 3, failedSeen := true } })) 0 (natLE 1 2)) := by
  refine (onGleaner_runs hg).trans (maintenance_judged hreeve hm ?_)
  subst hu
  exact if_neg (by simp [hout])
/-- A repair that the test confirms: the rows named, or else all that were found bad, count as good again and the channel returns. -/
theorem execStackRepair_returns {named : List Nat} {mended : State} (hnamed : (if rows.isEmpty then (u.gleaner g).test.hardRows else rows) = named)
    (hmended : u.updGleaner g (fun x => { x with test := { x.test with
      phase := 2, mode := 3, suspect := false, hardRows := x.test.hardRows.filter (fun r => !named.contains r), found := [] } }) = mended) :
    execStackRepair ep msg g rows true true s = .next (s.judged ep msg ((mended.editHist (fun _ e => e.unitKind == (gleanerUnit g).1 && e.part == 5 &&
      e.unit == (gleanerUnit g).2 && named.contains e.index) (fun e => { e with state := 3 })).returnChannel g) 0 (natLE 1 0)) := by
  refine (onGleaner_runs hg).trans (maintenance_judged hreeve hm ?_)
  subst hu hmended hnamed
  exact if_neg (by simp [hout])
end
end
end

/-- Settles O56: each command by the lemma of its effect, under `maintenance_judged`. STACK_REPAIR's operands and its codes 0 to 3 in DETAIL are the model's
(log 56). -/
theorem maintenanceCommandsAreJudgedThenRun : Obligations.MaintenanceCommandsAreJudgedThenRun := by
  intro ep g msg rows resources passed s hg hreeve p u judged done
  dsimp only [exec]
  exact ⟨fun k hm hk hfree hlen => execKeyEnroll_enrolls hreeve rfl rfl hm hk hfree hlen,
    fun k hm hk hspare => execKeyRevoke_revokes hreeve rfl rfl hm hk hspare,
    fun hm => ⟨execStackRepair_refuses hreeve rfl hg hm, by rintro hout rfl; exact execStackRepair_lacks hreeve rfl hg hm hout,
      by rintro hout rfl rfl; exact execStackRepair_fails hreeve rfl hg hm hout,
      by rintro hout rfl rfl; exact execStackRepair_returns hreeve rfl hg hm hout rfl rfl⟩,
    fun hm hn => execHistoryClear_clears hreeve rfl rfl hm hn, fun hm h0 hmode hidle => execTestStart_starts hreeve rfl rfl hm h0 hmode hidle,
    fun hm hlen hslot => execImagePrefer_prefers hreeve rfl rfl hm hlen hslot, fun hm hlock => execDebugUnlock_opens hreeve rfl hm hlock,
    fun hm => maintenance_judged hreeve hm rfl⟩

end Sys2Proof.Machine
end

section
/-!
PROOFS. The links (spec 17): data packets (O44), acknowledgements and probes (O46), and the rings and entries (O49).
-/

namespace Sys2Proof.Machine

/-! ### Data packets (R471, R472) -/

section
variable {u : State} {k i vc psn : Nat} {ce : Bool} {pkt : List Byte} {f : State → State} (hvc : fieldLE pkt 1 1 = vc) (hpsn : fieldLE pkt 0x0C 3 = psn)
  (hnew : psn ≠ (u.stream k vc).expected)
include hvc hpsn hnew

/-- A packet that was taken before is acknowledged again. -/
theorem deliver_duplicate (hbelow : psnBelow psn (u.stream k vc).expected = true) : u.deliver k i ce pkt f =
    if (fieldLE pkt 0x16 2).testBit 1 then (u.updStream k vc (fun x => { x with ackDue := true, ackPath := i, echo := x.echo || ce })).sendAck k vc i 1
    else u.updStream k vc (fun x => { x with ackDue := true, ackPath := i, echo := x.echo || ce }) := by
  subst hvc hpsn
  exact (if_neg hnew).trans (if_pos hbelow)
/-- A packet beyond a gap draws a NAK. -/
theorem deliver_gap (hbelow : psnBelow psn (u.stream k vc).expected = false) (hnak : (u.stream k vc).lastNak = none) : u.deliver k i ce pkt f =
    (u.updStream k vc (fun x => { x with lastNak := some u.devTime, echo := x.echo || ce })).sendAck k vc i 2 := by
  subst hvc hpsn
  exact (if_neg hnew).trans ((if_neg (by simp [hbelow])).trans (if_neg (by simp [hnak])))
end

/-- What an operation does with a packet that its stream takes (R479). -/
def requestBody (op : Nat) : State → Nat → Bool → Nat → Nat → Nat → List Byte → State :=
  match op with
  | 0 => State.remoteWrite
  | 1 => State.remoteRead
  | 0x80 => fun s _ _ k vc _ body => s.takeResponse k vc body
  | _ => State.remoteRowOp

/-- Settles O44: the command of each operation hands the packet to `deliver` (`onRequest_receives`), which takes the one expected and only acknowledges
a duplicate or one beyond a gap. -/
theorem dataPacketsAreDeliveredInOrder : Obligations.DataPacketsAreDeliveredInOrder := by
  intro p half frame op k i ce pkt u s h vc psn flags st path taken ack node body runs command c hc
  have hrun : exec c s = onRequest p half frame op s (requestBody op) := by
    simp only [command] at hc
    split at hc <;> cases hc <;> rfl
  have hexec := hrun.trans (onRequest_receives h)
  refine ⟨fun hpsn hroom => ?taken, fun hnew hbelow => hexec.trans (congrArg _ (deliver_duplicate rfl rfl hnew hbelow)),
    fun hnew hbelow hnak => hexec.trans (congrArg _ (deliver_gap rfl rfl hnew hbelow hnak))⟩
  case taken =>
    rw [deliver_expected hpsn hroom] at hexec
    refine ⟨?_, ?_, ?_, ?_⟩
    · rintro rfl; exact hexec
    · rintro rfl; exact hexec
    · rintro (rfl | rfl | rfl | rfl | rfl) <;> exact hexec
    · rintro rfl; exact hexec

/-! ### Acknowledgements, NAKs and probes (R465, R472, R473, R482, R484) -/

section
variable {p k i : Nat} {half ce : Bool} {frame pkt : List Byte} {s u : State}

section
variable {v : State} (h : s.receives p half frame 3 0 u k i ce pkt) (hv : (peerVcs (u.peerEntry k)).foldl (fun s v => s.updStream k v (fun x => { x with
  reserved := Tbl.set false x.reserved (halfUnit p half) true })) u = v)
include h hv

/-- A probe of a peer that is down proposes the prober's epoch and is answered with the next of this side. -/
theorem execIgrumProbe_proposes (hdown : (v.peer k).down = true) : execIgrumProbe p half frame s =
    .next ((v.updPeer k (fun q => { q with proposal := some (fieldLE pkt 0x0F 1) })).sendReplies k i (((v.peer k).epoch + 1) % 256)) := by
  subst hv
  exact (onFrame_receives h).trans (congrArg _ (if_pos hdown))
theorem execIgrumProbe_answers (hdown : (v.peer k).down = false) (hepoch : fieldLE pkt 0x0F 1 = (v.peer k).epoch) :
    execIgrumProbe p half frame s = .next (v.sendReplies k i (v.peer k).epoch) := by
  subst hv
  exact (onFrame_receives h).trans (congrArg _ ((if_neg (by simp [hdown])).trans (if_neg (fun hnew => hnew.1 hepoch))))
end

section
variable (h : s.receives p half frame 4 0 u k i ce pkt)
include h

/-- The answer to the probe of a path makes that path the active one. -/
theorem execIgrumProbeReply_activates (hprobing : (s.peer k).probing = some i) : execIgrumProbeReply p half frame s =
    .next ((u.updPeer k (fun q => { q with probing := none, active := i })).resend k (fieldLE pkt 1 1)) := by
  refine (onEth_runs h.1).trans ((onFrame_receives h).trans (congrArg _ ?_))
  exact if_pos hprobing
theorem execIgrumProbeReply_resends (hprobing : (s.peer k).probing ≠ some i) (hup : (s.peer k).pathsUp.testBit i = true) (hactive : (s.peer k).active = i)
    (hepoch : fieldLE pkt 0x0F 1 = (s.peer k).epoch) : execIgrumProbeReply p half frame s = .next (u.resend k (fieldLE pkt 1 1)) := by
  refine (onEth_runs h.1).trans ((onFrame_receives h).trans (congrArg _ ?_))
  exact (if_neg hprobing).trans ((if_pos hup).trans (if_pos ⟨hactive, hepoch⟩))
end
end

/-- Settles O46: the frame is taken as `onFrame_receives` says, and its command acts on the state after the acknowledgement that it carries. That a probe is
answered once for each VC is the model's reading (log 40). -/
theorem acknowledgementsAndProbesAreTaken : Obligations.AcknowledgementsAndProbesAreTaken := by
  intro p half frame type k i ce pkt u s h vc st
  dsimp only [exec]
  refine ⟨?ack, ?nak, ?probe, ?activates, ?resends⟩
  case ack => rintro rfl; exact onFrame_receives h
  case nak => rintro rfl; exact onFrame_receives h
  case probe => rintro rfl; exact ⟨execIgrumProbe_proposes h rfl, execIgrumProbe_answers h rfl⟩
  case activates => rintro rfl; exact execIgrumProbeReply_activates h
  case resends => rintro rfl; exact execIgrumProbeReply_resends h

/-! ### Rings and operations (R475 to R478) -/

section
variable {n : Nat} {s : State} (hn : n < 128) (hvalid : entryValid (s.ringEntry n) = true) (htorn : s.torn (entryCtx (s.ringEntry n)) = false)
  {slots : Nat} {slot : List Byte} {u : State} (hslots : 2 ^ fieldLE (s.ringEntry n) 2 1 = slots)
  (hslot : s.physBytes (s.physRun (entryCtx (s.ringEntry n)) (fieldLE (s.ringEntry n) 8 8 + 64 * ((s.ring n).next % slots)) 64) = slot)
  (hlen : slot.length = 64) (hsealed : slotSealed slots (s.ring n).next slot = true)
  (hu : s.updRing n (fun r => { r with next := r.next + 1, lastYield := s.devTime }) = u)

/-- The operation that the slot at the front of a ring becomes. -/
def State.slotOp (u : State) (n index ctx : Nat) (slot : List Byte) : SendOp :=
  { serial := u.links.serial, ring := n, index := index, ctx := ctx, slot := slot, tag := u.links.serial % 2 ^ 32
    nextPacket := 0, sent := false, respCells := 0, got := 0, status := 0, aborted := false }
/-- What becomes of a sealed slot, the ring having gone on to the next. -/
def State.takeSlotOp (u : State) (n index : Nat) (e slot : List Byte) : State :=
  match u.slotFault e slot with
  | some st => u.ringComplete n index slot st 0 0 0
  | none =>
    if (u.peer (fieldLE slot 2 1)).down then u.ringComplete n index slot 5 0 0 0
    else
      let v := u.updStream (fieldLE slot 2 1) (fieldLE slot 1 1 / 4 % 8) (fun x => { x with ops := x.ops ++ [u.slotOp n index (entryCtx e) slot] })
      { v with links := { v.links with serial := v.links.serial + 1 } }

include hn hvalid htorn hslots hslot hlen hsealed hu in
theorem execSendRingPoll_takes : execSendRingPoll n s = .next (u.takeSlotOp n (s.ring n).next (s.ringEntry n) slot) := by
  unfold execSendRingPoll
  dsimp only
  rw [if_neg (Nat.not_le.2 hn), hvalid, htorn, hslots, hslot, hlen, hsealed, hu]
  simp only [Bool.not_true, Bool.false_eq_true, or_self, lt_irrefl, if_false]
  unfold State.takeSlotOp
  cases u.slotFault (s.ringEntry n) slot with
  | some st => rfl
  | none => cases (u.peer (fieldLE slot 2 1)).down <;> rfl
end

/-- An operation that nothing holds back sends its packets. -/
theorem execSendOperation_sends {k vc : Nat} {s : State} {o : SendOp} {pe : List Byte} (hk : k < 128) (hvc : vc < 8)
    (ho : (s.stream k vc).ops.find? (fun o => !o.sent) = some o)
    (hpe : s.pathEntry ((peerPath (s.peerEntry k) (s.peer k).active).getD 0) = pe) (hdown : (s.peer k).down = false) (hprobing : (s.peer k).probing = none)
    (hnode : s.links.regs.node ≠ 0) (hup : (s.eth (pathPort pe)).up (pathHalf pe) = true) (hpaused : s.vcPaused vc pe = false)
    (hfence : (fieldLE o.slot 1 1).testBit 0 = false)
    (hroom : o.nextPacket ≠ 0 ∨ (s.stream k vc).responseCells + responseCells o.slot + s.heldCells k vc ≤ fieldLE (s.peerEntry k) 0x0A 2) :
    execSendOperation k vc s = .next (sendPackets 17 s k vc o) := by
  refine (onStream_runs hk hvc).trans ?_
  dsimp only
  rw [ho, hpe]
  exact if_neg (by simpa [hdown, hprobing, hup, hpaused, hfence] using And.intro hnode fun h => hroom.resolve_left (not_not_intro h))

/-! ### IGT_ENTRY_SELECT (R461, R487) -/

section
variable {f kind m : Nat} {value : Word32} {s : State} {new : List Byte} (hf : f < 32) (hready : s.mgmt.ready = true)
  (hkind : value.toNat % 4 = kind) (hm : value.toNat / 4 % 256 = m)
include hf hready hkind hm

theorem execIgtEntryRead_reads (hbit : value.getLsbD 10 = true) (h3 : kind ≠ 3) (hrange : kind = 1 ∨ m < 128) (howns : s.ownsEntry f kind m = true)
    {held : List Byte} (hheld : (if kind = 0 then s.peerEntry m else if kind = 1 then s.pathEntry m else s.ringEntry m) = held) :
    execIgtEntryRead f value s = .next (((s.entrySelect value).updIgt (fun r => { r with
      data := Tbl.setRun 0 r.data 0 ((List.range 16).map (fun i => BitVec.ofNat 32 (fieldLE held (4 * i) 4))) })).entryResult 1) := by
  refine (onBar0_runs hf hready).trans ?_
  dsimp only
  rw [hbit, hkind, hm, howns, hheld]
  simp only [Bool.not_true, Bool.false_eq_true, if_false]
  rw [if_neg]
  rintro (h | h | h)
  · exact h3 h
  · exact hrange.elim h.1 (Nat.not_lt.2 h.2)
  · exact h

section
variable (hnew : s.links.regs.entry = new) (hbit : value.getLsbD 11 = true) (hrange : m < 128) (howns : s.ownsCtx f (entryCtx new) = true)
include hnew hbit hrange howns

theorem execIgtEntryWrite_ring (h2 : kind = 2) (hold : entryValid (s.ringEntry m) = false ∨ s.ownsCtx f (entryCtx (s.ringEntry m)) = true)
    (hok : s.ringFieldsOk m new = true) :
    execIgtEntryWrite f value s = .next (((s.entrySelect value).applyEntry kind m new).entryResult 1) := by
  have hothers : ¬ (entryValid (s.ringEntry m) = true ∧ (!s.ownsCtx f (entryCtx (s.ringEntry m))) = true) := by
    obtain h | h := hold <;> simp [h]
  refine (onBar0_runs hf hready).trans ?_
  subst h2
  dsimp only
  rw [hbit, hkind, hm, hnew, howns]
  simp only [Bool.not_true, Bool.false_eq_true, if_false, if_true, false_or, Nat.not_le.2 hrange, hothers, hok]
theorem execIgtEntryWrite_peer (h0 : kind = 0) (hold : entryValid (s.peerEntry m) = false ∨ s.ownsCtx f (entryCtx (s.peerEntry m)) = true)
    (hfree : entryValid (s.peerEntry m) = false ∨ entryValid new = false) (hok : s.peerFieldsOk new = true) (hports : s.peerPortsHeld new = true)
    (hcredits : entryValid new = false ∨ s.peerCreditsOk m new = true) :
    execIgtEntryWrite f value s = .next (((s.entrySelect value).applyEntry kind m new).entryResult 1) := by
  have hothers : ¬ (entryValid (s.peerEntry m) = true ∧ (!s.ownsCtx f (entryCtx (s.peerEntry m))) = true) := by
    obtain h | h := hold <;> simp [h]
  have hboth : ¬ (entryValid (s.peerEntry m) = true ∧ entryValid new = true) := by
    obtain h | h := hfree <;> simp [h]
  have hlacks : ¬ (entryValid new = true ∧ (!s.peerCreditsOk m new) = true) := by
    obtain h | h := hcredits <;> simp [h]
  refine (onBar0_runs hf hready).trans ?_
  subst h0
  dsimp only
  rw [hbit, hkind, hm, hnew, howns]
  simp only [Bool.not_true, Bool.false_eq_true, if_false, if_true, or_self, Nat.not_le.2 hrange, hothers, hboth, hlacks, hok, hports]
end
end

/-- Settles O49: a polled slot by what it asks (`execSendRingPoll_takes`), an operation's packets, and the entries of each kind. The tag is the serial number
modulo 2^32 as the model chooses it (log 42). -/
theorem ringsSendAndEntriesAreWritten : Obligations.RingsSendAndEntriesAreWritten := by
  intro n k vc f value s hn hk hvc hf e ctx r slots slot u
  dsimp only [exec]
  refine ⟨fun hvalid htorn hlen hsealed => ?poll,
    fun o ho hdown hprobing hnode hup hpaused hfence hroom =>
      execSendOperation_sends hk hvc ho rfl hdown hprobing hnode hup hpaused hfence hroom,
    fun hready =>
      ⟨fun hbit h3 hrange howns => execIgtEntryRead_reads hf hready rfl rfl hbit h3 hrange howns rfl,
        fun hbit h2 hrange howns hold hok => execIgtEntryWrite_ring hf hready rfl rfl rfl hbit hrange howns h2 hold hok,
        fun hbit h0 hrange howns hold hfree hok hports hcredits =>
          execIgtEntryWrite_peer hf hready rfl rfl rfl hbit hrange howns h0 hold hfree hok hports hcredits⟩⟩
  case poll =>
    have hpoll := execSendRingPoll_takes hn hvalid htorn rfl rfl hlen hsealed rfl
    refine ⟨fun st hst => ?refused, fun hnone hdown => ?down, fun hnone hdown => ?runs⟩
    case refused => rwa [State.takeSlotOp, hst] at hpoll
    case down => rwa [State.takeSlotOp, hnone, hdown] at hpoll
    case runs => rwa [State.takeSlotOp, hnone, hdown] at hpoll

end Sys2Proof.Machine
end

section
/-!
PROOFS. Full pre-emption (spec 16; O42): inherited priorities, the end of the quiesce, of the save and of the resume.
-/

namespace Sys2Proof.Machine

/-! ### Priorities (R432, R439, R441) -/

/-- The contexts of a partition take their priorities, each being one of its own. -/
theorem execPriorityUpdate_inherits {p : Nat} {s : State} {d : PartitionDesc} {cs : List Nat} (hp : p < 8) (hd : (s.part p).desc = some d)
    (hcs : (List.range d.contexts.2).map (· + d.contexts.1) = cs) :
    execPriorityUpdate p s = .next ((bitsSet d.clusters 24).foldl (fun s c => s.preemptCheck c)
      { s with inherited := cs.foldl (fun (t : Tbl Nat) c => Tbl.set 0 t c (Tbl.get 0 s.inheritance c)) s.inherited }) := by
  have hown : cs.foldl (fun (t : Tbl Nat) c => Tbl.set 0 t c
      (if decide (d.contexts.1 ≤ c) && decide (c < d.contexts.1 + d.contexts.2) then Tbl.get 0 s.inheritance c else 0)) s.inherited =
      cs.foldl (fun (t : Tbl Nat) c => Tbl.set 0 t c (Tbl.get 0 s.inheritance c)) s.inherited := by
    subst hcs
    refine List.foldl_ext _ _ _ fun t c hc => ?_
    obtain ⟨j, hj, rfl⟩ := List.mem_map.1 hc
    have hj' : j < d.contexts.2 := List.mem_range.1 hj
    rw [if_pos (by simp; omega)]
  refine (onPart_runs hp).trans ?_
  dsimp only
  rw [hd]
  dsimp only
  rw [hcs, hown]

/-! ### The end of the quiesce (R442, R443) -/

/-- The pre-emption is still wanted: the waiting item is on its list and may be served by the core, or it is the harrow that waits. -/
def State.wantedBy (s : State) (c k : Nat) (q : Preemption) : Prop :=
  q.waiting = none ∨ ∃ i y, q.waiting = some i ∧ s.stillWaiting c i = some y ∧ s.eligible k .quiesce y = true

section
variable {k c : Nat} {s u : State} {q : Preemption} (hk : k < 192) (hc : clusterOf k = c)
  (hq : (s.cluster c).preempts.find? (fun y => y.core == k) = some q)
include hk hc hq

section
variable (hphase : (s.core k).phase = .quiesce) (hdma : (s.cluster c).dma.outstanding.any (fun t => t.core == k) = false)
  (hu : s.addSaveNs c (s.devTime - q.since) = u)
include hphase hdma hu

theorem execPreemptQuiesceDone_saves (hwanted : s.wantedBy c k q) : execPreemptQuiesceDone k s =
    .next ((u.updCore k (fun x => { x with phase := .saving, grid := x.grid.stopped })).updCluster c (fun y => { y with
      preempts := y.preempts.map (fun r => if r.core = k then { r with since := s.devTime } else r) })) := by
  refine (onCore_runs hk).trans ?_
  subst hc hu
  dsimp only
  rw [hq]
  dsimp only
  rw [if_neg (by simp [hphase, hdma])]
  refine if_pos ?_
  obtain h | ⟨i, y, h, hy, he⟩ := hwanted
  · rw [h]
  · rw [h]
    dsimp only
    rwa [hy]
/-- The item that waited has left its list, or the core may not serve it: the pre-emption is cancelled and the core runs on. -/
theorem execPreemptQuiesceDone_cancels (hwanted : ¬ s.wantedBy c k q) : execPreemptQuiesceDone k s =
    .next (((u.updCore k (fun x => { x with phase := .running })).moveTransfers c k k false).updCluster c (fun y => { y with
      preempts := y.preempts.filter (fun r => r.core != k), sched := { y.sched with cancelled := true } })) := by
  refine (onCore_runs hk).trans ?_
  subst hc hu
  dsimp only
  rw [hq]
  dsimp only
  rw [if_neg (by simp [hphase, hdma])]
  refine if_neg fun hgo => hwanted ?_
  cases h : q.waiting with
  | none => exact .inl h
  | some i =>
    rw [h] at hgo
    dsimp only at hgo
    cases hy : s.stillWaiting (clusterOf k) i with
    | none =>
      rw [hy] at hgo
      cases hgo
    | some y =>
      rw [hy] at hgo
      exact .inr ⟨i, y, h, hy, hgo⟩
end

/-! ### The end of the save (R444, R445) -/

/-- What a whole save of item `i` of core `k` keeps, where context `by_` waits for the core. -/
def State.savedItem (s : State) (k : Nat) (i : WorkItem) (by_ : Option Nat) : SavedItem :=
  let x := s.core k
  { item := { i with preempted := true, started := s.devTime }, priority := s.effPrio i, vec := x.vec, held := x.held
    winnowQueue := x.winnow.queue, grid := x.grid, dmaMarks := x.dmaMarks, restart := false, since := s.devTime, by_ := by_ }

/-- The item is saved whole: the core is free of it and takes the item that waited. -/
theorem execPreemptSaveDone_saves {i : WorkItem} {ns : Nat} {s0 s1 s2 s3 : State} (hitem : (s.core k).item = some i) (hphase : (s.core k).phase = .saving)
    (hns : s.devTime - q.since = ns)
    (hs0 : (match q.waiting.map (fun w => w.ctx) with
      | some w => ((s.addSaveNs c ns).chargeItem k).chargeCore w ns
      | none => (s.addSaveNs c ns).chargeItem k) = s0)
    (hs1 : s0.saveState k i = (s1, false)) (hs2 : s1.saveUnits k i = (s2, false)) (hs3 : s2.updCluster c (fun y => { y with
      preempts := y.preempts.filter (fun r => r.core != k), sched := { y.sched with fullCount := y.sched.fullCount + 1 } }) = s3) :
    execPreemptSaveDone k s = .next ((((s3.moveTransfers c k (k + 256) true).updCore k (fun y => { y with
      saved := some (s.savedItem k i (q.waiting.map (fun w => w.ctx))) })).leaveCore k i).takeWaiting k q) := by
  refine (onCore_runs hk).trans ?_
  subst hc hs3 hns
  dsimp only
  rw [hq, hitem]
  dsimp only
  rw [if_neg (not_not_intro hphase)]
  unfold State.savedItem
  generalize q.waiting.map (fun w => w.ctx) = by_ at hs0 ⊢
  cases by_ with
  | none =>
    dsimp only at hs0
    simp only [hs0, hs1, hs2, Bool.or_false, Bool.false_eq_true, false_and, if_false]
  | some w =>
    dsimp only at hs0
    simp only [hs0, hs1, hs2, Bool.or_false, Bool.false_eq_true, false_and, if_false]
end

/-! ### The end of the resume (R446), and the obligation -/

section
variable {k : Nat} {s s1 s2 : State} {v : SavedItem}

/-- The saved item is read back whole: the core runs it from where it stopped, with its transfers. -/
theorem execResumeDone_resumes (hk : k < 192) (hsaved : (s.core k).saved = some v) (hphase : (s.core k).phase = .resuming)
    (hkept : v.restart = false)
    (hs1 : (match v.by_ with
      | some w => ((s.addSaveNs (clusterOf k) (s.devTime - v.since)).chargeCore v.item.ctx (s.devTime - v.item.started)).chargeCore w
          (s.devTime - v.since)
      | none => (s.addSaveNs (clusterOf k) (s.devTime - v.since)).chargeCore v.item.ctx (s.devTime - v.item.started)) = s1)
    (hs2 : s1.restoreUnits k v.item = (s2, false)) (hread : s1.stateReadable k v.item = true) : execResumeDone k s =
    .next (((s2.updCore k (fun x => { x with saved := none, phase := .idle })).updCore k (fun x => { x with
      phase := .running, item := some { v.item with started := s.devTime }, vec := v.vec, held := v.held, dmaMarks := v.dmaMarks
      winnow := { x.winnow with queue := v.winnowQueue }
      grid := { x.grid with
        queue := v.grid.queue, active := v.grid.active, shadow := v.grid.shadow, banks := v.grid.banks
        discard := v.grid.discard } })).moveTransfers (clusterOf k) (k + 256) k false) := by
  refine (onCore_runs hk).trans ?_
  dsimp only
  rw [hsaved]
  dsimp only
  rw [if_neg (not_not_intro hphase)]
  generalize v.by_ = by_ at hs1 ⊢
  cases by_ with
  | none =>
    dsimp only at hs1
    simp only [hs1, hkept, hs2, hread, Bool.not_true, Bool.or_false, Bool.false_eq_true, if_false]
  | some w =>
    dsimp only at hs1
    simp only [hs1, hkept, hs2, hread, Bool.not_true, Bool.or_false, Bool.false_eq_true, if_false]
end

/-- Settles O42, stage by stage. A pre-emption is cancelled where the item that waited has left its list: the model's choice (log 46). -/
theorem fullPreEmptionRuns : Obligations.FullPreEmptionRuns := by
  intro p k s hp hk c x
  have hc : c < 24 := by
    show k / 8 < 24
    omega
  refine ⟨fun d hd => execPriorityUpdate_inherits hp hd rfl, onCluster_runs hc, ?_, ?_, ?_⟩
  · intro q hq hphase hdma u wanted
    exact ⟨execPreemptQuiesceDone_saves hk rfl hq hphase hdma rfl, execPreemptQuiesceDone_cancels hk rfl hq hphase hdma rfl⟩
  · intro q i s1 s2 hq hitem hphase by_ ns s0 hs1 hs2 s3 saved
    exact execPreemptSaveDone_saves hk rfl hq hitem hphase rfl rfl hs1 hs2 rfl
  · intro v s2 hsaved hphase hkept ns s0 s1 hs2 hread
    exact execResumeDone_resumes hk hsaved hphase hkept rfl hs2 hread

end Sys2Proof.Machine
end

section
/-!
PROOFS. The command front end and its queues (spec 15, 16; O33, O34): doorbells, fetch, dispatch and the commands NOP, SEMSET and RUN; the
end of a command's work, its completion record, the semaphore window, and the life of a queue.
-/

namespace Sys2Proof.Machine

/-! ### Doorbells (R407, R408) -/

/-- The queue with its tail and completion head moved to the values given, where those are ahead. -/
def QueueState.moved (x : QueueState) (tail head : Option Nat) : QueueState := { x with
  tail := match tail with
    | some t => if ahead t x.tail then t % 2 ^ 32 else x.tail
    | none => x.tail
  cqHead := match head with
    | some h => if ahead h x.cqHead then h % 2 ^ 32 else x.cqHead
    | none => x.cqHead }

/-- The owner of a queue that is open moves its tail and its completion head forward. -/
theorem execDoorbell_moves {f q p : Nat} {tail head : Option Nat} {s : State} (hf : f < 32) (hq : q < 1024) (hready : s.mgmt.ready = true)
    (hp : s.partOfQueue q = some p) (hmine : s.ownsPart f p = true)
    (hatt : (s.attOf f).isSome = true ∨ (List.range 32).any (fun a => (s.att a).state == 2 && (s.att a).fn == f) = false)
    (hopen : (s.queue q).state = 1)
    (hroom : tail.any (fun t => ahead t (s.queue q).head && decide (2 ^ (s.queue q).slotsLog2 < aheadBy t (s.queue q).head)) = false) :
    execDoorbell f q tail head s = .next (s.updQueue q (fun x => x.moved tail head)) := by
  have hdetached : ((s.attOf f).isNone && (List.range 32).any (fun a => (s.att a).state == 2 && (s.att a).fn == f)) = false := by
    obtain h | h := hatt
    · rw [Option.isNone_eq_false_iff.2 h, Bool.false_and]
    · rw [h, Bool.and_false]
  refine (onQueue_runs hq).trans ((onBar0_runs hf hready).trans ?_)
  dsimp only
  rw [hp]
  dsimp only
  rw [if_neg (by rw [hmine, hdetached]; decide), if_neg (by rw [hopen, hroom]; decide)]
  rfl

theorem execAdminDoorbell_eq {f tail : Nat} {s : State} (hf : f < 32) (hready : s.mgmt.ready = true) :
    execAdminDoorbell f tail s = .next (s.updFn f (fun h => { h with adminTail := BitVec.ofNat 32 tail })) :=
  onBar0_runs hf hready

/-! ### Fetch (R409 to R413) -/

section
variable {q i : Nat} {c : List Byte × List (List Byte)} {s : State}

theorem fetchHead_takes (hhead : s.headCommand q = (none, some c)) : s.fetchHead q = s.takeWork q c.1 c.2 := by
  rw [State.fetchHead, hhead]
/-- A slot whose seal is missing is waited for, and counted once. -/
theorem fetchHead_waits (hhead : s.headCommand q = (some i, none)) (hseal : (s.queue q).waitSeal ≠ some i) :
    s.fetchHead q = s.countEarly.updQueue q (fun x => { x with waitSeal := some i }) := by
  rw [State.fetchHead, hhead]
  exact if_neg hseal
theorem fetchHead_stays (hhead : s.headCommand q = (some i, none)) (hseal : (s.queue q).waitSeal = some i) : s.fetchHead q = s := by
  rw [State.fetchHead, hhead]
  exact if_pos hseal

variable (hq : q < 1024)
include hq

section
variable (hready : s.mgmt.ready = true) (hruns : s.fetchStops q = false)
include hready hruns

section
variable (hseal : (s.queue q).waitSeal = none)
include hseal

theorem execCommandFetch_eq : execCommandFetch q s = .next (if (s.headCommand q).2.isNone then s.fetchHead q
    else if s.fetchTurn (s.queue q).inst = some q then (s.fetchHead q).passTurn q else s) := by
  refine (if_neg (by omega)).trans ((onQueue_runs hq).trans (congrArg Host.Outcome.next (if_neg ?_)))
  rw [hruns, hseal]
  simp [State.served, hready]

theorem execCommandFetch_takes (hhead : s.headCommand q = (none, some c)) (hturn : s.fetchTurn (s.queue q).inst = some q) :
    execCommandFetch q s = .next ((s.takeWork q c.1 c.2).passTurn q) := by
  rw [execCommandFetch_eq hq hready hruns hseal, hhead, if_neg (by simp), if_pos hturn, fetchHead_takes hhead]
theorem execCommandFetch_keeps_of_not_turn (hhead : s.headCommand q = (none, some c)) (hturn : s.fetchTurn (s.queue q).inst ≠ some q) :
    execCommandFetch q s = .next s := by
  rw [execCommandFetch_eq hq hready hruns hseal, hhead, if_neg (by simp), if_neg hturn]
theorem execCommandFetch_waits (hhead : s.headCommand q = (some i, none)) :
    execCommandFetch q s = .next (s.countEarly.updQueue q (fun x => { x with waitSeal := some i })) := by
  rw [execCommandFetch_eq hq hready hruns hseal, fetchHead_waits hhead (by simp [hseal]), hhead]
  rfl
end
end

variable (hruns : s.fetchStops q = false) (hseal : (s.queue q).waitSeal.isSome = true)
include hruns hseal

theorem execSealRecheck_fetches : execSealRecheck q s = .next (s.fetchHead q) := by
  refine (onQueue_runs hq).trans (congrArg Host.Outcome.next (if_neg ?_))
  rw [hruns, Option.isNone_eq_false_iff.2 hseal]
  decide
theorem execSealRecheck_takes (hhead : s.headCommand q = (none, some c)) : execSealRecheck q s = .next (s.takeWork q c.1 c.2) := by
  rw [execSealRecheck_fetches hq hruns hseal, fetchHead_takes hhead]
end

/-! ### Dispatch (R414 to R417) -/

section
variable {q seq : Nat} {s : State} {c : Cmd} (hq : q < 1024)
include hq

/-- Command `c` of queue `q` goes to the phase given, its wait granted. -/
def State.grantCmd (s : State) (q : Nat) (c : Cmd) (ph : CmdPhase) : State :=
  (s.updQueue q (fun x => { x with waitEvent := false })).updCmd q c.seq (fun c => { c with granted := true, phase := ph })

section
variable {u : State} (hnext : (s.queue q).nextParsed = some c) (hopen : (s.queue q).state = 1) (horder : (s.queue q).holds c = false)
  (hgo : s.workWait q c = .go u)
include hnext hopen horder hgo

theorem execCommandDispatch_dispatches (hheld : ¬ (c.op = 0x01 ∧ u.runHeld q c = true)) : execCommandDispatch q s =
    .next { u.grantCmd q c .dispatched with gfe := { (u.grantCmd q c .dispatched).gfe with
      dispatched := (u.grantCmd q c .dispatched).gfe.dispatched + 1 } } := by
  refine (onQueue_runs hq).trans ?_
  dsimp only
  rw [hnext]
  dsimp only
  rw [if_neg (not_not_intro hopen), if_neg (by simp [horder]), hgo]
  dsimp only
  simp only [if_neg hheld]
  rfl
/-- A RUN whose clusters have no place for it, or have work before it, is granted and stays parsed. -/
theorem execCommandDispatch_holds (hheld : c.op = 0x01 ∧ u.runHeld q c = true) :
    execCommandDispatch q s = .next (u.grantCmd q c .parsed) := by
  refine (onQueue_runs hq).trans ?_
  dsimp only
  rw [hnext]
  dsimp only
  rw [if_neg (not_not_intro hopen), if_neg (by simp [horder]), hgo]
  dsimp only
  simp only [if_pos hheld]
  rfl
end

/-! ### NOP, SEMSET and RUN (R418, R419, R449) -/

theorem execCmdNop_finishes (hc : s.dispatched q seq 0x00 = some c) : execCmdNop q seq s = .next (s.finishCmd q seq 0) := by
  refine (onQueue_runs hq).trans ?_
  rw [hc]

theorem execSemSet_sets (hc : s.dispatched q seq 0x20 = some c) (hsem : c.field 0 2 < s.semCount (s.queue q).part) : execSemSet q seq s =
    .next (((s.updSem (s.semBase (s.queue q).part + c.field 0 2) (fun m => { m with
      value := c.field 2 8, holder := none, revoked := false })).grantSem (s.semBase (s.queue q).part + c.field 0 2)).finishCmd q seq 0) := by
  refine (onQueue_runs hq).trans ?_
  dsimp only
  rw [hc]
  exact if_neg (by omega)

/-- The class of the shares of a RUN: the one its work names, or its binding's. -/
def Cmd.runClass (c : Cmd) (b : QueueBinding) : Nat := if bitsOf (c.field 2 3) 10 7 = 15 then b.cls else bitsOf (c.field 2 3) 10 7

/-- Share `i` of RUN `c` of queue `q`, whose state is `x`, as it enters its cluster's list in state `s`. -/
def State.runShare (s : State) (q seq : Nat) (x : QueueState) (c : Cmd) (d : PartitionDesc) (b : QueueBinding) (pin : Option HeldPin) (cs : List Nat)
    (i : Nat) : WorkItem :=
  { kind := .share (shareRecord q i (c.field 2 3 % 128 + 1) (c.runClass b) ((pin.map (fun h => h.epoch)).getD 0) c), part := x.part
    ctx := x.context, relCtx := x.context - d.contexts.1, stage := b.stage, tag := tagOf q seq, rows := [], marks := 0, priority := b.priority
    cls := c.runClass b, entered := s.devTime, order := s.gfe.clock, started := 0, pins := []
    heldPin := pin.map (fun h => (h.table, h.epoch)), added := false, wrote := false, preempted := false, units := 0
    staged := 0, failedCores := [], homeCluster := cs.getD (i % cs.length) 0, forced := false }

/-- A RUN becomes its shares, listed in turn in the clusters of its stage. -/
theorem execRun_shares {d : PartitionDesc} {pl : Plan} {b : QueueBinding} {pin : Option HeldPin} {cs : List Nat}
    (hc : s.dispatched q seq 0x01 = some c) (hd : (s.part (s.queue q).part).desc = some d) (hpl : s.planOf (s.queue q).part = some pl)
    (hb : pl.bindingOf (q - d.queues.1) = some b) (hcs : s.stageClusters pl b.stage = cs)
    (hpin : s.pinOf (s.queue q).part (s.queue q).context (bitsOf (c.field 2 3) 21 11) = pin) (hsome : cs ≠ []) : execRun q seq s =
    .next ((List.range (c.field 2 3 % 128 + 1)).foldl (fun u i => ({ u with gfe := { u.gfe with clock := u.gfe.clock + 1 } }).enlist
        (cs.getD (i % cs.length) 0) (u.runShare q seq (s.queue q) c d b pin cs i))
      (s.updCmd q seq (fun y => { y with phase := .running, live := c.field 2 3 % 128 + 1 }))) := by
  subst hcs hpin
  refine (onQueue_runs hq).trans ?_
  dsimp only
  rw [hc]
  dsimp only
  rw [hd, hpl]
  dsimp only
  rw [hb]
  exact if_neg (by simpa using hsome)
end

/-- Settles O33, command by command. That the queues take turns in this order is the model's choice (log 75), as is that a RUN is held back
after its wait and that an unsealed slot counts once (log 38). -/
theorem frontEndFetchesAndDispatches : Obligations.FrontEndFetchesAndDispatches := by
  intro f q seq s hf hq hready x
  refine ⟨fun p tail head hp hmine hatt hopen hroom => execDoorbell_moves hf hq hready hp hmine hatt hopen hroom,
    fun tail => execAdminDoorbell_eq hf hready, ?_, ?_, ?_, ?_, ?_, ?_, ?_, ?_⟩
  · intro c hruns hseal hhead
    exact ⟨execCommandFetch_takes hq hready hruns hseal hhead, execCommandFetch_keeps_of_not_turn hq hready hruns hseal hhead⟩
  · intro i hruns hseal hhead
    exact execCommandFetch_waits hq hready hruns hseal hhead
  · intro c hruns hseal hhead
    exact execSealRecheck_takes hq hruns hseal hhead
  · intro i hruns hseal hhead
    exact (execSealRecheck_fetches hq hruns (Option.isSome_of_eq_some hseal)).trans (congrArg Host.Outcome.next (fetchHead_stays hhead hseal))
  · intro c u hnext hopen horder hgo v
    refine ⟨fun hgoes => execCommandDispatch_dispatches hq hnext hopen horder hgo ?_,
      fun hrun hheld => execCommandDispatch_holds hq hnext hopen horder hgo ⟨hrun, hheld⟩⟩
    rintro ⟨hrun, hheld⟩
    obtain h | h := hgoes
    · exact h hrun
    · exact Bool.false_ne_true (h.symm.trans hheld)
  · exact fun c => execCmdNop_finishes hq
  · exact fun c => execSemSet_sets hq
  · intro c d pl b pin hc hd hpl hb work shares cls cs hpin hsome share
    exact execRun_shares hq hc hd hpl hb rfl hpin hsome

/-! ### The end of a command's work, and its completion record (R413, R422, R423) -/

/-- The shares that end leave command `c` with their marks and code; without any live it finishes, unless it was stopped. -/
theorem execWorkEndNotice_counts {q tag marks code ended released : Nat} {s : State} {c : Cmd} (htag : s.cmdOfTag tag = some (q, c))
    (hphase : c.phase = .running) : execWorkEndNotice tag marks code ended released s =
    .next (if c.live + released - ended = 0 ∧ !c.stopped then (s.updCmd q c.seq (fun y => { y with
        live := c.live + released - ended, marks := y.marks ||| marks, code := max y.code code })).finishCmd q c.seq 0
      else s.updCmd q c.seq (fun y => { y with
        live := c.live + released - ended, marks := y.marks ||| marks, code := max y.code code })) := by
  unfold execWorkEndNotice
  rw [htag]
  exact if_neg (not_not_intro hphase)

/-- The completion mirror of queue `q` shows `seq`. -/
def State.mirrorSeq (s : State) (q seq : Nat) : State := { s with host := { s.host with cmirror := Tbl.set 0 s.host.cmirror q seq } }

theorem execCompletionRecordIssue_issues {q : Nat} {s : State} {c : Cmd} {rest : List Cmd} (hq : q < 1024) (hcmds : (s.queue q).cmds = c :: rest)
    (hopen : (s.queue q).state = 1) (hphase : c.phase = .complete)
    (hroom : ahead c.seq ((s.queue q).cqHead + 2 ^ (s.queue q).recordsLog2) = false) (hcheck : s.queueChecked q = false)
    (hcstop : s.cstop q = false) (hheld : (s.att (s.queue q).attachment).withheld.any (fun k => k.queue == some q) = false) :
    execCompletionRecordIssue q s = .next (((s.updQueue q (fun x => { x with cmds := rest })).mirrorSeq q c.seq).issueCompletion q
      (s.recordWrite q c.seq (statusWord c.code c.marks false) c.userTag (if c.flags.testBit 1 then some (s.queue q).vector else none))) := by
  refine (onQueue_runs hq).trans ?_
  dsimp only
  rw [hcmds]
  dsimp only
  rw [if_neg (by simp [hopen, hphase, QueueState.ringFull, hroom]), if_neg (by simp [hcheck]), if_neg (by rw [hcstop, hheld]; simp)]
  rfl

/-! ### The semaphore window (R428) -/

theorem execSemSelect_shows {f n : Nat} {s : State} (hf : f < 32) (hready : s.mgmt.ready = true) (hn : n < 65536)
    (howner : (List.range 8).any (fun p => s.ownsPart f p && decide (s.semBase p ≤ n) && decide (n < s.semBase p + s.semCount p)) = true) :
    execSemSelect f n s = .next { s with gfe := { s.gfe with
      semSelect := BitVec.ofNat 16 n
      semState := BitVec.ofNat 32 (((s.sem n).holder.getD 0) % 256 + 256 * (s.sem n).holder.isSome.toNat + 512 * (s.sem n).revoked.toNat +
        65536 * ((s.sem n).waiters.length % 2048))
      semValue := BitVec.ofNat 64 (s.sem n).value } } := by
  refine (onBar0_runs hf hready).trans ?_
  dsimp only
  rw [Nat.mod_eq_of_lt hn, if_pos howner]

/-! ### The life of a queue (R424 to R427, R430) -/

/-- What a queue's creation leaves there: the queue open over its ring. -/
def AdminCmd.newQueue (c : AdminCmd) (inst a p ctx : Nat) (ring : List Nat) : QueueState := { queueReset with
  state := 1, inst := inst, attachment := a, part := p, context := ctx, ring := ring
  ringOffset := c.field 4 8 % 65536, slotsLog2 := c.field 12 1, recordsLog2 := c.field 13 1, cq := fieldLE c.inline 0 8
  vector := c.field 14 2 }

section
variable {f q p : Nat} {c : AdminCmd} {u s : State} {d : PartitionDesc} (hq : c.field 0 2 = q) (hp : u.partOfQueue q = some p)
  (hd : (u.part p).desc = some d) (hmine : u.ownsPart f p = true)
include hq hp hd hmine

/-- A queue of the caller's partition that is closed opens over its ring, with its mirror and its seals clear. -/
theorem execQueueCreate_opens {a inst : Nat} {ring : List Nat} (hruns : s.runsAdmin f 0x83 c u)
    (hresult : u.adminResultOk f (c.field 16 8) 4 = true) (ha : u.attOf f = some a) (hclosed : (u.queue q).state = 0)
    (hhome : q = d.queues.1 ∨ (u.queue d.queues.1).state = 1) (hinst : c.field 2 1 ≤ 2) (hctx : c.field 3 1 < d.contexts.2)
    (hslots : 6 ≤ c.field 12 1 ∧ c.field 12 1 ≤ 16) (hrecords : 4 ≤ c.field 13 1 ∧ c.field 13 1 ≤ 16) (hvector : c.field 14 2 < 2048)
    (hcqAtt : outAtt (fieldLE c.inline 0 8) = a) (hcq : u.adminResultOk f (fieldLE c.inline 0 8) (16 * 2 ^ c.field 13 1) = true)
    (hi : (if q = d.queues.1 then (u.part p).home else if c.field 2 1 = 2 then fnInst f else c.field 2 1) = inst)
    (hring : u.ringPieces inst (d.contexts.1 + c.field 3 1) (c.field 4 8) (2 ^ c.field 12 1) = some ring) : execQueueCreate f s =
    .next ((((u.updQueue q (fun _ => c.newQueue inst a p (d.contexts.1 + c.field 3 1) ring)).mirrorSeq q 0).clearSeals q).answerAdmin f
      (c.field 16 8) (natLE 4 outDone)) := by
  refine (onAdmin_runs hruns hresult).trans (congrArg Host.Outcome.next ?_)
  subst hi
  dsimp only
  rw [hq, hp, ha]
  dsimp only
  rw [hd]
  dsimp only
  rw [if_neg (by simp [hmine]), if_neg (not_not_intro hclosed), if_neg (by tauto), if_neg (by simp [hcqAtt, hcq]; omega), hring]
  rfl

/-- Queue `q` is closing for function `f`: its commands stop, those that had not begun being complete. -/
def QueueState.closing (x : QueueState) (f : Nat) : QueueState := { x with
  state := 2, destroyer := some f, waitSeal := none, waitEvent := false
  cmds := x.cmds.map (fun c => { c with
    stopped := true, code := if c.stopped then c.code else codeAborted
    phase := if c.phase = CmdPhase.parsed then .complete else c.phase }) }
/-- Queue `q` waits on no semaphore. -/
def State.dropWaiter (s : State) (q : Nat) : State := { s with gfe := { s.gfe with
  sems := Tbl.mapWhere semReset s.gfe.sems (fun _ (m : Semaphore) => m.waiters.contains q) (fun m => { m with
    waiters := m.waiters.filter (fun y => y != q) }) } }
/-- Queue `q` of partition `p` closes for function `f`, its work aborted. -/
def State.closeQueue (s : State) (f p q : Nat) : State :=
  let w := ((s.updQueue q (fun x => x.closing f)).dropWaiter q).dropPins p (fun h => h.queue == q)
  w.sendAll (w.queueAborts q)

/-- A queue of the caller's partition that is open closes; the home queue only as the last of its partition. -/
theorem execQueueDestroy_closes (hruns : s.runsAdmin f 0x84 c u) (hresult : u.adminResultOk f (c.field 2 8) 4 = true)
    (hopen : (u.queue q).state = 1)
    (hlast : q ≠ d.queues.1 ∨ u.gfe.queues.any (fun e => e.1 != q && e.2.part == p && e.2.state != 0) = false) :
    execQueueDestroy f s = .next ((u.closeQueue f p q).beginAdmin f) := by
  have hnotlast : ¬ (q = d.queues.1 ∧ u.gfe.queues.any (fun e => e.1 != q && e.2.part == p && e.2.state != 0) = true) := by
    rintro ⟨hhome, hothers⟩
    obtain h | h := hlast
    · exact h hhome
    · exact Bool.false_ne_true (h.symm.trans hothers)
  refine (onAdmin_runs hruns hresult).trans (congrArg Host.Outcome.next ?_)
  dsimp only
  rw [hq, hp]
  dsimp only
  rw [hd]
  dsimp only
  rw [if_neg (by simp [hmine, hopen]), if_neg (by omega), if_neg hnotlast]
  rfl
end

section
variable {q : Nat} {s : State} (hq : q < 1024) (hclosing : (s.queue q).state = 2) (hidle : s.queueBusy q = false)
  (hnone : (s.queue q).cmds = [])
include hq hclosing hidle hnone

/-- Queue `q` has written its last record, and is reset. -/
def State.resetQueue (s : State) (q : Nat) : State :=
  let v := (s.issueCompletion q (s.recordWrite q (s.queue q).nextSeq (statusWord codeAborted 0 true) (2 ^ 32 - 1) none)).mirrorSeq q
    (s.queue q).nextSeq
  { v with gfe := { v.gfe with queues := Tbl.set queueReset v.gfe.queues q queueReset } }

theorem execQueueDestroyFinal_resets (hfree : (s.queue q).destroyer = none) : execQueueDestroyFinal q s = .next (s.resetQueue q) := by
  refine (onQueue_runs hq).trans ?_
  dsimp only
  rw [if_neg (by simp [hclosing, hidle]), hnone, hfree]
  rfl
theorem execQueueDestroyFinal_answers {n : Nat} {c : AdminCmd} (hby : (s.queue q).destroyer = some n) (hc : (s.resetQueue q).admin n = some c) :
    execQueueDestroyFinal q s = .next ((s.resetQueue q).answerAdmin n (c.field 2 8) (natLE 4 outDone)) := by
  refine (onQueue_runs hq).trans ?_
  dsimp only
  rw [if_neg (by simp [hclosing, hidle]), hnone, hby]
  show (match (s.resetQueue q).admin n with
    | some c => Host.Outcome.next ((s.resetQueue q).answerAdmin n (c.field 2 8) (natLE 4 outDone))
    | none => Host.Outcome.next (s.resetQueue q)) = _
  rw [hc]
end

/-- Settles O34, command by command. A FINAL record is issued whatever room its ring has: the model's choice (log 38). -/
theorem queuesCompleteAndClose : Obligations.QueuesCompleteAndClose := by
  intro f q s hf hq x
  refine ⟨?_, ?_, ?_, ?_, ?_, ?_⟩
  · intro tag marks code ended released c htag hphase live u
    exact execWorkEndNotice_counts htag hphase
  · intro c rest hcmds hopen hphase hroom hcheck hcstop hheld w u
    exact execCompletionRecordIssue_issues hq hcmds hopen hphase hroom hcheck hcstop hheld
  · intro n hready hn howner m
    exact execSemSelect_shows hf hready hn howner
  · intro c u p a d ring hruns hcq hresult hp ha hd hmine hclosed hhome hi hctx hs6 hs16 hr4 hr16 hvector hatt hrecords inst hring v
    exact execQueueCreate_opens hcq hp hd hmine hruns hresult ha hclosed hhome hi hctx ⟨hs6, hs16⟩ ⟨hr4, hr16⟩ hvector hatt hrecords rfl hring
  · intro c u p d hruns hcq hresult hp hd hmine hopen hlast v sems w
    exact execQueueDestroy_closes hcq hp hd hmine hruns hresult hopen hlast
  · intro hclosing hidle hnone u v z
    exact ⟨execQueueDestroyFinal_resets hq hclosing hidle hnone, fun n c => execQueueDestroyFinal_answers hq hclosing hidle hnone⟩

end Sys2Proof.Machine
end
